-- ==== Sys2Proof/Word.lean ====
section
/-! DEFINITION. Words, identifiers and the messages that reach the DRX-9064 from outside. -/

namespace Sys2Proof

abbrev Byte := BitVec 8
abbrev Word16 := BitVec 16
abbrev Word32 := BitVec 32
abbrev Word64 := BitVec 64

/-- Site S00–S63 (R24). -/
abbrev SiteId := Fin 64
/-- Pin channel CH00–CH63. -/
abbrev PinId := Fin 64
/-- Hardware context 8 × e + c (R64). -/
abbrev CtxId := Fin 128
/-- Trigger unit TU0–TU15 (R221). -/
abbrev UnitId := Fin 16
/-- Memory channel A or B (R264). -/
abbrev ChanId := Fin 2
/-- Ring port, 0 RING_A and 1 RING_B (R317). -/
abbrev PortId := Fin 2
/-- Measurement definition (R249). -/
abbrev DefId := Fin 4096

/-- A sparse map: strictly rising keys, no entry equal to what an unlisted key reads as. -/
abbrev Table (α : Type) := List (Nat × α)

/-- A (72,64) codeword with its on-die POISON mark (R22, R23, R505). -/
structure Codeword where
  data : Word64 := 0
  check : Byte := 0
  poison : Bool := false
  deriving DecidableEq, Repr, Inhabited

/-- A Rosec request's header fields that rules use (R347): the sender's SA and station, TID and LEVEL, and the
port it came in by; how many requests wait ahead of it on arrival (R349); and whether its header breaks R347 or names a
reserved service (R348). Of the ring frame that carries it (R320-R324): DST, HOPS, SEQ, DUAL, whether it is good, whether it overflows X5, and
whether the other port has room for its copy; `payload` is the message as the frame carries it, which a copy sent on repeats. `offset` is the
OFFSET of a SEGMENT with ABORT set. -/
structure Req where
  sa : Nat
  src : Nat
  tid : Nat
  level : Nat
  port : Nat := 0
  ahead : Nat := 0
  badHeader : Bool := false
  dst : Nat := 1
  hops : Nat := 254
  seq : Nat := 0
  dual : Bool := false
  good : Bool := true
  overflow : Bool := false
  room : Bool := true
  payload : List Byte := []
  offset : Nat := 0
  deriving DecidableEq, Repr, Inhabited

/-- A word that arrives on the Convoy (R304), with a slip of X7 before it or none (R143). `beat` is the beat of the open frame in which its
start arrives (R312); `fails` says that the ALIGN exchange it belongs to fails further on in the chain (R312), which the engine cannot see
from the word. -/
structure ConvoyIn where
  word : BitVec 128
  slip : Bool := false
  beat : Nat := 0
  fails : Bool := false
  deriving DecidableEq, Repr

/-- A WIDTH control block of Stagelink (R299): the failed lanes of a direction, and the width that its receiver has chosen for it. -/
structure WidthBlock where
  failed : Word16
  width : Nat
  deriving DecidableEq, Repr

/-- Where a received bit lies: the beat of the open frame of its sampling instant, and its end in tu from the start of that beat (R175). -/
structure BitSpan where
  beat : Nat
  ends : Nat := 0
  deriving DecidableEq, Repr

/-- A host Stagelink packet (R293): link SEQ, TAG, ADDRESS, payload lines; `count` is LINES for a read request. Its header's reserved bits and the
trailer's POISON_LINES, which are reserved in it; the CRC that it carries, where that is not the one of its bits; and the lanes on which a block
error was seen while it came, once for each (R290). -/
structure Packet where
  seq : Nat
  tag : Word32 := 0
  addr : Nat := 0
  count : Nat := 0
  lines : List (List Codeword) := []
  reserved : Nat := 0
  poisonLines : Nat := 0
  crc : Option Nat := none
  blockErrors : List Nat := []
  deriving DecidableEq, Repr, Inhabited

/-- A ring frame (R320). The EtherType and the FCS result are what the receiving port saw; `overflow`: crossing X5 overflowed outside an
idle while it came (R143); `about`: the PORT byte of a NOTICE (R321); `room`: the other port's egress, as far as the model does not hold it, has
room for its copy (R324). The payload stands in it only where the frame's own row does not spell it. -/
structure RingFrame where
  etherType : Nat := 0x88B5
  good : Bool := true
  overflow : Bool := false
  type : Nat := 1
  sa : Nat := 0
  src : Nat := 0
  dst : Nat := 0
  hops : Nat := 254
  dual : Bool := false
  seq : Nat := 0
  version : Nat := 1
  length : Nat := 0
  about : Nat := 0
  room : Bool := true
  payload : List Byte := []
  deriving DecidableEq, Repr, Inhabited

/-- A SUPERVISION payload (R328). -/
structure SupMsg where
  uid : Nat
  station : Nat := 0
  port : Nat := 0
  lo : Nat := 3
  hi : Nat := 5
  ringState : Nat := 0
  caps : Nat := 0
  rateDown : Bool := false
  rateDownAck : Bool := false
  rateUp : Bool := false
  rateUpAck : Bool := false
  deriving DecidableEq, Repr, Inhabited

/-- One station record of a WALK (R336). -/
structure WalkRec where
  uid : Nat
  station : Nat
  part : Nat := 1
  grade : Nat := 1
  range : Nat := 0x35
  state : Nat := 3
  flags : Nat := 0
  deriving DecidableEq, Repr, Inhabited

/-- A WALK payload (R335). -/
structure WalkMsg where
  id : Nat
  next : Nat
  renumber : Bool := false
  records : List WalkRec := []
  deriving DecidableEq, Repr, Inhabited

/-- A PTP message (R370) with the local timestamps that the ports took, all times in units of 2^-16 ns. `egress` is when the
forwarded copy or the answer leaves, `delivered` says that its correction was complete before its field left (R372). -/
structure PtpMsg where
  domain : Nat := 0
  clock : Nat := 0
  portNo : Nat := 1
  seqId : Nat := 0
  twoStep : Bool := false
  origin : Int := 0
  correction : Int := 0
  ingress : Int := 0
  egress : Int := 0
  delivered : Bool := true
  reqClock : Nat := 0
  reqPort : Nat := 0
  gmPrio1 : Nat := 128
  gmClass : Nat := 248
  gmQuality : Nat := 0
  gmPrio2 : Nat := 128
  gmIdentity : Nat := 0
  stepsRemoved : Nat := 0
  logInterval : Int := 0
  deriving DecidableEq, Repr, Inhabited

/-- What the DUT shows at one strobe: V(RXP) in µV at the sampling instants of the VTH and the VTL comparator (R193), and V(RXN) at the same
instants, which a single-ended input does not see (R188). -/
structure StrobeInput where
  pin : Nat
  strobe : Nat
  vth : Int
  vtl : Int
  nth : Int := 0
  ntl : Int := 0
  deriving DecidableEq, Repr, Inhabited

/-- A coefficient or measurement record of host-assisted calibration (R404). -/
structure CalRec where
  domain : Nat
  unitNo : Nat
  quantity : Nat
  run : Nat
  retry : Nat
  reserved : Nat := 0
  value : Int
  deriving DecidableEq, Repr, Inhabited

/-- Bits [hi:lo] of a word, as a number. -/
def bits {w : Nat} (x : BitVec w) (hi lo : Nat) : Nat := (x.toNat / 2 ^ lo) % 2 ^ (hi + 1 - lo)

/-- Bit i of a word. -/
def bit {w : Nat} (x : BitVec w) (i : Nat) : Bool := x.getLsbD i

end Sys2Proof
end

