-- ==== Sys2Proof/Config.lean ====
section
/-! DEFINITION. What an implementation fixes or the spec leaves open: constants without a body. -/

namespace Sys2Proof.Config

/-- The stream of free values: the n-th value that the spec leaves open, taken at counter n of the state. (log 5, DESIGN CHOICE) -/
opaque freeValue : Nat → Nat

/-- What word k of table space 3, THREAD, holds of a site's itinerary state (R76): an item of `Thread.item`, the layout being the vendor's own. (log 44, DESIGN CHOICE) -/
opaque threadItem : Nat → Nat

/-- What word k of THREAD of a site reads before it is stored, where it holds none of the items that the model names (R76). (log 44, DESIGN CHOICE) -/
opaque threadWord : Nat → Nat → Nat

/-- The LINK of the last entry of a ready list or Caravan chain (R101). (log 125, DESIGN CHOICE) -/
opaque endLink : Nat

/-- The line seal of R434: 32 bits of a GMAC under keys that never leave the die (R420). Arguments: BOOT_NONCE, the
byte address, the seal epoch, the metadata and the eight codewords. (log 6, DESIGN CHOICE) -/
opaque lineSeal : BitVec 128 → Nat → Nat → BitVec 32 → List Codeword → BitVec 32

/-- The identity public key Q of a die, 97 bytes (R421). -/
opaque publicKey : Nat → List Byte

/-- The ECDSA P-384 signature of a digest with the die's key and one nonce pair (R431): 96 bytes. -/
opaque ecdsaSign : Nat → Nat → List Byte → List Byte

/-- Whether the boot key in ROM accepts the signature over header bytes 0–63 (R89). -/
opaque bootKeyAccepts : List Byte → List Byte → Bool

/-- AES-256-GCM of the blob body under K_BLOB of the die: UID, nonce, additional data and plain body give body and
tag (R407). -/
opaque blobSeal : Nat → BitVec 96 → List Byte → List Byte → List Byte

/-- What the blob key reads back from additional data, body and tag: the plain body, or nothing where the tag fails
(R408). -/
opaque blobOpen : Nat → BitVec 96 → List Byte → List Byte → Option (List Byte)

/-- Gelurno's manufacturer code of IDCODE, stated only in the stepping's BSDL file (R504). -/
opaque manufacturer : BitVec 11

/-- The longest ALERT_N latency, in frames, by the data rate (R281). -/
opaque alertLatency : Nat → Nat

/-- The opaque remainder of a training blob (R283), by the training and the channel. -/
opaque trainingRemainder : Nat → Nat → List Byte

/-- Whether a DUT-referred value that lies halfway between two numbers of µV is rounded up, R200 naming no rule for it. (log 91, DESIGN CHOICE) -/
opaque dutTieUp : Int → Bool

/-- The rate word a proportional-integral step of the servo sets, its gains and its memory being unstated (R375): at a count of free
values, from the rate in force and the offset. (log 103, DESIGN CHOICE) -/
opaque servoRate : Nat → Int → Int → Int

end Sys2Proof.Config
end

