-- ==== Sys2Proof/Syntax.lean ====
section
/-! DEFINITION. The commands: one constructor per row of the table of operations and events. -/

namespace Sys2Proof

/-- A step of the block, in the table's order. A host write with a row of its own carries its Rosec request `r`; an
itinerary instruction carries the site and the 64-bit word its thread fetched (R39); a microword carries the context
and its bits [25:0] (R70), NOP its whole word; a physical event carries what the outside shows. -/
inductive Instr where
  -- frame and clocks
  | frameTick
  | startTakesEffect (s : SiteId)
  | refclkLost (outside : Bool)
  | longHoldover
  | refclkRelocked
  | hostDeadline (lane : Bool)
  -- site commands
  | load (r : Req) (s : SiteId)
  | arm (r : Req) (s : SiteId)
  | start (r : Req) (s : SiteId)
  | haltCommand (r : Req) (s : SiteId)
  | reset (r : Req) (s : SiteId)
  | release (r : Req) (s : SiteId)
  | sealHalted (r : Req) (s : SiteId)
  | disarm (r : Req) (s : SiteId)
  -- itinerary instructions
  | vec (s : SiteId) (w : Word64)
  | rpt (s : SiteId) (w : Word64)
  | loop (s : SiteId) (w : Word64)
  | endl (s : SiteId) (w : Word64)
  | call (s : SiteId) (w : Word64)
  | ret (s : SiteId) (w : Word64)
  | jmp (s : SiteId) (w : Word64)
  | jfail (s : SiteId) (w : Word64)
  | jevt (s : SiteId) (w : Word64)
  | matchI (s : SiteId) (w : Word64)
  | waitHold (s : SiteId) (w : Word64)
  | waitTime (s : SiteId) (w : Word64)
  | tset (s : SiteId) (w : Word64)
  | period (s : SiteId) (w : Word64)
  | capStop (s : SiteId) (w : Word64)
  | capStart (s : SiteId) (w : Word64)
  | capPause (s : SiteId) (w : Word64)
  | capResume (s : SiteId) (w : Word64)
  | capCommit (s : SiteId) (w : Word64)
  | meas (s : SiteId) (w : Word64)
  | trigArm (s : SiteId) (w : Word64)
  | trigFire (s : SiteId) (w : Word64)
  | trigDisarm (s : SiteId) (w : Word64)
  | sync (s : SiteId) (w : Word64)
  | event (s : SiteId) (w : Word64)
  | serialEnter (s : SiteId) (w : Word64)
  | serialLeave (s : SiteId) (w : Word64)
  | sealI (s : SiteId) (w : Word64)
  | halt (s : SiteId) (w : Word64)
  | yield (s : SiteId) (w : Word64)
  | cust (s : SiteId) (w : Word64)
  -- drain points and the end of a site
  | drainDecision (s : SiteId)
  | matched (s : SiteId)
  | matchTimeout (s : SiteId)
  | syncPost (s : SiteId)
  | syncAgreement (s : SiteId)
  | syncTimeout (s : SiteId)
  | resumeTick (s : SiteId)
  | verdictRecord (s : SiteId)
  | playoutEnd (s : SiteId)
  -- microwords
  | nop (c : CtxId) (w : Word32)
  | mov (c : CtxId) (f : BitVec 26)
  | movh (c : CtxId) (f : BitVec 26)
  | add (c : CtxId) (f : BitVec 26)
  | sub (c : CtxId) (f : BitVec 26)
  | and (c : CtxId) (f : BitVec 26)
  | or (c : CtxId) (f : BitVec 26)
  | xor (c : CtxId) (f : BitVec 26)
  | shf (c : CtxId) (f : BitVec 26)
  | cmp (c : CtxId) (f : BitVec 26)
  | crc (c : CtxId) (f : BitVec 26)
  | br (c : CtxId) (f : BitVec 26)
  | callu (c : CtxId) (f : BitVec 26)
  | retu (c : CtxId) (f : BitVec 26)
  | fetch (c : CtxId) (f : BitVec 26)
  | fetchData (c : CtxId) (flips : List (BitVec 640))
  | ldt (c : CtxId) (f : BitVec 26)
  | stt (c : CtxId) (f : BitVec 26)
  | emitStream (c : CtxId) (f : BitVec 26)
  | emitRepeat (c : CtxId) (f : BitVec 26)
  | emitLiteral (c : CtxId) (f : BitVec 26)
  | emitHold (c : CtxId) (f : BitVec 26)
  | emitPeriod (c : CtxId) (f : BitVec 26)
  | emitTset (c : CtxId) (f : BitVec 26)
  | waitc (c : CtxId) (f : BitVec 26)
  | waitcWake (c : CtxId)
  | waitcTimeout (c : CtxId)
  | evt (c : CtxId) (f : BitVec 26)
  | capcStop (c : CtxId) (f : BitVec 26)
  | capcStart (c : CtxId) (f : BitVec 26)
  | capcPause (c : CtxId) (f : BitVec 26)
  | capcResume (c : CtxId) (f : BitVec 26)
  | capcCommit (c : CtxId) (f : BitVec 26)
  | capcMark (c : CtxId) (f : BitVec 26)
  | post (c : CtxId) (f : BitVec 26)
  | endI (c : CtxId) (f : BitVec 26)
  | watchdog (c : CtxId)
  | savingDone (c : CtxId)
  | csRestart (c : CtxId) (selfTest : Bool)
  -- control store and customer half
  | header (r : Req) (bytes : List Byte)
  | custOpen (r : Req)
  | custClose (r : Req)
  | custCloseDone
  | custClear (r : Req)
  -- Innkeeper
  | dispatch
  | caravanRelease (cv : Fin 256)
  | caravanStall (cv : Fin 256)
  -- vector path
  | descriptorTake (s : SiteId)
  | lineReadIssue
  | lineReadReturn (i : Nat) (flips : List (BitVec 640))
  | vectorStart (s : SiteId) (inputs : List StrobeInput)
  | starveResume (s : SiteId)
  | tsetWrite (p : Packet)
  -- serial mode
  | serialSessionStart (n : PinId)
  | serialSessionEnd (n : PinId)
  | serialLock (n : PinId)
  | serialLockLost (n : PinId) (beat : Nat)
  | serialLockTimeout (n : PinId)
  | cdrSlip (n : PinId) (beat : Nat)
  | serialUnderrun (n : PinId)
  -- comparators and monitors
  | comparatorEdge (n : PinId) (vtl : Bool) (above : Bool) (beat : Nat) (tap : Nat)
  | monEnable (r : Req) (n : PinId)
  | monStateChange (n : PinId) (st : Nat) (beat : Nat)
  | monForced (n : PinId)
  | supplyMonChange (m : Fin 9) (st : Nat)
  | supplyMonForced (m : Fin 9)
  -- triggers and acquisition
  | tuArm (r : Req) (u : UnitId)
  | tuFire (r : Req) (u : UnitId)
  | tuDisarm (r : Req) (u : UnitId)
  | holdoffEnd (s : SiteId)
  | autoTrigger (s : SiteId)
  | hostTrigger (r : Req) (s : SiteId) (n : Nat)
  | recordExported (n : Nat)
  -- measurements
  | gateOpen (d : DefId) (t : Nat)
  | gateClose (d : DefId) (t : Nat)
  | vernierDone (v : Fin 4)
  -- vector memory
  | dramAlert (ch : ChanId) (crc : Bool)
  | replayDone (ch : ChanId)
  | retrainDone (ch : ChanId)
  | retrainTimeout (ch : ChanId)
  | escalateWindowEnd (ch : ChanId)
  | refreshDue (sc : Fin 4) (rank : Fin 4) (held : Bool)
  | mr4Read (hot : List Bool)
  | powerDown (sc : Fin 4) (rank : Fin 4)
  | training (r : Req) (ch : ChanId) (bytes : List Byte)
  -- Stagelink
  | memWrite (p : Packet)
  | memReadReq (p : Packet) (flips : List (List (BitVec 640)))
  | csWrite (p : Packet)
  | slAck (seq : Nat)
  | slNak (seq : Nat)
  | slAckTimeout
  | slBringupDone (lo hi : Nat)
  | laneFail (lane : Fin 17) (cause : Nat)
  | slDegradeDone
  | slHoldIn (level : Bool)
  | restore (r : Req) (v : Nat)
  | widthChoice (r : Req) (w : Nat)
  -- Convoy
  | convoyWord (w : ConvoyIn)
  | align (r : Req)
  -- ring
  | supervision (p : PortId) (f : RingFrame) (m : SupMsg)
  | supervisionSend (p : PortId)
  | linkLost (p : PortId)
  | closeTimer (p : PortId)
  | rateChangeTimeout (p : PortId)
  | walk (p : PortId) (f : RingFrame) (m : WalkMsg)
  | noticeBreak (p : PortId) (f : RingFrame) (reporter : Nat)
  | noticeClose (p : PortId) (f : RingFrame) (reporter : Nat)
  | assign (p : PortId) (f : RingFrame) (uid : Nat) (number : Nat)
  | ringFrameForward (p : PortId) (f : RingFrame) (room : Bool)
  -- Rosec
  | read (r : Req) (index sub : Nat)
  | write (r : Req) (index sub : Nat) (bytes : List Byte)
  | segment (r : Req) (index sub offset total : Nat) (last : Bool) (bytes : List Byte)
  | segmentUpload (r : Req) (index sub offset length : Nat)
  | abort (r : Req) (index sub : Nat) (upload : Bool)
  | segmentAbandon (index sub : Nat)
  | uploadRelease (index sub : Nat)
  | subscribe (r : Req) (index sub period : Nat)
  | unsubscribe (r : Req) (index sub : Nat)
  | publication (i : Nat)
  | notifyConfirm (src : Nat) (tid : Nat)
  | notifyRetry (tid : Nat)
  | negotiate (r : Req) (bytes : List Byte)
  | discover (r : Req)
  | coldStart (r : Req)
  | warmStart (r : Req)
  | sleep (r : Req)
  | wake (r : Req)
  -- network time
  | ptpSync (p : PortId) (m : PtpMsg)
  | followUp (p : PortId) (m : PtpMsg)
  | delayReq (p : PortId) (m : PtpMsg)
  | delayResp (p : PortId) (m : PtpMsg)
  | pdelayReq (p : PortId) (m : PtpMsg)
  | pdelayResp (p : PortId) (m : PtpMsg)
  | pdelayRespFollowUp (p : PortId) (m : PtpMsg)
  | announce (p : PortId) (m : PtpMsg)
  | ptpSyncSend
  | announceSend
  | pdelayReqSend (p : PortId) (egress : Int)
  | delayReqSend (egress : Int)
  | announceReceiptTimeout
  | ptpSyncTimeout
  | holdoverLimit
  | pdelayFail (p : PortId)
  | hostLockTimeout
  | slewEnd
  | stepApply
  | offsetAdj (r : Req) (d : Int)
  | rateSet (r : Req) (v : Int)
  | timeSet (r : Req) (t : Nat)
  | timeTrigger (i : Fin 8)
  | ppsPulse
  | evtEdge (i : Fin 8) (rising : Bool) (beat : Nat)
  -- calibration and ageing
  | calStart (r : Req)
  | calCancel (r : Req)
  | calStepDone (first second : List Int)
  | calDomainCommit
  | driftMeasurement (n : PinId) (first second : List Int)
  | blobExport (r : Req)
  | blobImport (r : Req) (bytes : List Byte)
  | coeffs (r : Req) (records : List CalRec)
  | calHostTimeout
  | ageingRead (slowdown : List Int)
  | tempRead (sensors : List Int)
  -- Passport
  | verdictHandover
  | batchClose
  | batchSign
  | verdictResend
  | ackBatch (r : Req) (seq : Nat)
  | drbgReseed (ok : Bool)
  | windowOpen (r : Req) (w : Fin 32)
  | windowFree (r : Req) (w : Fin 32)
  | windowAbandon (r : Req) (w : Fin 32)
  | advance (r : Req)
  | interruptedSeal
  -- faults, events and the Guestbook
  | faultDecision
  | faultRecovered (resource : Nat) (us : Nat)
  | decision (r : Req) (level : Nat)
  | queuedFaultTimeout
  | supplyFaultTimeout (m : Fin 9)
  | raise (r : Req) (source : Nat)
  | tail (r : Req) (seq : Nat)
  -- starting, sleeping and losing power
  | resetN (low : Bool) (powerUp : Bool)
  | warmN (low : Bool)
  | pwrWarnN
  | powerWarningCleared
  | coldStartStepDone (ok : Bool) (seed : Nat)
  | warmStartStepDone (ok : Bool)
  | safeHaltEntry
  | sleepDrainDone
  | sleepAbandoned
  | wakeStepDone (ok : Bool)
  -- test access
  | bypass
  | idcode
  | samplePreload (cells : List Bool)
  | extest
  | highz
  | clamp
  | extestPulse
  | extestTrain
  -- further events
  | refclkPresent
  | powerLoss
  | pcsSynchronised (p : PortId)
  | packetCrcError
  | reservedPacket (type : Byte) (p : Packet)
  | widthControlBlock (block : WidthBlock)
  | serialBitReceived (n : PinId) (value : Bool) (beat : BitSpan)
  | wordSlot (n : PinId)
  | thermNChange (asserted : Bool)
  deriving DecidableEq, Repr

end Sys2Proof
end

