-- ==== Sys2Proof/Machine/Dictionary.lean ====
section
/-! DEFINITION. The object dictionary (R342-R345, R366): every sub's type, access right, default, range, reserved codes
and write condition, as the tables of the spec give them. -/

namespace Sys2Proof.Machine

/-- Types of R343. -/
inductive Ty where
  | bool | u8 | u16 | u32 | u64 | i8 | i16 | i32 | i64 | r32 | time80 | tu64
  | oct (len : Nat) | vis (limit : Nat) | dom (limit : Nat)
  deriving DecidableEq, Repr

/-- Access rights of R344. -/
inductive Acc where
  | ro | rw | rws | wo | rc
  deriving DecidableEq, Repr

/-- Write conditions of the governing rules, evaluated in HostWrite.lean. -/
inductive Cond where
  | always | idle | idleOrTraining | pinIdle | notReady | siteFree | siteFreeLoaded | step5 | noBusySite
  | caravanFree | ringIdle | unitDisarmed | defIdle | hostServo | captureOff | idleAllFree | laneFree | blob
  | hostCal | windowFree | convoyHead | epochRoom | timeHost
  deriving DecidableEq, Repr

/-- One sub of an object: subs `n` to `max n last`. `top` is the highest code that is not reserved, `reserved` a mask of
reserved bits (R8). -/
structure SubRow where
  n : Nat
  last : Nat := 0
  ty : Ty
  acc : Acc
  dflt : Int := 0
  range : Option (Int × Int) := none
  top : Option Nat := none
  reserved : Nat := 0
  cond : Cond := .always
  deriving DecidableEq, Repr

/-- A family of objects: `base + stride * i` for i below `count`. -/
structure ObjRow where
  base : Nat
  count : Nat := 1
  stride : Nat := 1
  subs : List SubRow
  deriving DecidableEq, Repr

/-- Device objects of the index map (R366). -/
def deviceObjects : List ObjRow := [
  -- Identity (R4).
  { base := 0x1000, subs := [
      { n := 1, ty := (.vis 64), acc := .ro },  -- VENDOR
      { n := 2, ty := (.vis 64), acc := .ro },  -- PART
      { n := 3, ty := .u8, acc := .ro, dflt := 1 },  -- GRADE
      { n := 4, ty := .u16, acc := .ro, dflt := 256 },  -- SILICON_STEP
      { n := 5, ty := .u8, acc := .ro, dflt := 3 },  -- PROFILE_MIN
      { n := 6, ty := .u8, acc := .ro, dflt := 5 } ]},  -- PROFILE_MAX
  -- Silicon identity (R338).
  { base := 0x1001, subs := [
      { n := 1, ty := .u64, acc := .ro } ]},  -- SILICON_UID
  -- Station (R339).
  { base := 0x1010, subs := [
      { n := 1, ty := .u8, acc := .ro },  -- STATION
      { n := 2, ty := .u8, acc := .ro },  -- RING_STATE
      { n := 3, ty := .u8, acc := .ro },  -- RING_SIZE
      { n := 4, ty := .u16, acc := .ro },  -- LAST_WALK
      { n := 5, ty := .u32, acc := .rc },  -- BREAKS
      { n := 6, ty := .u32, acc := .rc },  -- CLOSES
      { n := 7, ty := .u32, acc := .rc },  -- DUPLICATES
      { n := 8, ty := .u32, acc := .rc },  -- HOP_DROPS
      { n := 9, ty := .u32, acc := .rc },  -- ALIEN_DROPS
      { n := 10, ty := .u32, acc := .rc } ]},  -- ASSIGN_IGNORED
  -- Ring ports (R340).
  { base := 0x1011, count := 2, subs := [
      { n := 1, ty := .u8, acc := .ro },  -- PORT_STATE
      { n := 2, ty := .u8, acc := .ro },  -- RATE
      { n := 3, ty := .u64, acc := .ro },  -- NEIGHBOUR_UID
      { n := 4, ty := .u8, acc := .ro },  -- NEIGHBOUR_STATION
      { n := 5, ty := .u8, acc := .ro },  -- NEIGHBOUR_RANGE
      { n := 6, ty := .u8, acc := .ro },  -- LEVEL
      { n := 7, ty := .u16, acc := .ro },  -- NEIGHBOUR_CAPS
      { n := 8, ty := .u32, acc := .rc },  -- FCS_ERRORS
      { n := 9, ty := .u32, acc := .rc },  -- FWD_DROPS
      { n := 10, ty := .u32, acc := .rc } ]},  -- LOSSES
  -- Rosec (R363).
  { base := 0x1020, subs := [
      { n := 1, ty := .u8, acc := .rw },  -- NOTIFY_DST
      { n := 2, ty := .u8, acc := .rw, dflt := 3, range := some (0, 7) },  -- NOTIFY_RETRIES
      { n := 3, ty := .u64, acc := .ro },  -- REQUESTS
      { n := 4, ty := .u32, acc := .rc },  -- ERROR_RESPONSES
      { n := 5, ty := .u32, acc := .rc },  -- REPEATS_SERVED
      { n := 6, ty := .u8, acc := .rc },  -- QUEUE_PEAK
      { n := 7, ty := .u8, acc := .ro },  -- SEG_OPEN
      { n := 8, ty := .u32, acc := .rc },  -- SEG_ABANDONED
      { n := 9, ty := .u8, acc := .ro },  -- SUBSCRIPTIONS
      { n := 10, ty := .u32, acc := .rc },  -- PUB_SKIPPED
      { n := 11, ty := .u32, acc := .rc },  -- NOTIFY_LOST
      { n := 12, ty := .u32, acc := .rc } ]},  -- STRAY_RESPONSES
  -- Levels (R364).
  { base := 0x1021, subs := [
      { n := 1, last := 254, ty := .u8, acc := .ro } ]},  -- LEVEL_1–LEVEL_254
  -- Device state (R360).
  { base := 0x2000, subs := [
      { n := 1, ty := .u8, acc := .ro, dflt := 1 },  -- STATE
      { n := 2, ty := .u8, acc := .ro } ]},  -- START_STEP
  -- Requests (R361).
  { base := 0x2001, subs := [
      { n := 1, ty := .u8, acc := .wo } ]},  -- REQUEST
  -- Last start (R362).
  { base := 0x2002, subs := [
      { n := 1, ty := .u8, acc := .ro, dflt := 1 },  -- TYPE
      { n := 2, ty := .u16, acc := .ro },  -- CAUSE
      { n := 3, ty := .u8, acc := .ro },  -- FAILED_STEP
      { n := 4, ty := .u8, acc := .ro },  -- FAILED_COLD
      { n := 5, ty := .u32, acc := .ro } ]},  -- DURATION
  -- Clocks (R12).
  { base := 0x2010, subs := [
      { n := 1, ty := .u8, acc := .ro },  -- REFCLK_STATE
      { n := 2, ty := .u8, acc := .ro },  -- BEAT_PLL
      { n := 3, ty := .u8, acc := .ro },  -- ME_PLL
      { n := 4, ty := .u8, acc := .ro },  -- DRAM_PLL
      { n := 5, ty := .u64, acc := .ro },  -- FRAME_COUNT
      { n := 6, ty := .u8, acc := .ro } ]},  -- FRAME_PHASE
  -- Supply monitors (R208).
  { base := 0x2030, count := 9, subs := [
      { n := 1, ty := .i32, acc := .rw },  -- LOW
      { n := 2, ty := .i32, acc := .rw },  -- HIGH
      { n := 3, ty := .u32, acc := .rw, dflt := 2000, range := some (0, 10000) },  -- HYST
      { n := 4, ty := .u8, acc := .ro, dflt := 1 },  -- STATE
      { n := 5, ty := .u32, acc := .rc },  -- ALARMS
      { n := 6, ty := .u32, acc := .rc } ]},  -- FORCED
  -- Function modes (R19).
  { base := 0x2100, subs := [
      { n := 1, ty := .u8, acc := .rws, top := some 1, cond := .idleOrTraining },  -- DRAM_TRAINING
      { n := 2, ty := .u8, acc := .rws, top := some 1, cond := .idle },  -- CAL_ARITHMETIC
      { n := 3, ty := .u8, acc := .rws, top := some 1, cond := .idle },  -- PTP_SERVO
      { n := 4, ty := .u8, acc := .rws, top := some 1, cond := .idle },  -- TRIGGER_EVAL
      { n := 5, ty := .u8, acc := .rws, top := some 1, cond := .idle },  -- RECORD_MEAS
      { n := 6, ty := .u8, acc := .rws, top := some 1, cond := .idle },  -- DISPATCH_HINTS
      { n := 7, ty := .u8, acc := .rws, top := some 1, cond := .idle },  -- DISCOVERY_ADDR
      { n := 8, ty := .u8, acc := .rws, top := some 1, cond := .idle },  -- LANE_DEGRADE
      { n := 9, ty := .u8, acc := .rws, top := some 1, cond := .idle } ]},  -- FAULT_DECISION
  -- Deadlines (R20).
  { base := 0x2101, subs := [
      { n := 8, ty := .u32, acc := .rws, dflt := 250, range := some (125, 625), cond := .idle },  -- LANE_DEGRADE_DEADLINE
      { n := 9, ty := .u32, acc := .rws, dflt := 625, range := some (125, 1250), cond := .idle } ]}  -- FAULT_DECISION_DEADLINE
  ]

/-- Pin objects of the index map (R366). -/
def pinObjects : List ObjRow := [
  -- Driver (R169).
  { base := 0x3000, count := 64, stride := 16, subs := [
      { n := 1, ty := .i32, acc := .rws, dflt := 800000, range := some (200000, 1200000), cond := .pinIdle },  -- VOH
      { n := 2, ty := .i32, acc := .rws, range := some (0, 1000000), cond := .pinIdle },  -- VOL
      { n := 3, ty := .i32, acc := .rws, range := some (0, 1200000), cond := .pinIdle },  -- VTT
      { n := 4, ty := .u8, acc := .ro } ]},  -- DRIVE_STATE
  -- Serial state (R182).
  { base := 0x3001, count := 64, stride := 16, subs := [
      { n := 1, ty := .u8, acc := .ro },  -- SERIAL_STATE
      { n := 2, ty := .u8, acc := .ro, dflt := 255 },  -- CONFIG
      { n := 3, ty := .u64, acc := .ro },  -- BITS_TX
      { n := 4, ty := .u64, acc := .ro },  -- BITS_CHECKED
      { n := 5, ty := .u64, acc := .rc },  -- BIT_ERRORS
      { n := 6, ty := .u32, acc := .rc },  -- LOCK_LOSSES
      { n := 7, ty := .u32, acc := .rc },  -- UNDERRUNS
      { n := 8, ty := .i32, acc := .ro } ]},  -- FREQ_OFFSET
  -- Comparators (R190).
  { base := 0x3002, count := 64, stride := 16, subs := [
      { n := 1, ty := .i32, acc := .rws, dflt := 500000, range := some (-400000, 2000000), cond := .pinIdle },  -- VTH
      { n := 2, ty := .i32, acc := .rws, dflt := 300000, range := some (-400000, 2000000), cond := .pinIdle },  -- VTL
      { n := 3, ty := .u32, acc := .rws, range := some (0, 20000), cond := .pinIdle },  -- HYST
      { n := 4, ty := .u8, acc := .rws, top := some 1, cond := .pinIdle } ]},  -- INPUT_MODE
  -- Front end (R200).
  { base := 0x3003, count := 64, stride := 16, subs := [
      { n := 1, ty := .bool, acc := .rws, cond := .pinIdle },  -- FE_PRESENT
      { n := 2, ty := .r32, acc := .rws, dflt := 1065353216, range := some (1028443341, 1101004800), cond := .pinIdle },  -- CMP_GAIN
      { n := 3, ty := .i32, acc := .rws, range := some (-5000000, 5000000), cond := .pinIdle },  -- CMP_OFFSET
      { n := 4, ty := .r32, acc := .rws, dflt := 1065353216, range := some (1028443341, 1101004800), cond := .pinIdle },  -- DRV_GAIN
      { n := 5, ty := .i32, acc := .rws, range := some (-5000000, 5000000), cond := .pinIdle },  -- DRV_OFFSET
      { n := 6, ty := .i32, acc := .ro, dflt := 500000 },  -- VTH_DUT
      { n := 7, ty := .i32, acc := .ro, dflt := 300000 },  -- VTL_DUT
      { n := 8, ty := .u32, acc := .ro },  -- HYST_DUT
      { n := 9, ty := .i32, acc := .ro, dflt := 800000 },  -- VOH_DUT
      { n := 10, ty := .i32, acc := .ro } ]},  -- VOL_DUT
  -- Compare results (R196).
  { base := 0x3004, count := 64, stride := 16, subs := [
      { n := 1, ty := .u64, acc := .ro },  -- FAIL_COUNT
      { n := 2, ty := .u64, acc := .ro, dflt := 18446744073709551615 },  -- FIRST_FAIL_VECTOR
      { n := 3, ty := .u64, acc := .ro, dflt := 18446744073709551615 },  -- FIRST_FAIL_TU
      { n := 4, ty := .u8, acc := .ro, dflt := 3 },  -- LAST_CODE
      { n := 5, ty := .u8, acc := .rc },  -- STICKY
      { n := 6, ty := .bool, acc := .rws, cond := .pinIdle },  -- STICKY_EPOCH
      { n := 7, ty := .u32, acc := .rc },  -- INVALID_SAMPLES
      { n := 8, ty := .u64, acc := .ro } ]},  -- STROBES
  -- Window monitor (R201).
  { base := 0x3005, count := 64, stride := 16, subs := [
      { n := 1, ty := .bool, acc := .rw },  -- MON_ENABLE
      { n := 2, ty := .u8, acc := .rw, dflt := 8 },  -- MON_FILTER
      { n := 3, ty := .u8, acc := .ro },  -- MON_STATE
      { n := 4, ty := .bool, acc := .rc },  -- ALARM
      { n := 5, ty := .u32, acc := .rc },  -- ALARM_COUNT
      { n := 6, ty := .u32, acc := .rc },  -- FORCED_COUNT
      { n := 7, ty := .bool, acc := .rws, cond := .pinIdle } ]},  -- MON_FAILS
  -- TDC (R262).
  { base := 0x3006, count := 64, stride := 16, subs := [
      { n := 1, ty := .u64, acc := .ro },  -- TIMESTAMPS
      { n := 2, ty := .u32, acc := .rc },  -- LOST
      { n := 3, ty := .u16, acc := .ro } ]},  -- OPEN_GATES
  -- Timing corrections (R417).
  { base := 0x3007, count := 64, stride := 16, subs := [
      { n := 1, last := 6, ty := .i32, acc := .ro },  -- TARGET_0–TARGET_5
      { n := 7, last := 12, ty := .i32, acc := .ro } ]},  -- IN_FORCE_0–IN_FORCE_5
  -- Level corrections (R417).
  { base := 0x3008, count := 64, stride := 16, subs := [
      { n := 1, last := 4, ty := .i32, acc := .ro },  -- LTARGET_0–LTARGET_3
      { n := 5, last := 8, ty := .i32, acc := .ro } ]},  -- LIN_FORCE_0–LIN_FORCE_3
  -- TDC taps (R417).
  { base := 0x3009, count := 64, stride := 16, subs := [
      { n := 1, ty := (.dom 1000), acc := .ro } ]},  -- TAPS
  -- Declared delays (R403).
  { base := 0x300A, count := 64, stride := 16, subs := [
      { n := 1, ty := .i32, acc := .rws, range := some (-2000, 2000), cond := .pinIdle },  -- EXT_DRIVE
      { n := 2, ty := .i32, acc := .rws, range := some (-2000, 2000), cond := .pinIdle } ]},  -- EXT_COMPARE
  -- Pin calibration (R417).
  { base := 0x300B, count := 64, stride := 16, subs := [
      { n := 1, last := 3, ty := .time80, acc := .ro },  -- PIN_LAST_0–PIN_LAST_2
      { n := 4, ty := .i16, acc := .ro },  -- CAL_TEMP
      { n := 5, ty := .i32, acc := .ro },  -- DRIFT
      { n := 6, ty := .bool, acc := .ro },  -- DRIFT_LIMITED
      { n := 7, ty := .u8, acc := .ro } ]}  -- CAL_PIN_STATE
  ]

/-- Site objects of the index map (R366). -/
def siteObjects : List ObjRow := [
  -- Site control (R27).
  { base := 0x3400, count := 64, stride := 16, subs := [
      { n := 1, ty := .u8, acc := .ro },  -- STATE
      { n := 2, ty := .u8, acc := .wo },  -- COMMAND
      { n := 3, ty := .time80, acc := .rw, cond := .notReady },  -- START_TIME
      { n := 4, ty := .u16, acc := .ro } ]},  -- LAST_STATUS
  -- Site setup (R32).
  { base := 0x3401, count := 64, stride := 16, subs := [
      { n := 1, ty := .u64, acc := .rws, cond := .siteFree },  -- PIN_MAP
      { n := 2, ty := .u64, acc := .rws, cond := .siteFree },  -- ITIN_BASE
      { n := 3, ty := .u32, acc := .rws, dflt := 1, cond := .siteFree },  -- ITIN_ENTRY
      { n := 4, ty := .u64, acc := .rws, cond := .siteFree },  -- VEC_BASE
      { n := 5, ty := .u32, acc := .rws, range := some (1, 2147483648), cond := .siteFree },  -- VEC_COUNT
      { n := 6, ty := .u8, acc := .rws, dflt := 1, range := some (1, 8), cond := .siteFree },  -- SPAN_ENGINES
      { n := 7, ty := .u16, acc := .ro } ]},  -- DECLARED_BUDGET
  -- Site flow (R33).
  { base := 0x3402, count := 64, stride := 16, subs := [
      { n := 1, ty := .u8, acc := .rws, dflt := 4, range := some (2, 255), cond := .siteFreeLoaded },  -- RESUME_DELAY
      { n := 2, ty := (.oct 32), acc := .rws, cond := .siteFreeLoaded },  -- DUT_ID
      { n := 3, ty := (.dom 768), acc := .rws, cond := .siteFreeLoaded } ]},  -- SERIAL_CFG
  -- Site status (R34).
  { base := 0x3403, count := 64, stride := 16, subs := [
      { n := 1, ty := .u32, acc := .ro },  -- INSTR_INDEX
      { n := 2, ty := .u64, acc := .ro },  -- VECTORS
      { n := 3, ty := .u64, acc := .ro },  -- HOLD_TU
      { n := 4, ty := .u8, acc := .ro },  -- FLAGS
      { n := 5, ty := .u16, acc := .ro },  -- FAULT_CODE
      { n := 6, ty := .u32, acc := .ro },  -- FAULT_INDEX
      { n := 7, ty := .u32, acc := .ro },  -- MATCH_ITER
      { n := 8, ty := .u32, acc := .rc },  -- LATE_WAITS
      { n := 9, ty := .u32, acc := .ro } ]},  -- FAIL_EPOCH
  -- Site compare (R197).
  { base := 0x3404, count := 64, stride := 16, subs := [
      { n := 1, ty := .u64, acc := .ro },  -- FAIL_COUNT
      { n := 2, ty := .u64, acc := .ro },  -- FAILING_PINS
      { n := 3, ty := .u32, acc := .ro } ]},  -- SITE_FAILS
  -- Control store (R93).
  { base := 0x4000, subs := [
      { n := 1, ty := .u8, acc := .ro },  -- VENDOR_STATE
      { n := 2, ty := .u32, acc := .ro },  -- VENDOR_VERSION
      { n := 3, ty := .u8, acc := .ro },  -- CUST_STATE
      { n := 4, ty := .u8, acc := .wo },  -- CUST_COMMAND
      { n := 5, ty := (.oct 48), acc := .ro },  -- CUST_HASH
      { n := 6, ty := .u32, acc := .rc },  -- CORRECTED
      { n := 7, ty := .u32, acc := .rc },  -- MIRROR_REPAIRS
      { n := 8, ty := .u32, acc := .ro },  -- LOST_ENTRIES
      { n := 9, ty := .u32, acc := .ro } ]},  -- SCRUB_PASSES
  -- Header (R94).
  { base := 0x4001, subs := [
      { n := 1, ty := (.dom 16777216), acc := .wo, cond := .step5 } ]},  -- HEADER
  -- Engines (R95).
  { base := 0x4010, count := 16, subs := [
      { n := 1, ty := .u8, acc := .ro },  -- BUSY_MASK
      { n := 2, ty := .u8, acc := .ro },  -- WAIT_MASK
      { n := 3, ty := .u8, acc := .ro },  -- RETIRED_MASK
      { n := 4, ty := .u8, acc := .ro },  -- CYCLES_LAST_FRAME
      { n := 5, ty := .u64, acc := .ro },  -- CYCLES_TOTAL
      { n := 6, ty := .u32, acc := .rc },  -- WATCHDOG_FAULTS
      { n := 7, ty := .u32, acc := .rc } ]},  -- CS_RESTARTS
  -- Last fault (R96).
  { base := 0x4020, subs := [
      { n := 1, ty := .u8, acc := .ro },  -- SITE
      { n := 2, ty := .u16, acc := .ro },  -- CODE
      { n := 3, ty := .u32, acc := .ro },  -- ITIN_INDEX
      { n := 4, ty := .u16, acc := .ro },  -- DETECT_ADDR
      { n := 5, ty := .u16, acc := .ro },  -- BOUNDARY_ADDR
      { n := 6, ty := .u8, acc := .ro },  -- CONTEXT
      { n := 7, ty := .u64, acc := .ro },  -- FRAME
      { n := 8, ty := .u16, acc := .ro } ]}  -- TAINTED_DESCRIPTORS
  ]

/-- Innkeeper objects of the index map (R366). -/
def innkeeperObjects : List ObjRow := [
  -- Innkeeper settings (R123).
  { base := 0x5000, subs := [
      { n := 1, ty := .u16, acc := .rws, dflt := 256, range := some (128, 1024), cond := .noBusySite },  -- RESERVE
      { n := 2, ty := .u32, acc := .rws, dflt := 2048, range := some (16, 129984), cond := .noBusySite },  -- LEDGER_QUOTA
      { n := 3, ty := .u8, acc := .rw, dflt := 2, range := some (1, 16) },  -- STARVE_MARGIN
      { n := 4, ty := .u8, acc := .rw, dflt := 90, range := some (50, 99) } ]},  -- LEDGER_HIGH
  -- Ledger status (R124).
  { base := 0x5001, subs := [
      { n := 1, ty := .u32, acc := .ro },  -- IN_USE
      { n := 2, ty := .u32, acc := .rc },  -- PEAK_IN_USE
      { n := 3, ty := .u32, acc := .ro, dflt := 129984 },  -- GENERAL_FREE
      { n := 4, ty := .u16, acc := .ro, dflt := 1024 },  -- SERVICE_FREE
      { n := 5, ty := .u16, acc := .ro },  -- ADMITTED_BUDGET
      { n := 6, ty := .u8, acc := .ro },  -- ADMITTED_SITES
      { n := 7, ty := .u8, acc := .ro },  -- LAST_REFUSAL
      { n := 8, ty := .u32, acc := .rc },  -- REFUSED_POSTS
      { n := 9, ty := .u32, acc := .rc },  -- CANCELLED_BEFORE_DISPATCH
      { n := 10, ty := .u32, acc := .rc },  -- CORRECTED
      { n := 11, ty := .u32, acc := .rc },  -- LOST
      { n := 12, ty := .u32, acc := .rc },  -- OVERRUN_FAULTS
      { n := 13, ty := .u32, acc := .ro },  -- SWEEP_PASSES
      { n := 14, ty := .u32, acc := .rc },  -- SERVICE_WAITS
      { n := 15, ty := .u32, acc := .rc } ]},  -- HINTS_IGNORED
  -- Ready lists (R125).
  { base := 0x5002, subs := [
      { n := 1, last := 8, ty := .u32, acc := .ro },  -- DEPTH_L0–DEPTH_L7
      { n := 9, last := 16, ty := .u32, acc := .rc } ]},  -- PEAK_L0–PEAK_L7
  -- Histograms (R126).
  { base := 0x5010, count := 8, subs := [
      { n := 1, ty := .u32, acc := .rc },  -- BIN_0
      { n := 2, ty := .u32, acc := .rc },  -- BIN_1
      { n := 3, last := 14, ty := .u32, acc := .rc },  -- BIN_2–BIN_4096
      { n := 15, ty := .u32, acc := .rc } ]},  -- BIN_OLD
  -- Engine load (R127).
  { base := 0x5020, count := 16, subs := [
      { n := 1, ty := .u8, acc := .ro },  -- HOMED_SITES
      { n := 2, ty := .u8, acc := .ro },  -- HOMED_SHARE
      { n := 3, ty := .u8, acc := .ro },  -- THREAD_CYCLES
      { n := 4, ty := .u8, acc := .ro },  -- TASK_CYCLES
      { n := 5, ty := .u32, acc := .rc },  -- FULL_FRAMES
      { n := 6, ty := .u64, acc := .ro } ]},  -- IDLE_CYCLES
  -- Site Innkeeper data (R128).
  { base := 0x5100, count := 64, subs := [
      { n := 1, ty := .u8, acc := .ro, dflt := 255 },  -- HOME_ENGINE
      { n := 2, ty := .u8, acc := .ro },  -- SHARE
      { n := 3, ty := .u16, acc := .ro },  -- CYCLES_LAST_FRAME
      { n := 4, ty := .u16, acc := .ro },  -- PEAK_CYCLES
      { n := 5, ty := .u32, acc := .ro },  -- OVERRUN_EXCESS
      { n := 6, ty := .u32, acc := .rc },  -- STARVATIONS
      { n := 7, ty := .u8, acc := .ro },  -- STARVE_CAUSE
      { n := 8, ty := .u8, acc := .rws, dflt := 240, cond := .idle },  -- WAKE_MASK
      { n := 9, ty := .u32, acc := .ro },  -- LEDGER_IN_USE
      { n := 10, ty := .u8, acc := .rw },  -- HINT_RANK
      { n := 11, ty := .u8, acc := .rw, dflt := 255 } ]},  -- HINT_ENGINE
  -- Caravans (R129).
  { base := 0x5400, count := 256, subs := [
      { n := 1, ty := .u8, acc := .rw, dflt := 255, cond := .caravanFree },  -- OWNER
      { n := 2, ty := .u16, acc := .ro },  -- NEXT_SEQ
      { n := 3, ty := .u16, acc := .ro },  -- HEAD_SEQ
      { n := 4, ty := .u16, acc := .ro },  -- OUTSTANDING
      { n := 5, ty := .u32, acc := .ro },  -- RELEASED
      { n := 6, ty := .u32, acc := .rc },  -- VOIDED
      { n := 7, ty := .u32, acc := .rc },  -- STALL_FRAMES
      { n := 8, ty := .u32, acc := .rc } ]},  -- EARLY_EVENTS
  -- Vector path settings (R150).
  { base := 0x6000, subs := [
      { n := 1, ty := .u8, acc := .rws, dflt := 34, range := some (34, 64), cond := .noBusySite },  -- RT_RESERVE
      { n := 2, ty := .u8, acc := .rws, dflt := 25, range := some (5, 70), cond := .noBusySite },  -- FIFO_LOW
      { n := 3, ty := .u8, acc := .rws, dflt := 75, range := some (15, 95), cond := .noBusySite },  -- FIFO_HIGH
      { n := 4, ty := .u8, acc := .rws, dflt := 16, range := some (4, 40), cond := .noBusySite },  -- DQ_LOW
      { n := 5, ty := .u8, acc := .rws, dflt := 48, range := some (12, 60), cond := .noBusySite },  -- DQ_HIGH
      { n := 6, ty := .u32, acc := .rc },  -- CORRECTED
      { n := 7, ty := .u32, acc := .rc } ]},  -- POISONED
  -- Serial streaming (R183).
  { base := 0x6001, subs := [
      { n := 1, ty := .u32, acc := .ro },  -- STREAM_ADMITTED
      { n := 2, ty := .u32, acc := .ro, dflt := 200000 },  -- STREAM_LIMIT
      { n := 3, ty := .u8, acc := .ro } ]},  -- SERIAL_PINS
  -- Crossings (R151).
  { base := 0x6011, count := 8, subs := [
      { n := 1, ty := .u32, acc := .rc },  -- PEAK_DEPTH
      { n := 2, ty := .u64, acc := .rc },  -- FULL_CYCLES
      { n := 3, ty := .u32, acc := .rc },  -- OVERFLOWS
      { n := 4, ty := .u32, acc := .rc } ]},  -- SLIPS
  -- Site vector path (R152).
  { base := 0x6100, count := 64, subs := [
      { n := 1, ty := .u8, acc := .rws, top := some 2, cond := .siteFreeLoaded },  -- STARVE_ACTION
      { n := 2, ty := .u16, acc := .ro },  -- LEAD_FRAMES
      { n := 3, ty := .u16, acc := .rc, dflt := 65535 },  -- MIN_LEAD
      { n := 4, ty := .u8, acc := .ro },  -- FETCH_STATE
      { n := 5, ty := .u16, acc := .ro },  -- FIFO_SLOTS
      { n := 6, ty := .u16, acc := .ro },  -- RUN_ENTRIES
      { n := 7, ty := .u64, acc := .ro },  -- STARVE_TU
      { n := 8, ty := .bool, acc := .ro },  -- EXPOSED
      { n := 9, ty := .u32, acc := .rc } ]},  -- POISONED_PV
  -- Pin FIFOs (R153).
  { base := 0x6200, count := 64, subs := [
      { n := 1, ty := .u16, acc := .ro },  -- SLOTS
      { n := 2, ty := .u16, acc := .rc },  -- PEAK_SLOTS
      { n := 3, ty := .u32, acc := .rc },  -- CORRECTED
      { n := 4, ty := .u32, acc := .rc } ]},  -- POISONED
  -- Timing memory (R185).
  { base := 0x6300, count := 64, subs := [
      { n := 1, ty := .u64, acc := .ro },  -- VALID_SETS
      { n := 2, ty := .u64, acc := .ro },  -- REJECTED_SETS
      { n := 3, ty := .u16, acc := .ro },  -- LAST_REJECT
      { n := 4, ty := .u32, acc := .rc },  -- CORRECTED
      { n := 5, ty := .u32, acc := .rc } ]},  -- UNCORRECTABLE
  -- Loop RAM (R186).
  { base := 0x6500, count := 64, subs := [
      { n := 1, ty := (.dom 4096), acc := .rws, cond := .pinIdle } ]}  -- LOOP_DATA
  ]

/-- Acquisition objects of the index map (R366). -/
def acquisitionObjects : List ObjRow := [
  -- Acquisition (R241).
  { base := 0x7000, subs := [
      { n := 1, ty := .u64, acc := .rws, cond := .ringIdle },  -- REC_BASE
      { n := 2, ty := .u64, acc := .rws, cond := .ringIdle },  -- REC_BYTES
      { n := 3, ty := .u32, acc := .ro, dflt := 8388608 },  -- BUFFER_FREE
      { n := 4, ty := .u64, acc := .ro },  -- RING_USED
      { n := 5, ty := .u32, acc := .ro },  -- OLDEST_AGE
      { n := 6, ty := .u32, acc := .rc },  -- CORRECTED
      { n := 7, ty := .u32, acc := .rc },  -- UNCORRECTABLE
      { n := 8, ty := .u32, acc := .ro } ]},  -- NEXT_RECORD
  -- Captures (R242).
  { base := 0x7100, count := 64, subs := [
      { n := 1, ty := .u8, acc := .rws, top := some 2, cond := .siteFreeLoaded },  -- KIND
      { n := 2, ty := .u64, acc := .rws, dflt := 18446744073709551615, cond := .siteFreeLoaded },  -- SLOTS
      { n := 3, ty := .u8, acc := .rws, range := some (0, 63), cond := .siteFreeLoaded },  -- SERIAL_SLOT
      { n := 4, ty := .u32, acc := .rws, dflt := 1024, range := some (0, 1048575), cond := .siteFreeLoaded },  -- PRE_SAMPLES
      { n := 5, ty := .u32, acc := .rws, dflt := 3072, range := some (1, 1048576), cond := .siteFreeLoaded },  -- POST_SAMPLES
      { n := 6, ty := .u8, acc := .rws, top := some 2, cond := .siteFreeLoaded },  -- MODE
      { n := 7, ty := .u32, acc := .rws, dflt := 1000, range := some (1, 60000000), cond := .siteFreeLoaded },  -- AUTO_TIMEOUT
      { n := 8, ty := .u8, acc := .rws, top := some 1, cond := .siteFreeLoaded },  -- PRE_POLICY
      { n := 9, ty := .u8, acc := .rws, range := some (0, 8), cond := .siteFreeLoaded },  -- RATE_LOG2
      { n := 10, ty := .bool, acc := .rws, dflt := 1, cond := .siteFreeLoaded },  -- AUTO_RATE
      { n := 11, ty := .u32, acc := .rws, range := some (0, 1048576), cond := .siteFreeLoaded },  -- HOST_WINDOW
      { n := 12, last := 19, ty := .u32, acc := .rws, cond := .siteFreeLoaded } ]},  -- MEAS_DEF_0–MEAS_DEF_7
  -- Capture status (R243).
  { base := 0x7200, count := 64, subs := [
      { n := 1, ty := .u8, acc := .ro },  -- CAP_STATE
      { n := 2, ty := .u8, acc := .ro },  -- PHASE
      { n := 3, ty := .u8, acc := .ro },  -- RATE_NOW
      { n := 4, ty := .u32, acc := .ro },  -- RECORDS
      { n := 5, ty := .u32, acc := .rc },  -- MISSED_TRIGGERS
      { n := 6, ty := .u32, acc := .rc },  -- IGNORED_EARLY
      { n := 7, ty := .u32, acc := .rc },  -- DROPPED_RECORDS
      { n := 8, ty := .u64, acc := .rc },  -- DROPPED_SAMPLES
      { n := 9, ty := .u32, acc := .rc },  -- REFUSED_STARTS
      { n := 10, ty := .u32, acc := .ro, dflt := 4294967295 },  -- LAST_RECORD
      { n := 11, ty := .u64, acc := .wo },  -- HOST_TRIGGER
      { n := 12, ty := .u32, acc := .rc },  -- HOST_LATE
      { n := 13, ty := .u32, acc := .rc },  -- CANDIDATES_LOST
      { n := 14, ty := (.dom 1024), acc := .rc } ]},  -- CANDIDATES
  -- Trigger units (R244).
  { base := 0x7300, count := 16, subs := [
      { n := 1, ty := .u8, acc := .rws, dflt := 255, cond := .unitDisarmed },  -- OWNER
      { n := 2, ty := .u8, acc := .wo },  -- COMMAND
      { n := 3, ty := .u8, acc := .rws, dflt := 1, range := some (1, 4), cond := .unitDisarmed },  -- STAGE_COUNT
      { n := 4, last := 7, ty := .u64, acc := .rws, cond := .unitDisarmed },  -- STAGE_0–STAGE_3
      { n := 8, ty := (.oct 32), acc := .rws, cond := .unitDisarmed },  -- PAT_MASK
      { n := 9, ty := (.oct 32), acc := .rws, cond := .unitDisarmed },  -- PAT_VALUE
      { n := 10, ty := .bool, acc := .rws, cond := .unitDisarmed },  -- PAT_SENSE
      { n := 11, ty := .u16, acc := .rws, range := some (0, 2047), cond := .unitDisarmed },  -- EVENT_SRC
      { n := 12, ty := .u8, acc := .rws, reserved := 240, cond := .unitDisarmed },  -- EXT_SEL
      { n := 13, ty := .time80, acc := .rws, cond := .unitDisarmed },  -- TIME_T
      { n := 14, ty := .u8, acc := .rws, dflt := 255, cond := .unitDisarmed },  -- SOURCE_UNIT
      { n := 15, ty := .u8, acc := .rws, dflt := 255, cond := .unitDisarmed },  -- EXT_OUT
      { n := 16, ty := .u8, acc := .ro },  -- STATE
      { n := 17, ty := .u8, acc := .ro },  -- CUR_STAGE
      { n := 18, ty := .u32, acc := .ro },  -- FIRES
      { n := 19, ty := .u32, acc := .rc } ]},  -- MISSED
  -- Definition window (R260).
  { base := 0x7400, subs := [
      { n := 1, ty := .u16, acc := .rw, range := some (0, 4095) },  -- SELECT
      { n := 2, ty := .u8, acc := .rws, dflt := 255, cond := .defIdle },  -- OWNER
      { n := 3, ty := .u8, acc := .rws, cond := .defIdle },  -- MODE
      { n := 4, ty := .u8, acc := .rws, top := some 1, cond := .defIdle },  -- ENGINE
      { n := 5, ty := .u8, acc := .rws, range := some (0, 63), cond := .defIdle },  -- START_PIN
      { n := 6, ty := .u8, acc := .rws, dflt := 1, cond := .defIdle },  -- START_SEL
      { n := 7, ty := .u8, acc := .rws, range := some (0, 63), cond := .defIdle },  -- STOP_PIN
      { n := 8, ty := .u8, acc := .rws, dflt := 1, cond := .defIdle },  -- STOP_SEL
      { n := 9, ty := .u8, acc := .rws, top := some 1, cond := .defIdle },  -- ORDER
      { n := 10, ty := .u8, acc := .rws, cond := .defIdle },  -- GATE_SRC
      { n := 11, ty := .u8, acc := .rws, reserved := 240, cond := .defIdle },  -- GATE_PIN
      { n := 12, ty := .time80, acc := .rws, cond := .defIdle },  -- GATE_TIME
      { n := 13, ty := .u64, acc := .rws, dflt := 800, range := some (1, 8000000000), cond := .defIdle },  -- GATE_BEATS
      { n := 14, ty := .u16, acc := .rws, dflt := 1, range := some (1, 65535), cond := .defIdle },  -- REPEAT
      { n := 15, ty := .u8, acc := .rws, dflt := 1, cond := .defIdle },  -- PRESCALE
      { n := 16, ty := .u8, acc := .ro },  -- STATE
      { n := 17, ty := (.oct 64), acc := .ro } ]},  -- LAST_RESULT
  -- Measurement engine (R261).
  { base := 0x7402, subs := [
      { n := 1, ty := .u8, acc := .ro },  -- VERNIER_BUSY
      { n := 2, ty := .u16, acc := .ro },  -- COUNTER_BUSY
      { n := 3, ty := .u16, acc := .ro },  -- ARMED
      { n := 4, ty := .u64, acc := .ro },  -- PUBLISHED
      { n := 5, ty := .u32, acc := .rc },  -- REFUSED
      { n := 6, ty := .u32, acc := .rc } ]}  -- REARM_IGNORED
  ]

/-- Time objects of the index map (R366). -/
def timeObjects : List ObjRow := [
  -- Time status (R385).
  { base := 0x8000, subs := [
      { n := 1, ty := .u8, acc := .ro, dflt := 2 },  -- QUALITY
      { n := 2, ty := .time80, acc := .ro },  -- TIME
      { n := 3, ty := .u64, acc := .ro },  -- ANCHOR_C
      { n := 4, ty := .u64, acc := .ro },  -- ANCHOR_T
      { n := 5, ty := .i64, acc := .ro },  -- RATE
      { n := 6, ty := .i64, acc := .ro },  -- OFFSET
      { n := 7, ty := .i64, acc := .ro },  -- PATH_DELAY
      { n := 8, ty := (.oct 10), acc := .ro },  -- MASTER_PORT
      { n := 9, ty := (.oct 8), acc := .ro },  -- GRANDMASTER
      { n := 10, ty := .time80, acc := .ro },  -- STATE_SINCE
      { n := 11, ty := .u32, acc := .ro },  -- HOLDOVER_ELAPSED
      { n := 12, ty := .bool, acc := .ro },  -- STEP_PENDING
      { n := 13, ty := .u32, acc := .rc },  -- STEPS
      { n := 14, ty := .u32, acc := .rc },  -- CLAMPS
      { n := 15, ty := .u32, acc := .rc } ]},  -- LATE_STARTS
  -- Clock settings (R386).
  { base := 0x8001, subs := [
      { n := 1, ty := .u8, acc := .rws, dflt := 1, top := some 2, cond := .idle },  -- ROLE
      { n := 2, ty := .u8, acc := .rws, range := some (0, 127), cond := .idle },  -- DOMAIN
      { n := 3, ty := .u8, acc := .rws, dflt := 2, top := some 2, cond := .idle },  -- MECHANISM
      { n := 4, ty := .u8, acc := .rws, dflt := 128, cond := .idle },  -- PRIORITY1
      { n := 5, ty := .u8, acc := .rws, dflt := 128, cond := .idle },  -- PRIORITY2
      { n := 6, ty := .u8, acc := .rws, dflt := 248, cond := .idle },  -- CLOCK_CLASS
      { n := 7, ty := .i8, acc := .rws, dflt := (-4), range := some (-7, 1), cond := .idle },  -- LOG_SYNC_INTERVAL
      { n := 8, ty := .i8, acc := .rws, range := some (-4, 4), cond := .idle },  -- LOG_PDELAY_INTERVAL
      { n := 9, ty := .u32, acc := .rw, dflt := 60, range := some (1, 86400) },  -- HOLDOVER_LIMIT
      { n := 10, ty := .u8, acc := .rw, dflt := 16, range := some (4, 255) },  -- SETTLE_INTERVALS
      { n := 11, ty := .u32, acc := .rw, dflt := 20, range := some (1, 1000) },  -- STEP_LIMIT
      { n := 12, ty := .u32, acc := .rw, dflt := 1000, range := some (100, 1000000000) },  -- STEP_THRESHOLD
      { n := 13, ty := .u32, acc := .rw, dflt := 100, range := some (10, 100000) },  -- LOCK_THRESHOLD
      { n := 14, ty := .time80, acc := .wo, cond := .timeHost },  -- TIME_SET
      { n := 15, ty := .bool, acc := .rw },  -- TRACEABLE
      { n := 16, ty := .u8, acc := .rws, dflt := 255, cond := .idle } ]},  -- PPS_DISCIPLINE
  -- PTP ports (R387).
  { base := 0x8002, count := 2, subs := [
      { n := 1, ty := .i64, acc := .ro },  -- PEER_DELAY
      { n := 2, ty := .bool, acc := .ro },  -- PDELAY_VALID
      { n := 3, ty := .i32, acc := .rw, range := some (-100000, 100000) },  -- ASYMMETRY
      { n := 4, ty := .u32, acc := .rc },  -- RESIDENCE_MAX
      { n := 5, ty := .u32, acc := .rc },  -- SYNC_RX
      { n := 6, ty := .u32, acc := .rc } ]},  -- PTP_DROPS
  -- Host servo (R388).
  { base := 0x8010, subs := [
      { n := 1, ty := (.dom 16777216), acc := .rc },  -- SAMPLES
      { n := 2, ty := .i64, acc := .wo, cond := .hostServo },  -- OFFSET_ADJ
      { n := 3, ty := .i64, acc := .wo, cond := .hostServo },  -- RATE_SET
      { n := 4, ty := .bool, acc := .rw, cond := .hostServo },  -- HOST_LOCKED
      { n := 5, ty := .u8, acc := .rw, dflt := 16, range := some (2, 255), cond := .hostServo } ]},  -- HOST_TIMEOUT
  -- Time triggers (R389).
  { base := 0x8020, count := 8, subs := [
      { n := 1, ty := .time80, acc := .rw },  -- TARGET
      { n := 2, ty := .u64, acc := .rw },  -- PERIOD
      { n := 3, ty := .u8, acc := .rw, dflt := 32, reserved := 192 },  -- ACTION
      { n := 4, ty := .bool, acc := .rw },  -- ARMED
      { n := 5, ty := .u32, acc := .ro },  -- FIRED
      { n := 6, ty := .u32, acc := .rc } ]},  -- LATE
  -- Time captures (R390).
  { base := 0x8030, count := 8, subs := [
      { n := 1, ty := .u16, acc := .rw, cond := .captureOff },  -- SOURCE
      { n := 2, ty := .bool, acc := .rw },  -- ENABLE
      { n := 3, ty := (.dom 16777216), acc := .rc },  -- ENTRIES
      { n := 4, ty := .u32, acc := .rc } ]},  -- OVERFLOWS
  -- PPS_OUT (R391).
  { base := 0x8040, subs := [
      { n := 1, ty := .u8, acc := .rw, dflt := 2, top := some 2 },  -- PPS_MODE
      { n := 2, ty := .u32, acc := .rw, dflt := 100000, range := some (1, 500000) },  -- PPS_WIDTH
      { n := 3, ty := .i32, acc := .rw, range := some (-1000000, 1000000) } ]},  -- PPS_OFFSET
  -- EVT pins (R497).
  { base := 0x8050, count := 8, subs := [
      { n := 1, ty := .u8, acc := .rws, top := some 4, cond := .idle },  -- MODE
      { n := 2, ty := .bool, acc := .ro },  -- LEVEL
      { n := 3, ty := .u32, acc := .rc } ]}  -- PULSES
  ]

/-- Link objects of the index map (R366). -/
def linkObjects : List ObjRow := [
  -- Memory settings (R285).
  { base := 0x9000, subs := [
      { n := 1, ty := .u8, acc := .rws, top := some 2, cond := .idleAllFree },  -- ORDER
      { n := 2, ty := .bool, acc := .rws, cond := .idleAllFree },  -- CHANNEL_SPLIT
      { n := 3, ty := .u8, acc := .rws, dflt := 10, range := some (6, 14), cond := .idle },  -- NR_LOG2
      { n := 4, ty := .u16, acc := .rws, dflt := 256, cond := .idle },  -- PD_TIMER
      { n := 5, ty := .u8, acc := .rws, dflt := 16, range := some (4, 64), cond := .idle },  -- BULK_SHARE
      { n := 6, ty := .u16, acc := .rws, dflt := 1250, range := some (125, 12500), cond := .idle },  -- ESCALATE_WINDOW
      { n := 7, ty := .u16, acc := .rws, dflt := 4800, cond := .step5 },  -- DATA_RATE
      { n := 8, ty := .u64, acc := .ro },  -- CAPACITY
      { n := 9, ty := .u32, acc := .ro },  -- PLANNING
      { n := 10, ty := .u32, acc := .rc } ]},  -- ADDRESS_FAULTS
  -- Memory channels (R286).
  { base := 0x9001, count := 2, subs := [
      { n := 1, ty := .bool, acc := .rws, cond := .step5 },  -- POPULATED
      { n := 2, ty := .u8, acc := .rws, dflt := 1, range := some (1, 2), cond := .step5 },  -- RANKS
      { n := 3, ty := .u8, acc := .rws, dflt := 1, range := some (1, 2), cond := .step5 },  -- STACK
      { n := 4, ty := .u8, acc := .rws, dflt := 8, cond := .step5 },  -- DEVICE_WIDTH
      { n := 5, ty := .u8, acc := .rws, dflt := 16, cond := .step5 },  -- DENSITY_GBIT
      { n := 6, ty := .u8, acc := .ro },  -- STATE
      { n := 7, ty := .u64, acc := .ro },  -- CAPACITY
      { n := 8, ty := (.dom 4096), acc := .rws, cond := .step5 },  -- TRAINING
      { n := 9, ty := .u32, acc := .rc },  -- PARITY_ALERTS
      { n := 10, ty := .u32, acc := .rc },  -- CRC_ALERTS
      { n := 11, ty := .u32, acc := .rc },  -- REPLAYS
      { n := 12, ty := .u32, acc := .rc } ]},  -- RETRAINS
  -- Subchannels (R287).
  { base := 0x9010, count := 4, subs := [
      { n := 1, ty := .u32, acc := .rc },  -- CE
      { n := 2, ty := .u32, acc := .rc },  -- UE_RECOVERED
      { n := 3, ty := .u32, acc := .rc },  -- POISONED_LINES
      { n := 4, ty := .u32, acc := .rc },  -- SEAL_FAILS
      { n := 5, ty := .u64, acc := .ro },  -- LAST_BAD_ADDR
      { n := 6, ty := .u32, acc := .rc },  -- SPLITS
      { n := 7, ty := .u8, acc := .rc },  -- MAX_OWED
      { n := 8, ty := .u32, acc := .rc },  -- NEIGHBOUR_REFRESHES
      { n := 9, ty := .u32, acc := .rc } ]},  -- PD_ENTRIES
  -- Stagelink (R301).
  { base := 0xA000, subs := [
      { n := 1, ty := .u8, acc := .rw, dflt := 2, range := some (2, 3) },  -- VERSION_MIN
      { n := 2, ty := .u8, acc := .rw, dflt := 3, range := some (2, 3) },  -- VERSION_MAX
      { n := 3, ty := .u8, acc := .ro },  -- VERSION
      { n := 4, ty := .u8, acc := .ro },  -- STATE
      { n := 5, ty := .u8, acc := .ro },  -- RX_WIDTH
      { n := 6, ty := .u8, acc := .ro },  -- TX_WIDTH
      { n := 7, ty := .u8, acc := .rw, dflt := 75, range := some (55, 95) },  -- HOLD_HIGH
      { n := 8, ty := .u8, acc := .rw, dflt := 50, range := some (10, 85) },  -- HOLD_LOW
      { n := 9, ty := .u32, acc := .ro },  -- RX_BUFFER_USED
      { n := 10, ty := .u32, acc := .rc },  -- HOLD_OUT_COUNT
      { n := 11, ty := .u64, acc := .rc },  -- HOLD_IN_BEATS
      { n := 12, ty := .u32, acc := .rc },  -- RETRIES
      { n := 13, ty := .u32, acc := .rc },  -- CRC_ERRORS
      { n := 14, ty := .u32, acc := .rc },  -- DEGRADES
      { n := 15, ty := .u8, acc := .wo },  -- WIDTH_CHOICE
      { n := 16, ty := .u32, acc := .ro },  -- FAILED_LANES
      { n := 17, ty := .u8, acc := .wo, cond := .noBusySite } ]},  -- RESTORE
  -- Lanes (R302).
  { base := 0xA010, count := 16, subs := [
      { n := 1, ty := .u8, acc := .ro },  -- LANE_STATE
      { n := 2, ty := .u32, acc := .rc },  -- LOS_COUNT
      { n := 3, ty := .u32, acc := .rc },  -- LOL_COUNT
      { n := 4, ty := .u32, acc := .rc },  -- BLOCK_ERRORS
      { n := 5, ty := .i8, acc := .ro } ]},  -- SKEW_UI
  -- Chain (R313).
  { base := 0xA100, subs := [
      { n := 1, ty := .u8, acc := .rws, top := some 2, cond := .noBusySite },  -- ROLE
      { n := 2, ty := .u8, acc := .rws, range := some (0, 32), cond := .noBusySite },  -- IN_CABLE_BEATS
      { n := 3, ty := .u8, acc := .wo, cond := .convoyHead },  -- COMMAND
      { n := 4, ty := .u8, acc := .ro },  -- LINK_STATE
      { n := 5, ty := .u8, acc := .ro },  -- ALIGN_STATE
      { n := 6, ty := .u8, acc := .ro, dflt := 255 },  -- POSITION
      { n := 7, ty := .u8, acc := .ro },  -- CHAIN_LENGTH
      { n := 8, ty := .u8, acc := .ro },  -- LAP_BEATS
      { n := 9, ty := .u32, acc := .rc },  -- WORDS_LOST
      { n := 10, ty := .u32, acc := .rc },  -- ABORTS_SENT
      { n := 11, ty := .u32, acc := .rc },  -- ABORTS_RECEIVED
      { n := 12, ty := .u32, acc := .ro } ]},  -- AGREEMENTS
  -- Lane map (R314).
  { base := 0xA101, subs := [
      { n := 1, last := 8, ty := .u8, acc := .rws, dflt := 255, cond := .laneFree } ]}  -- LANE_0–LANE_7
  ]

/-- Control objects of the index map (R366). -/
def controlObjects : List ObjRow := [
  -- Calibration summary (R412).
  { base := 0xB000, subs := [
      { n := 1, last := 5, ty := .u32, acc := .ro },  -- COUNT_0–COUNT_4
      { n := 6, last := 10, ty := .time80, acc := .ro },  -- LAST_0–LAST_4
      { n := 11, last := 15, ty := .u8, acc := .ro },  -- RESULT_0–RESULT_4
      { n := 16, ty := (.oct 48), acc := .ro },  -- CAL_HASH
      { n := 17, ty := .u32, acc := .ro },  -- CAL_EPOCH
      { n := 18, ty := .u8, acc := .ro },  -- CAL_STATE
      { n := 19, ty := .bool, acc := .ro } ]},  -- TEMP_DEPARTED
  -- Calibration settings (R413).
  { base := 0xB001, subs := [
      { n := 1, ty := .u8, acc := .rw, dflt := 4, range := some (1, 250) },  -- TIMING_SLEW
      { n := 2, ty := .u8, acc := .rw, dflt := 10, range := some (1, 100) },  -- LEVEL_SLEW
      { n := 3, ty := .bool, acc := .rw, dflt := 1 },  -- DRIFT_ENABLE
      { n := 4, ty := .u32, acc := .rw, dflt := 12500, range := some (1250, 1250000) },  -- DRIFT_PERIOD
      { n := 5, ty := .u16, acc := .rw, dflt := 160, range := some (20, 400) },  -- DRIFT_LIMIT
      { n := 6, ty := .u32, acc := .ro },  -- DRIFT_UPDATES
      { n := 7, ty := .u32, acc := .rc } ]},  -- DRIFT_DISCARDS
  -- Calibration runs (R414).
  { base := 0xB002, subs := [
      { n := 1, ty := .u8, acc := .wo },  -- COMMAND
      { n := 2, ty := .u8, acc := .rw, dflt := 31, reserved := 224 },  -- DOMAINS
      { n := 3, ty := .u64, acc := .rw },  -- PINS
      { n := 4, ty := .u8, acc := .ro },  -- RUN_STATE
      { n := 5, ty := .u32, acc := .ro },  -- STEPS_DONE
      { n := 6, ty := .u32, acc := .ro },  -- STEPS_TOTAL
      { n := 7, ty := .u32, acc := .rc },  -- RETRIES
      { n := 8, ty := .u32, acc := .rc } ]},  -- KEPT_OLD
  -- Blob (R415).
  { base := 0xB010, subs := [
      { n := 1, ty := (.dom 16777216), acc := .rws, cond := .blob },  -- BLOB
      { n := 2, ty := .u8, acc := .ro },  -- IMPORT_RESULT
      { n := 3, ty := .u32, acc := .ro },  -- EXPORTS
      { n := 4, ty := .time80, acc := .ro } ]},  -- LAST_EXPORT
  -- Ageing (R415).
  { base := 0xB020, subs := [
      { n := 1, last := 8, ty := .i32, acc := .ro },  -- SLOWDOWN_0–SLOWDOWN_7
      { n := 9, ty := .i32, acc := .ro } ]},  -- AGE_PPM
  -- Margin (R415).
  { base := 0xB030, subs := [
      { n := 1, ty := .u16, acc := .ro, dflt := 24 },  -- MARGIN_TU
      { n := 2, ty := .u8, acc := .ro } ]},  -- MARGIN_PIN
  -- Host arithmetic (R416).
  { base := 0xB040, subs := [
      { n := 1, ty := (.dom 16777216), acc := .rc },  -- MEASUREMENTS
      { n := 2, ty := (.dom 16777216), acc := .wo, cond := .hostCal },  -- COEFFS
      { n := 3, ty := .u32, acc := .rw, dflt := 1000, range := some (10, 60000), cond := .hostCal } ]},  -- CAL_HOST_TIMEOUT
  -- Passport (R437).
  { base := 0xC000, subs := [
      { n := 1, ty := .u8, acc := .ro },  -- PASSPORT_STATE
      { n := 2, ty := .u8, acc := .ro },  -- DERIVE_ATTEMPTS
      { n := 3, ty := (.oct 97), acc := .ro },  -- PUBLIC_KEY
      { n := 4, ty := (.oct 16), acc := .ro },  -- BOOT_NONCE
      { n := 5, ty := (.oct 48), acc := .ro },  -- BOOT_HASH
      { n := 6, ty := .u8, acc := .ro },  -- NONCE_POOL
      { n := 7, ty := .u8, acc := .ro } ]},  -- ENTROPY_STATE
  -- Sealing settings (R438).
  { base := 0xC001, subs := [
      { n := 1, ty := .u32, acc := .rws, dflt := 12500, range := some (10000, 125000000), cond := .idle },  -- SEAL_INTERVAL
      { n := 2, ty := .u8, acc := .rw, dflt := 3, range := some (1, 255), reserved := 252 },  -- ROUTES
      { n := 3, ty := .u8, acc := .rw, range := some (0, 254) },  -- VERDICT_DST
      { n := 4, ty := .u16, acc := .rw, dflt := 10, range := some (1, 1000) } ]},  -- RESEND_MS
  -- Sealing status (R439).
  { base := 0xC002, subs := [
      { n := 1, ty := .u64, acc := .ro, dflt := 18446744073709551615 },  -- BATCH_SEQ
      { n := 2, ty := .u64, acc := .ro },  -- RECORDS_SEALED
      { n := 3, ty := .u64, acc := .ro },  -- NEXT_RUN_SEQ
      { n := 4, ty := .u32, acc := .ro },  -- UNEXPORTED
      { n := 5, ty := .u64, acc := .wo },  -- ACK_BATCH
      { n := 6, ty := .u32, acc := .rc },  -- STORE_FULL
      { n := 7, ty := (.oct 48), acc := .ro },  -- LAST_ROOT
      { n := 8, ty := .u8, acc := .ro } ]},  -- BACKLOG
  -- Line seals (R440).
  { base := 0xC010, subs := [
      { n := 1, ty := .u32, acc := .ro },  -- EPOCH
      { n := 2, ty := .u32, acc := .rw },  -- FLOOR
      { n := 3, ty := .u8, acc := .wo, cond := .epochRoom },  -- COMMAND
      { n := 4, ty := .u64, acc := .ro } ]},  -- LINES_SEALED
  -- Load windows (R441).
  { base := 0xC020, count := 32, subs := [
      { n := 1, ty := .u64, acc := .rws, cond := .windowFree },  -- BASE
      { n := 2, ty := .u64, acc := .rws, cond := .windowFree },  -- BYTES
      { n := 3, ty := .u8, acc := .wo },  -- COMMAND
      { n := 4, ty := .u8, acc := .ro },  -- STATE
      { n := 5, ty := .u64, acc := .ro },  -- RECEIVED
      { n := 6, ty := (.oct 48), acc := .ro },  -- DIGEST
      { n := 7, ty := .u64, acc := .ro } ]},  -- BOUND
  -- Site measurements (R442).
  { base := 0xC100, count := 64, subs := [
      { n := 1, ty := .u64, acc := .ro, dflt := 18446744073709551615 },  -- RUN_SEQ
      { n := 2, ty := (.oct 48), acc := .ro },  -- ITIN_HASH
      { n := 3, ty := (.oct 48), acc := .ro },  -- VEC_HASH
      { n := 4, ty := (.oct 48), acc := .ro },  -- TSET_HASH
      { n := 5, ty := (.oct 48), acc := .ro },  -- SERIAL_HASH
      { n := 6, ty := (.oct 48), acc := .ro },  -- SETUP_HASH
      { n := 7, ty := .u8, acc := .ro } ]},  -- MEASURED
  -- Notification enable (R447).
  { base := 0xD000, subs := [
      { n := 1, last := 32, ty := .u64, acc := .rw } ]},  -- ENABLE_0–ENABLE_31
  -- Log mask (R448).
  { base := 0xD001, subs := [
      { n := 1, last := 32, ty := .u64, acc := .rw, dflt := 18446744073709551615 } ]},  -- LOG_0–LOG_31
  -- Source window (R449).
  { base := 0xD010, subs := [
      { n := 1, ty := .u16, acc := .rw, range := some (0, 2047) },  -- SELECT
      { n := 2, ty := .u8, acc := .rw },  -- SEVERITY
      { n := 3, ty := .u32, acc := .rc },  -- COUNT
      { n := 4, ty := .time80, acc := .ro },  -- LAST_TIME
      { n := 5, ty := .bool, acc := .ro },  -- PENDING
      { n := 6, ty := .bool, acc := .wo } ]},  -- RAISE
  -- Guestbook window (R452).
  { base := 0xD100, subs := [
      { n := 1, ty := .u32, acc := .ro },  -- NEXT_SEQ
      { n := 2, ty := .u32, acc := .ro },  -- OLDEST_SEQ
      { n := 3, ty := .u32, acc := .rw },  -- START_SEQ
      { n := 4, ty := (.dom 4096), acc := .ro },  -- ENTRIES
      { n := 5, ty := .u32, acc := .rc },  -- OVERWRITTEN
      { n := 6, ty := .u32, acc := .wo } ]},  -- TAIL
  -- Fault handler (R464).
  { base := 0xD200, subs := [
      { n := 1, ty := .u8, acc := .ro },  -- QUEUE_DEPTH
      { n := 2, ty := .u8, acc := .rc },  -- QUEUE_PEAK
      { n := 3, ty := .u32, acc := .rc },  -- HANDLED
      { n := 4, ty := .u32, acc := .rc },  -- ESCALATIONS
      { n := 5, ty := .u32, acc := .rc },  -- MERGED
      { n := 6, ty := .u32, acc := .rc },  -- INTERRUPTION_MAX
      { n := 7, ty := (.dom 16777216), acc := .ro },  -- QUEUE
      { n := 8, ty := (.oct 16), acc := .ro },  -- CURRENT
      { n := 9, ty := .u32, acc := .rc } ]},  -- LATER_FAULTS
  -- Host decisions (R466).
  { base := 0xD201, subs := [
      { n := 1, ty := .u8, acc := .ro },  -- RESOURCE
      { n := 2, ty := .u8, acc := .ro },  -- HW_LEVEL
      { n := 3, ty := .u16, acc := .ro },  -- ALLOWED
      { n := 4, ty := .u8, acc := .wo },  -- DECISION
      { n := 5, ty := .u64, acc := .ro },  -- DEADLINE_FRAME
      { n := 6, ty := .u32, acc := .rc } ]},  -- LATE_ANSWERS
  -- Forerunner view (R411).
  { base := 0xE000, subs := [
      { n := 1, ty := .u16, acc := .ro, dflt := 12 },  -- GUARD_HALF_PS
      { n := 2, ty := .u8, acc := .ro },  -- AGE_INDEX
      { n := 3, ty := .u32, acc := .ro, dflt := 4294967295 },  -- CAL_AGE_MIN
      { n := 4, ty := .i8, acc := .ro },  -- TEMP_C
      { n := 5, ty := .u8, acc := .ro, dflt := 2 } ]}  -- STATUS
  ]

/-- Every assigned index (R366). -/
def dictionary : List ObjRow :=
  deviceObjects ++ pinObjects ++ siteObjects ++ innkeeperObjects ++ acquisitionObjects ++ timeObjects ++ linkObjects
    ++ controlObjects

/-- Whether the family covers an index. -/
def ObjRow.covers (o : ObjRow) (index : Nat) : Bool :=
  o.base ≤ index && (index - o.base) % o.stride == 0 && (index - o.base) / o.stride < o.count

/-- The object at an index, if one is assigned (R342). -/
def findObj (index : Nat) : Option ObjRow := dictionary.find? (·.covers index)

/-- Which member of its family an index is: the site, pin, engine or unit number. -/
def objNumber (index : Nat) : Nat :=
  match findObj index with
  | some o => (index - o.base) / o.stride
  | none => 0

/-- The highest subindex an object defines (R342). -/
def ObjRow.top (o : ObjRow) : Nat := o.subs.foldl (fun m r => max m (max r.n r.last)) 0

/-- The row of a sub, if it is defined. -/
def ObjRow.findSub (o : ObjRow) (sub : Nat) : Option SubRow :=
  o.subs.find? fun r => r.n ≤ sub && sub ≤ max r.n r.last

/-- The row of index:sub, sub 00 included (R342). -/
def findSub (index sub : Nat) : Option SubRow :=
  match findObj index with
  | none => none
  | some o => if sub = 0 then some { n := 0, ty := .u8, acc := .ro, dflt := o.top } else o.findSub sub

/-- The key of index:sub in the stores of values. -/
def objKey (index sub : Nat) : Nat := index * 256 + sub

/-- LOW and HIGH of the supply monitors (R206), in µV. -/
def supplyDefault (m sub : Nat) : Int :=
  let row : Int × Int := match m with
    | 0 => (712500, 787500) | 1 => (760000, 840000) | 2 => (807500, 892500) | 3 => (1045000, 1155000)
    | 4 => (1140000, 1260000) | 5 => (1425000, 1575000) | 6 => (1710000, 1890000) | 7 => (990000, 1010000)
    | _ => (-2000, 2000)
  if sub = 1 then row.1 else row.2

/-- Bytes of a fixed-width type (R343); 0 where the length varies. -/
def Ty.bytes : Ty → Nat
  | .bool | .u8 | .i8 => 1
  | .u16 | .i16 => 2
  | .u32 | .i32 | .r32 => 4
  | .u64 | .i64 | .tu64 => 8
  | .time80 => 10
  | .oct n => n
  | .vis _ | .dom _ => 0

/-- Whether a type's values are held as numbers. -/
def Ty.numeric : Ty → Bool
  | .oct _ | .vis _ | .dom _ => false
  | _ => true

/-- Whether a type is read as two's complement. -/
def Ty.signed : Ty → Bool
  | .i8 | .i16 | .i32 | .i64 => true
  | _ => false

/-- The longest value of a type of varying length. -/
def Ty.limit : Ty → Nat
  | .vis n | .dom n => n
  | t => t.bytes

end Sys2Proof.Machine
end

