-- ==== Sys2Proof/Machine/Table.lean ====
section
/-! DEFINITION. Sparse maps in one canonical form: keys strictly rising, no entry equal to the default. -/

namespace Sys2Proof.Machine

/-- The value at a key, the default where no entry lists it. -/
def Table.get {α : Type} (d : α) : Table α → Nat → α
  | [], _ => d
  | (k, v) :: t, i => if k = i then v else Table.get d t i

/-- The table without the entry of a key. -/
def Table.erase {α : Type} : Table α → Nat → Table α
  | [], _ => []
  | (k, v) :: t, i => if k = i then t else (k, v) :: Table.erase t i

/-- The table with a key bound to a value, in rising order. -/
def Table.insert {α : Type} : Table α → Nat → α → Table α
  | [], i, x => [(i, x)]
  | (k, v) :: t, i, x =>
    if i < k then (i, x) :: (k, v) :: t
    else if k = i then (i, x) :: t
    else (k, v) :: Table.insert t i x

/-- The table with a key set: the default removes the entry. (log 12, DESIGN CHOICE) -/
def Table.set {α : Type} [DecidableEq α] (d : α) (t : Table α) (i : Nat) (x : α) : Table α :=
  if x = d then Table.erase t i else Table.insert t i x

/-- The canonical form: keys strictly rising from a bound, no entry equal to the default. -/
def Table.wfFrom {α : Type} [DecidableEq α] (d : α) : Nat → Table α → Bool
  | _, [] => true
  | lo, (k, v) :: t => decide (lo ≤ k) && decide (v ≠ d) && Table.wfFrom d (k + 1) t

/-- The canonical form of a table. -/
def Table.wf {α : Type} [DecidableEq α] (d : α) (t : Table α) : Bool := Table.wfFrom d 0 t

/-- Every listed value changed; entries that become the default leave the table. -/
def Table.map {α : Type} [DecidableEq α] (d : α) (f : Nat → α → α) (t : Table α) : Table α :=
  t.filterMap fun e => let v := f e.1 e.2; if v = d then none else some (e.1, v)

/-- The keys listed. -/
def Table.keys {α : Type} (t : Table α) : List Nat := t.map (·.1)

end Sys2Proof.Machine
end

