-- ==== Sys2Proof/Machine/Types.lean ====
section
/-! DEFINITION. The parts of the state, chapter by chapter of the spec. -/

namespace Sys2Proof.Machine

/-! ### Device and clocks -/

/-- What the device is doing; IDLE and RUNNING of 0x2000:01 are both `service` (R360). -/
inductive DevMode where
  | off | coldStart | warmStart | service | sleep | safeHalt
  deriving DecidableEq, Repr

/-- REFCLK as its presence detector judges it (R11, R12). -/
inductive RefState where
  | absent | present | outside
  deriving DecidableEq, Repr

/-- A PLL (R12). -/
inductive PllState where
  | unlocked | locked | holdover | off
  deriving DecidableEq, Repr

/-- Clocks and counters (R10-R14). `presentFor` and `lostFor` count frames since REFCLK was last declared present or lost. -/
structure Clocks where
  c : Nat := 0
  phase : Nat := 0
  frames : Nat := 0
  ref : RefState := .absent
  beat : PllState := .unlocked
  me : PllState := .unlocked
  dram : PllState := .unlocked
  presentFor : Nat := 0
  lostFor : Nat := 0
  longHoldover : Bool := false
  deriving DecidableEq, Repr

/-- The start, sleep or wake in progress, and the pins that cause them (R468-R481): the step and TYPE of a start, FAILED_COLD, whether
SAFE_HALT follows at the next tick and whether a power warning asks for it, PWR_WARN_N, RESET_N, WARM_N and TEST_EN (R487) as they
stand, the tick of
a SLEEP request that drains, the step of a wake, the vendor entries written since the last header, the frames that DURATION has counted of the start (R362, R470), and
whether DDRc_DRST_N is high (R501). -/
structure Start where
  step : Nat := 0
  type : Nat := 1
  failedCold : Nat := 0
  halt : Bool := false
  warning : Bool := false
  warningPin : Bool := false
  resetLow : Bool := false
  warmLow : Bool := false
  testEn : Bool := false
  sleepAsked : Option Nat := none
  wakeStep : Nat := 0
  entries : List Nat := []
  headerFresh : Bool := false
  ran : Nat := 0
  drst : Bool := false
  deriving DecidableEq, Repr

/-! ### Sites -/

/-- Site states (R28). -/
inductive SiteState where
  | free | loaded | ready | running | waiting | halted | faulted | sealed
  deriving DecidableEq, Repr

/-- The code of a site state (R28). -/
def SiteState.code : SiteState → Nat
  | .free => 0 | .loaded => 1 | .ready => 2 | .running => 3 | .waiting => 4 | .halted => 5 | .faulted => 6 | .sealed => 7

/-- Effects that an instruction places at the start of the next pattern vector (R44). -/
inductive Rider where
  | cap (action cls : Nat)
  | mark (w : Word32)
  | meas (d : Nat) (summary : Bool)
  | trig (unit action : Nat)
  | serialEnter (cfg : Nat)
  | serialLeave (cfg : Nat)
  deriving DecidableEq, Repr

/-- What a descriptor asks for (R77), a WAIT on PTP time whose span is fixed when it is reached (R54), a MATCH block (R52), the
point where the continuation of a drain point waits for its resume tick (R51), or an effect riding in emission order (R44). -/
inductive DescKind where
  | stream (first count : Nat)
  | repeat (count : Nat)
  | literal (data : Word32) (a1 a0 count slot : Nat)
  | hold (span : Nat)
  | until (beat : Nat)
  | period (p : Nat)
  | tset (k : Nat)
  | block (first len : Nat)
  | barrier (tick : Nat)
  | rider (r : Rider)
  deriving DecidableEq, Repr

/-- A descriptor: released by the END of the run of its context, or provisional (R77). -/
structure Desc where
  kind : DescKind
  epoch : Nat := 0
  taint : Bool := false
  released : Bool := false
  ctx : Nat := 0
  flip : BitVec 72 := 0
  deriving DecidableEq, Repr

/-- A run entry (R133, R134): vectors started so far, line reads issued, codewords arrived and blocks delivered. `skip` lists the
pins that stream serial data and take no slot (R172), `stop` the end of a MATCH block whose MATCH has completed (R53). `flip` is the error pattern of its stored
codeword (R149). -/
structure Run where
  kind : DescKind
  epoch : Nat := 0
  taint : Bool := false
  serial : Nat := 0
  done : Nat := 0
  issued : Nat := 0
  arrived : Table (List Codeword) := []
  delivered : Nat := 0
  skip : List Nat := []
  stop : Option Nat := none
  flip : BitVec 72 := 0
  deriving DecidableEq, Repr

/-- A slot of a pin FIFO (R133). -/
structure Slot where
  word : Codeword := {}
  first : Nat := 0
  last : Nat := 15
  checked : Bool := false
  deriving DecidableEq, Repr

/-- A strobe placed on the timeline and not yet sampled (R165, R193): its time, pin, expected code, and V(RXP) and V(RXN) in µV at the two
sampling instants (R188). -/
structure Strobe where
  time : Nat
  pin : Nat
  expected : Nat
  vth : Option Int := none
  vtl : Option Int := none
  nth : Int := 0
  ntl : Int := 0
  vector : Nat := 0
  epoch : Nat := 0
  iter : Option Nat := none
  deriving DecidableEq, Repr

/-- A judged strobe, bit or other fail waiting for its commit tick (R41). -/
structure Judged where
  due : Nat
  pin : Option Nat
  code : Nat := 3
  expected : Nat := 1
  fail : Bool := false
  strobe : Bool := true
  vector : Nat := 0
  time : Nat := 0
  epoch : Nat := 0
  iter : Option Nat := none
  deriving DecidableEq, Repr

/-- A pattern vector whose STROBE sample is not yet taken (R211, R214): its number, start, frame-closing tick, period, whether it belongs to a
MATCH block, and its fail epoch (R42). -/
structure VecMark where
  vector : Nat
  time : Nat
  due : Nat
  period : Nat := 0
  block : Bool := false
  epoch : Nat := 0
  deriving DecidableEq, Repr

/-- Drain points (R50). -/
inductive DrainKind where
  | jfail (sense : Bool) (target : Nat) (pop : Nat) (clrf : Bool)
  | match
  | sync
  | seal (bin : Nat) (idsrc : Bool)
  | halt
  deriving DecidableEq, Repr

/-- The drain point a thread is held at (R50) and, for SEAL, the tick of its decision. `index` is its instruction. -/
structure Drain where
  kind : DrainKind
  entered : Nat := 0
  decided : Option Nat := none
  index : Nat := 0
  deriving DecidableEq, Repr

/-- A MATCH in progress (R52, R53): block, masked pins with the code each awaits, timeout, start tick, iterations started,
and the codes its iterations have committed: (2^32 × base + iteration, pin, code). (log 33, DEDUCED) -/
structure MatchRun where
  first : Nat
  len : Nat
  masked : List (Nat × Nat) := []
  timeout : Nat := 0
  firstTick : Option Nat := none
  iters : Nat := 0
  codes : List (Nat × Nat × Nat) := []
  base : Nat := 0
  deriving DecidableEq, Repr

/-- A SYNC in progress (R57, R58). `clrf` says that a new fail epoch begins once its vote has been taken (R42). -/
structure SyncRun where
  id : Nat
  comb : Bool
  vote : Nat
  timeout : Nat
  posted : Option Nat := none
  value : Bool := false
  latest : Option (Nat × Bool) := none
  clrf : Bool := false
  deriving DecidableEq, Repr

/-- Micro-registers, flags, micro-stack and PC: the part of a context that a snapshot or a save slot holds (R64, R68). -/
structure MicroState where
  m : List Word32 := List.replicate 16 0
  pc : BitVec 16 := 0
  z : Bool := false
  n : Bool := false
  c : Bool := false
  v : Bool := false
  stack : List (BitVec 16) := []
  deriving DecidableEq, Repr

/-- The thread of a site: its place in the itinerary, stacks and pointers (R45-R48, R76 space 3). `reached` says that its instruction has
been reached, its COND found true, and that it waits for room in the descriptor queue (R40); `fresh` is the tick of the barrier that its last
drain point has left, until it executes an instruction other than EVENT (R44). -/
structure Thread where
  idx : Nat := 0
  vp : Nat := 0
  loops : List (Nat × Nat) := []
  calls : List (Nat × Nat) := []
  vecLeft : Option Nat := none
  custom : Bool := false
  epoch : Nat := 0
  pending : BitVec 8 := 0
  period : Option Nat := none
  tset : Nat := 0
  checked : Option (Nat × Nat) := none
  knownHold : Nat := 0
  blurred : Bool := false
  crossed : List Nat := []
  inSerial : List (Nat × Nat) := []
  anyPattern : Bool := false
  yielded : Bool := false
  reached : Bool := false
  fresh : Option Nat := none
  internal : Bool := false
  limit : Nat := 512
  aux : Table Word32 := []
  deriving DecidableEq, Repr

/-- The site on its timeline, in tu from its first tick (R17, R135, R147). `parkLog` holds when its pins were parked and unparked, newest
first, as far back as the open frame needs it (R145); `epochs` the vectors at which the fail epoch changed and `periods` those at which the period did, newest first, by their starts
(R42); `dead` says that the timeline has been cut, so that nothing more of the run plays (R36, R148). -/
structure Playback where
  tu : Nat := 0
  period : Nat := 0
  tset : Nat := 0
  vectors : Nat := 0
  holdTu : Nat := 0
  starveTu : Nat := 0
  starvedFrom : Option Nat := none
  parkLog : List (Nat × Bool) := []
  epochs : List (Nat × Nat) := []
  periods : List (Nat × Nat) := []
  lastEnd : Nat := 0
  fetch : Nat := 0
  lead : Option Nat := none
  exposed : Bool := false
  holdDone : Nat := 0
  dead : Bool := false
  deriving DecidableEq, Repr

/-- What 0x3403 + 16s shows of a live site: its values as at the last tick (R34). -/
structure Shown where
  idx : Nat := 0
  vectors : Nat := 0
  holdTu : Nat := 0
  flags : Nat := 0
  epoch : Nat := 0
  matchIter : Nat := 0
  lateWaits : Nat := 0
  deriving DecidableEq, Repr

/-- A site (R24-R62). `riders` are the effects that wait for a pattern vector, each with the start of the first hold span since (R44);
`bitsDue` is the commit tick of the last serial bit compared (R178), `agreed` the Convoy agreements reached (R79), `lastSync` the last of
them with its agreement tick (R310), and `issued` says that
the thread has issued in the frame that is open, `issuedLast` that it had in the one before (R115). `atResume` lists sources that wait for the
resume tick of a barrier, each with the tick of that barrier (R44), `marked` the definitions that a MEAS with SUMMARY has marked (R258). -/
structure Site where
  st : SiteState := .free
  startAsked : Bool := false
  f0 : Nat := 0
  flags : BitVec 8 := 0
  haltAsked : Bool := false
  halted : Bool := false
  deferred : Option Bool := none
  abort : Option Nat := none
  thread : Thread := {}
  play : Playback := {}
  queue : List Desc := []
  runs : List Run := []
  block : List (List Codeword) := []
  strobes : List Strobe := []
  judged : List Judged := []
  recent : List Judged := []
  vecs : List VecMark := []
  drain : Option Drain := none
  runSerial : Nat := 0
  riders : List (Rider × Option Nat) := []
  bitsDue : Nat := 0
  mtch : Option MatchRun := none
  sync : Option SyncRun := none
  playout : Bool := false
  scratch : Table Word32 := []
  identity : Table Word32 := []
  saved : MicroState := {}
  home : Option Nat := none
  admitted : Nat := 0
  cycles : Nat := 0
  overran : Bool := false
  recalled : Bool := false
  length : Nat := 0
  armedMeas : List (Nat × Bool) := []
  results : List (Nat × List Byte) := []
  incomplete : List Nat := []
  form : Option (Nat × Nat) := none
  worst : Nat := 0
  startTime : Nat := 0
  custHash : List Byte := List.replicate 48 0
  failed : Bool := false
  records : List Nat := []
  agreed : List Nat := []
  lastSync : Option (Nat × SyncRun) := none
  issued : Bool := false
  issuedLast : Bool := false
  atResume : List (Nat × Nat) := []
  marked : List Nat := []
  shown : Shown := {}
  deriving DecidableEq, Repr

/-! ### Pins -/

/-- Driver states (R158, R169). -/
inductive DriveState where
  | off | low | high | serial
  deriving DecidableEq, Repr

/-- A timing set on a pin (R156, R161). -/
inductive SetStatus where
  | absent | valid | rejected
  deriving DecidableEq, Repr

/-- The contents of one timing set: 16 shapes of four codewords (R156). -/
structure TSet where
  status : SetStatus := .absent
  shapes : List (List Codeword) := []
  deriving DecidableEq, Repr

/-- The receiver of a serial session (R177, R178). -/
inductive RxState where
  | off | acquiring | locked
  deriving DecidableEq, Repr

/-- The fetch of a serial stream for one session of a pin (R172): the number of the session, its source, the lines read, the codewords that
arrived ahead of their turn and those delivered and not yet sent, and its fetch state with its lead as at the last tick (R137). -/
structure Feed where
  no : Nat := 0
  cfg : Nat
  base : Nat
  words : Nat
  loop : Bool
  issued : Nat := 0
  delivered : Nat := 0
  arrived : Table (List Codeword) := []
  fifo : List Codeword := []
  fetch : Nat := 0
  lead : Option Nat := none
  deriving DecidableEq, Repr

/-- A word of a MICRO source (R173): the run of its literal, the session it was taken for, and the start of its literal's first vector. -/
structure QWord where
  word : Word32
  run : Nat
  sess : Nat
  start : Option Nat := none
  deriving DecidableEq, Repr

/-- A serial session of a pin (R171-R180). `no` is its number among the sessions of the pin, `rest` the bits of a MICRO word that a park has
cut and the resumption sends first (R176), `rxBits` the bits received (R141), `capBit` the number of the first bit of the word being captured (R211). -/
structure Serial where
  cfg : Nat
  no : Nat := 0
  rest : Nat := 0
  rxBits : Nat := 0
  start : Nat := 0
  resumed : Nat := 0
  sentAt : Nat := 0
  sent : Nat := 0
  lfsr : Nat := 0
  streamed : Nat := 0
  slots : Nat := 0
  current : Word32 := 0
  lastBit : Bool := false
  rx : RxState := .off
  seeking : List Bool := []
  aligned : Bool := false
  rxLfsr : Nat := 0
  rxPos : Nat := 0
  checked : Nat := 0
  window : List Bool := []
  lockBy : Option Nat := none
  underran : Bool := false
  holdUntil : Nat := 0
  paused : Bool := false
  exitAt : Option Nat := none
  capture : List Bool := []
  capBit : Option Nat := none
  deriving DecidableEq, Repr

/-- Monitor states (R202). -/
inductive MonState where
  | off | undecided | inside | below | above
  deriving DecidableEq, Repr

/-- The code of a monitor state: 0 while off (R201, R202). -/
def MonState.code : MonState → Nat
  | .off => 0 | .undecided => 1 | .inside => 2 | .below => 3 | .above => 4

/-- A pin slice. `fetchCfg` is the configuration that governs it in the order of fetching and `fetchNo` the number of entries so fetched;
`sessions` is the number of sessions started, `awaiting` a configuration whose session starts at the next pattern vector and `sessionAt` the
start of that vector (R172-R174). `parks` holds when slots played as PARK began and ended, newest first (R149), `dac` the codes of VOH, VOL
and VTT (R169). `shown` is DRIVE_STATE as at the last tick (R169). `monWas` lists the changes of the monitor in the open frame: the beat and
what MON_STATE was before it (R211); `heldWas` the changes of the held decisions: the time in tu of the raw counter and the decisions before
it (R193); `runWas` the changes of which comparators run continuously, likewise; `lastEdge` the state that the pin's last transition left it in
and its time on the site's timeline in fs, its correction included (R168); `monSeen` is the raw beat since which the decisions indicate the same state (R203). -/
structure Pin where
  drive : DriveState := .off
  events : List (Nat × DriveState) := []
  heldTh : Option Bool := none
  heldTl : Option Bool := none
  fifo : List Slot := []
  lastCode : Nat := 0
  sets : Table TSet := []
  serial : Option Serial := none
  feeds : List Feed := []
  fetchCfg : Option Nat := none
  fetchNo : Nat := 0
  sessions : Nat := 0
  words : List QWord := []
  awaiting : Option Nat := none
  sessionAt : Option Nat := none
  mon : MonState := .off
  monSince : Nat := 0
  monWas : List (Nat × Nat) := []
  monSeen : Nat := 0
  heldWas : List (Nat × Option Bool × Option Bool) := []
  runWas : List (Nat × Bool × Bool) := []
  lastEdge : Option (DriveState × Int) := none
  parks : List (Nat × Bool) := []
  dac : List Nat := [2731, 0, 0]
  edges : List (Bool × Bool × Nat) := []
  gatesTh : Nat := 0
  gatesTl : Nat := 0
  stickyEpoch : Nat := 0
  shown : Nat := 0
  deriving DecidableEq, Repr

/-! ### Contexts and the control store -/

/-- Context states (R65). -/
inductive CtxState where
  | free | ready | issuing | waiting | saving | retired
  deriving DecidableEq, Repr

/-- A FETCH whose data has not arrived (R75): the pair, the byte address of the word, the address of the FETCH, its tick, and how many
younger requests have passed it (R275). -/
structure FetchPend where
  pair : Nat
  addr : Nat
  pc : BitVec 16
  since : Nat := 0
  passed : Nat := 0
  deriving DecidableEq, Repr

/-- A WAITC in progress (R79): condition, operand, frame of issue and last frame. -/
structure Wait where
  cond : Nat
  arg : Word32
  since : Nat
  deadline : Option Nat := none
  deriving DecidableEq, Repr

/-- A hardware context (R64). `restarted` says that the run under way repeats one that R91 abandoned, `before` what its thread was before
the run's first provisional descriptor, for a run that is abandoned. `orphan` is the site of a thread that has ended in the middle of a
customer run, which goes on to its END (R82, R116). `readySince` counts as `Inn.clock` does (R66). -/
structure Ctx where
  st : CtxState := .free
  ms : MicroState := {}
  run : Nat := 0
  fault : Option (Nat × BitVec 16) := none
  taint : Bool := false
  snap : MicroState := {}
  restarted : Bool := false
  owner : Option Nat := none
  orphan : Option Nat := none
  task : Bool := false
  cust : Bool := false
  limit : Nat := 512
  fetch : List FetchPend := []
  wait : Option Wait := none
  stalled : Bool := false
  readySince : Nat := 0
  effects : Bool := false
  tainted : Nat := 0
  events : List Nat := []
  before : Option Thread := none
  deriving DecidableEq, Repr

/-- States of the vendor half (R93). -/
inductive VendorState where
  | absent | header | verified | rejected
  deriving DecidableEq, Repr

/-- States of the customer half (R90). -/
inductive CustState where
  | empty | opened | closing | closed
  deriving DecidableEq, Repr

/-- The control store (R87-R93). An entry is held twice; `lost` lists entries with both copies uncorrectable. -/
structure Store where
  primary : Table Codeword := []
  mirror : Table Codeword := []
  lost : List Nat := []
  scrub : Nat := 0
  vendor : VendorState := .absent
  cust : CustState := .empty
  header : List Byte := []
  nextHash : List Byte := []
  deriving DecidableEq, Repr

/-! ### The Innkeeper -/

/-- Ledger entry states (R102). -/
inductive EntryState where
  | free | parked | ready | placed | armed | done | void
  deriving DecidableEq, Repr

/-- Kinds of Ledger entries (R101). -/
inductive EntryKind where
  | thread | task | measurement | record
  deriving DecidableEq, Repr

/-- The unit that posted a service task, which says what the task does (R103). -/
inductive Work where
  | none | sealPrep (run : Nat) | recordMeas (record : Nat) | packaging (record : Nat) | fault | housekeeping
  deriving DecidableEq, Repr

/-- Whether a task is of a site; fault handling and housekeeping are the engine's own. -/
def Work.ofSite (w : Work) : Bool := w != .fault && w != .housekeeping

/-- A Ledger entry (R101): its fields, and what a Caravan item holds until its release (R120). -/
structure Entry where
  state : EntryState := .free
  kind : EntryKind := .thread
  prio : Nat := 0
  caravan : Option Nat := none
  seq : Nat := 0
  site : Nat := 0
  service : Bool := false
  context : Nat := 0
  entry : Nat := 0
  arg : Word32 := 0
  old : Bool := false
  since : Nat := 0
  order : Nat := 0
  work : Work := .none
  events : List Nat := []
  deriving DecidableEq, Repr

/-- An engine post that its unit holds (R100, R119). `entry` is the entry of a record that becomes a packaging task (R103). -/
structure HeldPost where
  site : Nat
  prio : Nat
  work : Work
  caravan : Option Nat := none
  entry : Option Nat := none
  deriving DecidableEq, Repr

/-- A Caravan (R118-R121). -/
structure Caravan where
  next : Nat := 0
  head : Nat := 0
  outstanding : Nat := 0
  stalled : Nat := 0
  stallRaised : Bool := false
  deriving DecidableEq, Repr

/-- The Innkeeper's own registers (R100-R121): `clock` numbers micro-engine cycles in their order; `flips` are the error patterns of the
two stored codewords of entries (R104); `margin`, `high`, `ranks` and `engines` are STARVE_MARGIN, LEDGER_HIGH, HINT_RANK and HINT_ENGINE
as at the last tick (R122, R123). -/
structure Inn where
  sweep : Nat := 0
  flips : Table (BitVec 72 × BitVec 72) := []
  margin : Nat := 2
  high : Nat := 90
  ranks : Table Nat := []
  engines : Table Nat := []
  held : List HeldPost := []
  clock : Nat := 0
  highRaised : Bool := false
  rehome : List Nat := []
  threadCycles : Table Nat := []
  taskCycles : Table Nat := []
  deriving DecidableEq, Repr

/-! ### Acquisition -/

/-- A sample (R211-R213): number since START, COMMIT or the last change of rate, time in tu, content, frame taken, the period and the fail
epoch in force. -/
structure Sample where
  n : Nat
  time : Nat
  content : Nat := 0
  frame : Nat := 0
  period : Nat := 0
  epoch : Nat := 0
  deriving DecidableEq, Repr

/-- A marker entry (R236); `sample` is the number of the sample it stands at. -/
structure Marker where
  type : Nat
  sample : Nat
  value : Nat := 0
  time : Nat := 0
  deriving DecidableEq, Repr

/-- Where a record stands (R219, R239). -/
inductive RecStage where
  | opened | committed | measured | packaged | exported
  deriving DecidableEq, Repr

/-- A capture record (R234-R236). `order` is its place in the order in which records took space in the ring (R219); `flips` are the error
patterns of its codewords in the acquisition buffer, by their place after the header (R220); `unsent` says that it is packaged and its lines
wait to be read for export. -/
structure Rec where
  no : Nat := 0
  stage : RecStage := .opened
  site : Nat := 0
  cls : Nat := 0
  kind : Nat := 0
  rate : Nat := 0
  trigOffset : Nat := 0
  flags : BitVec 32 := 0
  preValid : Nat := 0
  samples : List Sample := []
  conditions : Nat := 0
  trigUnit : Nat := 255
  epoch : Nat := 0
  trigTime : Nat := 0
  trigBeats : Nat := 0
  commitFrame : Nat := 0
  dropped : Nat := 0
  markers : List Marker := []
  meas : List Nat := List.replicate 8 0
  left : Nat := 0
  addr : Nat := 0
  reserved : Nat := 0
  order : Nat := 0
  width : Nat := 2
  flips : Table (BitVec 72) := []
  unsent : Bool := false
  deriving DecidableEq, Repr

/-- Capture states and phases (R216, R224). -/
inductive CapState where
  | idle | capturing | paused
  deriving DecidableEq, Repr

/-- Phases of a capture (R224). -/
inductive CapPhase where
  | pre | post | holdoff
  deriving DecidableEq, Repr

/-- A capture (R211-R233). `validFrom` is the number of the first sample that may be pre-history (R224); `nextEntry` and
`nextBuffer` are what a START issued and not yet in effect has reserved (R216). `taken` holds the samples waiting for their frame to
close (R214), `preFrom` is the number of the first
sample taken in the present PRE (R240), `monFrom` the time from which a MONITOR capture has its samples still to take. `pend` holds the markers that wait for the first
sample at or after a time: type, value and time (R215). `flips` are the error patterns that the next record's codewords have in the
acquisition buffer (R220). `lost` says that the entry of the open record has been lost, `nextLost` that the one a START has reserved has
(R220). In the staging area (R218) stand `lines`, full lines on their way to vector memory by their addresses, and `part` bits of the line
at `lineAt`; `copying` bits of pre-trigger samples have still to pass. -/
structure Capture where
  st : CapState := .idle
  issued : CapState := .idle
  phase : CapPhase := .pre
  rate : Nat := 0
  cls : Nat := 0
  ring : List Sample := []
  markers : List Marker := []
  next : Nat := 0
  validFrom : Nat := 0
  rcd : Option Rec := none
  entry : Option Nat := none
  buffer : Nat := 0
  nextEntry : Option Nat := none
  nextBuffer : Nat := 0
  holdoffEnd : Nat := 0
  autoFrom : Option Nat := none
  forceAt : Option Nat := none
  forced : Bool := false
  hostAt : Option Nat := none
  candidates : List (Nat × Nat × Nat) := []
  stood : List (Nat × Nat) := []
  trail : List Sample := []
  taken : List Sample := []
  lastPeriod : Nat := 0
  preFrom : Nat := 0
  monFrom : Nat := 0
  pend : List (Nat × Nat × Nat) := []
  gap : Bool := false
  pressure : Bool := false
  lost : Bool := false
  nextLost : Bool := false
  lines : List Nat := []
  lineAt : Nat := 0
  part : Nat := 0
  copying : Nat := 0
  flips : Table (BitVec 72) := []
  deriving DecidableEq, Repr

/-- A trigger unit (R221-R230): active stage, samples met, occurrences waiting for their sample, and a FIRE waiting for
its sample time or frame. -/
structure TrigUnit where
  armed : Bool := false
  stage : Nat := 0
  met : Nat := 0
  event : Bool := false
  ext : List Nat := []
  time : Bool := false
  unit : Bool := false
  fireAt : Option Nat := none
  fireFrame : Option Nat := none
  fired : Bool := false
  deriving DecidableEq, Repr

/-! ### Measurements -/

/-- States of a definition (R260). -/
inductive MeasState where
  | idle | armed | gate | done
  deriving DecidableEq, Repr

/-- An edge of a pin in site time: its time in tu and the tap-exact beat it lies in. -/
abbrev EdgeTime := Nat

/-- A definition (R249-R257): its settings by sub of 0x7400, and its measurement. `conv` is the converter it holds, `closeAt` when its gate
closed while a vernier conversion went on (R255); `coinc` says that the edges of `pair` lie in one bin of 2 tu (R252), `spoilt` that the
conversion of the open FREQ gate is void, and `voids` counts the gates that ended so (R253, R254). -/
structure MeasDef where
  vals : Table Int := []
  st : MeasState := .idle
  site : Nat := 0
  entry : Option Nat := none
  conv : Option Nat := none
  published : Bool := false
  armAt : Option Nat := none
  openAt : Nat := 0
  quality : Nat := 0
  flags : Nat := 0
  start : Option EdgeTime := none
  stop : Option EdgeTime := none
  after : Nat := 0
  pair : Option (EdgeTime × EdgeTime) := none
  coinc : Bool := false
  closeAt : Option EdgeTime := none
  counting : Bool := false
  spoilt : Bool := false
  voids : Nat := 0
  edges : Nat := 0
  t0 : Option EdgeTime := none
  count : Nat := 0
  last : Rat := 0
  min : Rat := 0
  max : Rat := 0
  sum : Rat := 0
  sq : Rat := 0
  first : Option EdgeTime := none
  doneTick : Nat := 0
  result : List Byte := []
  deriving DecidableEq, Repr

/-- An EVT pin (R497): the level at the ball and the raw beat of its last edge, the end of the pulse it drives, in tu of the raw counter's
beats, and LEVEL as at the last tick. -/
structure Evt where
  level : Bool := false
  changed : Nat := 0
  highUntil : Nat := 0
  shown : Bool := false
  deriving DecidableEq, Repr

/-! ### Network time -/

/-- Time quality (R377). -/
inductive Quality where
  | locked | holdover | freerun | reroute
  deriving DecidableEq, Repr

/-- The code of a quality (R451). -/
def Quality.code : Quality → Nat
  | .locked => 0 | .holdover => 1 | .freerun => 2 | .reroute => 3

/-- A foreign master heard (R370): its port identity, its data set in order of comparison, the grandmaster, the
tick of its last Announce and its announce interval in frames. -/
structure Master where
  clock : Nat
  portNo : Nat
  rank : List Nat
  gm : Nat
  heard : Nat
  every : Nat
  deriving DecidableEq, Repr

/-- The peer-delay exchange of a port (R373): number of the last request and its egress, what its response told, the last
valid results, results of a burst still to come, the ticks of the last request and the last valid exchange, and whether the port has failed
since. -/
structure Pdelay where
  seq : Nat := 0
  t1 : Option Int := none
  t2 : Option Int := none
  t4 : Int := 0
  corr : Int := 0
  results : List Int := []
  burst : Nat := 0
  sentAt : Nat := 0
  validAt : Nat := 0
  failed : Bool := false
  deriving DecidableEq, Repr

/-- A Sync taken and not complete, or the last one used (R370, R375). -/
structure SyncIn where
  clock : Nat
  portNo : Nat
  seqId : Nat
  via : Nat
  ingress : Int
  correction : Int
  origin : Int := 0
  deriving DecidableEq, Repr

/-- The local clock and its servo (R367-R379). Times are in units of 2^-16 ns. The anchor, the rate word and the addition of a
slew with its start, end and the phase it still owes; corrections to take at the next tick; quality and the one that the next tick
takes, and the qualities so far by their ticks, newest first; when LOCKED was left; the counts of settling and locking; masters heard and
selected; Syncs; delay requests; duplicates; the sequence numbers taken as a receiver (R371); the host's last correction; the whole seconds in a
row that PPS edges have met, and the last of them (R379); the frame of the last pulse of PPS_OUT (R384); the last offset and path delay; whether a step waits for the sites. -/
structure NetTime where
  c0 : Int := 0
  t0 : Int := 0
  rate : Int := 0
  add : Int := 0
  slewFrom : Nat := 0
  slewEnd : Option Nat := none
  owed : Int := 0
  nextRate : Option Int := none
  nextAdj : Option Int := none
  nextStep : Option Int := none
  quality : Quality := .freerun
  qualities : List (Nat × Quality) := []
  nextQuality : Option Quality := none
  rerouted : Bool := false
  leftLocked : Option Nat := none
  settle : Nat := 0
  resumed : Bool := false
  good : Nat := 0
  bad : Nat := 0
  masters : List Master := []
  master : Option (Nat × Nat) := none
  heard : Nat := 0
  announceEvery : Nat := 12500000
  syncAt : Nat := 0
  syncEvery : Nat := 781250
  awaiting : Option SyncIn := none
  lastSync : Option SyncIn := none
  means : List Int := []
  delaySeq : Nat := 0
  delayT3 : Option Int := none
  seen : List (Nat × Nat × Nat × Nat × Nat) := []
  pdelays : Table Pdelay := []
  hostAt : Option Nat := none
  took : List (Nat × Nat × Nat × Nat) := []
  timeSet : Bool := false
  ppsGood : Nat := 0
  ppsAt : Option Int := none
  ppsFrame : Option Nat := none
  sendSeq : Nat := 0
  syncSentAt : Nat := 0
  announceSeq : Nat := 0
  announceSentAt : Nat := 0
  counts : Table Nat := []
  offset : Int := 0
  delay : Int := 0
  stepWaits : Bool := false
  deriving DecidableEq, Repr

/-! ### Ring -/

/-- A ring port (R327-R334): valid SUPERVISION frames in a row, the ticks of the last valid one, of the last sent, of becoming
UP and of a change of rate; whether a lost link has yet to send CLOSE; and the requests and answers of a rate change, each true
for RATE_DOWN. Of its egress (R324): the bytes of SUPERVISION and NOTICE frames and of the forwarding buffer that had yet to leave at tick
`since`. -/
structure Port where
  valid : Nat := 0
  lastValid : Nat := 0
  sentAt : Option Nat := none
  upSince : Nat := 0
  changeAt : Nat := 0
  lost : Bool := false
  want : Option Bool := none
  asked : Bool := false
  gotAck : Bool := false
  request : Option Bool := none
  answered : Bool := false
  urgent : Nat := 0
  fwd : Nat := 0
  since : Nat := 0
  deriving DecidableEq, Repr

/-- The ring (R317-R337): ports, whether they have started, own frame number, walks seen, frames consumed (SRC, SEQ, tick),
whether this station has itself reported a break, whether it has consumed a BREAK without a CLOSE since, and the Night porter's copy of the
station record (R326). -/
structure Ring where
  ports : Table Port := []
  started : Bool := false
  seq : Nat := 0
  walks : List Nat := []
  consumed : List (Nat × Nat × Nat) := []
  reported : Bool := false
  broken : Bool := false
  record : Option WalkRec := none
  deriving DecidableEq, Repr

/-! ### Vector memory -/

/-- Who waits for a line read: a STREAM run or MATCH block of a site, by the serial number of the run, or the stream of a session of a
pin (R134, R172). -/
inductive Reader where
  | run (site serial : Nat)
  | stream (pin no : Nat)
  deriving DecidableEq, Repr

/-- A line read issued and not returned (R134, R138): its reader and its line within the run or stream, its address, whether it went out as
real-time urgent, and how many younger requests have passed it (R275). -/
structure MemRead where
  who : Reader
  line : Nat
  addr : Nat
  urgent : Bool := false
  passed : Nat := 0
  deriving DecidableEq, Repr

/-- What a channel is doing (R286). -/
inductive ChanMode where
  | absent | training | serving | replay | retrain | fenced | selfRefresh
  deriving DecidableEq, Repr

/-- STATE of a channel (R286). -/
def ChanMode.code : ChanMode → Nat
  | .absent => 0 | .training => 1 | .serving => 2 | .replay => 3 | .retrain => 4 | .fenced => 5 | .selfRefresh => 6

/-- A rank's refresh state (R276, R280): units owed, the bank indices that the open unit has refreshed, whether it is hot, and the frames of its
last command and of the last unit that fell due. -/
structure Rank where
  owed : Nat := 0
  part : List Nat := []
  hot : Bool := false
  lastUse : Nat := 0
  lastDue : Nat := 0
  down : Bool := false
  deriving DecidableEq, Repr

/-- A command on a subchannel as its retry buffer keeps it (R281), banks and ranks by their place in the channel. -/
inductive DramCmd where
  | access (addr : Nat)
  | activate (bank row : Nat)
  | precharge (bank : Nat)
  | refresh (rank : Nat)
  | modeRead (rank : Nat)
  deriving DecidableEq, Repr

/-- A line write that waits in crossing X2 or a write queue: its class, its address and how many younger ones have passed it (R275). -/
structure LineWrite where
  cls : Nat
  addr : Nat
  passed : Nat := 0
  deriving DecidableEq, Repr

/-- A memory channel (R281-R284): what it does, since when, the level its handling has reached (0 outside handling and its
window), when that handling ended, the bad lines that count towards R282, whether self-refresh waits for a replay or retrain
to end, and its ranks by 4 * subchannel + rank. For its requests (R141, R275): the open rows, each one more than its number, by bank; the
lines whose codewords stand in crossing X2 and the write queues by subchannel, oldest first; and by
subchannel the command slots since the last that went to classes 6 and 7. By subchannel the retry buffer, its last 64 commands with their ticks
(R281); the banks whose open row is marked for neighbour refresh, and the activates of each bank since a mark without an entropy source
(R279). -/
structure Channel where
  mode : ChanMode := .absent
  since : Nat := 0
  level : Nat := 0
  endedAt : Option Nat := none
  bad : Nat := 0
  sleepy : Bool := false
  ranks : Table Rank := []
  rows : Table Nat := []
  x2 : List LineWrite := []
  writes : Table (List LineWrite) := []
  share : Table Nat := []
  retry : Table (List (DramCmd × Nat)) := []
  marks : List Nat := []
  acts : Table Nat := []
  deriving DecidableEq, Repr

/-! ### Stagelink -/

/-- A packet that the engine sends (R293, R294): type, TAG, ADDRESS, payload lines and the trailer's POISON_LINES. -/
structure SlPacket where
  type : Nat
  tag : Nat := 0
  addr : Nat := 0
  lines : List (List Codeword) := []
  poisonLines : BitVec 32 := 0
  deriving DecidableEq, Repr

/-- A host packet in the receive buffer, crossing X3 (R141, R294, R296): its TYPE, the packet, the error patterns of its reads, the status
that its arrival has given it, how many of its lines have been served and the lines read so far. -/
structure RxPacket where
  type : Nat
  pkt : Packet
  flips : List (List (BitVec 640)) := []
  status : Nat := 0
  served : Nat := 0
  got : List (List Codeword) := []
  deriving DecidableEq, Repr

/-- Stagelink (R292-R301). The host's next SEQ and whether a NAK awaits it; the receive buffer, oldest first, and SL_HOLD_OUT; the engine's next SEQ, its replay buffer and the
packets that wait in their sources; the tick at which the ACK last advanced and the replays since; SL_HOLD_IN, and whether it has moved in this frame; the deadline of
an outstanding WIDTH_CHOICE, whether the last one expired, and the width chosen; and the degradations or the retrain in
progress. -/
structure Link where
  expect : Nat := 0
  nakked : Bool := false
  naks : Nat := 0
  rx : List RxPacket := []
  holdOut : Bool := false
  nextSeq : Nat := 0
  unacked : List (Nat × SlPacket) := []
  waiting : List SlPacket := []
  ackAt : Nat := 0
  replays : Nat := 0
  holdIn : Bool := false
  holdMoved : Bool := false
  choiceBy : Option Nat := none
  late : Bool := false
  chosen : Option Nat := none
  rxTarget : Option Nat := none
  txTarget : Option Nat := none
  retrain : Bool := false
  deriving DecidableEq, Repr

/-! ### Convoy -/

/-- Convoy (R303-R312). `aborts` lists contributions in force: lane, kind (0 XT, 1 XM, 2 XO) and the last frame that carries
it, kept while their echo may still come. `own` holds the contributions to the word of the tick in force by lane (R304); `built` says that
they have been formed. `acc` and `prev` are the complete ACC bits of the last two words that returned to the HEAD, `lastBad` says that the
word of this frame returned bad though it had left good, `inverted` that it left with its CRC inverted (R307). `scr` holds the last 58 bits
sent, newest lowest (R303). `gotWord` says that a word came in this frame; `good` and `lost` count words in a row. `dists` holds abort codes
by lane that act at the next tick. `offset` turns ticks into chain frames. `keyAt` counts the keys sent, `cmd` is a CMD to send; `newPhase` is a frame phase that the next tick
applies (R14). -/
structure Convoy where
  aborts : List (Nat × Nat × Nat) := []
  own : List Nat := []
  built : Bool := false
  acc : Nat := 0
  prev : Nat := 0
  lastBad : Bool := false
  inverted : Bool := false
  scr : BitVec 58 := 0
  gotWord : Bool := false
  good : Nat := 0
  lost : Nat := 0
  dists : List (Nat × Nat) := []
  offset : Nat := 0
  keyAt : Nat := 0
  cmd : Option Nat := none
  newPhase : Option Nat := none
  deriving DecidableEq, Repr

/-! ### Calibration -/

/-- The calibration engine (R393-R410): the domain in progress and those still to run, the pins, the step, its retries, since when
it waits for the host and the coefficients that came (quantity, run, value), the new values of the steps finished and how many kept
old ones; whether a CANCEL waits for its tick. Beside the run: calibrated timing values by 8 * pin + kind, vernier coefficients by
4 * channel + quantity and clock coefficients by 2 * pin + quantity as targets and in force, tap widths in force by pin, an accepted blob waiting for its
judgement, the creation time of a provisional one, and the reported margin with its value at the last raise. -/
structure Cal where
  domain : Option Nat := none
  queue : List Nat := []
  pins : Nat := 0
  step : Nat := 0
  retry : Nat := 0
  waitFrom : Option Nat := none
  got : List (Nat × Nat × Int) := []
  news : List (Nat × List Int) := []
  kept : Nat := 0
  cancel : Bool := false
  base : Table Int := []
  vern : Table Int := []
  clock : Table Int := []
  clockIn : Table Int := []
  vernIn : Table Int := []
  tapsIn : Table (List Byte) := []
  driftAt : Table Nat := []
  blob : Option (List Byte) := none
  provisional : Option Nat := none
  margin : Nat := 0
  raisedAt : Nat := 0
  deriving DecidableEq, Repr

/-! ### Temperature and test access -/

/-- The temperature sensors in 0.01 °C as last read, the die temperature, the conditions of R493 that hold, and THERM_N
(R494). -/
structure Thermal where
  sensors : List Int := []
  mean : Int := 0
  high : Bool := false
  range : Bool := false
  spread : Bool := false
  asserted : Bool := false
  deriving DecidableEq, Repr

/-- Test access port instructions (R504). -/
inductive JtagInstr where
  | bypass | idcode | sample | extest | highz | clamp | extestPulse | extestTrain
  deriving DecidableEq, Repr

/-- The test access port: the instruction in force and the boundary cells preloaded. -/
structure Jtag where
  instr : JtagInstr := .idcode
  cells : List Bool := []
  deriving DecidableEq, Repr

/-! ### Passport -/

/-- A running SHA-384: chaining value, bytes of the open block and bytes taken (R423, R424). -/
structure Hasher where
  h : List Word64 := []
  buf : List Byte := []
  total : Nat := 0
  deriving DecidableEq, Repr

/-- A verdict record and its run (R427). -/
structure VerdictRec where
  run : Nat
  site : Nat := 0
  bytes : List Byte
  deriving DecidableEq, Repr

/-- A formed record waiting for its seal-preparation task: whether the task has prepared it, whether it has found the
store full, and whether the task was reposted (R59, R104, R429). -/
structure Formed where
  rcd : VerdictRec
  prepared : Bool := false
  full : Bool := false
  reposted : Bool := false
  deriving DecidableEq, Repr

/-- A closed batch (R430): closing time, quality, leaves in order, and whether it seals an interruption (R436). -/
structure Batch where
  time : Nat
  quality : Nat
  leaves : List VerdictRec
  interrupted : Bool := false
  deriving DecidableEq, Repr

/-- A signed batch awaiting export (R431, R432): its 248 bytes, its records with their proofs by RUN_SEQ, whether it has been handed to
Stagelink, and the tick at which its ring fragments were last sent. -/
structure SignedBatch where
  seq : Nat
  bytes : List Byte
  items : List (Nat × List Byte)
  onLink : Bool := false
  sentAt : Nat := 0
  deriving DecidableEq, Repr

/-- The Passport (R419-R443): records formed, the open batch, closed batches, signed batches, the hash of the last signed
batch, the reserved nonce pair, a pending trigger of interrupted sealing, the tick of the next close, the tick of the
last refill and the hashes of the load windows. -/
structure Passport where
  formed : List Formed := []
  batch : List VerdictRec := []
  closed : List Batch := []
  signed : List SignedBatch := []
  prev : List Byte := []
  reserve : Bool := false
  trigger : Bool := false
  nextClose : Nat := 0
  refill : Nat := 0
  hashers : Table Hasher := []
  deriving DecidableEq, Repr

/-! ### Rosec -/

/-- A response (R347): its destination and the fields it carries. -/
structure Reply where
  dst : Nat
  service : Nat
  tid : Nat
  index : Nat := 0
  sub : Nat := 0
  level : Nat := 3
  status : Nat := 0
  offset : Nat := 0
  total : Nat := 0
  last : Bool := false
  data : List Byte := []
  deriving DecidableEq, Repr

/-- A kept response (R350): the sender's SA, which with the TID and OFFSET of the response is its key, and its tick. -/
structure Kept where
  sa : Nat
  stamp : Nat
  reply : Reply
  deriving DecidableEq, Repr

/-- An open segmented write (R352). -/
structure Transfer where
  index : Nat
  sub : Nat
  sa : Nat
  total : Nat
  data : List Byte := []
  touched : Nat := 0
  deriving DecidableEq, Repr

/-- An upload snapshot (R353). -/
structure Upload where
  index : Nat
  sub : Nat
  sa : Nat
  data : List Byte
  touched : Nat := 0
  deriving DecidableEq, Repr

/-- A subscription (R354): its station, object, period and the tick it is due at, and a publication that has not left, with its tick. -/
structure Subscription where
  src : Nat
  index : Nat
  sub : Nat
  period : Nat
  due : Nat
  ready : Option (Nat × List Byte) := none
  deriving DecidableEq, Repr

/-- An unconfirmed NOTIFY (R355), with the NOTIFY_RETRIES that stood when it was first sent (R363). -/
structure Notify where
  tid : Nat
  dst : Nat
  data : List Byte
  sentAt : Nat
  tries : Nat := 0
  retries : Nat := 0
  deriving DecidableEq, Repr

/-- The Rosec responder (R346-R358); `copied` holds the Night porter's copy of the numbers of 0xC000 (R326). -/
structure Rosec where
  kept : List Kept := []
  transfers : List Transfer := []
  abandoned : List (Nat × Nat × Nat) := []
  uploads : List Upload := []
  timedOut : List (Nat × Nat × Nat) := []
  subs : List Subscription := []
  notifies : List Notify := []
  nextTid : Nat := 0
  copied : List (Nat × Int) := []
  deriving DecidableEq, Repr

/-! ### Events and faults -/

/-- A fault record (R465) with what the handler needs of it. -/
structure FaultRec where
  resource : Nat
  level : Nat
  severity : Nat := 2
  site : Nat := 255
  code : Nat := 0
  source : Nat := 0
  frame : Nat := 0
  deriving DecidableEq, Repr

/-- A raised source of this frame, with the fault records it reports and the severity of one raised above its own (R288, R445). -/
structure Raised where
  count : Nat := 0
  severity : Nat := 0
  details : List (List Byte) := []
  deriving DecidableEq, Repr

/-- A Guestbook entry (R451). -/
structure GuestEntry where
  seq : Nat
  source : Nat
  severity : Nat
  quality : Nat
  time : Nat
  raises : Nat
  frame : Nat
  detail : List Byte
  deriving DecidableEq, Repr

/-- The event system and the Guestbook (R444-R452). -/
structure Events where
  raised : Table Raised := []
  sampled : List Nat := []
  counts : Table Nat := []
  severity : Table Nat := []
  lastTime : Table Nat := []
  book : List GuestEntry := []
  nextSeq : Nat := 0
  deriving DecidableEq, Repr

/-- The fault handler (R453-R466): the fault queue, the fault being decided, the deadline of a decision offered to the host and
whether the last offer expired, the faults whose recovery runs, the monitors of a SUPPLY fault with their start, the tasks that the
handler has to post (R103), and since when each supply monitor has been UNDECIDED (R208). -/
structure Handler where
  queue : List FaultRec := []
  current : Option FaultRec := none
  offered : Option Nat := none
  expired : Bool := false
  active : List FaultRec := []
  supply : List (Nat × Nat) := []
  tasks : Nat := 0
  undecided : Table Nat := []
  deriving DecidableEq, Repr

/-! ### Outputs -/

/-- What the block sends out, newest first in the log: a field of the model's own. Of a Convoy word `line` holds the scrambled bits. -/
inductive Sent where
  | response (ports : List Nat) (f : RingFrame) (m : Reply)
  | publication (ports : List Nat) (f : RingFrame) (index sub offset : Nat) (data : List Byte)
  | notify (ports : List Nat) (f : RingFrame) (tid : Nat) (data : List Byte)
  | packet (seq : Nat) (p : SlPacket) (crc : Nat)
  | ack (seq : Nat)
  | nak (seq : Nat)
  | widthBlock (failed width : Nat)
  | versionBlock (lo hi : Nat)
  | holdOut (asserted : Bool)
  | convoy (word line : BitVec 128)
  | supervision (port : Nat) (f : RingFrame) (m : SupMsg)
  | walk (port : Nat) (f : RingFrame) (m : WalkMsg)
  | notice (ports : List Nat) (f : RingFrame) (close : Bool) (reporter : Nat)
  | frame (port : Nat) (f : RingFrame)
  | ptp (kind : Nat) (port : Nat) (m : PtpMsg)
  | pps (time width : Nat)
  | evtPulse (pin : Nat) (time : Nat)
  | verdict (ports : List Nat) (f : RingFrame) (data : List Byte)
  | therm (asserted : Bool)
  | tdo (bits : List Bool)
  deriving DecidableEq, Repr

end Sys2Proof.Machine
end

