-- ==== Sys2Proof/Machine/State.lean ====
section
/-! DEFINITION. The state of the block: plain data. -/

namespace Sys2Proof.Machine

/-- Why a step stops. No step of the spec stops this block, so no meaning answers it. -/
inductive Fault where
  /-- Raised by nobody: the type of faults of a block none of whose steps stops it. Safe. -/
  | none
  deriving DecidableEq, Repr

/-- Why a command has no meaning. -/
inductive Refusal where
  /-- Raised by an arm of exec whose meaning is not written yet. Safe. -/
  | notModelled (mnemonic : String)
  deriving DecidableEq, Repr

/-- The state: the object dictionary's stored values, the units chapter by chapter, what has been sent, and the commands
that wait. (log 4, DESIGN CHOICE) -/
structure State where
  mode : DevMode := .off
  clk : Clocks := {}
  start : Start := {}
  grade : Nat := 1
  step : Nat := 256
  uid : Nat := 1
  regs : Table Int := []
  octs : Table (List Byte) := []
  held : Table (Option Int) := []
  sites : Table Site := []
  pins : Table Pin := []
  ctxs : Table Ctx := []
  store : Store := {}
  ledger : Table Entry := []
  inn : Inn := {}
  caravans : Table Caravan := []
  caps : Table Capture := []
  recs : Table Rec := []
  units : Table TrigUnit := []
  defs : Table MeasDef := []
  evts : Table Evt := []
  time : NetTime := {}
  ring : Ring := {}
  pass : Passport := {}
  cal : Cal := {}
  therm : Thermal := {}
  jtag : Jtag := {}
  mem : List Host.Cell := []
  reads : List MemRead := []
  chans : Table Channel := []
  sl : Link := {}
  convoy : Convoy := {}
  rosec : Rosec := {}
  ev : Events := {}
  handler : Handler := {}
  freeCtr : Nat := 0
  sent : List Sent := []
  pending : List Instr := []
  deriving DecidableEq, Repr

/-- The outcome of a step. -/
abbrev Out := Host.Outcome State Fault Refusal

/-- The state right after reset: power has come up and step 1 of the cold start has begun (R468), every object at its
default (R345), no command waiting. (log 3, DESIGN CHOICE) -/
def State.reset : State := { mode := .coldStart, start := { step := 1, type := 1 } }

end Sys2Proof.Machine
end

