-- ==== Sys2Proof/Machine/Ops.lean ====
section
/-! DEFINITION. The named operations over the state that every unit shares. -/

namespace Sys2Proof.Machine

/-! ### The parts of the state -/

/-- Site n. -/
def State.site (s : State) (n : Nat) : Site := Table.get {} s.sites n
/-- s with site n replaced. -/
def State.setSite (s : State) (n : Nat) (x : Site) : State := { s with sites := Table.set {} s.sites n x }
/-- s with site n changed. -/
def State.modSite (s : State) (n : Nat) (f : Site → Site) : State := s.setSite n (f (s.site n))
/-- Pin n. -/
def State.pin (s : State) (n : Nat) : Pin := Table.get {} s.pins n
/-- s with pin n replaced. -/
def State.setPin (s : State) (n : Nat) (x : Pin) : State := { s with pins := Table.set {} s.pins n x }
/-- s with pin n changed. -/
def State.modPin (s : State) (n : Nat) (f : Pin → Pin) : State := s.setPin n (f (s.pin n))
/-- Context n. -/
def State.ctx (s : State) (n : Nat) : Ctx := Table.get {} s.ctxs n
/-- s with context n replaced. -/
def State.setCtx (s : State) (n : Nat) (x : Ctx) : State := { s with ctxs := Table.set {} s.ctxs n x }
/-- s with context n changed. -/
def State.modCtx (s : State) (n : Nat) (f : Ctx → Ctx) : State := s.setCtx n (f (s.ctx n))
/-- Ledger entry n. -/
def State.entry (s : State) (n : Nat) : Entry := Table.get {} s.ledger n
/-- s with Ledger entry n replaced. -/
def State.setEntry (s : State) (n : Nat) (x : Entry) : State := { s with ledger := Table.set {} s.ledger n x }
/-- Caravan n. -/
def State.caravan (s : State) (n : Nat) : Caravan := Table.get {} s.caravans n
/-- s with Caravan n replaced. -/
def State.setCaravan (s : State) (n : Nat) (x : Caravan) : State := { s with caravans := Table.set {} s.caravans n x }
/-- The capture of site n. -/
def State.cap (s : State) (n : Nat) : Capture := Table.get {} s.caps n
/-- s with the capture of site n replaced. -/
def State.setCap (s : State) (n : Nat) (x : Capture) : State := { s with caps := Table.set {} s.caps n x }
/-- Record n. -/
def State.rcd (s : State) (n : Nat) : Rec := Table.get {} s.recs n
/-- s with record n replaced. -/
def State.setRec (s : State) (n : Nat) (x : Rec) : State := { s with recs := Table.set {} s.recs n x }
/-- Trigger unit n. -/
def State.tu (s : State) (n : Nat) : TrigUnit := Table.get {} s.units n
/-- s with trigger unit n replaced. -/
def State.setTu (s : State) (n : Nat) (x : TrigUnit) : State := { s with units := Table.set {} s.units n x }

/-- s with one more message in the log of what was sent. (log 8, DESIGN CHOICE) -/
def State.send (s : State) (m : Sent) : State := { s with sent := m :: s.sent }

/-- f done for each member of a list in turn. -/
def State.each {α : Type} (l : List α) (f : State → α → State) (s : State) : State := l.foldl f s

/-- The next free value (an open value of the spec), and the state with the counter advanced. -/
def State.free (s : State) : Nat × State := (Config.freeValue s.freeCtr, { s with freeCtr := s.freeCtr + 1 })

/-- Whether the comparators and TDCs are stopped: in SAFE_HALT (R475) and in SLEEP, where the beat PLL is off. (log 99, DEDUCED) -/
def State.beatsStop (s : State) : Bool := s.mode == .sleep || s.mode == .safeHalt

/-! ### Bytes -/

/-- The n bytes of a number, most significant first. -/
def beBytes : Nat → Nat → List Byte
  | 0, _ => []
  | n + 1, x => BitVec.ofNat 8 (x / 256 ^ n) :: beBytes n x

/-- The number that bytes spell, most significant first. -/
def ofBytes (l : List Byte) : Nat := l.foldl (fun a b => a * 256 + b.toNat) 0

/-- n zero bytes. -/
def zeroBytes (n : Nat) : List Byte := List.replicate n 0

/-- Bit i of a number. -/
def natBit (x i : Nat) : Bool := x / 2 ^ i % 2 == 1

/-- Bits [hi:lo] of a number. -/
def natBits (x hi lo : Nat) : Nat := x / 2 ^ lo % 2 ^ (hi + 1 - lo)

/-- The bits of a number below n that are set, ascending. -/
def setBits (n x : Nat) : List Nat := (List.range n).filter (natBit x)

/-- A number with bit i set. -/
def orBit (x i : Nat) : Nat := if natBit x i then x else x + 2 ^ i

/-- A number with bit i cleared. -/
def clearBit (x i : Nat) : Nat := if natBit x i then x - 2 ^ i else x

/-! ### Stored values of the dictionary -/

/-- Object 0x3000 + 16n + k (R366). -/
def pinObj (n k : Nat) : Nat := 0x3000 + 16 * n + k

/-- Object 0x3400 + 16s + k (R26). -/
def siteObj (n k : Nat) : Nat := 0x3400 + 16 * n + k

/-- Default severity of a source (R56, R209, R444 and the event tables of the chapters). -/
def defaultSeverity (e : Nat) : Nat :=
  if e < 1024 then
    if [1, 3, 5, 7, 8, 9].contains (e % 16) then 1 else 0
  else if e < 1536 then
    if e % 8 = 2 then 1 else if e % 8 = 3 then 2 else 0
  else if [1539, 1540, 1549, 1570].contains e then 3
  else if [1542, 1543, 1547, 1548, 1601, 1620, 1621, 1622, 1623, 1626, 1672, 1674, 1675, 1681, 1683, 1689].contains e
    then 2
  else if [1536, 1538, 1541, 1545, 1546, 1554, 1556, 1559, 1560, 1562, 1568, 1569, 1571, 1602, 1604, 1605, 1606, 1611,
      1612, 1613, 1615, 1616, 1624, 1625, 1627, 1628, 1629, 1657, 1658, 1660, 1663, 1671, 1673, 1677, 1678, 1679, 1682,
      1684, 1687, 1688, 1691, 1692, 1694, 1698, 1699, 1701, 1702, 1703, 1704, 1705, 1707, 1709, 1721, 1722, 1724, 1725,
      1726, 1727, 1728, 1729, 1730, 1732, 1733, 1734, 1735, 1737].contains e then 1
  else 0

/-- The default of ENABLE_(k-1) of 0xD000: the sources whose default severity is FAULT or CRITICAL (R447). -/
def enableDefault (k : Nat) : Nat :=
  (List.range 64).foldl (fun a i => if defaultSeverity (64 * (k - 1) + i) ≥ 2 then a + 2 ^ i else a) 0

/-- The default of a stored number (R345). -/
def regDefault (index sub : Nat) : Int :=
  if 0x2030 ≤ index ∧ index ≤ 0x2038 ∧ (sub = 1 ∨ sub = 2) then supplyDefault (index - 0x2030) sub
  else if index = 0xD000 then enableDefault sub
  else match findSub index sub with
    | some r => r.dflt
    | none => 0

/-- The stored number of index:sub. -/
def State.reg (s : State) (index sub : Nat) : Int := Table.get (regDefault index sub) s.regs (objKey index sub)

/-- The stored number as a natural number. -/
def State.nreg (s : State) (index sub : Nat) : Nat := (s.reg index sub).toNat

/-- The number of a setting as the units have it in force (R346): until the next tick the one before the writes of this frame. -/
def State.inForce (s : State) (index sub : Nat) : Int := (Table.get none s.held (objKey index sub)).getD (s.reg index sub)

/-- The number in force as a natural number. -/
def State.nInForce (s : State) (index sub : Nat) : Nat := (s.inForce index sub).toNat

/-- Settings that units go on using within a frame: what is written there takes effect at the next tick (R346). -/
def delayed (index sub : Nat) : Bool :=
  [0x2100, 0x2101, 0x6000, 0x8001, 0x8040, 0xB001, 0xC001].contains index || (index == 0x9000 && decide (3 ≤ sub) && decide (sub ≤ 6))
    || (decide (0x8020 ≤ index) && decide (index < 0x8038)) || (decide (0x8050 ≤ index) && decide (index < 0x8058))
    || (index == 0x8010 && decide (4 ≤ sub)) || ((index == 0x8002 || index == 0x8003 || index == 0xB040) && sub == 3) || (index == 0xC010 && sub == 2)
    || (decide (0x3000 ≤ index) && decide (index < 0x3400) && ((index % 16 == 5 && sub == 2) || index % 16 == 10))

/-- A setting that a unit itself changes: the number in force, or the stored one where no write of this frame waits. -/
def State.setForce (s : State) (index sub : Nat) (v : Int) : State :=
  if (Table.get none s.held (objKey index sub)).isSome then { s with held := Table.set none s.held (objKey index sub) (some v) }
  else { s with regs := Table.set (regDefault index sub) s.regs (objKey index sub) v }

/-- A setting that a write has stored kept from the units until the next tick. (log 137, DEDUCED) -/
def State.keepForce (s : State) (index sub : Nat) (old : Int) : State :=
  if delayed index sub ∧ (Table.get none s.held (objKey index sub)).isNone then
    { s with held := Table.set none s.held (objKey index sub) (some old) }
  else s

/-- s with index:sub holding a number. -/
def State.setReg (s : State) (index sub : Nat) (v : Int) : State :=
  { s with regs := Table.set (regDefault index sub) s.regs (objKey index sub) v }

/-- s with index:sub holding a natural number. -/
def State.setNat (s : State) (index sub : Nat) (v : Nat) : State := s.setReg index sub v

/-- How many values the type of a sub holds. -/
def subRange (index sub : Nat) : Nat :=
  match findSub index sub with
  | some r => if r.ty.bytes = 0 then 2 ^ 64 else 2 ^ (8 * r.ty.bytes)
  | none => 2 ^ 64

/-- s with a counter of the dictionary increased by n, modulo its width. (log 16, DEDUCED) -/
def State.count (s : State) (index sub n : Nat) : State :=
  s.setReg index sub (((s.reg index sub) + n) % (subRange index sub))

/-- s with a counter of the dictionary increased by 1. -/
def State.bump (s : State) (index sub : Nat) : State := s.count index sub 1

/-- s with a register holding the larger of its value and v. -/
def State.peak (s : State) (index sub v : Nat) : State :=
  if s.reg index sub < v then s.setNat index sub v else s

/-- The depths of the crossings X1-X8 (R141). -/
def crossingDepth (x : Nat) : Nat := [0, 128, 128, 262144, 32, 64, 64, 32, 16].getD x 0

/-- An entry is written to crossing x while `least` entries or more stand in it, with it, on the write side: PEAK_DEPTH, and FULL_CYCLES where that
fills it (R141, R142, R151). How many stand there is what the model holds where `exact` says so, otherwise a free value up to the depth, since it
depends on the phase of the two clocks; so is for how many cycles the crossing is then full. (log 130, DESIGN CHOICE) -/
def State.crossed (s : State) (x least : Nat) (exact : Bool) : State :=
  let d := crossingDepth x
  let f := s.free
  let v := if exact then min d least else least + f.1 % (d + 1 - least)
  let s := (if exact then s else f.2).peak (0x6010 + x) 1 v
  if v = d then
    let g := s.free
    g.2.count (0x6010 + x) 2 (g.1 + 1)
  else s

/-- The default bytes of an octet value: zeros of its length, or none where the length varies; TAPS of R417. -/
def octDefault (index sub : Nat) : List Byte :=
  if 0x3000 ≤ index ∧ index < 0x3400 ∧ index % 16 = 9 then (List.replicate 500 (beBytes 2 2500)).flatten
  else if index = 0x7400 then (List.replicate 8 (0x80 :: zeroBytes 7)).flatten
  else match findSub index sub with
    | some { ty := .oct n, .. } => zeroBytes n
    | _ => []

/-- The stored bytes of index:sub. -/
def State.oct (s : State) (index sub : Nat) : List Byte := Table.get (octDefault index sub) s.octs (objKey index sub)

/-- s with index:sub holding bytes. -/
def State.setOct (s : State) (index sub : Nat) (b : List Byte) : State :=
  { s with octs := Table.set (octDefault index sub) s.octs (objKey index sub) b }

/-- s with every value of one object back at its default. -/
def State.clearObj (s : State) (index : Nat) : State :=
  { s with regs := s.regs.filter (·.1 / 256 ≠ index), octs := s.octs.filter (·.1 / 256 ≠ index) }

/-! ### The device -/

/-- The tick now in force. -/
def State.now (s : State) : Nat := s.clk.frames

/-- A site that holds its budget (R360). -/
def SiteState.busy : SiteState → Bool
  | .ready | .running | .waiting => true
  | _ => false

/-- A site that is stopped (R26). -/
def SiteState.stopped (x : SiteState) : Bool := !x.busy

/-- RUNNING or WAITING. -/
def SiteState.live : SiteState → Bool
  | .running | .waiting => true
  | _ => false

/-- Site numbers S00-S63. -/
def siteNos : List Nat := List.range 64

/-- Pin numbers CH00-CH63. -/
def pinNos : List Nat := List.range 64

/-- Whether some site is READY, RUNNING or WAITING. -/
def State.anyBusy (s : State) : Bool := siteNos.any fun n => (s.site n).st.busy

/-- Whether some site is RUNNING or WAITING. -/
def State.anyLive (s : State) : Bool := siteNos.any fun n => (s.site n).st.live

/-- Whether the device is IDLE (R360). -/
def State.idle (s : State) : Bool := s.mode == .service && !s.anyBusy

/-- Whether the device is in service: IDLE or RUNNING. -/
def State.inService (s : State) : Bool := s.mode == .service

/-- 0x2000:01 (R360). -/
def State.deviceState (s : State) : Nat :=
  match s.mode with
  | .off => 0
  | .coldStart => 1
  | .warmStart => 2
  | .service => if s.anyBusy then 4 else 3
  | .sleep => 5
  | .safeHalt => 6

/-- PIN_MAP of a site (R32). -/
def State.pinMap (s : State) (n : Nat) : Nat := s.nreg (siteObj n 1) 1

/-- The pins of a site in slot order (R35). -/
def State.sitePins (s : State) (n : Nat) : List Nat := setBits 64 (s.pinMap n)

/-- The site that owns a pin: the one that is not FREE and whose map holds it (R24, R30). -/
def State.pinSite (s : State) (p : Nat) : Option Nat :=
  siteNos.find? fun n => (s.site n).st ≠ .free && natBit (s.pinMap n) p

/-- Whether a pin belongs to a site that is READY, RUNNING or WAITING. -/
def State.pinBusy (s : State) (p : Nat) : Bool :=
  match s.pinSite p with
  | some n => (s.site n).st.busy
  | none => false

/-! ### Local time (R367, R369) -/

/-- t(c) in units of 2^-16 ns. -/
def timeAt (t : NetTime) (c : Int) : Int :=
  let base := (c - t.c0) * 1250 * 65536
  t.t0 + base / 1000 + (base / 1000) * (t.rate + t.add) / 2 ^ 48

/-- Local time at the raw count now. -/
def State.localTime (s : State) : Int := timeAt s.time s.clk.c

/-- A time in units of 2^-16 ns as a TIME80 number: seconds in [79:32], nanoseconds in [31:0] (R343, R367). -/
def toTime80 (t : Int) : Nat :=
  let ns := (t / 65536).toNat
  ns / 1000000000 * 2 ^ 32 + ns % 1000000000

/-- A TIME80 number in units of 2^-16 ns. -/
def ofTime80 (x : Nat) : Int := ((x / 2 ^ 32 * 1000000000 + x % 2 ^ 32) * 65536 : Nat)

/-- Beats since the epoch of a time (R367). -/
def beatsOf (t : Int) : Int := t * 1000 / (1250 * 65536)

/-- The raw count of the tick that began frame j of a site. -/
def State.rawOf (s : State) (tick : Nat) : Int := s.clk.c - 64 * ((s.clk.frames : Int) - tick)

/-- PTP time of the point t_s tu from the first tick f0 of a site (R369). -/
def State.ptpOf (s : State) (f0 ts : Nat) : Int :=
  let b : Int := s.rawOf f0 + ts / 5000
  timeAt s.time b + ((ts % 5000 : Nat) : Int) * 250 * 65536 * (2 ^ 48 + s.time.rate + s.time.add) / (1000000 * 2 ^ 48)

/-! ### Events (R445, R446) -/

/-- The severity in force of a source. -/
def State.severity (s : State) (e : Nat) : Nat := Table.get (defaultSeverity e) s.ev.severity e

/-- Source e raised: its COUNT grows at once, and it waits to be sampled at the next tick (R445). -/
def State.raiseWith (s : State) (e : Nat) (detail : List (List Byte)) : State :=
  let x := Table.get {} s.ev.raised e
  { s with ev := { s.ev with
      counts := Table.set 0 s.ev.counts e ((Table.get 0 s.ev.counts e + 1) % 2 ^ 32),
      raised := Table.set {} s.ev.raised e { x with count := x.count + 1, details := x.details ++ detail } } }

/-- Source e raised with no detail. -/
def State.raise (s : State) (e : Nat) : State := s.raiseWith e []

/-- A source raised as CRITICAL, whatever its own severity is (R288). -/
def State.raiseCritical (s0 : State) (e : Nat) : State :=
  let s := s0.raise e
  { s with ev := { s.ev with raised := Table.set {} s.ev.raised e { Table.get {} s.ev.raised e with severity := 3 } } }

/-- A refused partner named by its event (R5): the minimum and maximum of the engine's range, then of the partner's. (log 117, DESIGN CHOICE) -/
def State.raiseRanges (s : State) (e lo hi lo' hi' : Nat) : State :=
  s.raiseWith e [zeroBytes 4 ++ beBytes 1 lo ++ beBytes 1 hi ++ beBytes 1 lo' ++ beBytes 1 hi']

/-- Event k of site n (R56). -/
def siteEvent (n k : Nat) : Nat := 1024 + 8 * n + k

/-- Event k of pin n (R444). -/
def pinEvent (n k : Nat) : Nat := 16 * n + k

/-- Site n in a new state, with its STATE event carrying the code (R56, R451). -/
def State.enter (s : State) (n : Nat) (st : SiteState) : State :=
  (s.modSite n fun x => { x with st := st }).raiseWith (siteEvent n 0) [beBytes 8 st.code]

/-! ### Fault records (R453-R457, R465) -/

/-- The first 8 bytes of a fault record (R465). -/
def FaultRec.head (f : FaultRec) : List Byte :=
  beBytes 1 f.resource ++ beBytes 1 f.level ++ beBytes 1 f.severity ++ beBytes 1 f.site ++ beBytes 2 f.code
    ++ beBytes 2 f.source

/-- A fault record of 16 bytes (R465). -/
def FaultRec.bytes (f : FaultRec) : List Byte := f.head ++ beBytes 8 f.frame

/-- Whether a fault comes before another in the queue (R456): CRITICAL first, then by detection, then by resource. -/
def FaultRec.before (a b : FaultRec) : Bool :=
  if a.severity = 3 ∧ b.severity ≠ 3 then true
  else if b.severity = 3 ∧ a.severity ≠ 3 then false
  else if a.frame ≠ b.frame then a.frame < b.frame
  else a.resource < b.resource

/-- A fault put into the ordered queue. -/
def queueFault (f : FaultRec) : List FaultRec → List FaultRec
  | [] => [f]
  | g :: t => if f.before g then f :: g :: t else g :: queueFault f t

/-- The ladder of a resource, lowest level first (R453). -/
def ladder (resource : Nat) : List Nat :=
  if resource ≥ 0x80 then [5, 6]
  else match resource with
    | 1 | 2 => [1, 2, 4]
    | 3 | 4 => [1, 2, 3, 4]
    | 5 => [4]
    | 6 | 7 => [9]
    | 8 => [8]
    | 9 => [5, 6]
    | 10 => [6]
    | 11 => [7, 10]
    | _ => [10]

/-- The next level of a resource's ladder above one, if there is one. -/
def nextLevel (resource level : Nat) : Option Nat :=
  match (ladder resource).dropWhile (· ≠ level) with
  | _ :: l :: _ => some l
  | _ => none

/-- A CRITICAL fault: E1539 is raised, each queued fault is abandoned with E1546, and SAFE_HALT follows at the next tick
(R457). -/
def State.critical (s : State) (f : FaultRec) : State :=
  let s := s.raiseWith 1539 [f.head]
  let s := s.handler.queue.foldl (fun s g => s.raiseWith 1546 [g.head]) s
  { s with handler := { s.handler with queue := [], current := none, offered := none },
           start := { s.start with halt := true } }

/-- A fault whose decision begins (R103, R454): offered to the host while FAULT_DECISION is 1, but for a lane degradation (R458). -/
def State.takeFault (s : State) (f : FaultRec) : State :=
  let s := { s with handler := { s.handler with tasks := s.handler.tasks + 1 } }
  let lane := (f.resource = 3 ∨ f.resource = 4) ∧ f.level = 3
  if s.inForce 0x2100 9 = 1 ∧ ¬ lane then
    { s with handler := { s.handler with current := some f, offered := some (s.now + s.nInForce 0x2101 9), expired := false } }
  else { s with handler := { s.handler with current := some f, offered := none } }

/-- A fault put up for decision (R454-R457): at once if none is being decided, otherwise queued; a fault that finds the queue
of 32 full is CRITICAL and raises E1540. -/
def State.submitFault (s : State) (f : FaultRec) : State :=
  if s.handler.current.isNone then s.takeFault f
  else if s.handler.queue.length ≥ 32 then (s.raiseWith 1540 [f.head]).critical { f with severity := 3 }
  else
    let q := queueFault f s.handler.queue
    ({ s with handler := { s.handler with queue := q } }).peak 0xD200 2 q.length

/-- The decision in progress over: the next fault of the queue is taken. -/
def State.nextFault (s : State) : State :=
  let s := { s with handler := { s.handler with current := none, offered := none } }
  match s.handler.queue with
  | [] => s
  | f :: t => ({ s with handler := { s.handler with queue := t } }).takeFault f

/-- The fault of a resource that is not over: in recovery, being decided or queued. Faults at level NONE do not count. -/
def State.faultOf (s : State) (resource : Nat) : Option FaultRec :=
  (s.handler.active ++ s.handler.current.toList ++ s.handler.queue).find? fun f => f.resource == resource && f.level != 0

/-- The fault of a resource withdrawn wherever it stands. -/
def State.dropFault (s : State) (resource : Nat) : State :=
  let keep (f : FaultRec) : Bool := f.resource != resource || f.level == 0
  let s := { s with handler := { s.handler with active := s.handler.active.filter keep, queue := s.handler.queue.filter keep } }
  match s.handler.current with
  | some f => if keep f then s else s.nextFault
  | none => s

/-- A fault that goes one level up its ladder: E1538 is raised and the new level is decided (R455). (log 94, DEDUCED) -/
def State.climb (s : State) (f : FaultRec) : State :=
  let f := { f with frame := s.now }
  let s := ((s.dropFault f.resource).bump 0xD200 4).raiseWith 1538 [f.head]
  if f.severity = 3 then s.critical f else s.submitFault f

/-- A fault handed to the handler (R454-R457). An error on a resource whose fault is not over climbs its ladder, or is merged
at the top of it (R455). -/
def State.handFault (s : State) (f : FaultRec) : State :=
  let f := { f with frame := s.now, severity := if f.severity = 3 then 3 else s.severity f.source }
  if f.severity = 3 then s.critical f
  else match (if f.level = 0 then none else s.faultOf f.resource) with
    | some g =>
      match nextLevel g.resource g.level with
      | some l => s.climb { g with level := l, severity := if l = 10 then 3 else g.severity }
      | none => s.bump 0xD200 5
    | none => s.submitFault f

/-- A fault handed to the handler with its event, which carries its record (R445, R451). -/
def State.reportFault (s : State) (f : FaultRec) : State :=
  let f := { f with frame := s.now, severity := if f.severity = 3 then 3 else s.severity f.source }
  (s.raiseWith f.source [f.head]).handFault f

/-- A fault whose recovery runs and ends now: E1537, HANDLED and INTERRUPTION_MAX, and E1542 above 500 µs (R454, R467). -/
def State.faultEnds (s : State) (f : FaultRec) (us : Nat) : State :=
  let s := (s.raiseWith 1537 [f.head]).bump 0xD200 3
  let s := s.peak 0xD200 6 us
  let s := if us > 500 then s.raiseWith 1542 [f.head] else s
  { s with handler := { s.handler with active := s.handler.active.filter fun g => g.resource != f.resource } }

/-- The recovery of a resource has ended (R454). The decision that started it precedes its end: a fault that hardware has not
been seen to decide is decided first, with E1536; one offered to the host cannot have ended. -/
def State.recovered (s : State) (resource us : Nat) : State :=
  match s.handler.active.find? (·.resource == resource) with
  | some f => s.faultEnds f us
  | none =>
    match s.faultOf resource with
    | some f =>
      if s.handler.offered.isSome ∧ s.handler.current = some f then s
      else ((s.dropFault resource).raiseWith 1536 [f.head]).faultEnds f us
    | none => s

/-- µs since a tick. -/
def State.usSince (s : State) (tick : Nat) : Nat := (s.now - tick) * 80 / 1000

/-! ### Ring frames of the station's own (R320, R333, R334) -/

/-- The ports. -/
def portNos : List Nat := [0, 1]

/-- Whether a ring port is UP. -/
def State.portUp (s : State) (p : Nat) : Bool := s.nreg (0x1011 + p) 1 == 2

/-- STATION. -/
def State.station (s : State) : Nat := s.nreg 0x1010 1

/-- RING_STATE: 0 ALONE, 1 CLOSED, 2 WRAPPED. -/
def State.ringState (s : State) : Nat := s.nreg 0x1010 2

/-- The ports that a frame of the station's own leaves by: RING_A of a CLOSED ring, every port that is UP of a WRAPPED one (R327, R333,
R334). -/
def State.outPorts (s : State) : List Nat :=
  match s.ringState with
  | 1 => if s.portUp 0 then [0] else []
  | 2 => portNos.filter s.portUp
  | _ => []

/-- A frame of the station's own numbered (R320). -/
def State.ownFrame (s : State) : State := { s with ring := { s.ring with seq := (s.ring.seq + 1) % 65536 } }

/-- The SA of the station: 0x02 and the low 40 bits of its SILICON_UID (R320). -/
def State.ownSa (s : State) : Nat := 0x02 * 2 ^ 40 + s.uid % 2 ^ 40

/-- The header of a frame of the station's own with `length` payload bytes; DUAL while the ring is WRAPPED (R320, R333). -/
def State.ownHeader (s : State) (type dst length : Nat) : RingFrame :=
  { type := type, sa := s.ownSa, src := s.station, dst := dst, dual := s.ringState == 2, seq := s.ring.seq, length := length }

/-- A frame of the station's own sent by the ports that carry it; with no port UP none leaves (R327). -/
def State.originate (s : State) (type dst length : Nat) (k : List Nat → RingFrame → Sent) : State :=
  if s.outPorts.isEmpty then s else s.ownFrame.send (k s.outPorts (s.ownHeader type dst length))

end Sys2Proof.Machine
end

