-- ==== Sys2Proof/Machine/Captures.lean ====
section
/-! DEFINITION. Time captures (R383, R390) and the pulses of EVT pins, which they stamp (R497). -/

namespace Sys2Proof.Machine

/-- s with its clock changed. -/
def State.modTime (s : State) (f : NetTime → NetTime) : State := { s with time := f s.time }

/-- A time in bytes: seconds (6), ns (4), fraction (2). -/
def timeBytes (t : Int) : List Byte :=
  let f := (t % 65536).toNat
  beBytes 10 (toTime80 t) ++ beBytes 2 f

/-- Object 0x8030 + k. -/
def captureObj (k : Nat) : Nat := 0x8030 + k

/-- An occurrence stamped by a capture unit (R383). -/
def State.captureStamp (s : State) (k : Nat) (t : Int) : State :=
  let o := captureObj k
  let n := Table.get 0 s.time.counts k
  let s := s.modTime fun x => { x with counts := Table.set 0 x.counts k ((n + 1) % 65536) }
  let q := s.oct o 3
  if q.length ≥ 256 then (s.bump o 4).raise 1707
  else s.setOct o 3 (q ++ timeBytes t ++ beBytes 2 (s.time.quality.code * 2 ^ 14) ++ beBytes 2 n)

/-- An occurrence offered to every enabled unit whose SOURCE it is. -/
def State.captureAll (s : State) (source : Nat) (t : Int) : State :=
  s.each (List.range 8) fun s k =>
    if s.inForce (captureObj k) 2 = 1 ∧ s.nInForce (captureObj k) 1 = source then s.captureStamp k t else s

/-- The beat of a frame at which something is placed: in SLEEP to 10 ns, 8 beats (R478). (log 140, DESIGN CHOICE) -/
def State.placeBeat (s : State) (beat : Nat) : Nat := if s.mode = .sleep then (beat + 7) / 8 * 8 else beat

/-- Local time at a beat of the frame in force. -/
def State.timeAtBeat (s : State) (beat : Nat) : Int := timeAt s.time (s.clk.c + beat)

/-- SOURCE of an edge (R390): KIND, EDGE and number. -/
def edgeSource (kind number : Nat) (rise : Bool) : Nat := kind * 8192 + (if rise then 0 else 4096) + number

/-- EVT pin i. -/
def State.evt (s : State) (i : Nat) : Evt := Table.get {} s.evts i

/-- s with EVT pin i replaced. -/
def State.setEvt (s : State) (i : Nat) (x : Evt) : State := { s with evts := Table.set {} s.evts i x }

/-- The end of what an EVT output has been asked to drive, once it lies before a beat of the raw counter: the pin falls, and a
capture of the pin stamps the edge it drives. -/
def State.evtFall (s : State) (pin beat : Nat) : State :=
  let e := s.evt pin
  if 0 < e.highUntil ∧ e.highUntil < beat then
    (s.setEvt pin { e with highUntil := 0 }).captureAll (edgeSource 1 pin false) (timeAt s.time e.highUntil)
  else s

/-- A pulse of 8 beats requested from a beat of the raw counter on an EVT pin configured as TRIG out (R230, R389, R497): pulses
that overlap merge, and a capture of the pin stamps its rise. (log 64, DEDUCED) -/
def State.evtPulse (s : State) (pin : Nat) (beat : Nat) : State :=
  if pin < 8 ∧ s.inForce (0x8050 + pin) 1 = 3 then
    let s := s.evtFall pin beat
    let e := s.evt pin
    let s := if e.highUntil = 0 then s.captureAll (edgeSource 1 pin true) (timeAt s.time beat) else s
    let s := s.setEvt pin { e with highUntil := max e.highUntil (beat + 8) }
    (s.bump (0x8050 + pin) 3).send (.evtPulse pin beat)
  else s

end Sys2Proof.Machine
end

