-- ==== Sys2Proof/Machine/Flags.lean ====
section
/-! DEFINITION. The flags: Z N C V of the micro-engines (R72-R74) and FLAGS of a site (R34). -/

namespace Sys2Proof.Machine

/-- A 32-bit result with the flags it gives; an absent flag keeps its value. -/
structure AluOut where
  val : Word32
  z : Option Bool := none
  n : Option Bool := none
  c : Option Bool := none
  v : Option Bool := none
  deriving DecidableEq, Repr

/-- A result that sets Z and N (R72). -/
def aluZN (x : Word32) : AluOut := { val := x, z := some (x == 0), n := some (x.getLsbD 31) }

/-- ADD: C is the carry out and V the signed overflow (R72). -/
def aluAdd (a b : Word32) : AluOut :=
  let x := a + b
  { aluZN x with c := some (decide (2 ^ 32 ≤ a.toNat + b.toNat)), v := some (decide (x.toInt ≠ a.toInt + b.toInt)) }

/-- SUB and CMP: C is 1 when a is at least b unsigned, V the signed overflow (R72). -/
def aluSub (a b : Word32) : AluOut :=
  let x := a - b
  { aluZN x with c := some (decide (b.toNat ≤ a.toNat)), v := some (decide (x.toInt ≠ a.toInt - b.toInt)) }

/-- SHF by type and amount (R73): an amount of 0 leaves the value and clears C; otherwise C is the last bit shifted out,
or for ROR the new bit 31. -/
def aluShift (type amount : Nat) (a : Word32) : AluOut :=
  if amount = 0 then { aluZN a with c := some false }
  else match type with
    | 0 => { aluZN (a <<< amount) with c := some (a.getLsbD (32 - amount)) }
    | 1 => { aluZN (a >>> amount) with c := some (a.getLsbD (amount - 1)) }
    | 2 => { aluZN (a.sshiftRight amount) with c := some (a.getLsbD (amount - 1)) }
    | _ => let x := a.rotateRight amount; { aluZN x with c := some (x.getLsbD 31) }

/-- One CRC step over the low n bits of `ma`, most significant first (R74). -/
def crcSteps (w : Nat) (poly ma : Nat) : Nat → Nat → Nat
  | 0, md => md
  | n + 1, md =>
    let fb := natBit ma n ^^ natBit md (w - 1)
    let sh := md * 2 % 2 ^ w
    crcSteps w poly ma n (if fb then sh ^^^ poly % 2 ^ w else sh)

/-- CRC: only Z is written (R72, R74). -/
def aluCrc (w n : Nat) (poly ma md : Word32) : AluOut :=
  let x := BitVec.ofNat 32 (crcSteps w poly.toNat ma.toNat n md.toNat)
  { val := x, z := some (x == 0) }

/-- The condition codes of BR (R71); 0xF is reserved. -/
def condHolds (m : MicroState) (code : Nat) : Bool :=
  match code with
  | 0 => true
  | 1 => m.z
  | 2 => !m.z
  | 3 => m.c
  | 4 => !m.c
  | 5 => m.n
  | 6 => !m.n
  | 7 => m.v
  | 8 => !m.v
  | 9 => m.c && !m.z
  | 10 => !m.c || m.z
  | 11 => m.n == m.v
  | 12 => m.n != m.v
  | 13 => !m.z && m.n == m.v
  | 14 => m.z || m.n != m.v
  | _ => false

/-- Bits of FLAGS (R34). -/
def flagFail : Nat := 0
/-- MATCHED. -/
def flagMatched : Nat := 1
/-- TIMEOUT. -/
def flagTimeout : Nat := 2
/-- SYNC. -/
def flagSync : Nat := 3
/-- LATE. -/
def flagLate : Nat := 4
/-- TAINTED. -/
def flagTainted : Nat := 5
/-- REFCLK. -/
def flagRefclk : Nat := 6
/-- PLAYOUT. -/
def flagPlayout : Nat := 7

/-- FLAGS with one bit given a value. -/
def setFlag (f : BitVec 8) (i : Nat) (b : Bool) : BitVec 8 :=
  if b then f ||| BitVec.ofNat 8 (2 ^ i) else f &&& ~~~(BitVec.ofNat 8 (2 ^ i))

/-- A site with one flag given a value. -/
def Site.flag (x : Site) (i : Nat) (b : Bool) : Site := { x with flags := setFlag x.flags i b }

/-- One flag of a site. -/
def Site.has (x : Site) (i : Nat) : Bool := x.flags.getLsbD i

/-- FLAGS.TAINTED of a site set (R83). -/
def State.taint (s : State) (n : Nat) : State := s.modSite n (·.flag flagTainted true)

/-- FLAGS.TAINTED set, except in play-out (R61). -/
def State.taintPath (s : State) (n : Nat) : State := if (s.site n).playout then s else s.taint n

/-- COND of an itinerary instruction (R40); 0b111 is reserved and never true. -/
def siteCond (f : BitVec 8) (code : Nat) : Bool :=
  match code with
  | 0 => true
  | 1 => f.getLsbD flagFail
  | 2 => !f.getLsbD flagFail
  | 3 => f.getLsbD flagMatched
  | 4 => f.getLsbD flagTimeout
  | 5 => f.getLsbD flagSync
  | 6 => !f.getLsbD flagSync
  | _ => false

end Sys2Proof.Machine
end

