-- ==== Sys2Proof/Machine/Compare.lean ====
section
/-! DEFINITION. Window comparators, strobes and fail counting (R188-R208). -/

namespace Sys2Proof.Machine

/-! ### Thresholds and decisions -/

/-- The DAC code of a threshold in µV: nearest step, ties upwards, clamped (R189). -/
def thresholdCode (v : Int) : Int := max 0 (min 16383 (((v + 400000) * 16384 + 1200000) / 2400000))

/-- A threshold as realised, in units of 1/64 µV (R189). -/
def realised64 (v : Int) : Int := -400000 * 64 + thresholdCode v * 9375

/-- Hysteresis as realised: the nearest 500 µV step, ties upwards (R189). -/
def realisedHyst (h : Int) : Int := (h + 250) / 500 * 500

/-- The threshold of a pin's VTH (or VTL) comparator in 1/64 µV. -/
def State.threshold (s : State) (p : Nat) (vtl : Bool) : Int := realised64 (s.reg (pinObj p 2) (if vtl then 2 else 1))

/-- Half the hysteresis band of a pin in 1/64 µV. -/
def State.halfBand (s : State) (p : Nat) : Int := realisedHyst (s.reg (pinObj p 2) 3) * 32

/-- The side of an input against a threshold: above, below, or none where it lies exactly at it. -/
def sideOf (x v : Int) : Option Bool := if x > v then some true else if x < v then some false else none

/-- The decision of a sampled comparator that held `held` (R191): a held decision changes past the far edge of the band;
none held decides against V itself. The spec states no side for an input exactly at V: a free value. (log 38, DEDUCED) -/
def State.decide1 (s : State) (held : Option Bool) (v half x : Int) : Bool × State :=
  match held with
  | some false => (decide (x > v + half), s)
  | some true => (!decide (x < v - half), s)
  | none =>
    match sideOf x v with
    | some b => (b, s)
    | none => let f := s.free; (f.1 % 2 == 1, f.2)

/-! ### Parked pins (R145) -/

/-- What a log of changes, newest first, holds at a time; `d` before the first. -/
def logAt (d : Bool) (l : List (Nat × Bool)) (t : Nat) : Bool := ((l.find? fun e => decide (e.1 ≤ t)).map (·.2)).getD d

/-- Whether the pins of a site are parked after all that is placed on its timeline: from LOAD until the first vector they are (R146). -/
def Playback.parked (x : Playback) : Bool := (x.parkLog.head?.map (·.2)).getD true

/-- The pins parked, or unparked, from t on. -/
def Playback.park (x : Playback) (t : Nat) (b : Bool) : Playback := if x.parked = b then x else { x with parkLog := (t, b) :: x.parkLog }

/-- Whether an entry of a run FIFO takes no time on the timeline where it stands at tu (R44, R53). -/
def Run.flat (tu : Nat) (r : Run) : Bool :=
  match r.kind with
  | .rider _ | .period _ | .tset _ => true
  | .block _ len => r.done % len == 0 && (match r.stop with | some e => decide (e ≤ tu) | none => false)
  | _ => false

/-- Whether a descriptor ends no hold: effects without a length. -/
def Desc.flat (d : Desc) : Bool := match d.kind with | .rider _ | .period _ | .tset _ => true | _ => false

/-- Whether a site at a drain point has played every vector before it, so that its pins park from the end of the last one (R51). -/
def Site.drainHold (x : Site) : Bool :=
  x.st == .waiting && !x.play.parked && x.play.starvedFrom.isNone &&
    (match x.runs.dropWhile (Run.flat x.play.tu) with
     | [] => (match x.queue.dropWhile Desc.flat with
       | [] | { kind := .barrier _, .. } :: _ => true
       | _ => false)
     | { kind := .barrier _, .. } :: _ => true
     | _ => false)

/-- Whether a pin is parked at t tu of its site (R145): with its site, in a drain hold, or by a slot played as PARK (R149). -/
def State.parkedPin (s : State) (p t : Nat) : Bool :=
  match s.pinSite p with
  | some n =>
    let x := s.site n
    logAt true x.play.parkLog t || (x.drainHold && decide (x.play.tu ≤ t)) || logAt false (s.pin p).parks t
  | none => false

/-! ### Strobes -/

/-- Whether the pin is in a serial session whose receiver is not off: the monitor is SUSPENDED (R202, R205). -/
def Pin.suspended (q : Pin) : Bool :=
  match q.serial with
  | some x => x.rx ≠ .off
  | none => false

/-- Whether a comparator of a pin runs continuously: for the monitor, for an open gate that names it, or VTH for a serial receiver, which
leaves VTL unpowered (R193, R205, R246). (log 63, DEDUCED) -/
def Pin.runs (q : Pin) (vtl : Bool) : Bool :=
  if q.suspended then !vtl else q.mon ≠ .off || decide (0 < if vtl then q.gatesTl else q.gatesTh)

/-- The comparator code of two decisions (R192). -/
def codeOf (th tl : Bool) : Nat :=
  match th, tl with
  | false, false => 0
  | false, true => 1
  | true, true => 2
  | true, false => 3

/-- What the comparators of a pin see (R188): V(RXP), or its difference from V(RXN). -/
def State.comparatorInput (s : State) (p : Nat) (rxp rxn : Int) : Int := if s.reg (pinObj p 2) 4 = 1 then rxp - rxn else rxp

/-- The correction of kind k in force on pin p, in fs (R168): rising and falling drive, turn-off and turn-on, strobe of VTH and of VTL. -/
def State.correction (s : State) (p k : Nat) : Int := s.reg (pinObj p 7) (k + 7)

/-- A pin whose slot plays PARK from t on, or plays again (R149). -/
def Pin.parkSlot (q : Pin) (t : Nat) (b : Bool) : Pin :=
  if (q.parks.head?.map (·.2)).getD false = b then q else { q with parks := (t, b) :: q.parks }

/-- A log of what held before each change, by the times of the changes in tu, with one more change at t from the value `b`. -/
def noteChange {α : Type} (l : List (Nat × α)) (t : Nat) (b : α) : List (Nat × α) :=
  (l.takeWhile fun e => decide (e.1 ≤ t)) ++ (t, b) :: l.dropWhile fun e => decide (e.1 ≤ t)

/-- A time of site n in tu of the raw counter. -/
def State.rawTu (s : State) (n t : Nat) : Nat := (s.rawOf (s.site n).f0 * 5000 + (t : Int)).toNat

/-- What a pin's continuously running comparators were is noted for the strobes of the frame, before they change at a raw time in tu. -/
def State.noteRuns (s : State) (p t : Nat) : State :=
  s.modPin p fun q => { q with runWas := noteChange q.runWas t (q.runs false, q.runs true) }

/-- Whether a comparator of a pin runs continuously at an instant of the open frame, in fs of the raw counter (R193). -/
def Pin.runsAt (q : Pin) (vtl : Bool) (t : Int) : Bool :=
  match q.runWas.find? fun e => decide (t < 250 * (e.1 : Int)) with
  | some e => if vtl then e.2.2 else e.2.1
  | none => q.runs vtl

/-- The decision that a comparator of a pin held at an instant of the open frame, in fs of the raw counter (R193). -/
def Pin.heldAt (q : Pin) (vtl : Bool) (t : Int) : Option Bool :=
  match q.heldWas.find? fun e => decide (t < 250 * (e.1 : Int)) with
  | some e => if vtl then e.2.2 else e.2.1
  | none => if vtl then q.heldTl else q.heldTh

/-- A decision that a strobe takes at an instant of the open frame: held until the next change that the frame has seen. -/
def Pin.putHeld (q : Pin) (vtl : Bool) (t : Int) (b : Bool) : Pin :=
  let put (e : Nat × Option Bool × Option Bool) : Nat × Option Bool × Option Bool :=
    (e.1, if vtl then e.2.1 else some b, if vtl then some b else e.2.2)
  match q.heldWas.dropWhile fun e => decide (250 * (e.1 : Int) ≤ t) with
  | e :: rest => { q with heldWas := (q.heldWas.takeWhile fun e => decide (250 * (e.1 : Int) ≤ t)) ++ put e :: rest }
  | [] => if vtl then { q with heldTl := some b } else { q with heldTh := some b }

/-- A strobe samples the two comparators of its pin, each at its time and its own correction (R168, R191, R193): comparators that run
continuously then give the decisions they held then, sampled ones decide and hold. -/
def State.sample (s : State) (f0 : Nat) (st : Strobe) : Nat × State :=
  let p := s.pin st.pin
  let t (k : Nat) : Int := (s.rawOf f0 * 5000 + st.time) * 250 + s.correction st.pin k
  let hth := p.heldAt false (t 4)
  let htl := p.heldAt true (t 5)
  let th := s.decide1 hth (s.threshold st.pin false) (s.halfBand st.pin) (s.comparatorInput st.pin (st.vth.getD 0) st.nth * 64)
  let tl := th.2.decide1 htl (s.threshold st.pin true) (s.halfBand st.pin) (s.comparatorInput st.pin (st.vtl.getD 0) st.ntl * 64)
  let a := if p.runsAt false (t 4) then hth.getD th.1 else th.1
  let b := if p.runsAt true (t 5) then htl.getD tl.1 else tl.1
  (codeOf a b, tl.2.modPin st.pin fun q =>
    let q := if p.runsAt false (t 4) then q else q.putHeld false (t 4) a
    if p.runsAt true (t 5) then q else q.putHeld true (t 5) b)

/-- Whether a comparator code passes an expected code (R159, R194). -/
def passes (expected code : Nat) : Bool :=
  match expected with
  | 2 => code == 0
  | 3 => code == 2
  | 4 => code == 1
  | 5 => code == 0 || code == 2
  | _ => true

/-- The commit tick of an instant t tu after a site's first tick f0 (R41): its frame's closing tick for beats 0-47, one
later for beats 48-63. -/
def commitTick (f0 t : Nat) : Nat := f0 + t / 320000 + 1 + (if t % 320000 / 5000 ≤ 47 then 0 else 1)

/-- Strobes in time order. -/
def insertByTime {α : Type} (key : α → Nat) (x : α) : List α → List α
  | [] => [x]
  | y :: t => if key x < key y then x :: y :: t else y :: insertByTime key x t

/-- A strobe sampled and judged (R194); strobes of a MATCH block count no fail (R52). -/
def State.judge (s : State) (n : Nat) (st : Strobe) : State :=
  let r := s.sample (s.site n).f0 st
  r.2.modSite n fun x => { x with judged := x.judged ++ [{
    due := commitTick x.f0 st.time, pin := some st.pin, code := r.1, expected := st.expected,
    fail := st.iter.isNone && !passes st.expected r.1, vector := st.vector, time := st.time, epoch := st.epoch,
    iter := st.iter }] }

/-- Every strobe of site n that falls before a time is sampled, in time order. -/
def State.judgeUntil (s : State) (n t : Nat) : State :=
  let l := (s.site n).strobes
  let due := l.filter (·.time < t)
  let s := s.modSite n fun x => { x with strobes := l.filter (fun y => !decide (y.time < t)) }
  (due.foldl (fun a y => insertByTime Strobe.time y a) []).foldl (fun s y => s.judge n y) s

/-! ### Commit (R41, R194-R199) -/

/-- One fail counted for a site: FLAGS.FAIL for the current epoch (R42) and FIRST_FAIL once (R195). -/
def State.siteFail (s : State) (n epoch : Nat) : State :=
  let x := s.site n
  let s := if x.failed then s else s.raise (siteEvent n 1)
  s.modSite n fun y => (if epoch = y.thread.epoch then y.flag flagFail true else y) |> fun y => { y with failed := true }

/-- One fail tied to no pin (R53, R197). -/
def State.bareFail (s : State) (n epoch : Nat) : State :=
  ((s.bump (siteObj n 4) 3).bump (siteObj n 4) 1).siteFail n epoch

/-- One fail of pin p of site n committed (R195-R197). -/
def State.pinFail (s : State) (n p : Nat) (j : Judged) : State :=
  let first := s.reg (pinObj p 4) 1 = 0
  let s := s.bump (pinObj p 4) 1
  let s := if first then
    ((s.setNat (pinObj p 4) 2 j.vector).setNat (pinObj p 4) 3 j.time).raise (pinEvent p 0) else s
  let s := s.bump (siteObj n 4) 1
  let s := s.setNat (siteObj n 4) 2 (orBit (s.nreg (siteObj n 4) 2) p)
  s.siteFail n j.epoch

/-- The sticky latch after a committed strobe (R199). -/
def stickyBits (old code : Nat) (failed : Bool) : Nat :=
  let x := orBit old code
  if failed then orBit x 4 else x

/-- The latches of a pin after a committed strobe (R198, R199). -/
def State.latch (s : State) (n p : Nat) (j : Judged) : State :=
  let s := s.setNat (pinObj p 4) 4 j.code
  let s := if j.code = 3 then s.bump (pinObj p 4) 7 else s
  let s := s.bump (pinObj p 4) 8
  let old := s.nreg (pinObj p 4) 5
  if s.reg (pinObj p 4) 6 = 1 then
    if j.epoch < (s.site n).thread.epoch then s
    else if j.epoch > (s.pin p).stickyEpoch then
      (s.setNat (pinObj p 4) 5 (stickyBits 0 j.code j.fail)).modPin p fun q => { q with stickyEpoch := j.epoch }
    else s.setNat (pinObj p 4) 5 (stickyBits old j.code j.fail)
  else s.setNat (pinObj p 4) 5 (stickyBits old j.code j.fail)

/-- One judged strobe, bit or fail committed (R41, R194, R195). -/
def State.commit1 (s : State) (n : Nat) (j : Judged) : State :=
  let s := s.modSite n fun x => { x with recent := x.recent ++ [j] }
  match j.pin with
  | none => if j.fail then s.bareFail n j.epoch else s
  | some p =>
    let s := if j.strobe then s.latch n p j else s
    let s := match j.iter with
      | some i => s.modSite n fun x => { x with mtch := x.mtch.map fun m => { m with codes := m.codes ++ [(i, p, j.code)] } }
      | none => s
    if j.fail then s.pinFail n p j else s

/-- FAIL_COMMIT of site n at a tick: every judged strobe that is due, in time order (R41). -/
def State.commitSite (s : State) (n tick : Nat) : State :=
  let l := (s.site n).judged
  let due := l.filter (·.due ≤ tick)
  let s := s.modSite n fun x => { x with judged := l.filter (fun y => !decide (y.due ≤ tick)) }
  (due.foldl (fun a y => insertByTime Judged.time y a) []).foldl (fun s y => s.commit1 n y) s

/-- The pattern vectors at the head of the run FIFO that follow without a hold; a block repeats without end. -/
def Site.vectorsAhead (x : Site) : List Run → Option Nat
  | [] => some 0
  | r :: rest =>
    match r.kind with
    | .stream _ c | .repeat c | .literal _ _ _ c _ => (x.vectorsAhead rest).map (c - r.done + ·)
    | .block _ _ => if r.flat x.play.tu then x.vectorsAhead rest else none
    | .rider _ | .tset _ | .period _ => x.vectorsAhead rest
    | .hold _ | .until _ | .barrier _ => some 0

/-- The pattern vectors that a site has played before the one in which t lies (R195): counted from its last placed vector or hold span by
the period in force, over vectors that follow without a hold while it is not starved. (log 154, DEDUCED) -/
def Site.vectorAt (x : Site) (t : Nat) : Nat :=
  let p := max 1 x.play.period
  if t ≥ x.play.tu then
    let k := (t - x.play.tu) / p
    x.play.vectors + (if x.play.starvedFrom.isSome ∨ x.play.dead then 0 else min k ((x.vectorsAhead x.runs).getD k))
  else if logAt true x.play.parkLog t then x.play.vectors
  else x.play.vectors - 1 - (x.play.tu - 1 - t) / p

/-- A fail of pin p at the beat now, committed under R41 as a strobe in that beat (R177, R179, R203). `beat` is the beat
within the open frame. -/
def State.failNow (s : State) (p beat : Nat) : State :=
  match s.pinSite p with
  | none => s
  | some n =>
    s.modSite n fun x =>
      let t := (s.now - x.f0) * 320000 + beat * 5000
      { x with judged := x.judged ++ [{
        due := s.now + 1 + (if beat ≤ 47 then 0 else 1), pin := some p, fail := true, strobe := false,
        vector := x.vectorAt t, time := t, epoch := x.thread.epoch }] }

/-- A site's counts and latches at entry to RUNNING from READY (R195, R197-R199). -/
def State.clearCompare (s : State) (n : Nat) : State :=
  let s := s.each (s.sitePins n) fun s p =>
    let o := pinObj p 4
    ((((((s.setNat o 1 0).setNat o 2 (2 ^ 64 - 1)).setNat o 3 (2 ^ 64 - 1)).setNat o 4 3).setNat o 5 0).setNat o 8 0).modPin p
      fun q => { q with stickyEpoch := 0 }
  ((s.setNat (siteObj n 4) 1 0).setNat (siteObj n 4) 2 0).setNat (siteObj n 4) 3 0

/-- The monitor state that the held decisions of a pin indicate (R202). -/
def Pin.indicates (q : Pin) : Option MonState :=
  match q.heldTh, q.heldTl with
  | some false, some true => some .inside
  | some true, some true | some true, none => some .above
  | some false, some false | none, some false => some .below
  | _, _ => none

/-- The held decisions of a pin changed in a beat of the open frame, `tap` of 10 tu into it: what they were before is noted for the strobes
of the frame (R193), and the raw beat where they indicate another state (R203). -/
def State.setHeld (s : State) (p : Nat) (th tl : Option Bool) (beat tap : Nat) : State :=
  s.modPin p fun q =>
    let t := 5000 * (s.clk.c + beat) + 10 * tap
    let was := noteChange q.heldWas t (q.heldAt false (250 * t), q.heldAt true (250 * t))
    match was.dropWhile fun e => decide (e.1 ≤ t) with
    | e :: rest => { q with heldWas := (was.takeWhile fun e => decide (e.1 ≤ t)) ++ (e.1, th, tl) :: rest }
    | [] =>
      let y : Pin := { q with heldTh := th, heldTl := tl, heldWas := was }
      { y with monSeen := if y.indicates = q.indicates then q.monSeen else s.clk.c + beat }

/-- Both held decisions of a pin cleared (R191), for the instants of the next frame on. -/
def State.clearHeld (s : State) (p : Nat) : State := s.setHeld p none none 64 0

/-! ### Window monitors on pins (R201-R205) -/

/-- MON_STATE of a pin (R202): SUSPENDED reads 5. -/
def State.monCode (s : State) (p : Nat) : Nat :=
  let q := s.pin p
  if q.mon = .off then 0 else if q.suspended then 5 else q.mon.code

/-- A change of a pin's monitor about to happen in a beat of the open frame; beat 64 stands for the end of the frame. -/
def State.monChanges (s : State) (p beat : Nat) : State :=
  s.modPin p fun q => { q with monWas := q.monWas ++ [(beat, s.monCode p)] }

/-- MON_STATE of a pin in a beat of the open frame (R211). (log 62, DEDUCED) -/
def State.monAt (s : State) (p beat : Nat) : Nat :=
  match (s.pin p).monWas.find? fun e => decide (beat < e.1) with
  | some e => e.2
  | none => s.monCode p

/-- A running monitor put in UNDECIDED with its held decisions cleared (R201). -/
def State.monRestart (s : State) (p : Nat) : State :=
  ((s.monChanges p 64).clearHeld p).modPin p fun q => { q with mon := .undecided, monSince := s.now }

/-- The held decisions of a pin cleared (R191), which puts a monitor that is enabled in UNDECIDED (R202). -/
def State.clearDecisions (s : State) (p : Nat) : State := if (s.pin p).mon ≠ .off then s.monRestart p else s.clearHeld p

/-- A write to MON_ENABLE (R201), from the next frame on. -/
def State.monEnable (s : State) (p : Nat) (on : Bool) : State :=
  let s := s.noteRuns p (5000 * (s.clk.c + 64))
  if on then s.monRestart p
  else (s.monChanges p 64).modPin p fun q => { q with mon := .off }

/-- The monitor of a pin takes a state (R203, R204): leaving IN, or resolving from UNDECIDED to outside, raises the alarm;
a return to IN raises MON_CLEAR; with MON_FAILS one fail counts while the site is RUNNING or WAITING. -/
def State.monTake (s : State) (p : Nat) (st : MonState) (beat : Nat) : State :=
  let old := (s.pin p).mon
  let s := (s.monChanges p beat).modPin p fun q => { q with mon := st, monSince := s.now }
  let outside := st = .below ∨ st = .above
  if (old = .inside ∨ old = .undecided) ∧ outside then
    let s := ((s.setNat (pinObj p 5) 4 1).bump (pinObj p 5) 5).raise (pinEvent p 1)
    let live : Bool := match s.pinSite p with | some n => (s.site n).st.live | none => false
    if s.reg (pinObj p 5) 7 = 1 ∧ live then s.failNow p beat else s
  else if (old = .below ∨ old = .above) ∧ st = .inside then s.raise (pinEvent p 2)
  else s

/-- MON_STATE_CHANGE (R203, R204): a state that the decisions have indicated for MON_FILTER beats takes effect. -/
def execMonStateChange (n : PinId) (st : Nat) (beat : Nat) (s : State) : Out :=
  let target : Option MonState := match st with | 2 => some .inside | 3 => some .below | 4 => some .above | _ => none
  match target with
  | none => .next s
  | some t =>
    let q := s.pin n
    if s.beatsStop ∨ q.mon = .off ∨ q.suspended ∨ q.mon = t ∨ beat ≥ 64 ∨ q.indicates ≠ some t
        ∨ s.clk.c + beat < q.monSeen + s.nInForce (pinObj n 5) 2 then .next s
    else .next (s.monTake n t beat)

/-- MON_FORCED (R204): UNDECIDED for 125,000 frames is forced to IN, with no alarm raised or cleared. -/
def execMonForced (n : PinId) (s : State) : Out :=
  let q := s.pin n
  if !s.beatsStop ∧ q.mon = .undecided ∧ !q.suspended ∧ s.now ≥ q.monSince + 125000 then
    let s := ((s.monChanges n 64).setHeld n (some (q.heldTh.getD false)) (some (q.heldTl.getD true)) 64 0).modPin n fun q =>
      { q with mon := .inside, monSince := s.now }
    .next ((s.bump (pinObj n 5) 6).raise (pinEvent n 3))
  else .next s

/-! ### Drive events (R158, R168) -/

/-- The kind of correction that a drive event to a state takes (R168). -/
def driveKind (d : DriveState) (old : DriveState) : Nat :=
  match d with
  | .off => 2
  | .high => if old = .off then 3 else 0
  | _ => if old = .off then 3 else 1

/-- A drive event that has fired at a time in fs: one that leaves the driver in its state is no transition (R158). -/
def Pin.drives (q : Pin) (d : DriveState) (at0 : Int) : Pin :=
  if q.drive = d then q else { q with drive := d, lastEdge := some (d, at0) }

/-- The drive events of pin p acted on that fire before t, or that are programmed before t where `all` says so: each fires at its time and the
correction of its kind in force in its beat (R158, R165, R168). -/
def State.settleEvents (s : State) (p t : Nat) (all : Bool) : State :=
  s.modPin p fun q =>
    let l := q.events.foldl (fun a e => insertByTime (·.1) e a) []
    l.foldl (fun (q : Pin) e =>
      let fires : Int := (e.1 : Int) * 250 + s.correction p (driveKind e.2 q.drive)
      if fires < (t : Int) * 250 ∨ (all ∧ e.1 < t) then q.drives e.2 fires else { q with events := q.events ++ [e] }) { q with events := [] }

/-- The drive events of pin p that fire before t acted on. -/
def State.settlePin (s : State) (p t : Nat) : State := s.settleEvents p t false

/-! ### Supply and reference monitors (R206-R208) -/

/-- Object 0x2030 + m. -/
def supplyObj (m : Nat) : Nat := 0x2030 + m

/-- Whether a monitor's alarm goes to the fault handler (R206). -/
def supplyCore (m : Nat) : Bool := [0, 1, 2, 3, 6].contains m

/-- Whether supply monitor m is outside its window: STATE 3 or 4 (R208). -/
def State.supplyOut (s : State) (m : Nat) : Bool := s.reg (supplyObj m) 4 ≥ 3

/-- Every live site tainted (R207, R461). -/
def State.taintLive (s : State) : State :=
  s.each siteNos fun s n => if (s.site n).st.live then s.taint n else s

/-- A core-rail alarm given to the handler (R461): a fault of SUPPLY, or one more monitor of the fault in progress. Each
monitor starts its own timer. -/
def State.supplyFault (s : State) (m : Nat) : State :=
  let s := s.taintLive
  let joined := !s.handler.supply.isEmpty
  let s := { s with handler := { s.handler with supply := s.handler.supply ++ [(m, s.now)] } }
  if joined then s.bump 0xD200 5
  else s.handFault { resource := 11, level := 7, source := 1620 + m }

/-- A monitor's part of the SUPPLY fault ends; the fault ends with E1537 once no monitor is left in it (R461). -/
def State.supplyEnds (s : State) (m : Nat) : State :=
  match s.handler.supply.find? (·.1 = m) with
  | none => s
  | some (_, t) =>
    let rest := s.handler.supply.filter (·.1 ≠ m)
    let s := { s with handler := { s.handler with supply := rest } }
    if rest.isEmpty then s.recovered 11 (s.usSince (((s.faultOf 11).map (·.frame)).getD t)) else s

/-- SUPPLY_MON_CHANGE (R206, R207): monitor m takes a state. -/
def execSupplyMonChange (m : Fin 9) (st : Nat) (s : State) : Out :=
  let old := s.nreg (supplyObj m) 4
  if st < 2 ∨ st > 4 ∨ st = old ∨ s.mode = .off then .next s
  else
    let s1 := s.setNat (supplyObj m) 4 st
    if st = 2 then
      let s2 := if old ≥ 3 then s1.raise 1630 else s1
      .next (s2.supplyEnds m)
    else if old ≥ 3 then .next s1
    else
      let s2 := (s1.bump (supplyObj m) 5).raise (1620 + m)
      if (s2.handler.supply.any (·.1 = m)) then .next s2
      else if supplyCore m then .next (s2.supplyFault m)
      else .next s2.taintLive

/-- A monitor put in UNDECIDED by a write (R208). -/
def State.supplyRestart (s : State) (m : Nat) : State :=
  let s := s.setNat (supplyObj m) 4 1
  { s with handler := { s.handler with undecided := Table.set 0 s.handler.undecided m s.now } }

/-- SUPPLY_MON_FORCED (R204, R206): a monitor still UNDECIDED after 10 ms, 125,000 frames, is forced to IN. -/
def execSupplyMonForced (m : Fin 9) (s : State) : Out :=
  if s.nreg (supplyObj m) 4 = 1 ∧ s.mode ≠ .off ∧ s.now ≥ Table.get 0 s.handler.undecided m + 125000 then
    .next ((((s.setNat (supplyObj m) 4 2).bump (supplyObj m) 6).raise 1629).supplyEnds m)
  else .next s

end Sys2Proof.Machine
end

