-- ==== Sys2Proof/Machine/Ledger.lean ====
section
/-! DEFINITION. The Ledger and its Caravans: allocation, readiness, cancellation and release (R100-R105, R116-R121). -/

namespace Sys2Proof.Machine

/-- The pools (R100): first entry and the entry after the last. -/
def generalFirst : Nat := 1088
/-- One past the last entry. -/
def ledgerEnd : Nat := 131072

/-- The first number from i on that a table does not list. -/
def firstFree {α : Type} : Nat → Table α → Nat
  | i, [] => i
  | i, (k, _) :: t => if k < i then firstFree i t else if k = i then firstFree (i + 1) t else i

/-- General-pool entries that a site holds (R128). -/
def State.siteEntries (s : State) (n : Nat) : Nat :=
  (s.ledger.filter fun e => decide (e.1 ≥ generalFirst) && e.2.site == n).length

/-- General-pool entries in use. -/
def State.generalUsed (s : State) : Nat := (s.ledger.filter fun e => decide (e.1 ≥ generalFirst)).length

/-- Service-pool entries in use. -/
def State.serviceUsed (s : State) : Nat :=
  (s.ledger.filter fun e => decide (64 ≤ e.1) && decide (e.1 < generalFirst)).length

/-- READY entries of a level (R125). -/
def State.depth (s : State) (level : Nat) : Nat :=
  (s.ledger.filter fun e => e.2.state == .ready && e.2.prio == level).length

/-- Entry i READY from now on, after those that became READY in earlier cycles (R109, R110). -/
def State.makeReady (s : State) (i : Nat) : State :=
  let e := s.entry i
  let s := s.setEntry i { e with state := .ready, since := s.now, order := s.inn.clock, old := false }
  s.peak 0x5002 (9 + e.prio) (s.depth e.prio)

/-- Micro-engine cycles gone by: what becomes READY from now on is later than what did before (R66, R110). (log 121, DEDUCED) -/
def State.passCycles (s : State) (k : Nat) : State := { s with inn := { s.inn with clock := s.inn.clock + k } }

/-- The level of use that raises E1602, and what lets it be raised again (R130). -/
def State.watchUse (s : State) : State :=
  let size := ledgerEnd - generalFirst
  let used := s.generalUsed * 100
  if used ≥ s.inn.high * size ∧ !s.inn.highRaised then ({ s with inn := { s.inn with highRaised := true } }).raise 1602
  else if used + 10 * size ≤ s.inn.high * size ∧ s.inn.highRaised then { s with inn := { s.inn with highRaised := false } }
  else s

/-- A post or request refused (R100). -/
def State.refusePost (s : State) : State := s.bump 0x5001 8

/-- Both words of entry i written anew, without error. -/
def State.rewrite (s : State) (i : Nat) (e : Entry) : State :=
  ({ s with inn := { s.inn with flips := Table.erase s.inn.flips i } }).setEntry i e

/-- An entry written, with the peak of use (R124). -/
def State.take (s : State) (i : Nat) (e : Entry) : State :=
  let s := s.rewrite i e
  (s.peak 0x5001 2 s.ledger.length).watchUse

/-- A general-pool entry for site n, the lowest-numbered one that is free, refused beyond the pool or the site's quota (R100). (log 167, DESIGN CHOICE) -/
def State.allocGeneral (s : State) (n : Nat) (e : Entry) : Option Nat × State :=
  let i := firstFree generalFirst s.ledger
  if i ≥ ledgerEnd ∨ s.siteEntries n ≥ s.nreg 0x5000 2 then (none, s.refusePost)
  else (some i, s.take i { e with site := n })

/-- A Caravan item given its sequence number (R119). -/
def State.joinCaravan (s : State) (c : Nat) : Nat × State :=
  let v := s.caravan c
  (v.next, s.setCaravan c { v with next := (v.next + 1) % 65536, outstanding := v.outstanding + 1 })

/-- Whether a post has to wait (R100, R119): for an entry of 97-1087, which a packaging task does not need; for room in its Caravan; or behind
a post held for the same Caravan. (log 122, DEDUCED) -/
def State.postWaits (s : State) (held : List HeldPost) (p : HeldPost) : Bool :=
  (p.entry.isNone && decide (firstFree 97 s.ledger ≥ generalFirst)) ||
    (match p.caravan with
     | some c => decide ((s.caravan c).outstanding ≥ 1024) || held.any (·.caravan == some c)
     | none => false)

/-- An engine task given entry i and, where it has one, its place in its Caravan. ENTRY and ARG are vendor microcode's: free values. -/
def State.placePost (s : State) (p : HeldPost) (i : Nat) : State :=
  let f := s.free
  let a := f.2.free
  let e : Entry := { state := .ready, kind := .task, prio := p.prio, site := p.site, service := true,
                     entry := f.1 % 65536, arg := BitVec.ofNat 32 a.1, work := p.work }
  match p.caravan with
  | some c =>
    let q := a.2.joinCaravan c
    (q.2.take i { e with caravan := some c, seq := q.1 }).makeReady i
  | none => (a.2.take i e).makeReady i

/-- The entry that a post takes. -/
def State.postEntry (s : State) (p : HeldPost) : Nat := p.entry.getD (firstFree 97 s.ledger)

/-- A task posted by the engine itself: where it has to wait, its unit holds it (R100, R119). SERVICE_WAITS counts those that wait for
an entry. (log 122, DEDUCED) -/
def State.postService (s : State) (p : HeldPost) : State :=
  if s.postWaits s.inn.held p then
    let s := if p.entry.isNone ∧ firstFree 97 s.ledger ≥ generalFirst then s.bump 0x5001 14 else s
    { s with inn := { s.inn with held := s.inn.held ++ [p] } }
  else s.placePost p (s.postEntry p)

/-- The first held post that need not wait any longer, and the others; `before` are those held before `t`. -/
def State.heldNext (s : State) (before : List HeldPost) : List HeldPost → Option (HeldPost × List HeldPost)
  | [] => none
  | p :: t => if s.postWaits before p then s.heldNext (before ++ [p]) t else some (p, before ++ t)

/-- Held posts posted in the order of holding, as entries and Caravans have room (R100). -/
def State.postHeld (s : State) : Nat → State
  | 0 => s
  | k + 1 =>
    match s.heldNext [] s.inn.held with
    | some (p, t) => (({ s with inn := { s.inn with held := t } }).placePost p (s.postEntry p)).postHeld k
    | none => s

/-- Fault-handling tasks posted into entries 64-96, which no other post takes (R100). (log 123, DEDUCED) -/
def State.postFault (s : State) (site : Nat) : State :=
  let i := firstFree 64 s.ledger
  if i < 97 then s.placePost { site := site, prio := 0, work := .fault } i else s

/-- Entry i FREE. -/
def State.freeEntry (s : State) (i : Nat) : State :=
  let s := (s.rewrite i {}).watchUse
  if 64 ≤ i ∧ i < generalFirst then s.postHeld s.inn.held.length else s

/-- Entry i cancelled (R116, R117): a PLACED task runs on; a Caravan item becomes VOID, anything else FREE. (log 47, DEDUCED) -/
def State.cancel (s : State) (i : Nat) : State :=
  let e := s.entry i
  if e.state = .placed ∨ e.state = .free ∨ e.state = .done ∨ e.state = .void then s
  else match e.caravan with
    | some _ => s.setEntry i { e with state := .void }
    | none => s.freeEntry i

/-- DECLARED_BUDGET of a site. -/
def State.budget (s : State) (n : Nat) : Nat := s.nreg (siteObj n 1) 7

/-- Engine capacity C (R106). -/
def State.capacity (s : State) : Nat := 128 - s.nreg 0x5000 1 / 16

/-- Thread share S of a site (R106). -/
def State.share (s : State) (n : Nat) : Nat := min (s.budget n) s.capacity

/-- Sites homed on an engine. -/
def State.homed (s : State) (e : Nat) : List Nat := siteNos.filter fun n => (s.site n).home == some e

/-- HOMED_SHARE of an engine (R127). -/
def State.homedShare (s : State) (e : Nat) : Nat := ((s.homed e).map s.share).sum

/-- The contexts of an engine. -/
def engineCtxs (e : Nat) : List Nat := (List.range 8).map (8 * e + ·)

/-- Contexts of an engine that are not RETIRED, U(e) (R107). -/
def State.usable (s : State) (e : Nat) : Nat := ((engineCtxs e).filter fun c => (s.ctx c).st ≠ .retired).length

/-- FREE contexts of an engine. -/
def State.freeCtxs (s : State) (e : Nat) : List Nat := (engineCtxs e).filter fun c => (s.ctx c).st = .free

/-- Ledger entries that satisfy a test, by number. -/
def State.entriesWhere (s : State) (p : Nat → Entry → Bool) : List Nat :=
  (s.ledger.filter fun e => p e.1 e.2).map (·.1)

/-! ### The order of READY entries, and the engine that may take one (R108, R110, R111) -/

/-- The class of a READY entry within its level: URGENT threads, ranked threads by rank, all others (R110, R122). -/
def State.rankOf (s : State) (i : Nat) : Nat :=
  let e := s.entry i
  if e.kind = .thread ∧ e.prio = 1 then
    if (s.site i).play.lead.getD 0 < s.inn.margin then 0
    else
      let h := Table.get 0 s.inn.ranks i
      if s.inForce 0x2100 6 = 1 ∧ h ≠ 0 then h else 256
  else 256

/-- Whether READY entry i comes before entry j. -/
def State.goesBefore (s : State) (i j : Nat) : Bool :=
  let a := s.entry i; let b := s.entry j
  if a.prio ≠ b.prio then a.prio < b.prio
  else if s.rankOf i ≠ s.rankOf j then s.rankOf i < s.rankOf j
  else if a.order ≠ b.order then a.order < b.order
  else i < j

/-- READY entries in the order of their lists. -/
def State.readyList (s : State) : List Nat :=
  let ins (i : Nat) : List Nat → List Nat := fun l =>
    let a := l.takeWhile fun j => !s.goesBefore i j
    a ++ i :: l.drop a.length
  (s.entriesWhere fun _ e => e.state == .ready).foldl (fun l i => ins i l) []

/-- Homed threads of an engine that are not PLACED (R108). -/
def State.unplaced (s : State) (e : Nat) : Nat := ((s.homed e).filter fun n => (s.entry n).state ≠ .placed).length

/-- Whether engine e may take an entry (R111). -/
def State.mayTake (s : State) (e i : Nat) : Bool :=
  let x := s.entry i
  let free := (s.freeCtxs e).length
  if x.kind = .thread then decide (free ≥ 1)
  else decide (free ≥ s.unplaced e + (if x.prio = 0 then 1 else 2))

/-- The engine for an entry: a thread's home; for a task the least loaded of those that may take it. -/
def State.engineFor (s : State) (i : Nat) : Option Nat :=
  let x := s.entry i
  if x.kind = .thread then (s.site x.site).home.filter fun e => s.mayTake e i
  else
    let load (e : Nat) : Nat := s.homedShare e + Table.get 0 s.inn.taskCycles e
    ((List.range 16).filter fun e => s.mayTake e i).foldl
      (fun a e => match a with | none => some e | some b => if load e < load b then some e else some b) none

/-- Whether an entry that is cancelled now was made READY, or would be placed, in this very cycle (R117). -/
def State.inCycle (s : State) (i : Nat) : Bool :=
  (s.entry i).state == .ready &&
    (decide ((s.entry i).order = s.inn.clock) || ((s.readyList.filter fun j => (s.engineFor j).isSome).take 2).contains i)

/-- Entries cancelled in one cycle; those that never see the dispatch this cycle meant for them are counted (R117). (log 47, DEDUCED) -/
def State.cancelAll (s : State) (l : List Nat) : State :=
  let k := (l.filter s.inCycle).length
  (if k > 0 then s.count 0x5001 9 k else s).each l State.cancel

/-- READY site-posted tasks of a site cancelled (R116). -/
def State.cancelTasks (s : State) (n : Nat) : State :=
  s.cancelAll (s.entriesWhere fun _ e => e.kind == .task && !e.service && e.site == n && e.state == .ready)

/-- Whether the thread of a site is in a context in the middle of a customer run: a fault then waits for its boundary. Between
vendor instructions, and at a drain point, the thread is at a boundary. -/
def State.inRun (s : State) (n : Nat) : Bool := (s.entry n).state == .placed && (s.site n).thread.custom

/-- A WAITC of a context abandoned (R83): it ends at once with Z cleared. -/
def State.cutWait (s : State) (c : Nat) : State :=
  s.modCtx c fun y =>
    match y.wait with
    | some _ => { y with wait := none, st := .ready, readySince := s.inn.clock, ms := { y.ms with z := false } }
    | none => y

/-- The thread entry of a site freed (R103), and the context it is in: a customer run goes on there to its END, since a run is never rolled
back (R82, R116). -/
def State.freeThread (s : State) (n : Nat) : State :=
  let e := s.entry n
  let s := if s.inCycle n then s.bump 0x5001 9 else s
  let s := if s.inRun n then (s.modCtx e.context fun c => { c with owner := none, orphan := some n }).cutWait e.context
    else if e.state = .placed then
      s.modCtx e.context fun c => if c.st = .retired then c else { c with st := .free, owner := none, wait := none, fetch := [], fault := none, taint := false }
    else s
  s.rewrite n {}

/-- The budget of a site released (R29). -/
def State.releaseBudget (s : State) (n : Nat) : State :=
  let s := s.freeThread n
  let s := s.modSite n fun x => { x with home := none, admitted := 0, recalled := false }
  s.setReg (0x5100 + n) 1 255

/-- Whether an engine has room for a share: condition 2 of R107. -/
def State.hasRoom (s : State) (e sh : Nat) : Bool :=
  decide (s.homedShare e + sh ≤ s.capacity) && decide ((s.homed e).length + 3 ≤ s.usable e)

/-- Sum of the declared budgets of admitted sites (R107, R124). -/
def State.admittedBudget (s : State) : Nat :=
  ((siteNos.filter fun n => (s.site n).home.isSome).map s.budget).sum

/-- ADMISSION (R107): the home engine, or the reason of a refusal. -/
def State.admission (s : State) (n : Nat) : Nat ⊕ Nat :=
  let sh := s.share n
  let engines := List.range 16
  let hint := Table.get 255 s.inn.engines n
  if s.admittedBudget + s.budget n > 2048 - s.nreg 0x5000 1 then .inr 1
  else if s.reg 0x2100 6 = 1 ∧ hint < 16 ∧ s.hasRoom hint sh then .inl hint
  else match engines.find? (s.hasRoom · sh) with
    | some e => .inl e
    | none => if engines.any fun e => decide ((s.homed e).length + 3 ≤ s.usable e) then .inr 2 else .inr 3

end Sys2Proof.Machine
end

