-- ==== Sys2Proof/Machine/Ecc.lean ====
section
/-! DEFINITION. The (72,64) code from host to pin (R22, R23, R505). -/

namespace Sys2Proof.Machine

/-- How many of the low 8 bits of a number are set. -/
def weight8 (x : Nat) : Nat := ((List.range 8).filter (natBit x)).length

/-- The columns H_0-H_63 (R505): the values of weight 3 in ascending order, then eight of weight 5. -/
def columns : List Nat :=
  (List.range 256).filter (fun x => weight8 x == 3) ++ [0x1F, 0x2F, 0x37, 0x3B, 0x3D, 0x3E, 0x4F, 0x57]

/-- The XOR of the columns of the data bits that are set, from column i on. -/
def checkFrom (d : Nat) : Nat → List Nat → Nat
  | _, [] => 0
  | i, h :: t => if natBit d i then h ^^^ checkFrom d (i + 1) t else checkFrom d (i + 1) t

/-- The check bits c[7:0] of a data word (R505). -/
def checkBits (d : Word64) : Byte := BitVec.ofNat 8 (checkFrom d.toNat 0 columns)

/-- A codeword as its creator makes it (R22). -/
def encodeWord (d : Word64) : Codeword := { data := d, check := checkBits d }

/-- The syndrome of a stored codeword (R505). -/
def syndrome (w : Codeword) : Nat := (w.check ^^^ checkBits w.data).toNat

/-- What a checker finds (R505). -/
inductive Checked where
  | good (d : Word64)
  | corrected (d : Word64) (w : Codeword)
  | bad (d : Word64)
  deriving DecidableEq, Repr

/-- The position of a column, if the syndrome matches one. -/
def columnOf (syn : Nat) : Option Nat := columns.findIdx? (· == syn)

/-- A checker's action on a codeword (R23, R505): a marked word is uncorrectable whatever its syndrome; a check bit in
error leaves the data; a data bit in error is flipped and the check bits are kept. (log 18, DEDUCED) -/
def checkWord (w : Codeword) : Checked :=
  if w.poison then .bad w.data
  else
    let syn := syndrome w
    if syn = 0 then .good w.data
    else if weight8 syn = 1 then .corrected w.data { w with check := BitVec.ofNat 8 (w.check.toNat ^^^ syn) }
    else match columnOf syn with
      | some i => let d := w.data ^^^ BitVec.ofNat 64 (2 ^ i); .corrected d { w with data := d }
      | none => .bad w.data

/-- The data a checker delivers, whether it is right or not. -/
def Checked.data : Checked → Word64
  | .good d | .corrected d _ | .bad d => d

/-- Whether a checker delivers the data as valid. -/
def Checked.ok : Checked → Bool
  | .bad _ => false
  | _ => true

/-- A word poisoned by a unit (R23). -/
def poisonWord (w : Codeword) : Codeword := { w with check := ~~~w.check, poison := true }

/-- A stored codeword with an error pattern over it, data in [63:0] and check bits in [71:64]. -/
def flipWord (w : Codeword) (e : BitVec 72) : Codeword :=
  { w with data := w.data ^^^ BitVec.ofNat 64 e.toNat, check := w.check ^^^ BitVec.ofNat 8 (e.toNat / 2 ^ 64) }

/-- The syndrome of an error pattern over a stored codeword, data in [63:0] and check bits in [71:64]. -/
def flipSyndrome (e : BitVec 72) : Nat :=
  (BitVec.ofNat 8 (e.toNat / 2 ^ 64) ^^^ checkBits (BitVec.ofNat 64 e.toNat)).toNat

/-- What a read of a stored word with an error pattern finds: 0 no error, 1 corrected, 2 uncorrectable. -/
def flipResult (e : BitVec 72) : Nat :=
  let syn := flipSyndrome e
  if e = 0 then 0 else if syn = 0 then 0
  else if weight8 syn = 1 ∨ (columnOf syn).isSome then 1 else 2

end Sys2Proof.Machine
end

