-- ==== Sys2Proof/Machine/Lines.lean ====
section
/-! DEFINITION. Lines of vector memory: how they are stored, sealed, checked and delivered (R267-R273, R434, R435). -/

namespace Sys2Proof.Machine

/-! ### The bytes (R267, R268) -/

/-- The key of byte k of the burst that holds the line of a byte address (R267): beat b takes bytes 5b to 5b+4, DQ[7:0] to DQ[31:24] and then
CB[7:0]. -/
def lineKey (addr k : Nat) : Nat := 80 * (addr / 64) + k

/-- A byte of memory; a byte that nothing has written has no value. (log 22, DESIGN CHOICE) -/
def memByte (m : List Host.Cell) (k : Nat) : Option Byte :=
  match m with
  | [] => none
  | (a, v) :: t => if a = k then some v else memByte t k

/-- The canonical form: addresses strictly rising from a bound. An unlisted byte has no value, so no entry equals it. -/
def Memory.wfFrom : Nat → List Host.Cell → Bool
  | _, [] => true
  | lo, (a, _) :: t => decide (lo ≤ a) && Memory.wfFrom (a + 1) t

/-- The canonical form of memory. -/
def Memory.wf (m : List Host.Cell) : Bool := Memory.wfFrom 0 m

/-- A byte written. -/
def memSet : List Host.Cell → Nat → Byte → List Host.Cell
  | [], k, v => [(k, v)]
  | (a, w) :: t, k, v =>
    if k < a then (k, v) :: (a, w) :: t
    else if a = k then (k, v) :: t
    else (a, w) :: memSet t k v

/-- Bytes written from a key on. -/
def memPut (m : List Host.Cell) (k : Nat) : List Byte → List Host.Cell
  | [] => m
  | b :: t => memPut (memSet m k b) (k + 1) t

/-- Bytes read from a key on; none where one of them has no value. -/
def memGet (m : List Host.Cell) (k : Nat) : Nat → Option (List Byte)
  | 0 => some []
  | n + 1 =>
    match memByte m k, memGet m (k + 1) n with
    | some b, some l => some (b :: l)
    | _, _ => none

/-- A stored line: eight codewords without marks, metadata and seal. -/
structure Line where
  words : List Codeword
  md : BitVec 32
  tag : BitVec 32
  deriving DecidableEq, Repr

/-- Beats 2k and 2k + 1 of a burst (R267): codeword k with its check bits, low half first, and trailer byte k. -/
def beatPair (w : Codeword) (trailer : Byte) : List Byte :=
  let d := beBytes 8 w.data.toNat
  (d.drop 4).reverse ++ [w.check] ++ (d.take 4).reverse ++ [trailer]

/-- The trailer of a line (R267): its seal and its metadata, most significant byte first. -/
def Line.trailer (l : Line) : List Byte := beBytes 4 l.tag.toNat ++ beBytes 4 l.md.toNat

/-- The 80 bytes of a line's burst. -/
def Line.burst (l : Line) : List Byte := ((List.range 8).map fun k => beatPair (l.words.getD k {}) (l.trailer.getD k 0)).flatten

/-- Codeword k of a burst. -/
def burstWord (b : List Byte) (k : Nat) : Codeword :=
  let g := (b.drop (10 * k)).take 10
  { data := BitVec.ofNat 64 (ofBytes (((g.drop 5).take 4).reverse ++ (g.take 4).reverse)), check := g.getD 4 0 }

/-- Trailer bytes i to i + 3 of a burst. -/
def burstTrailer (b : List Byte) (i : Nat) : BitVec 32 := BitVec.ofNat 32 (ofBytes ((List.range 4).map fun k => b.getD (10 * (i + k) + 9) 0))

/-- The line that a burst carries. -/
def lineOf (b : List Byte) : Line := { words := (List.range 8).map (burstWord b), tag := burstTrailer b 0, md := burstTrailer b 4 }

/-- The line stored at an address, if one has been written since the last cold start (R270). -/
def State.lineAt (s : State) (addr : Nat) : Option Line := (memGet s.mem (lineKey addr 0) 80).map lineOf

/-! ### Metadata and seals (R268, R434, R435) -/

/-- The metadata of a line. -/
def metaOf (cls epoch site poison : Nat) : BitVec 32 :=
  BitVec.ofNat 32 (cls * 2 ^ 28 + epoch % 256 * 2 ^ 16 + site * 2 ^ 8 + poison)

/-- The POISON bits of eight codewords. -/
def poisonBits (l : List Codeword) : Nat := (List.range 8).foldl (fun a k => if (l.getD k {}).poison then a + 2 ^ k else a) 0

/-- The seal epoch E. -/
def State.sealEpoch (s : State) : Nat := s.nreg 0xC010 1

/-- BOOT_NONCE as bits. -/
def State.bootNonce (s : State) : BitVec 128 := BitVec.ofNat 128 (ofBytes (s.oct 0xC000 4))

/-- The seal of a line (R434). -/
def State.sealOf (s : State) (addr epoch : Nat) (md : BitVec 32) (words : List Codeword) : BitVec 32 :=
  Config.lineSeal s.bootNonce (64 * (addr / 64)) epoch md (words.map fun w => { w with poison := false })

/-- The epoch that a tag names, e = E - ((E - EPOCH_TAG) mod 256), if it is not below the floor (R435). -/
def State.epochOf (s : State) (tag : Nat) : Option Nat :=
  let e := s.sealEpoch
  let back := (e % 256 + 256 - tag) % 256
  if back ≤ e ∧ e - back ≥ s.nInForce 0xC010 2 then some (e - back) else none

/-- Whether the seal of a line as corrected passes. -/
def State.sealOk (s : State) (addr : Nat) (l : Line) : Bool :=
  match s.epochOf (bits l.md 23 16) with
  | some e => s.sealOf addr e l.md l.words == l.tag
  | none => false

/-- CAPACITY (R266). -/
def State.memCapacity (s : State) : Nat := s.nreg 0x9000 8

/-- A whole line written with a new seal (R269): class, site, eight codewords with their marks. -/
def State.writeLine (s : State) (addr cls site : Nat) (words : List Codeword) : State :=
  let e := s.sealEpoch
  let md := metaOf cls e site (poisonBits words)
  let l : Line := { words := words, md := md, tag := s.sealOf addr e md words }
  ({ s with mem := memPut s.mem (lineKey addr 0) l.burst }).bump 0xC010 4

/-! ### Channels and subchannels (R271, R272) -/

/-- Memory channel c. -/
def State.chan (s : State) (c : Nat) : Channel := Table.get {} s.chans c

/-- s with memory channel c replaced. -/
def State.setChan (s : State) (c : Nat) (x : Channel) : State := { s with chans := Table.set {} s.chans c x }

/-- Channels in use: those that training has not left ABSENT. -/
def State.chansUsed (s : State) : List Nat := [0, 1].filter fun c => (s.chan c).mode.code ≥ 2

/-- The width of LC. -/
def State.lcBits (s : State) (c : Nat) : Nat := if s.nreg (0x9001 + c) 4 = 4 then 7 else 6

/-- log2 of the total capacity, the width of the system address. -/
def State.addrBits (s : State) : Nat := Nat.log2 s.memCapacity

/-- The channel and subchannel of a byte address under ORDER and CHANNEL_SPLIT. -/
def State.memPlace (s : State) (addr : Nat) : Nat × Nat :=
  let used := s.chansUsed
  let c0 := used.headD 0
  let order := s.nreg 0x9000 1
  let isSplit := s.reg 0x9000 2 = 1
  let lc := if order = 1 then 0 else s.lcBits c0
  let sc := natBits addr (6 + lc) (6 + lc)
  let top := s.addrBits
  let ch := if used.length < 2 then c0
    else if isSplit then (if order = 2 then natBits addr (top - 6) (top - 6) else natBits addr (top - 1) (top - 1))
    else natBits addr (7 + lc) (7 + lc)
  (ch, 2 * ch + sc)

/-- Logical ranks of channel c. -/
def State.rankCount (s : State) (c : Nat) : Nat := s.nreg (0x9001 + c) 2 * s.nreg (0x9001 + c) 3

/-- The logical rank of a byte address (R271, R272). -/
def State.memRank (s : State) (addr : Nat) : Nat :=
  let ch := (s.memPlace addr).1
  let r := Nat.log2 (s.rankCount ch)
  let two := s.chansUsed.length = 2
  let isSplit := s.reg 0x9000 2 = 1
  let top := s.addrBits
  if r = 0 then 0
  else if s.nreg 0x9000 1 = 2 then
    if isSplit then natBits addr (top - 7) (top - 6 - r)
    else natBits addr (top - 1) (top - 1) + (if r = 2 then 2 * natBits addr (top - 7) (top - 7) else 0)
  else
    let low := 12 + s.lcBits ch + (if two ∧ ¬ isSplit then 1 else 0)
    natBits addr (low + r - 1) low

/-- How many bits CH takes among the low fields of an address (R271, R272). -/
def State.chBits (s : State) : Nat := if s.chansUsed.length = 2 ∧ s.reg 0x9000 2 ≠ 1 then 1 else 0

/-- The bank of a byte address within its channel: 128 × subchannel + 32 × logical rank + bank slot (R271, R272). -/
def State.memBank (s : State) (addr : Nat) : Nat :=
  let g := s.memPlace addr
  let top := s.addrBits
  let low := match s.nreg 0x9000 1 with
    | 0 => natBits addr (11 + s.lcBits g.1 + s.chBits) (7 + s.lcBits g.1 + s.chBits)
    | 1 => natBits addr (11 + s.chBits) (7 + s.chBits)
    | _ => natBits addr (top - 1) (top - 6) / (if s.chansUsed.length = 2 ∧ s.reg 0x9000 2 = 1 then 2 else 1) % 32
  128 * (g.2 % 2) + 32 * s.memRank addr + low

/-- The row of a byte address within its bank, and what is constant there (R271, R272). -/
def State.memRow (s : State) (addr : Nat) : Nat :=
  let c := (s.memPlace addr).1
  let r := Nat.log2 (s.rankCount c)
  let low := 7 + s.lcBits c + s.chBits
  let top := s.addrBits
  if s.nreg 0x9000 1 = 2 then
    addr % 2 ^ (top - 6) / 2 ^ low + (if r = 0 then 2 ^ top * natBits addr (top - 1) (top - 1) else 0)
  else addr / 2 ^ (low + 5 + r)

/-- Whether the row of an address is open. -/
def State.rowOpen (s : State) (addr : Nat) : Bool :=
  Table.get 0 (s.chan (s.memPlace addr).1).rows (s.memBank addr) == s.memRow addr + 1

/-! ### Commands and the retry buffer (R280, R281) -/

/-- The longest ALERT_N latency of the RCD and the DRAM at the configured rate, in frames (R281), a value the spec does not give. (log 172, DESIGN CHOICE) -/
def State.alertFrames (s : State) : Nat := Config.alertLatency (s.nreg 0x9000 7)

/-- The commands of a subchannel's retry buffer that an ALERT_N may still concern. -/
def State.retryLive (s : State) (c sub : Nat) : List (DramCmd × Nat) :=
  (Table.get [] (s.chan c).retry sub).filter fun e => decide (s.now ≤ e.2 + s.alertFrames)

/-- Whether the retry buffer of a subchannel holds 64 such commands, so that issue waits. -/
def State.retryFull (s : State) (c sub : Nat) : Bool :=
  decide ((Table.get [] (s.chan c).retry sub).length ≥ 64) && decide ((s.retryLive c sub).length ≥ 64)

/-- A command to a rank of a channel, by its place in `ranks`: it ends the rank's power-down (R280) and enters the retry buffer (R281). -/
def State.command (s : State) (c rank : Nat) (x : DramCmd) : State :=
  let ch := s.chan c
  let r := Table.get {} ch.ranks rank
  let old := Table.get [] ch.retry (rank / 4)
  s.setChan c { ch with ranks := Table.set {} ch.ranks rank { r with lastUse := s.now, down := false },
                        retry := Table.set [] ch.retry (rank / 4) (old.drop (old.length - 63) ++ [(x, s.now)]) }

/-- Banks of a channel precharged: their rows close, and one that is marked has its neighbours refreshed, which is counted (R279). -/
def State.precharge (s : State) (c : Nat) (p : Nat → Bool) : State :=
  let x := s.chan c
  let l := x.marks.filter fun b => p b && x.rows.any fun e => e.1 == b
  let s := s.each (x.rows.filter fun e => p e.1) fun s e => s.command c (e.1 / 32) (.precharge e.1)
  let s := s.setChan c { s.chan c with rows := x.rows.filter fun e => !p e.1, marks := x.marks.filter fun b => !l.contains b }
  let n (k : Nat) : Nat := (l.filter fun b => b / 128 == k).length
  (s.count (0x9010 + 2 * c) 8 (n 0)).count (0x9011 + 2 * c) 8 (n 1)

/-- The mark that an activate of a bank draws (R279): with probability 2^-k, a free value, or without the entropy source at every 2^k-th
activate. -/
def State.markRow (s : State) (c bank : Nat) : State :=
  let k := s.nInForce 0x9000 3
  let x := s.chan c
  let marked := if x.marks.contains bank then x.marks else x.marks ++ [bank]
  if s.reg 0xC000 7 = 1 then
    let n := Table.get 0 x.acts bank + 1
    if n ≥ 2 ^ k then s.setChan c { x with acts := Table.set 0 x.acts bank 0, marks := marked }
    else s.setChan c { x with acts := Table.set 0 x.acts bank n }
  else
    let f := s.free
    if f.1 % 2 ^ k = 0 then f.2.setChan c { x with marks := marked } else f.2

/-- The row of an address opened, where it is not (R275, R279). -/
def State.activate (s : State) (addr : Nat) : State :=
  if s.rowOpen addr then s
  else
    let c := (s.memPlace addr).1
    let b := s.memBank addr
    let s := (s.precharge c (· == b)).command c (b / 32) (.activate b (s.memRow addr))
    let x := s.chan c
    (s.setChan c { x with rows := Table.set 0 x.rows b (s.memRow addr + 1) }).markRow c b

/-- A read or write command at an address, which opens its row (R275, R280, R281). -/
def State.touch (s : State) (addr : Nat) : State :=
  let g := s.memPlace addr
  (s.activate addr).command g.1 (4 * (g.2 % 2) + s.memRank addr) (.access addr)

/-- Whether an address must wait: its channel trains, replays, retrains or refreshes itself, or its retry buffer is full. (log 54, DEDUCED) -/
def State.memWaits (s : State) (addr : Nat) : Bool :=
  let g := s.memPlace addr
  let m := (s.chan g.1).mode
  decide (addr < s.memCapacity) && m != .fenced && (m != .serving || s.retryFull g.1 (g.2 % 2))

/-! ### Escalation (R282) -/

/-- Whether an error on a channel now escalates: its handling runs, or ESCALATE_WINDOW has not passed since it ended. -/
def State.inWindow (s : State) (c : Nat) : Bool :=
  let x := s.chan c
  x.level ≠ 0 && (match x.endedAt with | none => true | some t => decide (s.now < t + s.nInForce 0x9000 6))

/-- Whether every other channel in use is fenced already, so that a fence of c fences the last. (log 74, DEDUCED) -/
def State.lastChannel (s : State) (c : Nat) : Bool := s.chansUsed.all fun k => k == c || (s.chan k).mode == .fenced

/-- A channel fenced: E1675 (R282), CRITICAL for the last channel (R288); what it has queued is over. -/
def State.fence (s0 : State) (c : Nat) : State :=
  let s := if s0.lastChannel c then s0.raiseCritical 1675 else s0.raise 1675
  let x := s.chan c
  s.setChan c { x with mode := .fenced, since := s.now, level := 4, endedAt := none, bad := 0, sleepy := false,
                       rows := [], x2 := [], writes := [], share := [], retry := [], marks := [] }

/-- The handling of a channel's errors moves to a level (R282, R455). -/
def State.memClimb (s : State) (c level : Nat) : State :=
  let last := level = 4 ∧ s.lastChannel c
  let x := s.chan c
  let s := s.setChan c { x with level := level, since := s.now, endedAt := none, bad := 0,
                                mode := if x.mode = .serving then .replay else x.mode }
  let source := if level = 4 then 1675 else 1674
  let s := if last then s.fence c else s
  s.climb { resource := c + 1, level := level, severity := if last then 3 else s.severity source, source := source }

/-- An error of a channel (R281, R282): an ALERT_N starts a replay; an error during handling or its window escalates. -/
def State.memError (s : State) (c : Nat) (alert : Bool) : State :=
  let x := s.chan c
  if ¬ (x.mode = .serving ∨ x.mode = .replay ∨ x.mode = .retrain) then s
  else if s.inWindow c then
    if x.level = 1 then s.memClimb c 2 else if x.level = 2 then s.memClimb c 4 else s
  else if alert then
    (s.setChan c { x with mode := .replay, since := s.now, level := 1, endedAt := none, bad := 0 }).handFault
      { resource := c + 1, level := 1, source := 1673 }
  else s

/-- A poisoned line counted towards the four of R282. -/
def State.badLine (s : State) (addr : Nat) : State :=
  let c := (s.memPlace addr).1
  let x := s.chan c
  if s.inWindow c then
    if x.bad + 1 ≥ 4 then s.memError c false else s.setChan c { x with bad := x.bad + 1 }
  else s

/-! ### Reads (R270, R273) -/

/-- The error patterns of a read: one of 640 bits per attempt, the burst of R267 with the 40 bits of beat b in [40b+39:40b], DQ below CB. -/
abbrev Flips := List (BitVec 640)

/-- A line as one attempt sees it. -/
def Line.flip (l : Line) (e : BitVec 640) : Line :=
  let field (k lo n : Nat) : Nat := e.toNat / 2 ^ (80 * k + lo) % 2 ^ n
  let trailer (i : Nat) : Nat := ((List.range 4).map fun k => 256 ^ (3 - k) * field (i + k) 72 8).sum
  { words := (List.range 8).map fun k =>
      let w := l.words.getD k {}
      { w with data := w.data ^^^ BitVec.ofNat 64 (field k 0 32 + 2 ^ 32 * field k 40 32), check := w.check ^^^ BitVec.ofNat 8 (field k 32 8) },
    tag := l.tag ^^^ BitVec.ofNat 32 (trailer 0), md := l.md ^^^ BitVec.ofNat 32 (trailer 4) }

/-- What an attempt finds (R270): words to deliver, with how many were corrected; an uncorrectable codeword; a seal
mismatch over words of which some were corrected. -/
inductive Found where
  | good (words : List Codeword) (corrected : Nat)
  | bad
  | mismatch (corrected : Nat)
  deriving DecidableEq, Repr

/-- The words that an attempt found good. -/
def Found.words : Found → Option (List Codeword)
  | .good w _ => some w
  | _ => none

/-- The codewords that an attempt corrected. -/
def Found.fixes : Found → Nat
  | .good _ n => n
  | .mismatch n => n
  | .bad => 0

/-- A codeword of a line as corrected; a marked one as stored. -/
def fixWord (w : Codeword) : Codeword :=
  match checkWord w with
  | .corrected _ v => v
  | _ => w

/-- One attempt at reading a line (R270). (log 19, DEDUCED; log 55, DEDUCED) -/
def State.tryLine (s : State) (addr : Nat) (e : BitVec 640) : Found :=
  match s.lineAt addr with
  | none => .mismatch 0
  | some l0 =>
    let l := l0.flip e
    let marked := (List.range 8).map fun k => { l.words.getD k {} with poison := natBit l.md.toNat k }
    if marked.any fun w => !w.poison && !(checkWord w).ok then .bad
    else
      let fixed := marked.map fixWord
      let n := (marked.filter fun w => match checkWord w with | .corrected _ _ => !w.poison | _ => false).length
      if s.sealOk addr { l with words := fixed } then .good fixed n else .mismatch n

/-- What a line that fails is delivered as (R23): its codewords poisoned, those poisoned already as stored; words of unknown
content where nothing has been written. -/
def State.poisonLine (s : State) (addr : Nat) : List Codeword × State :=
  match s.lineAt addr with
  | some l =>
    ((List.range 8).map fun k =>
      let w := l.words.getD k {}
      if natBit l.md.toNat k then { w with poison := true } else poisonWord w, s)
  | none =>
    ((List.range 8).map fun k =>
        { data := BitVec.ofNat 64 (Config.freeValue (s.freeCtr + 2 * k)),
          check := BitVec.ofNat 8 (Config.freeValue (s.freeCtr + 2 * k + 1)), poison := true },
      { s with freeCtr := s.freeCtr + 16 })

/-- Object 0x9010 + sc, the subchannel of an address. -/
def State.subObj (s : State) (addr : Nat) : Nat := 0x9010 + (s.memPlace addr).2

/-- Whether a fence holds the channel of an address (R282). -/
def State.fenced (s : State) (addr : Nat) : Bool := (s.chan (s.memPlace addr).1).mode == .fenced

/-- A read of a line by any master (R270, R273): the codewords delivered. (log 20, DEDUCED) -/
def State.readLine (s : State) (addr : Nat) (flips : Flips) : List Codeword × State :=
  if addr ≥ s.memCapacity then
    let r := s.poisonLine addr
    (r.1, r.2.bump 0x9000 10)
  else if s.fenced addr then s.poisonLine addr
  else
    let s := s.touch addr
    let o := s.subObj addr
    let first := s.tryLine addr (flips.getD 0 0)
    let s := if first.fixes > 0 then (s.count o 1 first.fixes).raise 1670 else s
    match first with
    | .good w _ => (w, s)
    | _ =>
      let second := s.tryLine addr (flips.getD 1 0)
      let again := second.words.or (s.tryLine addr (flips.getD 2 0)).words
      let more := second.fixes + (if second.words.isSome then 0 else (s.tryLine addr (flips.getD 2 0)).fixes)
      let s := if more > 0 then (s.count o 1 more).raise 1670 else s
      match again with
      | some w => (w, s.bump o 2)
      | none =>
        let r := s.poisonLine addr
        let s := (r.2.badLine addr).setNat o 5 addr
        if first = .bad then (r.1, (s.bump o 3).raise 1671)
        else
          let s := (s.bump o 4).raise 1672
          let s := s.handFault { resource := (s.memPlace addr).1 + 1, level := 0, source := 1672 }
          (r.1, s)

/-- Whether a read of a line passes R270, at once or at a re-read. -/
def State.readsGood (s : State) (addr : Nat) (flips : Flips) : Bool :=
  decide (addr < s.memCapacity) && !s.fenced addr && [0, 1, 2].any fun i => (s.tryLine addr (flips.getD i 0)).words.isSome

/-- Part of a line changed (R269): the line is read and verified, the codewords given replace their places with their marks cleared, the others
keep theirs, and the whole line is written with a new seal. Where the read fails nothing is written. -/
def State.mergeLine (s : State) (addr cls site : Nat) (flips : Flips) (new : Nat → Option Codeword) : State :=
  let r := s.readLine addr flips
  if s.readsGood addr flips then
    r.2.writeLine addr cls site ((List.range 8).map fun k => (new k).getD (r.1.getD k {}))
  else r.2

/-- A codeword of memory as an unchecked master would see it: the stored word at a byte address, poisoned where its line
fails, with no error pattern. -/
def State.peekWord (s : State) (addr : Nat) : Codeword :=
  if addr ≥ s.memCapacity ∨ s.fenced addr then { poison := true }
  else match s.tryLine addr 0 with
    | .good w _ => w.getD (addr / 8 % 8) {}
    | _ => { poison := true }

end Sys2Proof.Machine
end

