-- ==== Sys2Proof/Machine/Scheduler.lean ====
section
/-! DEFINITION. The order in which the vector memory controller serves requests, and its writes on their way (R141, R144, R274, R275). -/

namespace Sys2Proof.Machine

/-! ### Reads that wait (R274, R275) -/

/-- A read that waits at the controller: its address, how many younger ones have passed it, and its place in the list it stands in. -/
structure Request where
  addr : Nat
  passed : Nat
  key : Nat
  deriving DecidableEq, Repr

/-- Whether an address stands in the queues of a subchannel: inside memory, its channel not fenced. -/
def State.queuedOn (s : State) (sc addr : Nat) : Bool :=
  decide (addr < s.memCapacity) && !s.fenced addr && (s.memPlace addr).2 == sc

/-- The reads of a class that wait on subchannel sc, oldest first: 3 the line reads of URGENT sources, 4 FETCHes, 5 the line reads of ON
sources. -/
def State.readsOf (s : State) (sc cls : Nat) : List Request :=
  if cls = 4 then
    let l := (s.ctxs.map fun e => e.2.fetch.zipIdx.map fun f => (f.1, 256 * e.1 + f.2)).flatten
    let l := l.filter fun f => s.queuedOn sc f.1.addr
    (l.foldl (fun a f => insertByTime (fun (x : FetchPend × Nat) => x.1.since) f a) []).map fun f =>
      { addr := f.1.addr, passed := f.1.passed, key := f.2 }
  else
    (s.reads.zipIdx.filter fun e => s.queuedOn sc e.1.addr && (e.1.urgent == (cls == 3))).map fun e =>
      { addr := e.1.addr, passed := e.1.passed, key := e.2 }

/-- The read that goes first among those of a class (R275): the oldest that 16 have passed, else the oldest to an open row, else the oldest. -/
def State.firstRead (s : State) (l : List Request) : Option Request :=
  (l.find? fun r => decide (r.passed ≥ 16)).or ((l.find? fun r => s.rowOpen r.addr).or l.head?)

/-- The class and the read that subchannel sc serves next (R274). Classes 1 and 2 take no turn of their own: a replay or a split holds the
channel. (log 118, DEDUCED) -/
def State.nextRead (s : State) (sc : Nat) : Option (Nat × Request) :=
  ([3, 4, 5].filterMap fun k => (s.firstRead (s.readsOf sc k)).map fun r => (k, r)).head?

/-- Whether the controller serves a read at an address now: `cls` and `key` say which it is. One that stands in no queue is answered at
once. -/
def State.serves (s : State) (cls key addr : Nat) : Bool :=
  let sc := (s.memPlace addr).2
  !s.memWaits addr &&
    (!s.queuedOn sc addr || (match s.nextRead sc with | some r => r.1 == cls && r.2.key == key | none => false))

/-- The older reads of its class that a served one passes. -/
def State.passOlder (s : State) (cls key addr : Nat) : State :=
  let older := ((s.readsOf (s.memPlace addr).2 cls).takeWhile fun r => r.key != key).map (·.key)
  if cls = 4 then
    let pass (c : Nat) (f : FetchPend × Nat) : FetchPend :=
      if older.contains (256 * c + f.2) then { f.1 with passed := f.1.passed + 1 } else f.1
    { s with ctxs := Table.map {} (fun c x => { x with fetch := x.fetch.zipIdx.map (pass c) }) s.ctxs }
  else
    { s with reads := s.reads.zipIdx.map fun e => if older.contains e.2 then { e.1 with passed := e.1.passed + 1 } else e.1 }

/-! ### Writes (R144, R275) -/

/-- Write queue of a subchannel. -/
def Channel.queueOf (x : Channel) (sub : Nat) : List LineWrite := Table.get [] x.writes sub

/-- Whether X2 of the channel of an address has room for a line of eight codewords. -/
def State.x2Room (s : State) (addr : Nat) : Bool := decide ((s.chan (s.memPlace addr).1).x2.length < 16)

/-- Lines of X2 taken into the write queues in order, up to one whose queue of 64 is full. -/
def State.fillQueues (s : State) (c : Nat) : Nat → State
  | 0 => s
  | k + 1 =>
    let x := s.chan c
    match x.x2 with
    | [] => s
    | e :: t =>
      let sub := (s.memPlace e.addr).2 % 2
      let q := x.queueOf sub
      if q.length < 64 then (s.setChan c { x with x2 := t, writes := Table.set [] x.writes sub (q ++ [e]) }).fillQueues c k else s

/-- The place in a write queue of the write that goes first (R274, R275): class 6 before class 7, and within the class the oldest that 16 have
passed, else the oldest to an open row, else the oldest. -/
def State.firstWrite (s : State) (l : List LineWrite) : Option Nat :=
  let cls := if l.any (·.cls == 6) then 6 else 7
  (l.findIdx? fun e => e.cls == cls && decide (e.passed ≥ 16)).or
    ((l.findIdx? fun e => e.cls == cls && s.rowOpen e.addr).or (l.findIdx? (·.cls == cls)))

/-- One write of a subchannel issued; the older ones of its class that it passes count it. -/
def State.issueWrite (s : State) (sc : Nat) : State :=
  let x := s.chan (sc / 2)
  let l := x.queueOf (sc % 2)
  match s.firstWrite l with
  | none => s
  | some i =>
    let e := l.getD i { cls := 7, addr := 0 }
    let older := (l.take i).map fun o => if o.cls = e.cls then { o with passed := o.passed + 1 } else o
    (s.setChan (sc / 2) { x with writes := Table.set [] x.writes (sc % 2) (older ++ l.drop (i + 1)) }).touch e.addr

/-- A group of up to 16 writes of a subchannel issued. -/
def State.issueWrites (s : State) (sc : Nat) : State := s.each (List.range 16) fun s _ => s.issueWrite sc

/-- The groups of writes of a subchannel issued while its queue holds 32 or more or no read of classes 1-5 waits there. -/
def State.drainWrites (s : State) (sc : Nat) : Nat → State
  | 0 => s
  | k + 1 =>
    let n := ((s.chan (sc / 2)).queueOf (sc % 2)).length
    if n = 0 ∨ (n < 32 ∧ (s.nextRead sc).isSome) ∨ s.retryFull (sc / 2) (sc % 2) then s
    else ((s.issueWrites sc).fillQueues (sc / 2) 16).drainWrites sc k

/-- Writes of a channel moved on as far as they go. (log 118, DEDUCED) -/
def State.moveWrites (s : State) (c : Nat) : State :=
  let s := s.fillQueues c 16
  if (s.chan c).mode = .serving then ((s.drainWrites (2 * c) 6).drainWrites (2 * c + 1) 6).drainWrites (2 * c) 6 else s

/-- A line of class 6 or 7 written into X2 of its channel. -/
def State.putWrite (s : State) (cls addr : Nat) : State :=
  let c := (s.memPlace addr).1
  let x := s.chan c
  ((s.setChan c { x with x2 := x.x2 ++ [{ cls := cls, addr := addr }] }).crossed 2 (8 * (x.x2.length + 1)) true).moveWrites c

/-! ### The share of classes 6 and 7 (R275) -/

/-- Whether a read of the host waits on a subchannel: the packet at the head of the receive buffer. -/
def State.hostReadWaits (s : State) (sc : Nat) : Bool :=
  match s.sl.rx with
  | x :: _ => x.type == 2 && x.status == 0 && s.queuedOn sc (x.pkt.addr + 64 * x.served)
  | [] => false

/-- A command slot of a subchannel that went to class 4 or 5, or to class 3: of every BULK_SHARE slots while no read of classes 1-3 waits one
goes to classes 6 and 7, if they hold a request that no group of writes takes. What the host is owed it takes when its packet is served. -/
def State.shareSlot (s : State) (sc : Nat) : State :=
  let c := sc / 2
  let put (s : State) (n : Nat) : State := s.setChan c { s.chan c with share := Table.set 0 (s.chan c).share (sc % 2) n }
  if (s.readsOf sc 3).isEmpty then
    let n := Table.get 0 (s.chan c).share (sc % 2) + 1
    if n + 1 < s.nInForce 0x9000 5 ∨ s.hostReadWaits sc then put s n
    else put s (s.nInForce 0x9000 5 - 1)
  else s

/-- Whether a read of class 7 may be served at an address now. -/
def State.bulkTurn (s : State) (addr : Nat) : Bool :=
  let sc := (s.memPlace addr).2
  !s.memWaits addr &&
    (!s.queuedOn sc addr || (s.nextRead sc).isNone ||
      ((s.readsOf sc 3).isEmpty && decide (Table.get 0 (s.chan (sc / 2)).share (sc % 2) + 1 ≥ s.nInForce 0x9000 5)))

/-- The slot that a read of class 7 takes from what its subchannel owes, where reads of classes 4 and 5 wait. -/
def State.bulkSlot (s : State) (addr : Nat) : State :=
  let sc := (s.memPlace addr).2
  let x := s.chan (sc / 2)
  if (s.nextRead sc).isNone then s
  else s.setChan (sc / 2) { x with share := Table.set 0 x.share (sc % 2) (Table.get 0 x.share (sc % 2) + 1 - s.nInForce 0x9000 5) }

/-- The line of a read of classes 3 to 5 that is served and waits no more: its codewords cross X1, its slot is taken, and writes that it held
back go on. -/
def State.takeLine (s : State) (addr : Nat) (flips : Flips) : List Codeword × State :=
  let r := s.readLine addr flips
  (r.1, ((r.2.crossed 1 1 false).shareSlot (s.memPlace addr).2).moveWrites (s.memPlace addr).1)

end Sys2Proof.Machine
end

