-- ==== Sys2Proof/Machine/Link.lean ====
section
/-! DEFINITION. Sending over Stagelink, and the lines that the engine itself writes (R219, R293-R297). -/

namespace Sys2Proof.Machine

/-! ### Packets out -/

/-- Bytes of a packet on the link (R293). -/
def SlPacket.size (p : SlPacket) : Nat := 24 + 72 * p.lines.length

/-- One bit into a CRC of 32 bits, most significant bit first. -/
def crcShift (poly crc : Nat) (b : Bool) : Nat :=
  let x := crc * 2 % 2 ^ 32
  if natBit crc 31 != b then x ^^^ poly else x

/-- A CRC of 32 bits over bits, with initial value and final XOR 0xFFFF_FFFF as R304 gives them for the Convoy word. (log 80, DEDUCED) -/
def crc32 (poly : Nat) (l : List Bool) : Nat := l.foldl (crcShift poly) 0xFFFFFFFF ^^^ 0xFFFFFFFF

/-- The low n bits of a number, most significant first. -/
def bitList (n x : Nat) : List Bool := (List.range n).map fun i => natBit x (n - 1 - i)

/-- The CRC-32 of a packet (R293): over its header, its payload and POISON_LINES. -/
def packetCrc (type reserved seq count tag addr : Nat) (lines : List (List Codeword)) (poison : Nat) : Nat :=
  crc32 0x04C11DB7 (bitList 8 type ++ bitList 4 reserved ++ bitList 12 seq ++ bitList 8 count ++ bitList 32 tag ++ bitList 64 addr
    ++ (lines.flatMap fun l => (List.range 8).flatMap fun k => bitList 64 (l.getD k {}).data.toNat ++ bitList 8 (l.getD k {}).check.toNat)
    ++ bitList 32 poison)

/-- A packet as it leaves with a SEQ (R293). -/
def SlPacket.out (p : SlPacket) (seq : Nat) : Sent :=
  .packet seq p (packetCrc p.type 0 seq p.lines.length p.tag p.addr p.lines p.poisonLines.toNat)

/-- Bytes held in the replay buffer (R295). -/
def Link.held (l : Link) : Nat := (l.unacked.map fun e => e.2.size).sum

/-- POISON_LINES of payload lines (R293): bit i is set when line i holds a poisoned codeword. -/
def poisonLines (l : List (List Codeword)) : BitVec 32 :=
  BitVec.ofNat 32 (l.zipIdx.foldl (fun a e => if e.1.any (·.poison) then orBit a e.2 else a) 0)

/-- Whether the engine may start a packet (R295-R297): the link is UP, SL_HOLD_IN is low and the replay buffer has room. -/
def State.mayStart (s : State) (p : SlPacket) : Bool :=
  s.reg 0xA000 4 == 2 && !s.sl.holdIn && decide (s.sl.held + p.size ≤ 131072)

/-- One packet started, with its SEQ, and kept in the replay buffer. -/
def State.startPacket (s0 : State) (p : SlPacket) : State :=
  let s := s0.crossed 4 1 false
  let l := s.sl
  let seq := l.nextSeq
  ({ s with sl := { l with nextSeq := (seq + 1) % 4096, unacked := l.unacked ++ [(seq, p)],
                           ackAt := if l.unacked.isEmpty then s.now else l.ackAt } }).send (p.out seq)

/-- Waiting packets started in order for as long as the link takes them. -/
def State.flushFrom (s : State) : List SlPacket → State
  | [] => { s with sl := { s.sl with waiting := [] } }
  | p :: t =>
    if s.mayStart p then (s.startPacket p).flushFrom t
    else { s with sl := { s.sl with waiting := p :: t } }

/-- What waits in its sources sent as far as it can be. -/
def State.flush (s : State) : State := s.flushFrom s.sl.waiting

/-- A packet handed to Stagelink with the marks of its lines in its trailer (R23); what cannot be sent yet waits behind what came before
it. -/
def State.slSend (s : State) (p : SlPacket) : State := s.flushFrom (s.sl.waiting ++ [{ p with poisonLines := poisonLines p.lines }])

/-- Whether a packet of some kind is waiting or not yet acknowledged. -/
def State.inFlight (s : State) (q : SlPacket → Bool) : Bool := s.sl.waiting.any q || s.sl.unacked.any fun e => q e.2

/-- A refusal of a host packet (R294). -/
def State.refuse (s : State) (tag : Word32) (status : Nat) : State := s.slSend { type := 0x09, tag := tag.toNat, addr := status }

/-- Bytes as lines of codewords that the engine creates, padded with zeros (R22, R293). -/
def linesOf : Nat → List Byte → List (List Codeword)
  | 0, _ => []
  | n + 1, b =>
    if b = [] then []
    else
      ((List.range 8).map fun k =>
        let w := (b.drop (8 * k)).take 8
        encodeWord (BitVec.ofNat 64 (ofBytes (w ++ zeroBytes (8 - w.length))))) :: linesOf n (b.drop 64)

/-- All the lines that bytes fill. -/
def toLines (b : List Byte) : List (List Codeword) := linesOf ((b.length + 63) / 64) b

/-! ### Lines written by the engine -/

/-- Lines written by the engine from an address on, as far as they lie inside memory and off a fence (R269, R273, R282). -/
def State.engineLines (s : State) (addr cls site : Nat) : List (List Codeword) → State
  | [] => s
  | l :: t =>
    let s := if addr ≥ s.memCapacity ∨ s.fenced addr then s else s.writeLine addr cls site l
    s.engineLines (addr + 64) cls site t

/-! ### Capture records in the ring (R219, R234-R236) -/

/-- The first eight words of a record (R234). -/
def Rec.header (r : Rec) (bytes : Nat) : List Nat :=
  [0xAC01 * 2 ^ 48 + r.site * 2 ^ 40 + r.cls * 2 ^ 32 + r.kind * 2 ^ 24 + r.rate * 2 ^ 16 + r.trigOffset % 256 * 2 ^ 8 + r.width,
   r.no * 2 ^ 32 + r.flags.toNat,
   r.preValid * 2 ^ 44 + r.samples.length * 2 ^ 23 + r.conditions,
   r.trigUnit % 256 * 2 ^ 56 + r.markers.length * 2 ^ 32 + r.epoch % 2 ^ 32,
   r.trigTime, r.trigBeats, r.commitFrame, r.dropped % 2 ^ 32 * 2 ^ 32 + bytes]

/-- Samples packed into codewords of 64 bits, sample 0 at the least significant end (R212). -/
def packSamples (width : Nat) : Nat → List Nat → List Nat
  | 0, _ => []
  | n + 1, l =>
    if width ≤ 6 then
      let per := 2 ^ (6 - width)
      (l.take per).foldr (fun x a => a * 2 ^ 2 ^ width + x % 2 ^ 2 ^ width) 0 :: packSamples width n (l.drop per)
    else
      (l.take 1).foldr (fun x _ => x) 0 :: packSamples width n (l.drop 1)

/-- The words of the samples of a record. -/
def Rec.sampleWords (r : Rec) : List Nat :=
  let l := r.samples.map (·.content)
  if r.width ≤ 6 then packSamples r.width ((l.length + 2 ^ (6 - r.width) - 1) / 2 ^ (6 - r.width)) l
  else (l.map fun x => (List.range (2 ^ (r.width - 6))).map fun k => x / 2 ^ (64 * k) % 2 ^ 64).flatten

/-- The two words of a marker (R236). -/
def Marker.words (m : Marker) : List Nat := [m.type * 2 ^ 56 + m.sample % 2 ^ 20 * 2 ^ 32 + m.value % 2 ^ 32, m.time]

/-- Words padded to whole lines. -/
def padLine (l : List Nat) : List Nat := l ++ List.replicate ((8 - l.length % 8) % 8) 0

/-- The words of a record after its header and results: samples, then markers, each padded to whole lines. -/
def Rec.body (r : Rec) : List Nat := padLine r.sampleWords ++ padLine (r.markers.map Marker.words).flatten

/-- A codeword of the acquisition buffer with an error pattern, as its check passes it on: corrected, or poisoned (R22, R23, R220). -/
def bufferWord (w : Codeword) (e : BitVec 72) : Codeword :=
  let x : Codeword := { w with data := w.data ^^^ BitVec.ofNat 64 e.toNat, check := w.check ^^^ BitVec.ofNat 8 (e.toNat / 2 ^ 64) }
  match checkWord x with
  | .good _ => x
  | .corrected _ y => y
  | .bad _ => poisonWord x

/-- A record as lines (R234), its codewords as the buffer's check passes them on (R220). -/
def Rec.lines (r : Rec) : List (List Codeword) :=
  let body := r.body
  let bytes := 128 + 8 * body.length
  let words := r.header bytes ++ r.meas ++ body
  (toLines (words.map (beBytes 8)).flatten).mapIdx fun i l => l.mapIdx fun j w =>
    match if i < 2 then none else r.flips.lookup (8 * (i - 2) + j) with
    | some e => bufferWord w e
    | none => w

/-- A record written to its place in the record ring. -/
def State.storeRecord (s : State) (no : Nat) : State :=
  let r := Table.get {} s.recs no
  s.engineLines r.addr 2 r.site r.lines

/-- A line of class 6 written whole by the acquisition engine (R269, R274). -/
def State.writeRecordLine (s : State) (addr site : Nat) (l : List Codeword) : State :=
  if addr ≥ s.memCapacity ∨ s.fenced addr then s else (s.writeLine addr 2 site l).putWrite 6 addr

/-- The results of a record written into its second line, and its FLAGS into the first, of which they are one codeword (R239, R269). -/
def State.storeResults (s : State) (no : Nat) : State :=
  let r := Table.get {} s.recs no
  let l := r.lines
  let s := s.writeRecordLine (r.addr + 64) r.site (l.getD 1 [])
  if s.readsGood r.addr [] then
    (s.mergeLine r.addr 2 r.site [] fun k => if k = 1 then (l.getD 0 [])[1]? else none).putWrite 6 r.addr
  else (s.readLine r.addr []).2

/-- The lines of a record as they are read for its export (R270). -/
def State.readRecord (s : State) (addr : Nat) : Nat → List (List Codeword) × State
  | 0 => ([], s)
  | k + 1 =>
    let r := s.readLine addr []
    let t := r.2.readRecord (addr + 64) k
    (r.1 :: t.1, t.2)

/-- Whether the lines of a record may be read: none of their channels holds its requests (R274, R282). -/
def State.recordReads (s : State) (r : Rec) : Bool := (List.range r.lines.length).all fun k => !s.memWaits (r.addr + 64 * k)

/-- Lines cut into RECORD packets of up to 32 lines (R293, R294). -/
def State.recordPackets (s : State) (no addr : Nat) : Nat → List (List Codeword) → State
  | 0, _ => s
  | n + 1, l =>
    if l = [] then s
    else (s.slSend { type := 0x06, tag := no, addr := addr, lines := l.take 32 }).recordPackets no (addr + 2048) n (l.drop 32)

/-- A packaged record read from the ring and sent over Stagelink (R219, R274); one whose channel holds its requests waits. (log 118, DEDUCED) -/
def State.sendRecord (s : State) (no : Nat) : State :=
  let r := s.rcd no
  if s.recordReads r then
    let l := s.readRecord r.addr r.lines.length
    (l.2.setRec no { r with unsent := false }).recordPackets no r.addr ((l.1.length + 31) / 32) l.1
  else s.setRec no { r with unsent := true }

/-- The packaged records that wait to be read, in the order in which they took their space. -/
def State.sendWaiting (s : State) : State :=
  let l := (s.recs.filter fun e => e.2.unsent).foldl (fun a e => insertByTime (fun (x : Nat × Rec) => x.2.order) e a) []
  s.each (l.map (·.1)) State.sendRecord

end Sys2Proof.Machine
end

