-- ==== Sys2Proof/Machine/Acquire.lean ====
section
/-! DEFINITION. Captures, trigger units and records (R211-R240). -/

namespace Sys2Proof.Machine

/-- Object 0x7100 + s. -/
def capObj (n : Nat) : Nat := 0x7100 + n
/-- Object 0x7200 + s. -/
def capStat (n : Nat) : Nat := 0x7200 + n
/-- Object 0x7300 + u. -/
def tuObj (u : Nat) : Nat := 0x7300 + u

/-- The fail epoch of a site at a time: that of the vector in progress (R42). -/
def Site.epochAt (x : Site) (t : Nat) : Nat := ((x.play.epochs.find? (·.1 ≤ t)).map (·.2)).getD 0

/-- The period of a site in force at a time: that of the latest vector started (R215). -/
def Site.periodAt (x : Site) (t : Nat) : Nat := ((x.play.periods.find? (·.1 ≤ t)).map (·.2)).getD x.play.period

/-- The time quality in force in a frame (R235, R377). -/
def State.qualityIn (s : State) (frame : Nat) : Quality := ((s.time.qualities.find? (·.1 ≤ frame)).map (·.2)).getD .freerun

/-- The captured slots of a site, ascending (R212). -/
def State.capSlots (s : State) (n : Nat) : List Nat :=
  (List.range (s.sitePins n).length).filter (natBit (s.nreg (capObj n) 2))

/-- log2 of the sample width B: the smallest power of two, at least 4 bits, that holds the content (R212). -/
def widthLog2 (bits : Nat) : Nat := ((List.range 9).find? fun k => decide (2 ≤ k) && decide (bits ≤ 2 ^ k)).getD 8

/-- WIDTH_LOG2 of a capture. -/
def State.capWidth (s : State) (n : Nat) : Nat :=
  match s.nreg (capObj n) 1 with
  | 0 => widthLog2 (4 * (s.capSlots n).length)
  | 1 => 6
  | _ => widthLog2 (2 * (s.capSlots n).length)

/-- Samples kept before a trigger: PRE_SAMPLES, plus HOST_WINDOW in host-assisted mode (R218). -/
def State.preDepth (s : State) (n : Nat) : Nat :=
  s.nreg (capObj n) 4 + (if s.inForce 0x2100 4 = 1 then s.nreg (capObj n) 11 else 0)

/-- Buffer bytes that START reserves (R218). -/
def State.bufferNeed (s : State) (n : Nat) : Nat :=
  64 * ((s.preDepth n * 2 ^ s.capWidth n + 511) / 512) + 32768

/-- Buffer bytes not reserved (R241). -/
def State.bufferFree (s : State) : Nat := 8388608 - ((s.caps.map fun c => c.2.buffer + c.2.nextBuffer).sum)

/-! ### Capture actions (R216) -/

/-- A Ledger RECORD entry for the open record of a capture (R100, R103), or none where it is refused. Its ENTRY and ARG show the number that the
next record to commit takes. (log 170, DESIGN CHOICE) -/
def State.recordEntry (s : State) (n : Nat) : Option Nat × State :=
  s.allocGeneral n { state := .armed, kind := .record, site := n, arg := BitVec.ofNat 32 (s.nreg 0x7000 8),
                     entry := s.nreg 0x7000 8 % 65536 }

/-- A new record opened in a capture that goes on (R216, R225). -/
def State.openEntry (s : State) (n : Nat) : State :=
  let a := s.recordEntry n
  a.2.setCap n { a.2.cap n with entry := a.1, lost := false }

/-- CAP or CAPC issues (R216): whether the acquisition engine accepts the action, with the reservations of START. -/
def State.capIssue (s : State) (n action : Nat) : Bool × State :=
  let c := s.cap n
  match action with
  | 1 =>
    if c.issued = .idle ∧ s.reg 0x7000 2 ≠ 0 ∧ s.bufferNeed n ≤ s.bufferFree then
      let r := s.recordEntry n
      if r.1.isSome then
        (true, r.2.setCap n { r.2.cap n with issued := .capturing, nextEntry := r.1, nextBuffer := s.bufferNeed n, nextLost := false })
      else (false, r.2.bump (capStat n) 9)
    else (false, s.bump (capStat n) 9)
  | 0 => if c.issued = .idle then (false, s) else (true, s.setCap n { c with issued := .idle })
  | 2 => if c.issued = .capturing then (true, s.setCap n { c with issued := .paused }) else (false, s)
  | 3 => if c.issued = .paused then (true, s.setCap n { c with issued := .capturing }) else (false, s)
  | 4 => (c.issued ≠ .idle, s)
  | 8 => (c.issued ≠ .idle, s)
  | _ => (false, s)

/-- OLDEST_AGE (R233, R241). -/
def State.oldestAge (s : State) : Nat :=
  let l := (s.recs.filter fun r => r.2.stage ≠ .exported).map fun r => s.now - r.2.commitFrame
  l.foldl max 0

/-- Bits in the staging area of a capture (R218). -/
def Capture.used (c : Capture) : Nat := 512 * c.lines.length + c.part

/-- The staging area: 32,768 bytes, in bits. -/
def stagingBits : Nat := 262144

/-- Pressure during a record (R232): staging use above 75 %, or OLDEST_AGE above 12,500 frames. -/
def State.pressed (s : State) (n : Nat) : Bool := decide (4 * (s.cap n).used > 3 * stagingBits) || decide (s.oldestAge > 12500)

/-- The rate factor chosen at START and at the end of HOLDOFF (R232). -/
def State.nextRate (s : State) (n : Nat) : Nat :=
  let k := (s.cap n).rate
  let lo := s.nreg (capObj n) 9
  if s.reg (capObj n) 10 = 0 then lo
  else if (s.cap n).pressure then min 8 (max lo k + 1)
  else max lo (k - 1)

/-- The rate set for the next record; a change empties the ring and raises E1658 (R231, R232). -/
def State.retune (s : State) (n : Nat) : State :=
  let c := s.cap n
  let k := s.nextRate n
  if k = c.rate then s.setCap n { c with pressure := false }
  else (s.setCap n { c with rate := k, ring := [], markers := [], next := 0, validFrom := 0, pressure := false, stood := [], trail := [] }).raise 1658

/-- A marker put into a capture at its next sample (R215, R236). -/
def Capture.mark (c : Capture) (type value time : Nat) : Capture :=
  { c with markers := c.markers ++ [{ type := type, sample := c.next, value := value, time := time }] }

/-- Whether the site of a capture has one ARMED unit at least. -/
def State.hasArmedUnit (s : State) (n : Nat) : Bool :=
  (List.range 16).any fun u => (s.tu u).armed && s.nreg (tuObj u) 1 == n

/-- The phase PRE entered, with the auto timer of MODE 2 started (R224, R225). -/
def State.enterPre (s : State) (n : Nat) : State :=
  let c := s.cap n
  s.setCap n { c with phase := .pre, preFrom := if c.phase = .holdoff then c.next else min c.preFrom c.next,
                      autoFrom := if s.reg (capObj n) 6 = 2 ∧ s.hasArmedUnit n then some s.now else none }

/-! ### Records (R219, R234) -/

/-- Ring bytes reserved or awaiting export (R241). -/
def State.ringUsed (s : State) : Nat :=
  ((s.recs.filter fun r => r.2.stage ≠ .exported).map fun r => r.2.reserved).sum
    + ((s.caps.map fun c => (c.2.rcd.map (·.reserved)).getD 0).sum)

/-- The records that hold ring space: those committed, and those defined and still open. -/
def State.ringRecs (s : State) : List Rec := s.recs.map (·.2) ++ s.caps.filterMap fun c => c.2.rcd

/-- The newest of the records in the ring, by the order in which they took their space. -/
def State.newestRec (s : State) : Option Rec :=
  s.ringRecs.foldl (fun a r => match a with | none => some r | some b => if b.order < r.order then some r else some b) none

/-- Whether a span of the ring is free. -/
def State.ringFree (s : State) (a n : Nat) : Bool :=
  s.ringRecs.all fun r => decide (a + n ≤ r.addr) || decide (r.addr + r.reserved ≤ a)

/-- Space freed in ring order: that of an exported record before which no older one waits for its export (R219). -/
def State.freeRing (s : State) : State :=
  let waiting := (s.ringRecs.filter fun r => r.stage ≠ .exported).map (·.order)
  { s with recs := s.recs.filter fun r => r.2.stage ≠ .exported || waiting.any (· < r.2.order) }

/-- A place in the record ring for a record of n bytes: after the newest record, or from REC_BASE where it does not fit
before the end (R219); an empty ring is filled from REC_BASE. (log 171, DESIGN CHOICE) -/
def State.ringPlace (s : State) (n : Nat) : Option Nat :=
  let base := s.nreg 0x7000 1
  let size := s.nreg 0x7000 2
  let tip := match s.newestRec with | some r => r.addr + r.reserved | none => base
  let a := if tip + n ≤ base + size then tip else base
  if n ≤ size ∧ s.ringFree a n then some a else none

/-- The largest size of a record of a capture (R219). -/
def State.recordMax (s : State) (n : Nat) : Nat :=
  128 + ((s.nreg (capObj n) 4 + s.nreg (capObj n) 5) * 2 ^ s.capWidth n + 511) / 512 * 64 + 65536

/-- A record dropped (R219, R233). -/
def State.dropRecord (s : State) (n : Nat) : State := (s.bump (capStat n) 7).raise 1657

/-- Whether a record was defined. -/
abbrev Defined := Bool × State

/-- The kept samples of the ring that are valid pre-samples of a trigger at sample k (R224, R231). -/
def Capture.validBefore (c : Capture) (k : Nat) : List Sample :=
  c.ring.filter fun y => decide (c.validFrom ≤ y.n) && decide (y.n < k - k % 2 ^ c.rate)

/-- Where a marker stands in a record (R215, R231): at the first kept sample at or after its own, with that sample's time; a MARK keeps its
stamp, and stands at the last sample where none follows. (log 67, DEDUCED) -/
def Marker.place (l : List Sample) (m : Marker) : Option Marker :=
  match l.findIdx? (fun y => decide (m.sample ≤ y.n)) with
  | some i => some { m with sample := i, time := if m.type = 0 then m.time else (l[i]?.map (·.time)).getD 0 }
  | none => if m.type = 0 then some { m with sample := l.length - 1 } else none

/-- The markers of a record (R215, R236): those of its samples, with a PERIOD marker at the first one and no MARK beyond 3,584. -/
def Capture.recMarkers (c : Capture) (r : Rec) : List Marker :=
  match r.samples with
  | [] => []
  | x :: _ =>
    let top := (r.samples.getLast?.map (·.n)).getD 0 + 2 ^ r.rate - 1
    let l := (c.markers.filter fun m => decide (x.n < m.sample + 2 ^ r.rate) && decide (m.sample ≤ top)).filterMap (Marker.place r.samples)
    let l := if l.any fun m => m.type == 1 && m.sample == 0 then l
      else { type := 1, sample := 0, value := x.period, time := x.time } :: l
    (l.foldl (fun (a : Nat × List Marker) m =>
      if m.type = 0 then (a.1 + 1, if a.1 < 3584 then a.2 ++ [m] else a.2) else (a.1, a.2 ++ [m])) (0, [])).2

/-- A record cut before the sample at which it would need its 4,097th marker (R236). -/
def Capture.fit (c : Capture) (r : Rec) : Nat → Rec
  | 0 => r
  | k + 1 => if (c.recMarkers r).length ≤ 4096 then r else c.fit { r with samples := r.samples.dropLast } k

/-! ### The staging area (R218, R232, R233) -/

/-- Bits put into the line that is filling, and the lines they fill. -/
def Capture.fill (c : Capture) (b : Nat) : Capture :=
  let k := (c.part + b) / 512
  { c with lines := c.lines ++ (List.range k).map (fun i => c.lineAt + 64 * i), lineAt := c.lineAt + 64 * k, part := (c.part + b) % 512 }

/-- Pre-trigger samples copied as far as the staging area has room. -/
def Capture.pull (c : Capture) : Capture :=
  let b := min c.copying (stagingBits - c.used)
  { c.fill b with copying := c.copying - b }

/-- Staged lines written while X2 takes them (R144, R218). -/
def State.stageMove (s : State) (n : Nat) : Nat → State
  | 0 => s
  | k + 1 =>
    let c := (s.cap n).pull
    match c.lines with
    | [] => s.setCap n c
    | a :: t =>
      if a ≥ s.memCapacity ∨ s.fenced a then (s.setCap n { c with lines := t }).stageMove n k
      else if s.x2Room a then ((s.setCap n { c with lines := t }).putWrite 6 a).stageMove n k
      else s.setCap n c

/-- Staged lines written as far as they go. (log 128, DEDUCED) -/
def State.stageOut (s : State) (n : Nat) : State := s.stageMove n ((s.cap n).lines.length + (s.cap n).copying / 512 + 2)

/-- The last lines of a committed record staged: what is left of its samples, its markers and its header. -/
def Capture.close (c : Capture) (r : Rec) : Capture :=
  let c := { c.fill c.copying with copying := 0 }
  let rest := (if c.part = 0 then 0 else 1) + (16 * r.markers.length + 63) / 64
  { c with lines := c.lines ++ (List.range rest).map (fun i => c.lineAt + 64 * i) ++ [r.addr, r.addr + 64], part := 0 }

/-- A record defined around a trigger sample (R219, R224, R228-R230, R233). `unit` is TRIG_UNIT, `conds` CONDITIONS and
`flags` the FLAGS of its cause. -/
def State.define (s : State) (n : Nat) (t : Sample) (unit conds : Nat) (flags : Nat) : Defined :=
  let c := s.cap n
  let x := s.site n
  let pre := s.nreg (capObj n) 4
  let F := 2 ^ c.rate
  let before := c.validBefore t.n
  let keep := before.drop (before.length - pre)
  if s.oldestAge > 25000 ∨ (c.entry.isNone ∧ !c.lost) then (false, s.dropRecord n)
  else match s.ringPlace (s.recordMax n) with
    | none => (false, s.dropRecord n)
    | some a =>
      let ptp := s.ptpOf x.f0 t.time
      let fl := flags + (if keep.length < pre then 1 else 0) + (s.qualityIn (x.f0 + t.time / 320000)).code * 512
      let atTrig := c.ring.filter (·.n ≥ t.n - t.n % F)
      let r : Rec := { site := n, cls := c.cls, kind := s.nreg (capObj n) 1, rate := c.rate, trigOffset := t.n % F,
                       flags := BitVec.ofNat 32 fl, preValid := keep.length, samples := keep ++ atTrig.take (s.nreg (capObj n) 5),
                       conditions := conds, trigUnit := unit, epoch := t.epoch, trigTime := t.time,
                       trigBeats := (beatsOf ptp).toNat,
                       left := s.nreg (capObj n) 5 - atTrig.length, addr := a, reserved := s.recordMax n
                       order := (s.newestRec.map (·.order)).getD 0 + 1 }
      let s := s.setCap n { c with phase := .post, rcd := some r, autoFrom := none, forced := false
                                   lineAt := a + 128, part := 0, copying := r.samples.length * 2 ^ s.capWidth n }
      let s := if s.reg (capObj n) 6 = 1 then
        s.each (List.range 16) fun s u =>
          if s.nreg (tuObj u) 1 = n then s.setTu u { s.tu u with armed := false } else s
        else s
      let s := if unit < 16 then
        let s := (s.raise (1640 + unit)).bump (tuObj unit) 18
        (s.evtPulse (s.nreg (tuObj unit) 15) s.clk.c).setTu unit { s.tu unit with fired := true }
        else s
      (true, s)

/-- The bytes of a record (R234, R236). -/
def Rec.size (r : Rec) (width : Nat) : Nat :=
  128 + (r.samples.length * 2 ^ width + 511) / 512 * 64 + (16 * r.markers.length + 63) / 64 * 64

/-- The result of one per-record measurement (R238) over samples (time, code, fail): `from'` is the time of the kept sample at the
trigger position, `trig` TRIG_TIME. A rise there lies before TRIG_TIME where the rate is reduced: the difference is then in two's
complement. -/
def measureKind (kind code from' trig : Nat) (l : List (Nat × Nat × Bool)) : Nat :=
  let none64 := 2 ^ 64 - 1
  let level := l.filter fun e => e.2.1 == 0 || e.2.1 == 2
  let pairs := level.zip (level.drop 1)
  let rises := (pairs.filter fun e => e.1.2.1 == 0 && e.2.2.1 == 2).map (·.2.1)
  let falls := (pairs.filter fun e => e.1.2.1 == 2 && e.2.2.1 == 0).map (·.2.1)
  let pulses := rises.filterMap fun t =>
    match falls.find? (· > t) with
    | some f => if rises.any fun u => decide (t < u) && decide (u < f) then none else some (f - t)
    | none => none
  let n10 := (l.filter (·.2.1 == 2)).length
  let n00 := (l.filter (·.2.1 == 0)).length
  match kind with
  | 0 => 0
  | 1 => (l.filter (·.2.1 == code)).length
  | 2 => (l.filter (·.2.2)).length
  | 3 => rises.length + falls.length
  | 4 => if n00 + n10 = 0 then none64 else 65536 * n10 / (n00 + n10)
  | 5 => match rises.find? (· ≥ from') with | some t => (t + 2 ^ 64 - trig) % 2 ^ 64 | none => none64
  | 6 => if rises.length < 2 then none64 else (rises.getLast?.getD 0 - rises.headD 0) / (rises.length - 1)
  | 7 => match pulses with | [] => none64 | p :: t => t.foldl min p
  | _ => match pulses with | [] => none64 | p :: t => t.foldl max p

/-- Per-record measurement k of a record (R237, R238). -/
def State.measureOne (s : State) (r : Rec) (k : Nat) : Nat :=
  let d := s.nreg (capObj r.site) (12 + k)
  let slot := natBits d 27 22
  let pos := ((s.capSlots r.site).filter (· < slot)).length
  let from' := (r.samples[min r.preValid (r.samples.length - 1)]?.map (·.time)).getD 0
  let l := r.samples.filterMap fun x =>
    if natBit d 19 ∧ x.time < from' then none
    else if r.kind = 0 then
      let nib := natBits x.content (4 * pos + 3) (4 * pos)
      some (x.time, nib / 4, natBit nib 1)
    else let c := natBits x.content (2 * pos + 1) (2 * pos); some (x.time, c, c != 1)
  measureKind (natBits d 31 28) (natBits d 21 20) from' r.trigTime l

/-- Whether a capture has a per-record measurement to make (R239). -/
def State.hasRecordMeas (s : State) (n : Nat) : Bool := (List.range 8).any fun k => s.nreg (capObj n) (12 + k) / 2 ^ 28 ≠ 0

/-- The check of the acquisition buffer's codewords as a record is read out of it (R220). -/
def State.checkBuffer (s : State) (flips : Table (BitVec 72)) : State :=
  s.each flips fun s e =>
    match flipResult e.2 with
    | 1 => (s.bump 0x7000 6).raise 1659
    | 2 => (s.bump 0x7000 7).raise 1660
    | _ => s

/-- A record whose entry has been lost is exported as it is stored (R220). -/
def State.exportLost (s : State) (no : Nat) : State :=
  let r := s.rcd no
  if r.stage = .exported ∨ r.stage = .packaged then s
  else (s.setRec no { r with stage := .packaged }).sendRecord no

/-- The results of the measurements that a record does not get: none for each definition (R239). -/
def State.noResults (s : State) (n : Nat) : List Nat :=
  (List.range 8).map fun k => if s.nreg (capObj n) (12 + k) / 2 ^ 28 = 0 then 0 else 2 ^ 64 - 1

/-- A record committed (R219, R220, R224, R239): read out of the buffer through its check, numbered, its unused reservation returned, its entry
made the packaging task in the site's service Caravan behind its measurement task; one whose entry is lost carries LOST and goes without them.
`extra` is TRUNC_POST or UNTRIGGERED. -/
def State.commitRecord (s : State) (n : Nat) (r : Rec) (extra : Nat) : State :=
  let no := s.nreg 0x7000 8
  let c := s.cap n
  let host := s.inForce 0x2100 5 = 1
  let task := !host && !c.lost && s.hasRecordMeas n
  let fl := r.flags.toNat ||| extra ||| (if (s.site n).has flagTainted then 256 else 0) ||| (if host then 128 else 0)
    ||| (if c.lost then 64 else 0) ||| (if c.lost ∧ !host ∧ s.hasRecordMeas n then 2048 else 0)
  let r := { r with no := no, stage := .committed, commitFrame := s.now, flags := BitVec.ofNat 32 fl,
                    markers := c.recMarkers r, width := s.capWidth n,
                    meas := if host ∨ c.lost then s.noResults n else List.replicate 8 0 }
  let r := { r with reserved := r.size (s.capWidth n) }
  let flips := c.flips.filter fun e => decide (e.1 < r.body.length)
  let r := { r with flips := flips, flags := if flips.any fun e => flipResult e.2 == 2 then r.flags ||| 32 else r.flags }
  let s := ((s.checkBuffer flips).setRec no r).storeRecord no
  let s := (s.setNat 0x7000 8 ((no + 1) % 2 ^ 32)).bump (capStat n) 4
  let s := s.setNat (capStat n) 10 no
  let s := s.modSite n fun x => { x with records := x.records ++ [no] }
  let s := if task then s.postService { site := n, prio := 3, work := .recordMeas no, caravan := some n } else s
  let s := match c.entry with
    | some i => s.postService { site := n, prio := 4, work := .packaging no, caravan := some n, entry := some i }
    | none => s.exportLost no
  let from' := match r.samples.getLast? with | some y => y.n + 2 ^ r.rate | none => c.next
  (s.setCap n { (s.cap n).close r with
    rcd := none, entry := none, lost := false, phase := .holdoff, holdoffEnd := s.now + 8, validFrom := from', flips := [] }).stageOut n

/-- A record committed, cut first to the markers that it can hold (R236). -/
def State.commitFit (s : State) (n : Nat) (r : Rec) (extra : Nat) : State :=
  let cut := (s.cap n).fit r r.samples.length
  s.commitRecord n cut (if cut.samples.length < r.samples.length then extra ||| 8 else extra)

/-- The MARKs accepted so far put into a record that is committed at once: they stand at its last sample (R216). (log 67, DEDUCED) -/
def Capture.flushMarks (c : Capture) (r : Rec) : Capture :=
  let last := (r.samples.getLast?.map (·.n)).getD 0
  { c with markers := c.markers ++ (c.pend.filter (·.1 = 0)).map (fun e => { type := 0, sample := last, value := e.2.1, time := e.2.2 })
           pend := c.pend.filter (·.1 ≠ 0) }

/-- The open record committed at once (R216, R217): with UNTRIGGERED if it has not triggered, else with TRUNC_POST. In HOLDOFF, and where the
Ledger has refused the entry, no record is open. A record for which the ring has no space is dropped, and its entry returned. -/
def State.commitOpen (s : State) (n : Nat) : State :=
  let c := s.cap n
  match c.rcd with
  | some r => (s.setCap n (c.flushMarks r)).commitRecord n r 8
  | none =>
    let l := c.ring.filter fun y => decide (c.validFrom ≤ y.n)
    let keep := l.drop (l.length - s.nreg (capObj n) 4)
    let last := c.ring.getLast?
    let t := (last.map (·.time)).getD 0
    if c.phase ≠ .pre ∨ (c.entry.isNone ∧ !c.lost) then s
    else match s.ringPlace (s.recordMax n) with
    | none =>
      let s := s.dropRecord n
      let s := match c.entry with | some i => s.freeEntry i | none => s
      s.setCap n { s.cap n with entry := none, lost := false }
    | some a =>
      let s := s.setCap n { c with lineAt := a + 128, part := 0, copying := keep.length * 2 ^ s.capWidth n }
      let r : Rec := { site := n, cls := c.cls, kind := s.nreg (capObj n) 1, rate := c.rate, preValid := keep.length,
                       samples := keep, trigUnit := 255, epoch := (last.map (·.epoch)).getD ((s.site n).epochAt t), trigTime := t,
                       trigBeats := (beatsOf (s.ptpOf (s.site n).f0 t)).toNat, addr := a,
                       reserved := 0, order := (s.newestRec.map (·.order)).getD 0 + 1
                       flags := BitVec.ofNat 32 ((s.qualityIn ((s.site n).f0 + t / 320000)).code * 512) }
      (s.setCap n ((s.cap n).flushMarks r)).commitFit n r 4

/-- The FIREs that wait for a sample of a site's capture dropped with the capture (R226). -/
def State.dropFires (s : State) (n : Nat) : State :=
  s.each (List.range 16) fun s u => if s.nreg (tuObj u) 1 = n then s.setTu u { s.tu u with fireAt := none, fireFrame := none } else s

/-- A capture ended and its reservations returned (R216, R218); what a START issued since has reserved stays. -/
def State.stopCapture (s0 : State) (n : Nat) : State :=
  let s := s0.dropFires n
  let s := match (s.cap n).entry with | some i => s.freeEntry i | none => s
  let s := s.modSite n fun x => { x with vecs := [] }
  (s.setCap n { s.cap n with st := .idle, phase := .pre, ring := [], markers := [], rcd := none, copying := 0
                             entry := none, lost := false, buffer := 0, autoFrom := none, forced := false, taken := [] }).freeRing

/-- A capture ended with all it has reserved (R217, R218). -/
def State.endCapture (s : State) (n : Nat) : State :=
  let s := s.stopCapture n
  let s := match (s.cap n).nextEntry with | some i => s.freeEntry i | none => s
  s.setCap n { s.cap n with issued := .idle, nextEntry := none, nextLost := false, nextBuffer := 0 }

/-- The RECORD entry i of site n lost (R104, R220): that of its open record, of a START that has issued, or of a record that still waits for its
place in the Caravan, which is then exported as stored, its measurements not run. -/
def State.loseCapture (s : State) (n i : Nat) : State :=
  let c := s.cap n
  if c.entry = some i then s.setCap n { c with entry := none, lost := true }
  else if c.nextEntry = some i then s.setCap n { c with nextEntry := none, nextLost := true }
  else match s.inn.held.find? (·.entry == some i) with
    | some { work := .packaging no, .. } =>
      let mine (p : HeldPost) : Bool := p.work == .packaging no || p.work == .recordMeas no
      let r := s.rcd no
      let unrun := s.inn.held.any (·.work == .recordMeas no)
      let s := { s with inn := { s.inn with held := s.inn.held.filter (!mine ·) } }
      ((s.setRec no { r with flags := r.flags ||| (if unrun then 2112 else 64), meas := if unrun then s.noResults n else r.meas }).storeResults no).exportLost no
    | _ => s

/-- COMMIT followed at once by STOP: what the SEAL decision and entry to HALTED or FAULTED do (R217). -/
def State.closeCapture (s : State) (n : Nat) : State :=
  if (s.cap n).st = .idle then s.endCapture n else (s.commitOpen n).endCapture n

/-- The content of a MONITOR sample in a beat of the open frame (R211). -/
def State.monSample (s : State) (n beat : Nat) : Nat :=
  let l := s.capSlots n
  (List.range l.length).foldl (fun a i =>
    let c := s.monAt ((s.sitePins n).getD (l.getD i 0) 64) beat
    a + 4 ^ i * (if c = 3 then 0 else if c = 2 then 1 else if c = 4 then 2 else 3)) 0

/-- The MONITOR samples of a capture whose beats start before a time are taken (R211, R214): one for each beat since the last one
taken. -/
def State.takeBeats (s : State) (n time : Nat) : State :=
  let c := s.cap n
  if c.st = .capturing ∧ s.reg (capObj n) 1 = 2 then
    let first := (c.monFrom + 4999) / 5000
    let l := (List.range' first ((time + 4999) / 5000 - first)).map fun b =>
      ({ n := 0, time := 5000 * b, content := s.monSample n (b % 64), frame := (s.site n).f0 + b / 64,
         period := (s.site n).periodAt (5000 * b), epoch := (s.site n).epochAt (5000 * b) } : Sample)
    s.setCap n { c with taken := c.taken ++ l, monFrom := time }
  else s

/-- An accepted action takes effect at a vector start (R44, R216). `time` is that start. -/
def State.capEffect (s0 : State) (n action cls time : Nat) : State :=
  let s := s0.takeBeats n time
  let c := s.cap n
  match action with
  | 1 =>
    ((s.setCap n { c with st := .capturing, cls := cls, ring := [], markers := [], next := 0, validFrom := 0, taken := [],
                          entry := c.nextEntry, lost := c.nextLost, buffer := c.nextBuffer, nextEntry := none, nextLost := false, nextBuffer := 0, lastPeriod := 0, monFrom := time, pend := [], gap := false
                          stood := [], trail := [] }).retune n).enterPre n
  | 0 =>
    match c.rcd with
    | some _ => (s.commitOpen n).stopCapture n
    | none => s.stopCapture n
  | 2 => s.setCap n { c with st := .paused, autoFrom := none }
  | 3 =>
    let s := s.setCap n { c with st := .capturing, pend := c.pend ++ [(3, 0, time)], monFrom := time }
    if c.phase = .pre then s.enterPre n else s
  | 4 =>
    let s := s.commitOpen n
    let s := s.setCap n { s.cap n with phase := .pre, ring := [], markers := [], next := 0, validFrom := 0, stood := [], trail := [] }
    (s.openEntry n).enterPre n
  | _ => s.setCap n { c with pend := c.pend ++ [(0, cls, time)] }

/-! ### Trigger units (R221-R230) -/

/-- A unit armed: stage 0 active, nothing met, no occurrence waiting (R221, R223); a FIRE that waits for its sample stays (R226). -/
def State.armUnit (s0 : State) (u : Nat) : State :=
  let s := s0.setTu u { armed := true, fireAt := (s0.tu u).fireAt, fireFrame := (s0.tu u).fireFrame }
  let n := s.nreg (tuObj u) 1
  if n < 64 ∧ (s.cap n).st = .capturing ∧ (s.cap n).phase = .pre ∧ s.reg (capObj n) 6 = 2 ∧ (s.cap n).autoFrom.isNone then
    s.setCap n { s.cap n with autoFrom := some s.now }
  else s

/-- A unit disarmed (R221). -/
def State.disarmUnit (s : State) (u : Nat) : State := s.setTu u { s.tu u with armed := false, stage := 0, met := 0 }

/-- Every unit of a site disarmed (R221). -/
def State.disarmUnits (s : State) (n : Nat) : State :=
  s.each (List.range 16) fun s u => if s.nreg (tuObj u) 1 = n then s.disarmUnit u else s

/-- A FIRE (R221, R226): nothing while the owner's capture is not CAPTURING, but the missed trigger counts. -/
def State.fireUnit (s : State) (u : Nat) (at' : Option Nat) : State :=
  let n := s.nreg (tuObj u) 1
  if n < 64 ∧ (s.cap n).st = .capturing then
    match at' with
    | some t => s.setTu u { s.tu u with fireAt := some t }
    | none => s.setTu u { s.tu u with fireFrame := some (s.now + 1) }
  else if n < 64 then s.bump (capStat n) 5 else s

/-- A mask or value of 32 bytes as a number: byte j covers bits [8j+7:8j] (R222). -/
def leBytes (l : List Byte) : Nat := l.foldr (fun b a => b.toNat + 256 * a) 0

/-- Whether a sample has FAIL in a captured slot (R222). -/
def State.sampleFails (s : State) (n content : Nat) : Bool :=
  let w := (s.capSlots n).length
  match s.nreg (capObj n) 1 with
  | 0 => (List.range w).any fun i => natBit content (4 * i + 1)
  | 2 => (List.range w).any fun i => natBits content (2 * i + 1) (2 * i) ≠ 1
  | _ => false

/-- The terms of a unit that a sample meets, bit 0 PATTERN to bit 5 UNIT (R222). `done` lists the units whose final stage
this sample has completed. -/
def State.terms (s : State) (n u : Nat) (x : Sample) (done : List Nat) : Nat :=
  let t := s.tu u
  let o := tuObj u
  let mask := leBytes (s.oct o 8)
  let eq := (x.content &&& mask) == (leBytes (s.oct o 9) &&& mask)
  let bit (i : Nat) (b : Bool) : Nat := if b then 2 ^ i else 0
  bit 0 (eq != (s.reg o 10 = 1)) + bit 1 (s.sampleFails n x.content) + bit 2 t.event
    + bit 3 (t.ext.any (· ≤ x.time))
    + bit 4 (!t.time && decide (s.ptpOf (s.site n).f0 x.time ≥ ofTime80 (s.nreg o 13)))
    + bit 5 (done.contains (s.nreg o 14))

/-- The occurrences before a sample that it uses up (R222). -/
def TrigUnit.spend (t : TrigUnit) (m time : Nat) : TrigUnit :=
  { t with event := if natBit m 2 then false else t.event, ext := t.ext.filter (time < ·), time := t.time || natBit m 4 }

/-- Whether a FIRE written by the host completes a unit's condition at a sample (R226). -/
def State.hostFires (s : State) (u : Nat) (x : Sample) : Bool :=
  match (s.tu u).fireFrame with | some f => decide (f ≤ x.frame) | none => false

/-- One unit on one sample (R222, R223, R226): whether its condition is complete, and whether by a FIRE. A FIRE of an ARMED unit completes its
final stage too. (log 129, DEDUCED) -/
def State.evalUnit (s : State) (n u : Nat) (x : Sample) (done : List Nat) : (Bool × Bool) × State :=
  let t := s.tu u
  let o := tuObj u
  let m := s.terms n u x done
  let w := s.nreg o (4 + t.stage)
  let enabled := natBits w 37 32
  let met := if natBit w 47 then (enabled &&& m) ≠ 0 else (enabled &&& m) = enabled
  let fired := (match t.fireAt with | some f => decide (f ≤ x.time) | none => false)
    || s.hostFires u x
  let t := t.spend m x.time
  if fired then
    ((true, true), s.setTu u { t with stage := 0, met := 0, fireAt := none, fireFrame := none })
  else if !t.armed then ((false, false), s)
  else if met then
    if t.met + 1 ≥ natBits w 63 48 then
      if t.stage + 1 ≥ s.nreg o 3 then ((true, false), s.setTu u { t with stage := 0, met := 0 })
      else ((false, false), s.setTu u { t with stage := t.stage + 1, met := 0 })
    else ((false, false), s.setTu u { t with met := t.met + 1 })
  else ((false, false), s.setTu u t)

/-- What the units of a capture make of a sample, lowest first: those whose condition it completes, those of them fired, and those that complete
their final stage while ARMED (R222). -/
structure UnitsMet where
  met : List Nat := []
  fired : List Nat := []
  done : List Nat := []

/-- The units of a capture on one sample (R228). (log 129, DEDUCED) -/
def State.evalUnits (s : State) (n : Nat) (x : Sample) : UnitsMet × State :=
  (List.range 16).foldl (fun (a : UnitsMet × State) u =>
    if a.2.nreg (tuObj u) 1 = n then
      let r := a.2.evalUnit n u x a.1.done
      if r.1.1 then
        ({ met := a.1.met ++ [u], fired := if r.1.2 then a.1.fired ++ [u] else a.1.fired
           done := if (a.2.tu u).armed then a.1.done ++ [u] else a.1.done }, r.2)
      else (a.1, r.2)
    else a) ({}, s)

/-- CONDITIONS of a set of units (R228). -/
def condBits (l : List Nat) : Nat := l.foldl orBit 0

/-- The automatic markers at a sample (R215). -/
def State.autoMarkers (s : State) (n : Nat) (x : Sample) : State :=
  let c := s.cap n
  let due := c.pend.filter (·.2.2 ≤ x.time)
  let c := { c with pend := c.pend.filter fun e => !decide (e.2.2 ≤ x.time) }
  let c := (due.filter (·.1 = 0)).foldl (fun (c : Capture) e => c.mark 0 e.2.1 e.2.2) c
  let c := if due.any (·.1 = 3) then c.mark 3 0 x.time else c
  let c := if c.gap then { c.mark 4 0 x.time with gap := false } else c
  let held := ((due.filter (·.1 = 2)).map (·.2.1)).sum
  let c := if held > 0 then c.mark 2 (min held (2 ^ 32 - 1)) x.time else c
  let c := if c.lastPeriod ≠ x.period then { c.mark 1 x.period x.time with lastPeriod := x.period } else c
  s.setCap n c

/-- The FAIL bits of a sample that is not kept merged into the kept one of its group, for STROBE captures (R231). -/
def State.mergeFails (s : State) (n : Nat) (x : Sample) (l : List Sample) : List Sample :=
  let w := (s.capSlots n).length
  let fails := (List.range w).foldl (fun a i => if natBit x.content (4 * i + 1) then a + 2 ^ (4 * i + 1) else a) 0
  match l.getLast? with
  | some y => if s.reg (capObj n) 1 = 0 ∧ y.n = x.n - x.n % 2 ^ (s.cap n).rate then l.dropLast ++ [{ y with content := y.content ||| fails }] else l
  | none => l

/-- A sample noted for the HOST_WINDOW samples in which the host may name it (R240). -/
def State.note (s : State) (n : Nat) (x : Sample) : State :=
  let c := s.cap n
  let w := s.nreg (capObj n) 11
  let l := c.trail ++ [x]
  s.setCap n { c with trail := l.drop (l.length - (w + 1)), stood := c.stood.filter fun e => decide (x.n ≤ e.2 + w) }

/-- A sample enters the ring: kept when its number is a multiple of F, otherwise its FAIL bits join the kept sample
(R231); the ring keeps the depth it reserved. -/
def State.ringTake (s : State) (n : Nat) (x : Sample) : State :=
  let c := s.cap n
  let F := 2 ^ c.rate
  if x.n % F = 0 then
    let keep := s.preDepth n + 1
    let r := c.ring ++ [x]
    let r := r.drop (r.length - keep)
    let first := (r.head?.map (·.n)).getD 0
    (s.setCap n { c with ring := r, markers := c.markers.filter (fun m => decide (first < m.sample + F)), next := x.n + 1 }).note n x
  else (s.setCap n { c with ring := s.mergeFails n x c.ring, next := x.n + 1 }).note n x

/-- Whether the group of samples that the kept one merges is complete at sample k (R231). (log 67, DEDUCED) -/
def State.groupDone (s : State) (n k : Nat) : Bool :=
  let F := 2 ^ (s.cap n).rate
  s.nreg (capObj n) 1 ≠ 0 || k % F = F - 1

/-- A record whose last post-trigger sample is complete commits (R224, R231). -/
def State.closeRecord (s : State) (n k : Nat) : State :=
  match (s.cap n).rcd with
  | some r => if r.left = 0 ∧ s.groupDone n k then s.commitRecord n r 0 else s
  | none => s

/-- Whether the next sample of a capture finds its staging area full (R218, R233). (log 128, DEDUCED) -/
def State.stagingFull (s : State) (n : Nat) : Bool :=
  let c := s.cap n
  c.phase = .post && c.rcd.isSome && c.next % 2 ^ c.rate == 0 && decide (c.used + 2 ^ s.capWidth n > stagingBits)

/-- A sample that finds the staging area full is dropped (R233): counted, the record carries OVERFLOW, and a GAP marker follows. -/
def State.dropSample (s : State) (n : Nat) (r : Rec) (x : Sample) : State :=
  (s.setCap n { s.cap n with gap := true, next := x.n + 1, rcd := some { r with dropped := r.dropped + 1, flags := r.flags ||| 16 } }).bump
    (capStat n) 8

/-- A sample appended to the record in POST, through the staging area; the last one commits it (R218, R224, R233). A dropped sample is not one of
POST_SAMPLES. (log 128, DEDUCED) -/
def State.postTake (s : State) (n : Nat) (x : Sample) : State :=
  let c := s.cap n
  match c.rcd with
  | none => s
  | some r =>
    let kept := x.n % 2 ^ c.rate = 0
    let width := 2 ^ s.capWidth n
    if s.stagingFull n then s.dropSample n r x else
    let c := if kept then c.fill width else c
    let r' := if kept then { r with samples := r.samples ++ [x], left := r.left - 1 }
      else { r with samples := s.mergeFails n x r.samples }
    if (c.recMarkers r').length > 4096 then (s.commitRecord n r 8).ringTake n x
    else (s.setCap n { c with rcd := some r', next := x.n + 1 }).closeRecord n x.n

/-- A record that its pre-history alone gives more markers than it can hold is ended where they are full (R236). -/
def State.endFull (s : State) (n : Nat) : State :=
  match (s.cap n).rcd with
  | some r => if ((s.cap n).recMarkers r).length > 4096 then s.commitFit n r 8 else s
  | none => s

/-- A record defined by a trigger at sample k of a capture, and closed if that sample is its last (R224, R228). -/
def State.trigger (s : State) (n : Nat) (t : Sample) (unit conds flags : Nat) : State :=
  let s := (s.define n t unit conds flags).2.endFull n
  let F := 2 ^ (s.cap n).rate
  s.closeRecord n (if t.n / F < ((s.cap n).next - 1) / F then F - 1 else t.n)

/-- The conditions that one sample completes while no record may form (R227): the capture counts the sample once. -/
def State.missAll (s : State) (n : Nat) (us : List Nat) : State :=
  if us.isEmpty then s
  else (s.each us fun s u => s.bump (tuObj u) 19).bump (capStat n) 5 |>.raise 1656

/-- A forced auto trigger at a sample (R225, R229): where no record is defined, the timer starts again. -/
def State.forceTrigger (s : State) (n : Nat) (x : Sample) (conds : Nat) : State :=
  let s := (s.setCap n { s.cap n with forced := false }).trigger n x 16 conds 2
  if (s.cap n).phase = .pre then s.setCap n { s.cap n with autoFrom := some s.now } else s

/-- The conditions `us` of a sample in PRE decide (R226, R228, R229): the lowest unit defines the record; under FULL_PRE a sample
with too few valid pre-samples is ignored, unless the host has fired a unit. (log 65, DEDUCED) -/
def State.decideUnits (s : State) (n : Nat) (x : Sample) (us fired byHost : List Nat) (conds : Nat) : State :=
  let short : Bool := s.reg (capObj n) 8 == 1 && decide (((s.cap n).validBefore x.n).length < s.nreg (capObj n) 4)
  let ok := if short then byHost else us
  match ok with
  | [] =>
    if us.isEmpty then s
    else (s.each us fun s u => s.setTu u { s.tu u with stage := 0, met := 0 }).bump (capStat n) 6
  | u :: _ => s.trigger n x u conds (if fired.contains u then 2 else 0)

/-- The conditions of a sample in PRE as candidates of host-assisted evaluation (R240). -/
def State.candidates (s : State) (n : Nat) (x : Sample) (us : List Nat) : State :=
  s.each us fun s u =>
    let c := s.cap n
    if c.candidates.length ≥ 64 then s.bump (capStat n) 13
    else (s.setCap n { c with candidates := c.candidates ++ [(u, x.n, x.time)], stood := c.stood ++ [(u, x.n)] }).raise 1661

/-- One sample of a capture: units, decision, ring or record (R222-R233, R240). What markers it owes stand at it, unless it is dropped. -/
def State.takeSample (s0 : State) (n : Nat) (x0 : Sample) (force : Bool) : State :=
  let s := if (s0.cap n).phase = .post then s0.stageOut n else s0
  let c := s.cap n
  let x := { x0 with n := c.next }
  let s := if s.stagingFull n then s else s.autoMarkers n x
  let byHost := (List.range 16).filter fun u => s.hostFires u x
  let e := s.evalUnits n x
  let us := e.1.met
  let fired := e.1.fired
  let s := e.2
  match c.phase with
  | .pre =>
    let s := s.ringTake n x
    let conds := condBits us
    let byUnits : Bool := s.inForce 0x2100 4 != 1
    let s := if byUnits then s else s.candidates n x (us.filter fun u => !fired.contains u)
    if force then s.forceTrigger n x conds
    else if byUnits then s.decideUnits n x us fired (us.filter byHost.contains) conds
    else s.decideUnits n x fired fired (fired.filter byHost.contains) conds
  | .post => (s.missAll n us).postTake n x
  | .holdoff => (s.missAll n us).ringTake n x

/-- The host's decision taken at a tick (R240): nothing, but counted as late, where the capture is no longer in PRE or the sample no longer
held; ignored under FULL_PRE where too few pre-samples stand before it (R229). (log 71, DEDUCED) -/
def State.hostDecision (s : State) (n : Nat) : State :=
  let c := s.cap n
  match c.hostAt with
  | none => s
  | some k =>
    let s := s.setCap n { c with hostAt := none }
    match (if c.st = .idle ∨ c.phase ≠ .pre then none else c.trail.find? (·.n = k)) with
    | none => s.bump (capStat n) 12
    | some x =>
      if s.reg (capObj n) 8 = 1 ∧ (c.validBefore k).length < s.nreg (capObj n) 4 then s.bump (capStat n) 6
      else s.trigger n x 255 (condBits ((c.stood.filter (·.2 = k)).map (·.1))) 4096

/-- Step 1 of the frame commit for a capture: every sample taken in the frame, in time order (R15, R228). -/
def State.captureTick (s : State) (n : Nat) : State :=
  let c := s.cap n
  if c.st = .idle then (s.setCap n { c with taken := [] }).stageOut n
  else
    let l := c.taken.foldl (fun a y => insertByTime Sample.time y a) []
    let s := s.setCap n { c with taken := [] }
    let last := l.length - 1
    let r := l.foldl (fun (a : Nat × State) x =>
      let force := (a.2.cap n).forced && (a.1 = last || c.forceAt.isSome)
      (a.1 + 1, a.2.takeSample n x force)) (0, s)
    let s := (r.2.hostDecision n).stageOut n
    let s := if (s.cap n).phase ≠ .holdoff ∧ s.pressed n then s.setCap n { s.cap n with pressure := true } else s
    if (s.cap n).forced ∧ l = [] then s.setCap n { s.cap n with forceAt := some s.now }
    else s.setCap n { s.cap n with forceAt := none }

/-- HOST_TRIGGER (R240): a sample taken in PRE, the capture still in PRE, no more than HOST_WINDOW samples ago. (log 71, DEDUCED) -/
def State.hostTrigger (s : State) (n k : Nat) : Nat × State :=
  let c := s.cap n
  if s.reg 0x2100 4 ≠ 1 then (0x0108, s.bump (capStat n) 12)
  else if c.st ≠ .idle ∧ c.phase = .pre ∧ c.preFrom ≤ k ∧ k < c.next ∧ c.next - 1 - k ≤ s.nreg (capObj n) 11 then
    (0, s.setCap n { c with hostAt := some k })
  else (0x030A, s.bump (capStat n) 12)

/-- HOLDOFF_END (R224, R232): the rate may change, a new record opens and the capture is in PRE. -/
def execHoldoffEnd (n : SiteId) (s : State) : Out :=
  let c := s.cap n
  if c.st ≠ .idle ∧ c.phase = .holdoff ∧ c.holdoffEnd ≤ s.now then
    .next (((s.retune n).openEntry n).enterPre n)
  else .next s

/-- AUTO_TRIGGER (R225): the timer has expired in PRE without a decision; the trigger is forced at the next tick. (log 66, DEDUCED) -/
def execAutoTrigger (n : SiteId) (s : State) : Out :=
  let c := s.cap n
  match c.autoFrom with
  | some f =>
    if c.st = .capturing ∧ c.phase = .pre ∧ 2 * (s.now + 1 - f) ≥ 25 * s.nreg (capObj n) 7 then
      .next (s.setCap n { c with forced := true, autoFrom := none })
    else .next s
  | none => .next s

/-- RECORD_EXPORTED (R219): the link has acknowledged the last packet of a packaged record; ring space is freed in ring order. -/
def execRecordExported (n : Nat) (s : State) : Out :=
  if (s.rcd n).stage = .packaged ∧ !(s.rcd n).unsent ∧ !(s.inFlight fun p => p.type == 0x06 && p.tag == n) then
    .next (s.setRec n { s.rcd n with stage := .exported }).freeRing
  else .next s

end Sys2Proof.Machine
end

