-- ==== Sys2Proof/Machine/Sha.lean ====
section
/-! DEFINITION. SHA-384 (FIPS 180-4), the hash of every measurement of R423, and the tree hash of R430. -/

namespace Sys2Proof.Machine

/-- Whether n, below 529, is prime: no prime up to 19 other than n itself divides it. -/
def smallPrime (n : Nat) : Bool := 2 ≤ n && [2, 3, 5, 7, 11, 13, 17, 19].all fun d => d == n || n % d != 0

/-- The first 80 primes (409 is the eightieth). -/
def shaPrimes : List Nat := (List.range 410).filter smallPrime

/-- The largest r whose e-th power does not pass x, bit by bit from 2^(bits-1) down. -/
def rootFrom (e x : Nat) : Nat → Nat → Nat
  | 0, r => r
  | b + 1, r => rootFrom e x b (if (r + 2 ^ b) ^ e ≤ x then r + 2 ^ b else r)

/-- The first 64 bits of the fraction of the e-th root of p, the form in which FIPS 180-4 states its constants. -/
def rootFraction (e p : Nat) : Word64 := BitVec.ofNat 64 (rootFrom e (p * 2 ^ (64 * e)) 70 0)

/-- The 80 round constants of SHA-384: the cube roots of the first 80 primes. -/
def shaK : List Word64 := shaPrimes.map (rootFraction 3)

/-- The initial chaining value of SHA-384: the square roots of the ninth to the sixteenth prime. -/
def shaInit : List Word64 := ((shaPrimes.drop 8).take 8).map (rootFraction 2)

/-- The eight working variables of a round. -/
structure ShaVars where
  a : Word64
  b : Word64
  c : Word64
  d : Word64
  e : Word64
  f : Word64
  g : Word64
  h : Word64

/-- The variables of a chaining value. -/
def ShaVars.of (l : List Word64) : ShaVars :=
  { a := l.getD 0 0, b := l.getD 1 0, c := l.getD 2 0, d := l.getD 3 0,
    e := l.getD 4 0, f := l.getD 5 0, g := l.getD 6 0, h := l.getD 7 0 }

/-- One round. -/
def ShaVars.round (v : ShaVars) (k w : Word64) : ShaVars :=
  let s1 := v.e.rotateRight 14 ^^^ v.e.rotateRight 18 ^^^ v.e.rotateRight 41
  let ch := (v.e &&& v.f) ^^^ (~~~v.e &&& v.g)
  let t1 := v.h + s1 + ch + k + w
  let s0 := v.a.rotateRight 28 ^^^ v.a.rotateRight 34 ^^^ v.a.rotateRight 39
  let mj := (v.a &&& v.b) ^^^ (v.a &&& v.c) ^^^ (v.b &&& v.c)
  { a := t1 + (s0 + mj), b := v.a, c := v.b, d := v.c, e := v.d + t1, f := v.e, g := v.f, h := v.g }

/-- The message schedule, newest word first, extended by n words. -/
def shaSchedule : Nat → List Word64 → List Word64
  | 0, l => l
  | n + 1, l =>
    let x2 := l.getD 1 0
    let x15 := l.getD 14 0
    let s0 := x15.rotateRight 1 ^^^ x15.rotateRight 8 ^^^ (x15 >>> 7)
    let s1 := x2.rotateRight 19 ^^^ x2.rotateRight 61 ^^^ (x2 >>> 6)
    shaSchedule n ((l.getD 15 0 + s0 + l.getD 6 0 + s1) :: l)

/-- The 64-bit words of bytes, most significant byte first. -/
def wordsOf : Nat → List Byte → List Word64
  | 0, _ => []
  | n + 1, l => BitVec.ofNat 64 (ofBytes (l.take 8)) :: wordsOf n (l.drop 8)

/-- One block of 128 bytes compressed into a chaining value. -/
def shaBlock (h : List Word64) (blk : List Byte) : List Word64 :=
  let w := (shaSchedule 64 (wordsOf 16 blk).reverse).reverse
  let v := (shaK.zip w).foldl (fun v e => v.round e.1 e.2) (ShaVars.of h)
  List.zipWith (· + ·) h [v.a, v.b, v.c, v.d, v.e, v.f, v.g, v.h]

/-- Whole blocks taken from a buffer, with fuel for the number of blocks. -/
def shaFeed : Nat → List Word64 → List Byte → List Word64 × List Byte
  | 0, h, l => (h, l)
  | n + 1, h, l => if l.length < 128 then (h, l) else shaFeed n (shaBlock h (l.take 128)) (l.drop 128)

/-- A hash before its first byte. -/
def Hasher.start : Hasher := { h := shaInit }

/-- Bytes taken into a running hash. -/
def Hasher.update (x : Hasher) (l : List Byte) : Hasher :=
  let b := x.buf ++ l
  let r := shaFeed (b.length / 128 + 1) x.h b
  { h := r.1, buf := r.2, total := x.total + l.length }

/-- The 48 bytes of a finished hash. -/
def Hasher.digest (x : Hasher) : List Byte :=
  let pad := (128 + 111 - x.buf.length) % 128
  let tail := x.buf ++ [0x80] ++ zeroBytes pad ++ beBytes 16 (8 * x.total)
  let r := shaFeed 3 x.h tail
  ((r.1.take 6).map fun w => beBytes 8 w.toNat).flatten

/-- SHA-384 of bytes. -/
def sha384 (l : List Byte) : List Byte := (Hasher.start.update l).digest

/-- The leaf hash of a record (R429). -/
def leafHash (r : List Byte) : List Byte := sha384 (0x00 :: r)

/-- An interior node (R430). -/
def nodeHash (l r : List Byte) : List Byte := sha384 (0x01 :: l ++ r)

/-- The largest power of two below n (RFC 9162). -/
def splitSize (n : Nat) : Nat := 2 ^ (Nat.log2 (n - 1))

/-- The Merkle root of leaf hashes (RFC 9162 section 2.1, R430), with fuel for its depth. -/
def merkleRoot : Nat → List (List Byte) → List Byte
  | 0, l => l.headD []
  | n + 1, l =>
    match l with
    | [] => []
    | [x] => x
    | _ => let k := splitSize l.length; nodeHash (merkleRoot n (l.take k)) (merkleRoot n (l.drop k))

/-- The audit path of leaf i (RFC 9162 section 2.1.3), with fuel for its depth. -/
def auditPath : Nat → Nat → List (List Byte) → List (List Byte)
  | 0, _, _ => []
  | n + 1, i, l =>
    match l with
    | [] | [_] => []
    | _ =>
      let k := splitSize l.length
      if i < k then auditPath n i (l.take k) ++ [merkleRoot n (l.drop k)]
      else auditPath n (i - k) (l.drop k) ++ [merkleRoot n (l.take k)]

end Sys2Proof.Machine
end

