-- ==== Sys2Proof/Machine/Export.lean ====
section
/-! DEFINITION. The verdict store and the export of signed batches and the Guestbook (R429-R432, R452, R482). -/

namespace Sys2Proof.Machine

/-- Record bytes of an exported item: its LENGTH field (R427). -/
def itemLength (b : List Byte) : Nat := ofBytes ((b.drop 6).take 2)

/-- Bytes of a batch and its records in the store (R429). -/
def SignedBatch.size (b : SignedBatch) : Nat := b.bytes.length + (b.items.map fun e => itemLength e.2).sum

/-- Bytes of records. -/
def recordBytes (l : List VerdictRec) : Nat := (l.map fun r => r.bytes.length).sum

/-- UNEXPORTED (R439): bytes held in the verdict store. -/
def State.storeBytes (s : State) : Nat :=
  recordBytes s.pass.batch + (s.pass.closed.map fun b => recordBytes b.leaves).sum + (s.pass.signed.map SignedBatch.size).sum

/-- Whether the store of 1 MiB has room for a record. -/
def State.storeRoom (s : State) (r : VerdictRec) : Bool := decide (s.storeBytes + r.bytes.length ≤ 1048576)

/-- Bytes in pieces of at most 2,048. -/
def pieces : Nat → List Byte → List (List Byte)
  | 0, _ => []
  | n + 1, b => if b.length ≤ 2048 then [b] else b.take 2048 :: pieces n (b.drop 2048)

/-- An item's fragments, numbered from 0: fragment header fields KIND, FRAGMENT, FRAGMENTS and the piece (R432). (log 111, DEDUCED) -/
def fragments (b : List Byte) : List (Nat × Nat × List Byte) :=
  let l := pieces (b.length / 2048 + 1) b
  ((List.range l.length).zip l).map fun e => (e.1, l.length, e.2)

/-- The items of a batch in order of export: kind, number and bytes. -/
def SignedBatch.parts (b : SignedBatch) : List (Nat × Nat × List Byte) :=
  (2, b.seq, b.bytes) :: b.items.map fun e => (1, e.1, e.2)

/-- The VERDICT packets of a batch (R432). -/
def SignedBatch.packets (b : SignedBatch) : List SlPacket :=
  b.parts.flatMap fun e => (fragments e.2.2).map fun f =>
    { type := 0x07, tag := e.1 * 2 ^ 24 + f.1 * 2 ^ 16 + f.2.1 * 2 ^ 8, addr := e.2.1, lines := toLines f.2.2 }

/-- Whether a packet carries a part of a batch. -/
def SignedBatch.owns (b : SignedBatch) (p : SlPacket) : Bool :=
  p.type == 0x07 && b.parts.any fun e => e.2.1 == p.addr && e.1 == p.tag / 2 ^ 24

/-- Batches whose every fragment has been acknowledged on Stagelink leave the store (R432). -/
def State.settleExports (s : State) : State :=
  if natBit (s.nInForce 0xC001 2) 0 then
    { s with pass := { s.pass with signed := s.pass.signed.filter fun b => !b.onLink || s.inFlight b.owns } }
  else s

/-- Where ring verdicts go: VERDICT_DST, or NOTIFY_DST where that is 0 (R438). -/
def State.verdictDst (s : State) : Nat := if s.nInForce 0xC001 3 = 0 then s.nreg 0x1020 1 else s.nInForce 0xC001 3

/-- A batch sent over the ring: the fragment header and the fragment in each frame (R432). -/
def State.ringBatch (s : State) (b : SignedBatch) : State :=
  let dst := s.verdictDst
  if natBit (s.nInForce 0xC001 2) 1 ∧ dst ≠ 0 then
    s.each b.parts fun s e => s.each (fragments e.2.2) fun s f =>
      s.originate 6 dst (16 + f.2.2.length) fun ps h =>
        .verdict ps h (beBytes 1 e.1 ++ beBytes 1 f.1 ++ beBytes 1 f.2.1 ++ zeroBytes 5 ++ beBytes 8 e.2.1 ++ f.2.2)
  else s

/-- A batch handed to Stagelink. -/
def State.linkBatch (s : State) (b : SignedBatch) : State :=
  if natBit (s.nInForce 0xC001 2) 0 then
    let mark (x : SignedBatch) : SignedBatch := if x.seq = b.seq then { x with onLink := true } else x
    let s := { s with pass := { s.pass with signed := s.pass.signed.map mark } }
    s.each b.packets State.slSend
  else s

/-- Guestbook entries as bytes (R451). -/
def GuestEntry.bytes (g : GuestEntry) : List Byte :=
  beBytes 4 g.seq ++ beBytes 2 g.source ++ beBytes 1 g.severity ++ beBytes 1 g.quality ++ beBytes 10 g.time
    ++ beBytes 2 (min 65535 g.raises) ++ beBytes 4 g.frame ++ g.detail

/-- Guestbook entries in packets of at most 64, two entries per line; TAG carries the first SEQ (R294, R452). -/
def tailPackets : Nat → List GuestEntry → List SlPacket
  | 0, _ => []
  | n + 1, l =>
    match l with
    | [] => []
    | g :: _ =>
      { type := 0x08, tag := g.seq, lines := toLines ((l.take 64).flatMap GuestEntry.bytes) } :: tailPackets n (l.drop 64)

/-- EVENT_TAIL packets sent (R452). -/
def State.sendTail (s : State) (l : List GuestEntry) : State := s.each (tailPackets (l.length / 64 + 1) l) State.slSend

end Sys2Proof.Machine
end

