-- ==== Sys2Proof/Machine/Timing.lean ====
section
/-! DEFINITION. Wave shapes, timing sets, periods that agree and serial configurations (R156-R164, R170, R181). -/

namespace Sys2Proof.Machine

/-! ### Wave shapes (R157-R161) -/

/-- A wave shape as read: used drive events (offset, action) and used strobes (offset, expected code). -/
structure Shape where
  drives : List (Nat × Nat) := []
  strobes : List (Nat × Nat) := []
  deriving DecidableEq, Repr

/-- The four data words of a shape, as delivered after correction (R505). -/
def shapeWords (l : List Codeword) : List Word64 := l.map fun w => (checkWord w).data

/-- Offsets and codes of the four drive events of a shape (R157). -/
def shapeDrives (l : List Codeword) : List (Nat × Nat) :=
  let w := shapeWords l
  let a := w.getD 0 0; let b := w.getD 1 0; let d := w.getD 3 0
  [(bits a 63 32, bits d 63 61), (bits a 31 0, bits d 60 58), (bits b 63 32, bits d 57 55), (bits b 31 0, bits d 54 52)]

/-- Offsets and expected codes of the two strobes of a shape (R157). -/
def shapeStrobes (l : List Codeword) : List (Nat × Nat) :=
  let w := shapeWords l
  let c := w.getD 2 0; let d := w.getD 3 0
  [(bits c 63 32, bits d 51 49), (bits c 31 0, bits d 48 46)]

/-- The shape four codewords hold: its used events. -/
def shapeOf (l : List Codeword) : Shape :=
  { drives := (shapeDrives l).filter (·.2 ≠ 0), strobes := (shapeStrobes l).filter (·.2 ≠ 0) }

/-- Whether the used entries of a list come first. -/
def isPrefix (l : List (Nat × Nat)) : Bool := (l.dropWhile (·.2 ≠ 0)).all (·.2 = 0)

/-- Whether consecutive members of a list satisfy a relation. -/
def chained (f : Nat → Nat → Bool) (l : List (Nat × Nat)) : Bool := (l.zip (l.drop 1)).all fun p => f p.1.1 p.2.1

/-- Why a shape is invalid, lowest-numbered reason first (R160, R185); none where it is valid. (log 56, DEDUCED) -/
def shapeReject (l : List Codeword) : Option Nat :=
  let d := shapeDrives l; let s := shapeStrobes l
  let ud := d.filter (·.2 ≠ 0); let us := s.filter (·.2 ≠ 0)
  if l.any fun w => !(checkWord w).ok then some 1
  else if bits ((shapeWords l).getD 3 0) 45 0 ≠ 0 ∨ (d.any fun e => decide (e.2 ≥ 4)) ∨ (s.any fun e => decide (e.2 ≥ 6))
    then some 2
  else if !isPrefix d ∨ !isPrefix s then some 3
  else if ((d ++ s).any fun e => e.2 = 0 && e.1 ≠ 0) ∨ !chained (fun a b => a < b) ud ∨ !chained (fun a b => a ≤ b) us
    then some 4
  else if !chained (fun a b => a + 1250 ≤ b) ud ∨ !chained (fun a b => a + 2500 ≤ b) us then some 5
  else none

/-- The summary of a VALID set (R161): D_EARLY and D_LATE, S_EARLY and S_LATE, SUBBEAT. -/
structure Summary where
  drive : Option (Nat × Nat) := none
  strobe : Option (Nat × Nat) := none
  subbeat : Bool := true
  deriving DecidableEq, Repr

/-- The smallest first and the largest last member of non-empty lists. -/
def span (l : List (List (Nat × Nat))) : Option (Nat × Nat) :=
  let l := l.filter (!·.isEmpty)
  match l with
  | [] => none
  | x :: t =>
    let first (y : List (Nat × Nat)) : Nat := (y.headD (0, 0)).1
    let last (y : List (Nat × Nat)) : Nat := (y.getLast?.getD (0, 0)).1
    some (t.foldl (fun a y => min a (first y)) (first x), t.foldl (fun a y => max a (last y)) (last x))

/-- The summary over the shapes of a set. -/
def summaryOf (shapes : List (List Codeword)) : Summary :=
  let l := shapes.map shapeOf
  { drive := span (l.map (·.drives)), strobe := span (l.map (·.strobes)),
    subbeat := l.all fun s => decide (s.drives.length ≤ 2) && decide (s.strobes.length ≤ 1) }

/-- Timing set k of pin p. -/
def State.tset (s : State) (p k : Nat) : TSet := Table.get {} (s.pin p).sets k

/-- The summary of set k of pin p, if the set is VALID. -/
def State.summary (s : State) (p k : Nat) : Option Summary :=
  let t := s.tset p k
  if t.status = .valid then some (summaryOf t.shapes) else none

/-- Whether a set is VALID on every pin of a site. -/
def State.setValid (s : State) (n k : Nat) : Bool := (s.sitePins n).all fun p => (s.tset p k).status = .valid

/-- The bits VALID_SETS or REJECTED_SETS of a pin (R185). -/
def State.setsWith (s : State) (p : Nat) (st : SetStatus) : Nat :=
  (List.range 64).foldl (fun a k => if (s.tset p k).status = st then a + 2 ^ k else a) 0

/-! ### Agreement (R162-R164) -/

/-- Whether period p and a summary agree (R162). -/
def agrees (p : Nat) (m : Summary) : Bool :=
  (match m.drive with | some d => decide (d.2 < p) && decide (d.1 + p ≥ d.2 + 1250) | none => true)
    && (match m.strobe with | some d => decide (d.2 < p) && decide (d.1 + p ≥ d.2 + 2500) | none => true)
    && (decide (p ≥ 5000) || m.subbeat)

/-- Whether the boundary between vectors under (pu, mu) and mv with h tu of known hold keeps its spacings (R163). -/
def boundaryOk (pu : Nat) (mu mv : Summary) (h : Nat) : Bool :=
  (match mu.drive, mv.drive with | some u, some v => decide (pu + h + v.1 ≥ u.2 + 1250) | _, _ => true)
    && (match mu.strobe, mv.strobe with | some u, some v => decide (pu + h + v.1 ≥ u.2 + 2500) | _, _ => true)

/-- Whether a descriptor of pattern vectors passes the check of R164 on site n. -/
def State.stagingOk (s : State) (n : Nat) : Bool :=
  let t := (s.site n).thread
  match t.period with
  | none => false
  | some p =>
    if t.checked = some (p, t.tset) then true
    else (s.sitePins n).all fun q =>
      match s.summary q t.tset with
      | none => false
      | some m => agrees p m &&
        (match t.checked with
         | none => true
         | some u => t.crossed.contains q ||
           (match s.summary q u.2 with | some mu => boundaryOk u.1 mu m t.knownHold | none => true))

/-- The thread after a descriptor of pattern vectors has been staged (R163, R164). -/
def Thread.staged (t : Thread) : Thread :=
  { t with checked := t.period.map fun p => (p, t.tset), knownHold := 0, blurred := false, crossed := [], anyPattern := true }

/-! ### Serial configurations (R170, R181) -/

/-- Bytes a to b of a value as a number. -/
def field (l : List Byte) (a b : Nat) : Nat := ofBytes ((l.drop a).take (b + 1 - a))

/-- A serial configuration (R170). UI is in units of 2^-16 tu. -/
structure SerialCfg where
  slots : Nat
  ui : Nat
  src : Nat
  invert : Bool
  order : Nat
  rx : Nat
  bw : Nat
  loopBits : Nat
  timeout : Nat
  idle : Nat
  base : Nat
  words : Nat
  loop : Bool
  deriving DecidableEq, Repr

/-- The 48-byte records of a value. -/
def records48 : Nat → List Byte → List (List Byte)
  | 0, _ => []
  | n + 1, l => if l.length < 48 then [] else l.take 48 :: records48 n (l.drop 48)

/-- A record of SERIAL_CFG read. -/
def cfgOf (r : List Byte) : SerialCfg :=
  { slots := field r 0 7, ui := field r 8 11, src := field r 12 12, invert := natBit (field r 13 13) 7,
    order := field r 13 13 % 32, rx := field r 14 14, bw := field r 15 15, loopBits := field r 16 17,
    timeout := field r 18 19, idle := field r 20 23, base := field r 24 31, words := field r 32 35,
    loop := field r 36 36 == 1 }

/-- SERIAL_CFG of a site. -/
def State.serialCfgs (s : State) (n : Nat) : List SerialCfg := (records48 16 (s.oct (siteObj n 2) 3)).map cfgOf

/-- Configuration c of a site, if SERIAL_CFG holds it. -/
def State.serialCfg (s : State) (n c : Nat) : Option SerialCfg := (s.serialCfgs n)[c]?

/-- The pins of a configuration: the slots it names that the site has. -/
def State.cfgPins (s : State) (n : Nat) (c : SerialCfg) : List Nat :=
  let l := s.sitePins n
  (setBits 64 c.slots).filterMap fun k => l[k]?

/-- Check 2 of R170 on one record. -/
def cfgReserved (r : List Byte) : Bool :=
  decide (field r 37 47 ≠ 0) || decide (field r 13 13 / 32 % 4 ≠ 0) || decide (field r 12 12 > 4)
    || decide (field r 14 14 > 4) || decide (field r 15 15 > 2)

/-- Check 3 of R170 on one record. -/
def cfgRange (r : List Byte) : Bool :=
  let c := cfgOf r
  decide (c.ui < 0xFA0000) || decide (c.ui > 0xFA00000)
    || ((c.src = 1 || c.rx = 1) && !([7, 9, 15, 23, 31].contains c.order))
    || ((c.src = 2 || c.rx = 2) && (decide (c.loopBits < 1) || decide (c.loopBits > 32768)))
    || (c.rx = 2 && decide (c.loopBits < 32))
    || (c.rx ≠ 0 && c.timeout = 0)
    || (c.src = 3 && (c.base % 64 ≠ 0 || c.words = 0))
    || decide (field r 36 36 > 1)

/-- Check 4 of R170 on one record. -/
def cfgUnused (r : List Byte) : Bool :=
  let c := cfgOf r
  (!(c.src = 1 || c.rx = 1) && decide (field r 13 13 ≠ 0))
    || (!(c.src = 2 || c.rx = 2) && c.loopBits ≠ 0)
    || (c.rx = 0 && (c.bw ≠ 0 || c.timeout ≠ 0))
    || (c.src ≠ 4 && c.idle ≠ 0)
    || (c.src ≠ 3 && (c.base ≠ 0 || c.words ≠ 0 || field r 36 36 ≠ 0))

/-- The checks of a written SERIAL_CFG in the order of R170: 0, or the status of the first that fails. (log 57, DEDUCED) -/
def serialCfgStatus (grade : Nat) (b : List Byte) : Nat :=
  let l := records48 16 b
  if b.length > 768 then 0x0206
  else if b.length % 48 ≠ 0 then 0x0105
  else if l.any cfgReserved then 0x0107
  else if l.any cfgRange then 0x0106
  else if l.any cfgUnused then 0x0109
  else if grade = 2 ∧ (l.any fun r => decide ((cfgOf r).ui < 0x1F40000)) then 0x0301
  else 0

/-- A sum of slots × 1 / UI as a fraction. -/
def rateAdd (a : Nat × Nat) (c : SerialCfg) : Nat × Nat :=
  if c.src = 3 ∧ c.ui ≠ 0 then (a.1 * c.ui + (setBits 64 c.slots).length * a.2, a.2 * c.ui) else a

/-- The STREAM rate of a set of sites (R181) as a fraction of 4,000 × 65,536 Gb/s. -/
def State.streamRate (s : State) (l : List Nat) : Nat × Nat :=
  (l.map s.serialCfgs).flatten.foldl rateAdd (0, 1)

/-- Whether a STREAM rate lies within 200 Gb/s. -/
def streamOk (r : Nat × Nat) : Bool := decide (r.1 * 4000 * 65536 ≤ 200 * r.2)

/-- A STREAM rate in Mb/s, rounded up (R183). -/
def streamMb (r : Nat × Nat) : Nat := (r.1 * 4000 * 65536 * 1000 + r.2 - 1) / r.2

/-- The checks of R31 and R181 on a site's setup, the grade last: 0, GRADE or ARM_CHECK. -/
def State.serialArm (s : State) (n : Nat) (admitted : List Nat) : Nat :=
  let l := s.serialCfgs n
  let pins := s.sitePins n
  let bad := l.any fun c =>
    (setBits 64 c.slots).any (fun k => decide (k ≥ pins.length)) ||
      ((c.src = 2 || c.rx = 2) &&
        (s.cfgPins n c).any fun p => decide (c.loopBits > 8 * (s.oct (0x6500 + p) 1).length))
  if bad ∨ !streamOk (s.streamRate (n :: admitted)) then 0x0305
  else if s.grade = 2 ∧ (l.any fun c => decide (c.ui < 0x1F40000)) then 0x0301
  else 0

end Sys2Proof.Machine
end

