-- ==== Sys2Proof/Machine/Verdict.lean ====
section
/-! DEFINITION. Measurement hashes and verdict records (R423, R425-R429). -/

namespace Sys2Proof.Machine

/-- Object 0xC100 + s. -/
def passObj (n : Nat) : Nat := 0xC100 + n

/-- A value as Rosec encodes it: most significant byte first, two's complement (R343). -/
def encodeInt (bytes : Nat) (v : Int) : List Byte := beBytes bytes (v % (256 ^ bytes : Nat)).toNat

/-- The Rosec encoding of a stored sub. -/
def State.encodeSub (s : State) (index sub : Nat) : List Byte :=
  match findSub index sub with
  | some r => if r.ty.numeric then encodeInt r.ty.bytes (s.reg index sub) else s.oct index sub
  | none => []

/-! ### Load windows and bindings (R424, R425) -/

/-- The CLOSED window whose range is exactly base and bytes. -/
def State.windowOf (s : State) (base bytes : Nat) : Option Nat :=
  (List.range 32).find? fun w =>
    s.reg (0xC020 + w) 4 == 2 && s.nreg (0xC020 + w) 1 == base && s.nreg (0xC020 + w) 2 == bytes

/-- The digest that a range binds for site n: 48 zero bytes where no window binds it. -/
def State.bindRange (s : State) (n base bytes : Nat) : (Bool × List Byte) × State :=
  match s.windowOf base bytes with
  | some w => ((true, s.oct (0xC020 + w) 6), s.setNat (0xC020 + w) 7 (orBit (s.nreg (0xC020 + w) 7) n))
  | none => ((false, zeroBytes 48), s)

/-- Bytes of the vector region of a site (R132). -/
def State.regionBytes (s : State) (n : Nat) : Nat :=
  64 * (((s.sitePins n).length * ((s.nreg (siteObj n 1) 5 + 15) / 16) + 7) / 8)

/-- The hashes taken at LOAD (R423): itinerary and vectors, with their bits of MEASURED. -/
def State.hashLoad (s : State) (n length : Nat) : State :=
  let a := s.bindRange n (s.nreg (siteObj n 1) 2) (64 * ((length + 7) / 8))
  let b := a.2.bindRange n (s.nreg (siteObj n 1) 4) (s.regionBytes n)
  let s := ((b.2.setOct (passObj n) 2 a.1.2).setOct (passObj n) 3 b.1.2)
  s.setNat (passObj n) 7 ((if a.1.1 then 1 else 0) + (if b.1.1 then 2 else 0))

/-- The bytes that TSET_HASH covers on one pin (R423). -/
def State.tsetBytes (s : State) (p : Nat) : List Byte :=
  let ram := s.oct (0x6500 + p) 1
  beBytes 8 (s.setsWith p .valid)
    ++ ((List.range 64).map fun k =>
        if (s.tset p k).status = .valid then
          ((s.tset p k).shapes.flatten.map fun w => beBytes 8 (checkWord w).data.toNat).flatten
        else []).flatten
    ++ beBytes 2 ram.length ++ ram

/-- The bytes that SETUP_HASH covers (R423). -/
def State.setupBytes (s : State) (n : Nat) : List Byte :=
  ((List.range 6).map fun k => s.encodeSub (siteObj n 1) (k + 1)).flatten ++ s.encodeSub (siteObj n 2) 1
    ++ s.encodeSub (0x6100 + n) 1
    ++ ((s.sitePins n).map fun p =>
        ((List.range 3).map fun k => s.encodeSub (pinObj p 0) (k + 1)).flatten
          ++ ((List.range 4).map fun k => s.encodeSub (pinObj p 2) (k + 1)).flatten
          ++ ((List.range 5).map fun k => s.encodeSub (pinObj p 3) (k + 1)).flatten
          ++ ((List.range 2).map fun k => s.encodeSub (pinObj p 10) (k + 1)).flatten).flatten

/-- The digests of the STREAM sources of a site in configuration order, each bound from ARM (R423, R425). -/
def State.bindStreams (s : State) (n : Nat) : (Bool × List Byte) × State :=
  (s.serialCfgs n).foldl (fun (a : (Bool × List Byte) × State) c =>
    if c.src = 3 then
      let r := a.2.bindRange n c.base (64 * ((c.words + 7) / 8))
      ((a.1.1 && r.1.1, a.1.2 ++ r.1.2), r.2)
    else a) ((true, []), s)

/-- The hashes taken at ARM, and E1735 for a run that is not wholly measured (R423, R425). -/
def State.hashArm (s : State) (n : Nat) : State :=
  let b := s.bindStreams n
  let s := b.2
  let s := s.setOct (passObj n) 4 (sha384 ((s.sitePins n).map s.tsetBytes).flatten)
  let s := s.setOct (passObj n) 5 (sha384 (s.oct (siteObj n 2) 3 ++ b.1.2))
  let s := s.setOct (passObj n) 6 (sha384 (s.setupBytes n))
  let s := s.modSite n fun x => { x with custHash := s.oct 0x4000 5 }
  let m := s.nreg (passObj n) 7 % 4 + (if b.1.1 then 4 else 0)
  let s := s.setNat (passObj n) 7 m
  if m ≠ 7 then s.raise 1735 else s

/-- RELEASE unbinds every window of the site and clears its hashes (R423, R425). -/
def State.hashRelease (s : State) (n : Nat) : State :=
  let s := s.each (List.range 32) fun s w => s.setNat (0xC020 + w) 7 (clearBit (s.nreg (0xC020 + w) 7) n)
  let s := s.each [2, 3, 4, 5, 6] fun s k => s.setOct (passObj n) k (zeroBytes 48)
  (s.setNat (passObj n) 7 0).modSite n fun x => { x with custHash := zeroBytes 48 }

/-! ### The record (R427, R428) -/

/-- The order of qualities for QUALITY_WORST: LOCKED, HOLDOVER, REROUTE, FREERUN. -/
def Quality.rank : Quality → Nat
  | .locked => 0 | .holdover => 1 | .reroute => 2 | .freerun => 3

/-- The code of a quality by its rank. -/
def rankCode (r : Nat) : Nat := match r with | 0 => 0 | 1 => 1 | 2 => 3 | _ => 2

/-- The identity buffer as bytes (R76). -/
def Site.identityBytes (x : Site) : List Byte :=
  ((List.range 8).map fun k => beBytes 4 (Table.get 0 x.identity k).toNat).flatten

/-- Definitions in ascending order. -/
def ascending {α : Type} (key : α → Nat) (l : List α) : List α := l.foldl (fun a y => insertByTime key y a) []

/-- FLAGS of a record (R428). -/
def State.verdictFlags (s : State) (n : Nat) : Nat :=
  (if (s.site n).has flagTainted then 1 else 0) + 2 * s.nreg (passObj n) 7 + 16 * s.nreg 0xB000 19
    + (if (s.sitePins n).any fun p => s.reg (pinObj p 11) 6 == 1 then 32 else 0)

/-- The smallest value of a list, a default for none. -/
def least (d : Nat) (l : List Nat) : Nat := match l with | [] => d | x :: t => t.foldl min x

/-- Bytes 0-111 of a verdict record. -/
def State.verdictHead (s : State) (n outcome bin : Nat) (idsrc : Bool) (length : Nat) : List Byte :=
  let x := s.site n
  let span := s.nreg (siteObj n 1) 6
  let here := s.time.quality
  beBytes 4 0x56445231 ++ beBytes 2 1 ++ beBytes 2 length ++ beBytes 8 s.uid ++ s.oct 0xC000 4
    ++ beBytes 8 (s.nreg (passObj n) 1) ++ beBytes 1 n ++ beBytes 1 (if span > 1 then s.nreg 0xA100 6 else 0)
    ++ beBytes 1 span ++ beBytes 1 outcome ++ beBytes 2 bin ++ beBytes 1 (if idsrc then 1 else 0)
    ++ beBytes 1 here.code ++ beBytes 1 (rankCode (max x.worst here.rank)) ++ beBytes 1 (s.nreg 0xB000 18)
    ++ beBytes 2 (s.verdictFlags n) ++ beBytes 2 (s.nreg (siteObj n 3) 5) ++ beBytes 4 (s.nreg (siteObj n 3) 6)
    ++ beBytes 10 x.startTime ++ beBytes 10 (toTime80 s.localTime) ++ zeroBytes 2
    ++ (if idsrc then x.identityBytes else s.oct (siteObj n 2) 2)

/-- Bytes 112-579 of a verdict record: hashes and calibration. -/
def State.verdictMid (s : State) (n : Nat) : List Byte :=
  s.oct 0xC000 5 ++ (s.site n).custHash ++ (([2, 3, 4, 5, 6]).map fun k => s.oct (passObj n) k).flatten
    ++ s.oct 0xB000 16 ++ beBytes 4 (s.nreg 0xB000 17)
    ++ ((List.range 5).map fun k => beBytes 4 (s.nreg 0xB000 (k + 1))).flatten
    ++ ((List.range 5).map fun k => beBytes 10 (s.nreg 0xB000 (k + 6))).flatten
    ++ beBytes 10 (least 0 ((s.sitePins n).map fun p => s.nreg (pinObj p 11) 1))

/-- Bytes 580 onward of a verdict record, before its padding. -/
def State.verdictTail (s : State) (n : Nat) : List Byte :=
  let x := s.site n
  let none64 := 2 ^ 64 - 1
  let res := ascending (·.1) x.results
  let inc := ascending id x.incomplete
  beBytes 8 x.play.vectors ++ beBytes 8 (s.nreg (siteObj n 4) 1) ++ beBytes 8 (s.nreg (siteObj n 4) 2)
    ++ beBytes 4 (s.nreg (siteObj n 4) 3) ++ beBytes 8 (least none64 ((s.sitePins n).map fun p => s.nreg (pinObj p 4) 2))
    ++ beBytes 1 (min 64 res.length) ++ beBytes 1 (min 64 inc.length)
    ++ beBytes 2 (min 65535 ((res.length - 64) + (inc.length - 64))) ++ zeroBytes 4
    ++ ((res.take 64).map (·.2)).flatten ++ ((inc.take 64).map (beBytes 2 ·)).flatten

/-- The whole record (R427). -/
def State.verdictBytes (s : State) (n outcome bin : Nat) (idsrc : Bool) : List Byte :=
  let x := s.site n
  let raw := 624 + 64 * min 64 x.results.length + 2 * min 64 x.incomplete.length
  let len := (raw + 15) / 16 * 16
  s.verdictHead n outcome bin idsrc len ++ s.verdictMid n ++ s.verdictTail n ++ zeroBytes (len - raw)

/-- A verdict record of site n (R426, R427). -/
def State.verdictRec (s : State) (n outcome bin : Nat) (idsrc : Bool) : VerdictRec :=
  { run := s.nreg (passObj n) 1, site := n, bytes := s.verdictBytes n outcome bin idsrc }

/-- The record formed and its seal-preparation task posted at priority 2 (R59, R103). -/
def State.formVerdict (s : State) (n outcome bin : Nat) (idsrc : Bool) : State :=
  let r := s.verdictRec n outcome bin idsrc
  let f : Formed := { rcd := r }
  let s := { s with pass := { s.pass with formed := s.pass.formed ++ [f] } }
  (s.modSite n fun x => { x with form := none }).postService { site := n, prio := 2, work := .sealPrep r.run }

/-- The outcome that R59 decides for SEAL. -/
def State.sealOutcome (s : State) (n : Nat) : Nat :=
  if (s.site n).has flagTainted then 2 else if s.reg (siteObj n 4) 1 ≠ 0 then 1 else 0

/-- The record of a FAULTED or SEAL_HALTED site formed once its tick has come. (log 31, DEDUCED) -/
def State.formPending (s : State) (n : Nat) : State :=
  match (s.site n).form with
  | some f => s.formVerdict n f.2 0 false
  | none => s

end Sys2Proof.Machine
end

