-- ==== Sys2Proof/Machine/Measure.lean ====
section
/-! DEFINITION. Measurements of time and frequency (R246-R257). -/

namespace Sys2Proof.Machine

/-- Definition d. -/
def State.mdef (s : State) (d : Nat) : MeasDef := Table.get {} s.defs d

/-- s with definition d replaced. -/
def State.setDef (s : State) (d : Nat) (x : MeasDef) : State := { s with defs := Table.set {} s.defs d x }

/-- A setting of a definition: a sub of 0x7400. -/
def MeasDef.val (x : MeasDef) (sub : Nat) : Nat := (Table.get (regDefault 0x7400 sub) x.vals sub).toNat

/-- OWNER of a definition. -/
def MeasDef.owner (x : MeasDef) : Nat := x.val 2
/-- MODE of a definition (R249). -/
def MeasDef.mode (x : MeasDef) : Nat := x.val 3

/-- Whether a definition uses a vernier channel. -/
def MeasDef.vernier (x : MeasDef) : Bool := x.mode ≠ 5 && x.val 4 == 1

/-- The pins a definition names: the stop pin only in TI. -/
def MeasDef.pins (x : MeasDef) : List Nat := if x.mode = 1 then [x.val 5, x.val 7] else [x.val 5]

/-- The comparators a definition names, true for VTL (R249). -/
def MeasDef.comparators (x : MeasDef) : List (Nat × Bool) :=
  (x.val 5, natBit (x.val 6) 2) :: (if x.mode = 1 then [(x.val 7, natBit (x.val 8) 2)] else [])

/-- Definitions that are ARMED or whose gate is open. -/
def State.liveDefs (s : State) : List Nat := (s.defs.filter fun e => e.2.st == .armed || e.2.st == .gate).map (·.1)

/-- Whether a definition holds its converter: until it completes, in a frame that may be still to come (R250, R255). (log 156, DEDUCED) -/
def State.holdsConv (s : State) (x : MeasDef) : Bool :=
  x.st == .armed || x.st == .gate || (x.st == .done && decide (x.doneTick > s.now + 1))

/-- Vernier channels held by measurements (R261). -/
def State.vernierBusy (s : State) : List Nat := s.defs.filterMap fun e => if e.2.vernier && s.holdsConv e.2 then e.2.conv else none

/-- Counters held by measurements (R261). -/
def State.counterBusy (s : State) : List Nat := s.defs.filterMap fun e => if !e.2.vernier && s.holdsConv e.2 then e.2.conv else none

/-- The lowest-numbered converter below n that is not busy. -/
def freeConv (n : Nat) (busy : List Nat) : Option Nat := (List.range n).find? fun c => !busy.contains c

/-- The vernier channels that a calibration run holds (R395): all four during VERNIER and TIMING. -/
def State.calVerniers (s : State) : List Nat :=
  match s.cal.domain with
  | some 0 | some 3 => [0, 1, 2, 3]
  | _ => []

/-- A definition listed INCOMPLETE in the verdict of its site (R100, R250, R258). -/
def State.incomplete (s : State) (n d : Nat) : State :=
  s.modSite n fun x => if x.incomplete.contains d then x else { x with incomplete := x.incomplete ++ [d] }

/-- Whether a MEAS of site n may name definition d: owned, and its pins the site's (R55). -/
def State.ownsDef (s : State) (n d : Nat) : Bool :=
  let x := s.mdef d
  x.owner == n && x.pins.all fun p => natBit (s.pinMap n) p

/-- MEAS issues (R250): Ledger entry and converter, or a refusal that the verdict lists. SUMMARY marks the definition for the verdict of the
run (R258). -/
def State.armMeas (s : State) (n d : Nat) (summary : Bool) : State :=
  let s := if summary then s.modSite n fun y => { y with marked := y.marked.filter (· ≠ d) ++ [d] } else s
  let x := s.mdef d
  if x.st ≠ .idle then s.bump 0x7402 6
  else
    let want := x.vernier || x.mode == 5
    let conv := if x.vernier then freeConv 4 (s.vernierBusy ++ s.calVerniers)
      else if x.mode = 5 then freeConv 16 s.counterBusy else none
    if want ∧ conv.isNone then (s.bump 0x7402 5).incomplete n d
    else
      let a := s.allocGeneral n { state := .armed, kind := .measurement, site := n, entry := d % 65536,
                                  arg := BitVec.ofNat 32 d }
      match a.1 with
      | none => a.2.incomplete n d
      | some i =>
        a.2.setDef d { vals := x.vals, st := .armed, site := n, entry := some i, conv := conv, result := x.result }

/-- The arm time A placed on the timeline (R251). -/
def State.placeMeas (s : State) (d t : Nat) : State :=
  let x := s.mdef d
  if x.st = .armed then s.setDef d { x with armAt := some t } else s

/-- The open gates that name each comparator of a pin (R246), one more or fewer from a raw time in tu on. -/
def State.gatePins (s : State) (x : MeasDef) (up : Bool) (t : Nat) : State :=
  let step (k : Nat) : Nat := if up then k + 1 else k - 1
  s.each x.comparators fun s e => (s.noteRuns e.1 t).modPin e.1 fun q =>
    if e.2 then { q with gatesTl := step q.gatesTl } else { q with gatesTh := step q.gatesTh }

/-- A gate opened at t (R251). -/
def State.openGate (s : State) (d t : Nat) (late : Bool) : State :=
  let x := s.mdef d
  let s := s.setDef d { x with st := .gate, openAt := t, after := t, counting := true, quality := s.time.quality.code,
                               flags := (if late then 256 else 0) + (if x.pins.any fun p => s.parkedPin p t then 32 else 0) }
  s.gatePins x true (s.rawTu x.site t)

/-- FLAGS bits set (R257). -/
def MeasDef.orFlags (x : MeasDef) (f : Nat) : MeasDef := { x with flags := x.flags ||| f }

/-- A measurement completed at t in site time, its gate closed at `shut`: its converter is released, and it publishes at the tick that closes
the frame (R250, R255). A measured pin that is parked as the gate closes was parked during part of it (R253). (log 69, DEDUCED) -/
def State.completeMeas (s : State) (d t shut : Nat) : State :=
  let x := s.mdef d
  let short : Nat := (if x.count < x.val 14 then 4 else 0) + (if x.pins.any fun p => s.parkedPin p shut then 32 else 0)
  let s := s.setDef d { x.orFlags short with st := .done, pair := none,
                                             doneTick := (s.site x.site).f0 + t / 320000 + 1 }
  s.gatePins x false (s.rawTu x.site shut)

/-- A cancelled measurement (R59, R116): converter and entry released, listed INCOMPLETE. -/
def State.cancelMeas (s : State) (d : Nat) : State :=
  let x := s.mdef d
  let s := if x.st = .gate then s.gatePins x false (5000 * s.clk.c) else s
  let s := match x.entry with | some i => s.freeEntry i | none => s
  (s.setDef d { vals := x.vals, result := x.result }).incomplete x.site d

/-- Every measurement of a site that is still ARMED cancelled: one that has completed stays so until it publishes (R59, R102, R116). -/
def State.cancelSiteMeas (s : State) (n : Nat) : State :=
  s.each ((s.defs.filter fun e => e.2.st != .idle && e.2.site == n).map (·.1)) State.cancelMeas

/-- One conversion counted, its first edge at t (R256). -/
def MeasDef.convert (x : MeasDef) (v : Rat) (t : Nat) : MeasDef :=
  { x with count := x.count + 1, last := v, min := if x.count = 0 then v else Min.min x.min v,
           max := if x.count = 0 then v else Max.max x.max v, sum := x.sum + v, sq := x.sq + v * v,
           first := match x.first with | some f => some f | none => some t }

/-- A measurement whose REPEAT conversions are complete, void gates of FREQ included, closes its gate: it completes 8 beats after the last edge
with a TDC (R254, R255). -/
def State.checkRepeat (s : State) (d t : Nat) : State :=
  let x := s.mdef d
  if x.st = .gate ∧ x.count + x.voids ≥ x.val 14 then s.completeMeas d (if x.vernier then t else t + 40000) t else s

/-- Whether an edge qualifies under a selection byte (R249). -/
def selects (sel : Nat) (vtl rise : Bool) : Bool :=
  natBit sel 2 == vtl && (if rise then natBit sel 0 else natBit sel 1)

/-- An interval in tu from a to b. -/
def tuBetween (a b : Nat) : Rat := ((b : Int) - (a : Int) : Int)

/-- A pair of edges with a TDC gives its conversion at once; with a vernier it starts the channel, which tells edges of one timestamp apart
(R247, R252). -/
def State.pairDone (s : State) (d a b : Nat) (flags : Nat) : State :=
  let x := s.mdef d
  let x := if x.vernier then x else x.orFlags flags
  let x := { x with start := none, stop := none, after := max a b, coinc := false }
  if x.vernier then s.setDef d { x with pair := some (a, b) }
  else (s.setDef d (x.convert (tuBetween a b) (min a b))).checkRepeat d (max a b)

/-- An ORDERED stop edge met by a start edge of the same timestamp after it (R252). A TDC cannot order them. A vernier, with bins of 2 tu, can:
whether both lie in one bin, one of the five of the tap, is a free value; where they do not, the stop came before the start. (log 70, DEDUCED) -/
def State.orderedPair (s : State) (d t : Nat) : State :=
  let x := s.mdef d
  if !x.vernier then s.pairDone d t t 1
  else
    let f := s.free
    if f.1 % 5 = 0 then
      let s := f.2.pairDone d t t 1
      s.setDef d { s.mdef d with coinc := true }
    else f.2.setDef d { x with start := some t, stop := none }

/-- An edge in TI (R252). An ORDERED stop edge before its start is discarded unless a start with the same timestamp follows. -/
def State.edgeTi (s : State) (d : Nat) (isStart isStop : Bool) (t : Nat) : State :=
  let x := s.mdef d
  if isStart then
    match x.start, x.stop with
    | some _, _ => s
    | none, some b =>
      if x.val 9 = 0 then s.pairDone d t b (if b = t then 1 else 2)
      else if b = t then s.orderedPair d t
      else s.setDef d { x with start := some t, stop := none }
    | none, none => s.setDef d { x with start := some t }
  else if isStop then
    match x.start, x.stop with
    | some a, _ => s.pairDone d a t (if a = t then 1 else 0)
    | none, some _ => if x.val 9 = 0 then s else s.setDef d { x with stop := some t }
    | none, none => s.setDef d { x with stop := some t }
  else s

/-- An edge in PERIOD or a width mode (R253): the end of one PERIOD begins the next on a TDC. -/
def State.edgeSpan (s : State) (d : Nat) (begins ends : Bool) (t : Nat) : State :=
  let x := s.mdef d
  match x.start with
  | none => if begins then s.setDef d { x with start := some t } else s
  | some a =>
    if ends then
      let s := s.pairDone d a t 0
      if begins ∧ !x.vernier ∧ (s.mdef d).st = .gate then s.setDef d { s.mdef d with start := some t } else s
    else s

/-- The frequency of m cycles between t0 and t1, in µHz (R254). -/
def frequency (m t0 t1 : Nat) : Rat := ((m * 4000000000000000000000 : Nat) : Rat) / ((t1 - t0 : Nat) : Rat)

/-- The limit of a counter's input in µHz (R248). -/
def counterLimit (prescale : Nat) : Rat := if prescale = 8 then 8000000000000000 else 600000000000000

/-- A counted edge of FREQ (R254). A gate whose conversion a park has voided ends at its first edge at or after t1's time. -/
def State.edgeFreq (s : State) (d t : Nat) : State :=
  let x := s.mdef d
  if !x.counting then s
  else
    match x.t0 with
    | none => s.setDef d { x with t0 := some t, edges := 0 }
    | some t0 =>
      let m := x.edges + 1
      if x.val 13 ≥ 800 ∧ (x.spoilt ∨ m % x.val 15 = 0) ∧ t ≥ x.openAt + 5000 * x.val 13 ∧ t > t0 then
        let f := frequency m t0 t
        let x := if x.spoilt then { x with voids := x.voids + 1 }
          else (if f > counterLimit (x.val 15) then x.orFlags 8 else x).convert f t0
        let next := if x.val 10 = 1 then { x with t0 := none, edges := 0, spoilt := false, counting := false, after := t }
          else { x with t0 := some t, edges := 0, spoilt := false, openAt := t }
        (s.setDef d next).checkRepeat d t
      else s.setDef d { x with edges := m }

/-- A vernier conversion whose second edge has not come within 4,000,000 tu by t, abandoned and reported as OVERRANGE (R247). -/
def MeasDef.stale (x : MeasDef) (t : Nat) : MeasDef :=
  match x.start.or x.stop with
  | some a => if x.vernier ∧ t > a + 4000000 then { x.orFlags 8 with start := none, stop := none, after := a + 4000000 } else x
  | none => x

/-- The time of the last edge of an EVT pin on the timeline of a site with first tick f0. -/
def State.evtTime (s : State) (f0 i : Nat) : Int := ((Table.get {} s.evts i).changed - s.rawOf f0) * 5000

/-- Whether EVT pin i is active under GATE_PIN. -/
def State.gateActive (s : State) (gate : Nat) : Bool :=
  let i := gate % 8
  s.inForce (0x8050 + i) 1 == 1 && ((Table.get {} s.evts i).level != natBit gate 3)

/-- Whether the gate of a definition has closed by t (R251, R254): GATE_BEATS after it opened, twice that for FREQ, or at the inactive edge of
an EXT gate. -/
def State.gateOver (s : State) (x : MeasDef) (t : Nat) : Bool :=
  decide (t ≥ x.openAt + 5000 * x.val 13 * (if x.mode = 5 then 2 else 1) + (if x.mode = 5 then 1 else 0)) ||
    (x.val 10 == 1 && !s.gateActive (x.val 11) && decide (s.evtTime (s.site x.site).f0 (x.val 11 % 8) ≤ t))

/-- One edge of a pin seen by one definition (R251-R254); in TI only one after the last edge of the previous conversion (R252). (log 68, DEDUCED) -/
def State.measEdge (s : State) (d p : Nat) (vtl rise : Bool) (t : Nat) : State :=
  let x := s.mdef d
  if x.st ≠ .gate ∨ t < x.openAt ∨ x.pair.isSome ∨ s.gateOver x t ∨ (x.mode = 1 ∧ x.openAt < x.after ∧ t ≤ x.after) then s
  else
    let s := s.setDef d (x.stale t)
    let startHit := x.val 5 == p && selects (x.val 6) vtl rise
    match x.mode with
    | 1 =>
      let stopHit := x.val 7 == p && selects (x.val 8) vtl rise
      s.edgeTi d startHit (stopHit && !startHit) t
    | 2 => s.edgeSpan d startHit startHit t
    | 3 => if x.val 5 = p ∧ natBit (x.val 6) 2 = vtl then s.edgeSpan d rise (!rise) t else s
    | 4 => if x.val 5 = p ∧ natBit (x.val 6) 2 = vtl then s.edgeSpan d (!rise) rise t else s
    | 5 => if startHit then s.edgeFreq d t else s
    | _ => s

/-- A lost edge of a comparator voids the conversions whose span contains it (R253); a counter counts it, without a timestamp (R248). -/
def State.lostEdge (s : State) (p : Nat) (vtl rise : Bool) : State :=
  s.each (s.liveDefs.filter fun d => (s.mdef d).st == .gate && (s.mdef d).comparators.contains (p, vtl)) fun s d =>
    let x := s.mdef d
    if x.mode = 5 then
      if x.counting ∧ x.t0.isSome ∧ selects (x.val 6) vtl rise then s.setDef d { x with edges := x.edges + 1 } else s
    else if x.start.isSome ∨ x.t0.isSome ∨ (x.stop.isSome ∧ x.val 9 = 0) then
      s.setDef d { x.orFlags 16 with start := none, stop := none, t0 := none, edges := 0 }
    else s

/-- Measured pins park at t during open gates (R253): those whose definition is one of several. A conversion in progress is void: a counter's,
whose first edge has been counted, with its gate (R254). -/
def State.parkGates (s : State) (t : Nat) (q : MeasDef → Bool) : State :=
  s.each (s.liveDefs.filter fun d => (s.mdef d).st == .gate && q (s.mdef d)) fun s d =>
    let x := (s.mdef d).stale t
    s.setDef d { x.orFlags 32 with start := none, stop := none, spoilt := x.spoilt || x.t0.isSome }

/-- The pins of a site park at t. -/
def State.parkMeas (s : State) (n t : Nat) : State := s.parkGates t fun x => x.site == n

/-- Whether an EXT gate opens at t: at the active edge, or at a where the pin is active then (R251). -/
def State.extOpens (s : State) (x : MeasDef) (f0 a t : Nat) : Bool :=
  s.gateActive (x.val 11) && (t : Int) == max (a : Int) (s.evtTime f0 (x.val 11 % 8))

/-- GATE_OPEN (R251): the gate of an ARMED measurement opens at t, in tu from its site's first tick; the next gate of FREQ under EXT at the next
active edge after the last t1 (R254). -/
def execGateOpen (d : DefId) (t : Nat) (s : State) : Out :=
  let x := s.mdef d
  let f0 := (s.site x.site).f0
  match x.st, x.armAt with
  | .armed, some a =>
    if t < a ∨ f0 + t / 320000 > s.now then .next s
    else
      let target := ofTime80 (x.val 12)
      match x.val 10 with
      | 0 => if t = a then .next (s.openGate d t false) else .next s
      | 1 => if s.extOpens x f0 a t then .next (s.openGate d t false) else .next s
      | 2 =>
        if t = a ∧ s.ptpOf f0 a > target then .next (s.openGate d t true)
        else if s.ptpOf f0 t ≥ target ∧ t % 5000 = 0 ∧ (t = a ∨ s.ptpOf f0 (t - 5000) < target) then .next (s.openGate d t false)
        else .next s
      | _ => .next s
  | .gate, some _ =>
    if x.mode = 5 ∧ x.val 10 = 1 ∧ !x.counting ∧ x.after < t ∧ s.extOpens x f0 x.after t then
      .next (s.setDef d { x with counting := true, openAt := t })
    else .next s
  | _, _ => .next s

/-- GATE_CLOSE (R251, R254): the gate closes after GATE_BEATS, at the first inactive edge, or for FREQ after one further
GATE_BEATS without t1; a vernier conversion in progress ends first. -/
def execGateClose (d : DefId) (t : Nat) (s : State) : Out :=
  let x := s.mdef d
  let span := 5000 * x.val 13
  if x.st ≠ .gate ∨ !x.counting ∨ t < x.openAt ∨ (s.site x.site).f0 + t / 320000 > s.now then .next s
  else
    let inactive := x.val 10 == 1 && !s.gateActive (x.val 11) && (t : Int) == s.evtTime (s.site x.site).f0 (x.val 11 % 8)
    if x.mode = 5 then
      let short := x.val 13 < 800 ∨ (inactive ∧ t < x.openAt + 4000000)
      if inactive ∨ t = x.openAt + 2 * span ∨ (short ∧ t = x.openAt + span) then
        .next ((s.setDef d (if short then x.orFlags 64 else x)).completeMeas d t t)
      else .next s
    else if inactive ∨ t = x.openAt + span then
      if x.pair.isSome then .next (s.setDef d { x with closeAt := some t }) else .next ((s.setDef d (x.stale t)).completeMeas d t t)
    else .next s

/-- VERNIER_DONE (R247): the conversion on a channel ends. Its result has bins of 2 tu, finer than the 10 tu taps of the
two edges: the finer part is a free value within the taps. (log 70, DEDUCED) -/
def execVernierDone (v : Fin 4) (s : State) : Out :=
  match s.defs.find? (fun e => e.2.vernier && e.2.conv == some v.val && e.2.pair.isSome) with
  | none => .next s
  | some e =>
    let d := e.1
    let x := s.mdef d
    match x.pair with
    | none => .next s
    | some (a, b) =>
      let f := s.free
      let s := f.2
      let t := (s.now - (s.site x.site).f0) * 320000
      let tooLong := max a b - min a b > 4000000
      let off : Int := 2 * ((f.1 % 9 : Nat) - 4)
      let fine := if x.coinc then 0 else if a = b ∧ ¬ (x.mode = 1 ∧ x.val 9 = 0) then (off.natAbs : Int) else off
      let total := tuBetween a b + (fine : Rat)
      let x := { x with pair := none, after := t, coinc := false }
      let x := if x.mode = 1 ∧ total = 0 then x.orFlags 1 else if x.mode = 1 ∧ total < 0 then x.orFlags 2 else x
      let x := if tooLong then x.orFlags 8 else x.convert total (min a b)
      let s := s.setDef d x
      if x.closeAt.isSome ∨ t ≥ x.openAt + 5000 * x.val 13 then .next (s.completeMeas d t (x.closeAt.getD t)) else .next (s.checkRepeat d t)

/-! ### Publication (R255-R257) -/

/-- A rational rounded to nearest, ties away from zero. -/
def roundAway (q : Rat) : Int := if q ≥ 0 then (q + 1 / 2).floor else -(-q + 1 / 2).floor

/-- The square root of a non-negative rational rounded to nearest. -/
def sqrtNear (q : Rat) : Nat :=
  let r := Nat.sqrt q.floor.toNat
  if q ≥ ((r : Rat) + 1 / 2) * ((r : Rat) + 1 / 2) then r + 1 else r

/-- A 64-bit word of a result. -/
def resWord (v : Int) : List Byte := encodeInt 8 v

/-- Words 1-6 of a result with no conversion. (log 92, DEDUCED) -/
def noneWord : List Byte := 0x80 :: zeroBytes 7

/-- The 64 bytes of a result (R256). -/
def State.resultBytes (s : State) (d : Nat) (x : MeasDef) (flags : Nat) : List Byte :=
  let engine := if x.mode = 5 then 2 else if x.vernier then 1 else 0
  let chan := match x.conv with | some c => c | none => 255
  let w0 := d * 2 ^ 52 + x.site * 2 ^ 46 + x.mode * 2 ^ 42 + engine * 2 ^ 40 + chan * 2 ^ 32 + flags * 2 ^ 16 + x.count
  let body :=
    if x.count = 0 then (List.replicate 6 noneWord).flatten
    else
      let n : Rat := (x.count : Int)
      let mean := roundAway (256 * x.sum / n)
      let sdev := if x.count < 2 then 0 else sqrtNear (65536 * (x.sq - x.sum * x.sum / n) / (n - 1))
      resWord (roundAway x.last) ++ resWord (roundAway x.min) ++ resWord (roundAway x.max) ++ resWord mean
        ++ resWord sdev ++ resWord (x.first.getD 0)
  beBytes 8 w0 ++ body ++ beBytes 8 s.now

/-- A completed measurement published (R255): of a definition that the run has marked, the verdict binds the last result (R258). -/
def State.publishMeas (s : State) (d : Nat) : State :=
  let x := s.mdef d
  let fl := x.flags ||| (x.quality * 512) ||| (if (s.site x.site).has flagTainted then 128 else 0)
  let bytes := s.resultBytes d x fl
  let s := match x.entry with | some i => s.freeEntry i | none => s
  let s := s.setDef d { vals := x.vals, result := bytes, published := true, site := x.site }
  let s := s.modSite x.site fun y => { y with
    results := if y.marked.contains d then y.results.filter (fun r => !decide (r.1 = d)) ++ [(d, bytes)] else y.results
    incomplete := y.incomplete.filter (fun e => !decide (e = d)) }
  let s := ((s.bump 0x7402 4).raise 1662).raise (pinEvent (x.val 5) 4)
  if fl &&& 124 ≠ 0 then s.raise 1663 else s

/-- Step 2 of the frame commit: every measurement that completed in the closing frame, ascending (R15). -/
def State.publishAll (s : State) : State :=
  s.each ((s.defs.filter fun e => e.2.st == .done && decide (e.2.doneTick ≤ s.now)).map (·.1)) State.publishMeas

end Sys2Proof.Machine
end

