-- ==== Sys2Proof/Machine/Serial.lean ====
section
/-! DEFINITION. Serial sessions of pins: transmitter, receiver and checker (R171-R180). -/

namespace Sys2Proof.Machine

/-! ### Bits and sources (R171) -/

/-- Start of bit j of a session whose bit 0 starts at T, with UI in 2^-16 tu: nearest tu, ties upwards. -/
def bitStart (T ui j : Nat) : Nat := T + (j * ui + 32768) / 65536

/-- The middle tap of the generator of an order. -/
def prbsTap (order : Nat) : Nat :=
  match order with
  | 7 => 6 | 9 => 5 | 15 => 14 | 23 => 18 | _ => 28

/-- All ones in `order` stages. -/
def prbsOnes (order : Nat) : Nat := 2 ^ order - 1

/-- The bit that the generator feeds back: the sum of the last stage and the tap. -/
def prbsNext (order st : Nat) : Bool := natBit st (order - 1) ^^ natBit st (prbsTap order - 1)

/-- The stages after a bit has been shifted in. (log 58, DEDUCED) -/
def prbsShift (order st : Nat) (b : Bool) : Nat := (2 * st + (if b then 1 else 0)) % 2 ^ order

/-- Bit j of a loop RAM: bit 0 is bit 7 of byte 0. -/
def loopBit (ram : List Byte) (j : Nat) : Bool := natBit (ram.getD (j / 8) 0).toNat (7 - j % 8)

/-- What happens while the transmitter advances: the next codeword missing (R180), a codeword corrected or parked (R149). -/
inductive TxEvent where
  | underrun | corrected | parked
  deriving DecidableEq, Repr

/-- The transmitter of a pin as it advances, with the start of the bit of its last transition. -/
structure Tx where
  ser : Serial
  feed : Option Feed
  words : List QWord
  events : List TxEvent := []
  edge : Option Nat := none
  deriving DecidableEq, Repr

/-- One bit sent. -/
def Serial.sendBit (x : Serial) (b : Bool) : Serial := { x with sent := x.sent + 1, lastBit := b }

/-- Whether a stream has come to its end: every codeword delivered, and STREAM_END is IDLE (R172). -/
def Feed.ended (f : Feed) : Bool := !f.loop && decide (f.delivered ≥ f.words)

/-- Slot j of a STREAM source: bit [63] of a codeword first; at a 64-UI boundary the next codeword is checked (R149, R172,
R180). Each boundary that finds it missing is an underrun. (log 168, DESIGN CHOICE) -/
def Tx.streamBit (t : Tx) (j : Nat) : Tx :=
  let x := t.ser
  if j < x.holdUntil then t
  else if x.streamed % 64 ≠ 0 then
    let b := natBit (x.current.toNat + 2 ^ 32 * x.lfsr) (63 - x.streamed % 64)
    { t with ser := { x.sendBit b with streamed := x.streamed + 1 } }
  else
    match t.feed with
    | none => t
    | some f =>
      match f.fifo with
      | [] =>
        if f.ended then t
        else { t with ser := { x with holdUntil := j + 64, underran := true }, events := t.events ++ [.underrun] }
      | w :: rest =>
        let t := { t with feed := some { f with fifo := rest } }
        let load (d : Word64) : Serial :=
          { x.sendBit (natBit d.toNat 63) with
            streamed := x.streamed + 1, current := BitVec.ofNat 32 d.toNat, lfsr := d.toNat / 2 ^ 32 }
        match checkWord w with
        | .good d => { t with ser := load d }
        | .corrected d _ => { t with ser := load d, events := t.events ++ [.corrected] }
        | .bad _ => { t with ser := { x with holdUntil := j + 64 }, events := t.events ++ [.parked] }

/-- The word of a word slot that begins at `start`: the oldest queued word of the session whose literal has started by then, else IDLE_WORD
(R173). -/
def Tx.nextWord (t : Tx) (idle start slot : Nat) : Tx :=
  let x := t.ser
  let none' : Tx := { t with ser := { x with current := BitVec.ofNat 32 idle, slots := slot + 1 } }
  match t.words with
  | { word := w, sess := k, start := some v, .. } :: rest =>
    if v ≤ start ∧ k = x.no then { t with words := rest, ser := { x with current := w, slots := slot + 1 } } else none'
  | _ => none'

/-- Slot j of a MICRO source: first the rest of a word that a park has cut, then word slots of 32 bits (R173, R176). -/
def Tx.microBit (t : Tx) (idle : Nat) (start j : Nat) : Tx :=
  let x := t.ser
  if j < x.rest then { t with ser := x.sendBit (natBit x.current.toNat (x.rest - 1 - j)) }
  else
    let i := j - x.rest
    let t := if i % 32 = 0 ∧ x.slots ≤ i / 32 then t.nextWord idle start (i / 32) else t
    { t with ser := t.ser.sendBit (natBit t.ser.current.toNat (31 - i % 32)) }

/-- Bit slot j, whose start is `start`. -/
def Tx.bit (t : Tx) (c : SerialCfg) (ram : List Byte) (start j : Nat) : Tx :=
  let x := t.ser
  match c.src with
  | 1 =>
    let b := natBit x.lfsr (c.order - 1)
    { t with ser := { x.sendBit (b ^^ c.invert) with lfsr := prbsShift c.order x.lfsr (prbsNext c.order x.lfsr) } }
  | 2 => { t with ser := x.sendBit (loopBit ram (x.sent % c.loopBits)) }
  | 3 => t.streamBit j
  | 4 => t.microBit c.idle start j
  | _ => t

/-- Bit slot j, whose start is `start`: a bit that differs from the level before it is a transition, as the first one of a session is to a pin
that `d` drives. -/
def Tx.slot (t : Tx) (c : SerialCfg) (ram : List Byte) (d : DriveState) (start j : Nat) : Tx :=
  let u := t.bit c ram start j
  let from' := if t.ser.sent = 0 then d else if t.ser.lastBit then .high else .low
  if u.ser.sent ≠ t.ser.sent ∧ from' ≠ (if u.ser.lastBit then .high else .low) then { u with edge := some start } else u

/-- The bit slots from `from'` on that start before t. -/
def slotsBefore (T ui from' t : Nat) : List Nat :=
  if ui = 0 ∨ t ≤ T then []
  else (List.range' from' (((t - T) * 65536) / ui + 2 - from')).filter fun j => decide (bitStart T ui j < t)

/-- The effect of what happened on a pin of site n while it sent: a lost stream codeword parks the pin for 64 pin-vectors, one for each UI. (log 169, DESIGN CHOICE) -/
def State.txEvent (s : State) (n p : Nat) (e : TxEvent) (first : Bool) : State :=
  match e with
  | .underrun =>
    let s := (s.bump (pinObj p 1) 7).taint n
    if first then s.raise 1616 else s
  | .corrected => ((s.bump 0x6000 6).bump (0x6200 + p) 3).raise 1610
  | .parked => ((((s.bump 0x6000 7).bump (0x6200 + p) 4).count (0x6100 + n) 9 64).taintPath n).raise 1611

/-- The feed of a session of a pin. -/
def Pin.feedOf (q : Pin) (no : Nat) : Option Feed := q.feeds.find? (·.no == no)

/-- The feed of a session of a pin replaced. -/
def Pin.setFeed (q : Pin) (f : Feed) : Pin := { q with feeds := q.feeds.map fun g => if g.no = f.no then f else g }

/-- The feed of a session of a pin discarded, with the words of that session and of those before it. -/
def Pin.dropSession (q : Pin) (no : Nat) : Pin :=
  { q with feeds := q.feeds.filter fun g => decide (g.no ≠ no), words := q.words.filter fun w => decide (w.sess > no) }

/-- Whether bit j of a session ends by its exit, where one is set (R175). -/
def Serial.mayEnd (x : Serial) (ui j : Nat) : Bool :=
  match x.exitAt with
  | some e => decide (bitStart x.resumed ui (j + 1) ≤ e)
  | none => true

/-- The transmitter of pin p of site n advanced over every bit that starts before t and ends by the exit, not while the pin is parked
(R171, R175, R176). Its transitions take the rising and falling drive corrections (R168). -/
def State.serialAdvance (s : State) (n p t : Nat) : State :=
  let q := s.pin p
  match q.serial with
  | none => s
  | some x =>
    match s.serialCfg n x.cfg with
    | none => s
    | some c =>
      if x.paused then s
      else
        let slots := (slotsBefore x.resumed c.ui x.sentAt t).filter (x.mayEnd c.ui)
        let ram := s.oct (0x6500 + p) 1
        let tx := slots.foldl (fun (a : Tx) j => a.slot c ram q.drive (bitStart x.resumed c.ui j) j)
          { ser := x, feed := q.feedOf x.no, words := q.words }
        let fresh := !x.underran
        let y := { tx.ser with sentAt := x.sentAt + slots.length }
        let s := s.modPin p fun q =>
          let d : DriveState := if y.lastBit then .high else .low
          let edge (t : Nat) : DriveState × Int := (d, (t : Int) * 250 + s.correction p (driveKind d (if y.lastBit then .low else .high)))
          let q := { q with serial := some y, words := tx.words, lastEdge := (tx.edge.map edge).or q.lastEdge }
          match tx.feed with | some f => q.setFeed f | none => q
        let s := s.setNat (pinObj p 1) 3 (y.sent % 2 ^ 64)
        (tx.events.foldl (fun (a : Bool × State) e => (a.1 && e != .underrun, a.2.txEvent n p e a.1)) (fresh, s)).2

/-- The session of pin p pauses at t: the pin holds its last bit's level, the source stops (R176). -/
def State.serialPause (s : State) (n p t : Nat) : State :=
  let s := s.serialAdvance n p t
  s.modPin p fun q => { q with serial := q.serial.map fun x => { x with paused := true } }

/-- When the lock timeout of a configuration that acquires from t on ends, in tu of the site (R177). -/
def lockLimit (t : Nat) (c : SerialCfg) : Option Nat := if c.rx = 0 then none else some (t + 320000 * c.timeout)

/-- The bits of a MICRO word that are still to be sent where the source stops after k bit slots (R176). -/
def Serial.wordLeft (x : Serial) : Nat := if x.sentAt < x.rest then x.rest - x.sentAt else (32 - (x.sentAt - x.rest) % 32) % 32

/-- The checker discards its alignment (R178). -/
def Serial.resync (x : Serial) : Serial :=
  { x with aligned := false, seeking := [], rxLfsr := 0, rxPos := 0, window := [], capture := [], capBit := none }

/-- The session of pin p resumes at the pattern vector that starts at t (R176). (log 155, DEDUCED) -/
def State.serialResume (s : State) (n p t : Nat) : State :=
  match (s.pin p).serial with
  | none => s
  | some x =>
    if !x.paused then s
    else
      let lim : Option Nat := if x.rx = .acquiring then (s.serialCfg n x.cfg).bind (lockLimit t) else none
      s.modPin p fun q => { q with serial := some { x.resync with
        paused := false, resumed := t, sentAt := 0, slots := 0, rest := x.wordLeft, holdUntil := 0, lockBy := lim } }

/-- The level that a pin keeps after a session: HIGH or LOW, or the state of a HOLD source (R171, R175). -/
def State.serialLevel (s : State) (n : Nat) (x : Serial) (d : DriveState) : DriveState :=
  match s.serialCfg n x.cfg with
  | some c => if c.src = 0 then d else if x.lastBit then .high else .low
  | none => d

/-- What the end of a session does to its pin (R172, R191, R205): what is not yet played of it is discarded, held decisions are cleared, and
an enabled monitor is UNDECIDED. -/
def State.sessionOver (s : State) (p no : Nat) : State :=
  (s.modPin p fun q => { q.dropSession no with serial := none }).clearDecisions p

/-- A session of pin p ends at t: the bits that end by then are sent (R172, R175). -/
def State.serialEnd (s : State) (n p t : Nat) : State :=
  let s := (s.modPin p fun q => { q with serial := q.serial.map fun x => { x with exitAt := some (min t (x.exitAt.getD t)) } }).serialAdvance n p t
  match (s.pin p).serial with
  | none => s
  | some x => ((s.noteRuns p (s.rawTu n t)).modPin p fun q => { q with drive := s.serialLevel n x q.drive }).sessionOver p x.no

/-- A session of pin p under configuration c starts at t (R174, R182); one that ends there ends first. Every timed event of earlier vectors
comes before it, and a slot that has played PARK is over. -/
def State.serialStart (s : State) (n p c t : Nat) : State :=
  match s.serialCfg n c with
  | none => s
  | some g =>
    let s := if (s.pin p).serial.isSome then s.serialEnd n p t else s
    let s := (s.setNat (pinObj p 1) 3 0).setNat (pinObj p 1) 4 0
    let s := (if g.rx ≠ 0 ∧ (s.pin p).mon ≠ .off then s.monChanges p (t % 320000 / 5000) else s).noteRuns p (s.rawTu n t)
    (s.settleEvents p t true).modPin p fun q => { q.parkSlot t false with
      awaiting := none, sessionAt := none, sessions := q.sessions + 1,
      serial := some { cfg := c, no := q.sessions + 1, start := t, resumed := t, lfsr := if g.src = 1 then prbsOnes g.order else 0,
                       lastBit := (q.drive == .high), rx := if g.rx = 0 then .off else .acquiring,
                       lockBy := lockLimit t g } }

/-- Whether the timed shapes of pin p act in a vector that starts at t (R174, R175). -/
def Pin.timed (q : Pin) (t : Nat) : Bool :=
  match q.serial with
  | some x => match x.exitAt with | some e => decide (e ≤ t) | none => false
  | none => q.sessionAt.isNone

/-! ### The receiver (R177-R179) -/

/-- The result of comparing one bit: the session, and whether the bit was compared and differed. -/
abbrev Compared := Serial × Option Bool

/-- A compared bit enters the window; 32 differing bits within 64 discard the alignment. -/
def Serial.noteBit (x : Serial) (differs : Bool) : Serial :=
  let w := (differs :: x.window).take 64
  if (w.filter id).length ≥ 32 then x.resync else { x with window := w }

/-- One received bit of PRBS mode. -/
def Serial.rxPrbs (x : Serial) (c : SerialCfg) (v : Bool) : Compared :=
  let b := v ^^ c.invert
  if !x.aligned then
    let y := { x with rxLfsr := prbsShift c.order x.rxLfsr b, rxPos := x.rxPos + 1 }
    (if y.rxPos ≥ c.order then { y with aligned := true } else y, none)
  else
    let e := prbsNext c.order x.rxLfsr
    let y := { x with rxLfsr := prbsShift c.order x.rxLfsr e }
    (y.noteBit (e != b), some (e != b))

/-- One received bit of LOOP mode. (log 59, DEDUCED) -/
def Serial.rxLoop (x : Serial) (c : SerialCfg) (ram : List Byte) (v : Bool) : Compared :=
  if !x.aligned then
    let l := (v :: x.seeking).take 32
    let y := { x with seeking := l }
    if l = ((List.range 32).map (loopBit ram)).reverse then ({ y with aligned := true, rxPos := 32 % c.loopBits }, none)
    else (y, none)
  else
    let e := loopBit ram x.rxPos
    ({ x with rxPos := (x.rxPos + 1) % c.loopBits }.noteBit (e != v), some (e != v))

/-- The number under R171 of the bit that ends at t: that whose end is nearest. -/
def Serial.bitAt (x : Serial) (ui t : Nat) : Nat := ((t - x.resumed) * 65536 + ui / 2) / max 1 ui - 1

/-- A 64-bit word received in CAPTURE mode, whose first bit is bit j under R171: a sample of a SERIAL capture of the slot (R211, R214). -/
def State.serialWord (s : State) (n p : Nat) (x : Serial) (ui j : Nat) : State :=
  let slot := (s.sitePins n).findIdx (· == p)
  let c := s.cap n
  if c.st = .capturing ∧ s.reg (capObj n) 1 = 1 ∧ s.nreg (capObj n) 3 = slot then
    let y := s.site n
    let w := x.capture.foldl (fun a b => 2 * a + (if b then 1 else 0)) 0
    let t := bitStart x.resumed ui j
    s.setCap n { c with taken := c.taken ++ [{ n := 0, time := t, content := w, frame := s.now, period := y.periodAt t,
                                               epoch := y.epochAt t }] }
  else s

/-- A bit received, counted; each 64 of them cross X8 as one entry (R141). -/
def State.rxBit (s : State) (p : Nat) (x : Serial) : State :=
  let s := s.modPin p fun q => { q with serial := some { x with rxBits := x.rxBits + 1 } }
  if (x.rxBits + 1) % 64 = 0 then s.crossed 8 1 false else s

/-- The sampling instant of a received bit: its middle, in the beat that is given (R178). -/
def bitInstant (at0 ends ui : Nat) : Nat := max at0 (min (at0 + 4999) (at0 + ends - ui / 131072))

/-- SERIAL_BIT_RECEIVED (R175, R176, R178): a bit recovered by the locked CDR whose sampling instant falls in a beat of this frame and which
ends `ends` tu after the start of that beat. Nothing is compared while the pin is parked or after the exit. (log 61, DESIGN CHOICE) -/
def execSerialBitReceived (n : PinId) (value : Bool) (b : BitSpan) (s : State) : Out :=
  match s.pinSite n, (s.pin n).serial with
  | some k, some x0 =>
    match s.serialCfg k x0.cfg with
    | none => .next s
    | some c =>
      let at0 := (s.now - (s.site k).f0) * 320000 + b.beat * 5000
      let late : Bool := match x0.exitAt with | some e => decide (e < at0 + b.ends) | none => false
      if x0.rx ≠ .locked ∨ s.parkedPin n (bitInstant at0 b.ends c.ui) ∨ late ∨ b.beat ≥ 64 then .next s
      else
      let s := s.rxBit n x0
      let x := { x0 with rxBits := x0.rxBits + 1 }
      if c.rx = 3 then
        let j := x.capBit.getD (x.bitAt c.ui (at0 + b.ends))
        let y := { x with capture := x.capture ++ [value], capBit := some j }
        if y.capture.length = 64 then
          .next ((s.serialWord k n y c.ui j).modPin n fun q => { q with serial := some { y with capture := [], capBit := some (j + 64) } })
        else .next (s.modPin n fun q => { q with serial := some y })
      else if c.rx = 1 ∨ c.rx = 2 then
        let r := if c.rx = 1 then x.rxPrbs c value else x.rxLoop c (s.oct (0x6500 + n) 1) value
        let s := s.modPin n fun q => { q with serial := some r.1 }
        match r.2 with
        | none => .next s
        | some d =>
          let s := (s.bump (pinObj n 1) 4).modSite k fun y => { y with bitsDue := max y.bitsDue (s.now + 1 + (if b.beat ≤ 47 then 0 else 1)) }
          .next (if d then (s.bump (pinObj n 1) 5).failNow n b.beat else s)
      else .next s
  | _, _ => .next s

/-- SERIAL_LOCK (R177): the CDR locks. FREQ_OFFSET is what it measures: a free value within its tracking range. (log 76, DESIGN CHOICE) -/
def execSerialLock (n : PinId) (s : State) : Out :=
  match (s.pin n).serial with
  | some x =>
    if x.rx = .acquiring then
      let f := s.free
      let s := f.2.modPin n fun q => { q with serial := some { x.resync with rx := .locked, lockBy := none } }
      .next ((s.setReg (pinObj n 1) 8 ((f.1 % 60001 : Nat) - 30000)).raise 1614)
    else .next s
  | none => .next s

/-- SERIAL_LOCK_LOST (R177): one fail, LOCK_LOSSES and E1615; the CDR acquires again. -/
def execSerialLockLost (n : PinId) (beat : Nat) (s : State) : Out :=
  match (s.pin n).serial with
  | some x =>
    if x.rx = .locked ∧ beat < 64 then
      let s := s.modPin n fun q => { q with serial := some { x.resync with rx := .acquiring } }
      .next (((s.bump (pinObj n 1) 6).raise 1615).failNow n beat)
    else .next s
  | none => .next s

/-- CDR_SLIP (R143, R179): crossing X8 slips a word: counted, one fail, and the checker resynchronises; a SERIAL capture marks
a gap. -/
def execCdrSlip (n : PinId) (beat : Nat) (s : State) : Out :=
  match (s.pin n).serial with
  | some x =>
    if x.rx = .locked ∧ beat < 64 then
      let s := s.modPin n fun q => { q with serial := some x.resync }
      let s := ((s.bump 0x6018 4).raise 1613).failNow n beat
      match s.pinSite n with
      | some k =>
        if (s.cap k).st ≠ .idle ∧ s.reg (capObj k) 1 = 1 ∧ (s.sitePins k)[s.nreg (capObj k) 3]? = some n.val then .next (s.setCap k { s.cap k with gap := true }) else .next s
      | none => .next s
    else .next s
  | none => .next s

/-! ### Sessions as steps -/

/-- Time in tu of site n at the end of the frame now open. -/
def State.frameEnd (s : State) (n : Nat) : Nat := (s.now + 1 - (s.site n).f0) * 320000

/-- SERIAL_LOCK_TIMEOUT (R177): LOCK_TIMEOUT frames have passed since the session start or a resumption without lock, in a beat of the open
frame. -/
def execSerialLockTimeout (n : PinId) (s : State) : Out :=
  match s.pinSite n, (s.pin n).serial with
  | some k, some x =>
    match x.lockBy with
    | some t =>
      if x.rx = .acquiring ∧ t < s.frameEnd k then
        let s := s.modPin n fun q => { q with serial := some { x with lockBy := none } }
        .next ((s.raise 1615).failNow n ((t - (s.now - (s.site k).f0) * 320000) / 5000))
      else .next s
    | none => .next s
  | _, _ => .next s

/-- SERIAL_SESSION_START (R174): the session that a pattern vector has begun starts at that vector's start. -/
def execSerialSessionStart (n : PinId) (s : State) : Out :=
  let q := s.pin n
  match s.pinSite n, q.awaiting, q.sessionAt with
  | some k, some c, some t => .next (s.serialStart k n c t)
  | _, _, _ => .next s

/-- SERIAL_SESSION_END (R175): exit takes effect at T_x. -/
def execSerialSessionEnd (n : PinId) (s : State) : Out :=
  match s.pinSite n, (s.pin n).serial with
  | some k, some x =>
    match x.exitAt with
    | some t => if t < s.frameEnd k then .next (s.serialEnd k n t) else .next s
    | none => .next s
  | _, _ => .next s

/-- SERIAL_UNDERRUN (R180): the transmitter advances to where the next stream codeword is due in the open frame and
missing; nothing happens where none is missing. -/
def execSerialUnderrun (n : PinId) (s : State) : Out :=
  match s.pinSite n, (s.pin n).serial with
  | some k, some x =>
    match s.serialCfg k x.cfg with
    | some c =>
      let due := x.sentAt + (if x.streamed % 64 = 0 then 0 else 64 - x.streamed % 64)
      let t := bitStart x.resumed c.ui (max due x.holdUntil) + 1
      let queued : Nat := (((s.pin n).feedOf x.no).map (·.fifo.length)).getD 0
      if c.src = 3 ∧ queued = 0 ∧ t ≤ s.frameEnd k ∧ !s.parkedPin n (t - 1) then .next (s.serialAdvance k n t) else .next s
    | none => .next s
  | _, _ => .next s

/-- WORD_SLOT (R173): the next word slot of a MICRO source begins within the open frame and takes its word. -/
def execWordSlot (n : PinId) (s : State) : Out :=
  match s.pinSite n, (s.pin n).serial with
  | some k, some x =>
    match s.serialCfg k x.cfg with
    | some c =>
      let t := bitStart x.resumed c.ui (x.rest + 32 * x.slots) + 1
      if c.src = 4 ∧ t ≤ s.frameEnd k ∧ !s.parkedPin n (t - 1) then .next (s.serialAdvance k n t) else .next s
    | none => .next s
  | _, _ => .next s

/-- SERIAL_STATE and CONFIG of a pin (R182). -/
def Pin.serialState (q : Pin) : Nat × Nat :=
  match q.serial with
  | none => (0, 255)
  | some x => (match x.rx with | .off => 1 | .acquiring => 2 | .locked => 3, x.cfg)

end Sys2Proof.Machine
end

