-- ==== Sys2Proof/Machine/Sites.lean ====
section
/-! DEFINITION. Sites: their commands, how they end, and Convoy aborts (R26-R36, R59-R62, R309). -/

namespace Sys2Proof.Machine

/-! ### Convoy aborts (R309) -/

/-- The lane of a site in the lane map (R314). -/
def State.laneOf (s : State) (n : Nat) : Option Nat := (List.range 8).find? fun k => s.nreg 0xA101 (k + 1) == n

/-- Hold spans played by t tu of a site (R34): of a span in progress, which a WAIT gives its length at its start and a drain point or
starvation at its end, what lies before t. -/
def Site.holdAt (x : Site) (t : Nat) : Nat :=
  if logAt true x.play.parkLog t then x.play.holdTu + (if x.st.live then t - x.play.tu else 0) - (x.play.tu - t) else x.play.holdTu

/-- Time of the tick now in force on the timeline of a site. -/
def State.tickTu (s : State) (n : Nat) : Nat := (s.now - (s.site n).f0) * 320000

/-- What 0x3403 shows of site n taken as it stands at the tick (R34). (log 37, DEDUCED) -/
def State.showSite (s : State) (n : Nat) : State :=
  s.modSite n fun x => { x with shown := {
    idx := x.thread.idx, vectors := x.play.vectors, holdTu := x.holdAt (s.tickTu n), flags := x.flags.toNat, epoch := x.thread.epoch,
    matchIter := s.nreg (siteObj n 3) 7, lateWaits := s.nreg (siteObj n 3) 8 } }

/-- Whether a site spans engines. -/
def State.spans (s : State) (n : Nat) : Bool := s.nreg (siteObj n 1) 6 > 1

/-- The tick at which an abort found now is found: the next one where the word of the tick in force is formed. (log 160, DEDUCED) -/
def State.abortTick (s : State) : Nat := if s.convoy.built then s.now + 1 else s.now

/-- An abort sent over Convoy for N + 2 frames from tick t (R309): kind 0 SYNC_TIMEOUT, 1 SYNC_MISMATCH, 2 any other cause. -/
def State.sendAbort (s : State) (n kind t : Nat) : State :=
  match s.laneOf n with
  | some k =>
    if s.spans n then
      let last := t + s.nreg 0xA100 7 + 1
      (({ s with convoy := { s.convoy with aborts := s.convoy.aborts ++ [(k, kind, last)] } }).bump 0xA100 10).raise 1688
    else s
  | none => s

/-! ### Pins of a site -/

/-- The pins of a site parked at t (R145, R253): serial sessions pause, and open gates lose what they measure. -/
def State.parkPins (s : State) (n t : Nat) : State :=
  (s.each (s.sitePins n) fun s p => s.serialPause n p t).parkMeas n t

/-- The pins of a site that are not parked park from t on (R145), at the latest in the frame in which t lies. -/
def State.park (s : State) (n t : Nat) : State :=
  if (s.site n).play.parked then s
  else
    let s := s.modSite n fun x => { x with play := x.play.park t true }
    if t < s.frameEnd n then s.parkPins n t else s

/-- A park that has been placed within the frame now open takes effect on the pins. -/
def State.parkDue (s : State) (n : Nat) : State :=
  match (s.site n).play.parkLog with
  | (t, true) :: _ => if s.tickTu n ≤ t ∧ t < s.frameEnd n then s.parkPins n t else s
  | _ => s

/-- The timeline of a site cut at t: parked from then on, nothing placed after it, and nothing more of the run plays. -/
def Site.cut (x : Site) (t : Nat) : Site :=
  let l := x.play.parkLog.dropWhile fun e => decide (e.1 > t)
  { x with
    strobes := [], vecs := x.vecs.filter (fun v => decide (v.time < t)), mtch := none,
    play := { x.play with dead := true, starvedFrom := none, holdTu := x.holdAt t, lastEnd := min x.play.lastEnd t, tu := min x.play.tu t,
                          parkLog := if (l.head?.map (·.2)).getD true then l else (t, true) :: l } }

/-- What the path holds for a site discarded: queue, runs, slots, blocks and outstanding reads (R36, R146). -/
def State.dropPath (s : State) (n : Nat) : State :=
  let pins := s.sitePins n
  let s := s.modSite n fun x => { x with queue := [], runs := [], block := [], riders := [] }
  let s := s.each pins fun s p => s.modPin p fun q =>
    { q with fifo := [], feeds := [], fetchCfg := none, fetchNo := q.sessions, words := [], awaiting := none, sessionAt := none }
  { s with reads := s.reads.filter fun r =>
      match r.who with
      | .run m _ => m ≠ n
      | .stream p _ => !pins.contains p }

/-- The pins of a site cut at t, as by a HALT command (R36): no strobe at or after t is judged, a vector that straddles t
ends there, what is queued is discarded and the pins park. -/
def State.cutSite (s : State) (n t : Nat) : State :=
  let s := (s.judgeUntil n t).parkPins n t
  let s := s.each (s.sitePins n) fun s p => (s.settlePin p t).modPin p fun q => { q with events := [] }
  (s.modSite n fun x => x.cut t).dropPath n

/-- The pins of a site high-impedance, their sessions over (R146, R191, R205). -/
def State.pinsOff (s : State) (n : Nat) : State :=
  s.each (s.sitePins n) fun s p =>
    let s := match (s.pin p).serial with | some x => s.sessionOver p x.no | none => s
    s.modPin p fun q => { q with drive := .off, events := [], parks := [] }

/-! ### The end of a run -/

/-- What ends with a run on entry to HALTED or FAULTED (R29, R116, R217, R221): the budget and the thread entry, READY
tasks, armed measurements, the capture and the armed units. -/
def State.leave (s : State) (n : Nat) : State :=
  let s := s.releaseBudget n
  let s := s.cancelTasks n
  let s := s.cancelSiteMeas n
  let s := s.closeCapture n
  let s := s.disarmUnits n
  s.modSite n fun x => { x with drain := none, sync := none, startAsked := false, abort := none, atResume := [] }

/-- The site enters HALTED (R36, R60). (log 30, DEDUCED) -/
def State.haltSite (s : State) (n : Nat) : State := (s.enter n .halted).leave n

/-- A fault ends the site (R62): FAULT_CODE and FAULT_INDEX, SITE_FAULT, an INDETERMINATE record at the next tick, and the
pins as under HALT. -/
def State.faultSite (s : State) (n code index : Nat) : State :=
  if (s.site n).st.busy then
    let live := (s.site n).st.live
    let s := (s.setNat (siteObj n 3) 5 code).setNat (siteObj n 3) 6 index
    let s := ((s.enter n .faulted).raise (siteEvent n 3)).leave n
    let s := if live then s else s.dropPath n
    s.modSite n fun x => { x with haltAsked := live, form := some (s.now + 1, 2) }
  else s

/-- A fault of the site's thread at its present instruction. -/
def State.faultHere (s : State) (n code : Nat) : State := s.faultSite n code (s.site n).thread.idx

/-! ### LOAD, ARM and START (R30, R31) -/

/-- A codeword of vector memory read with its line (R270), by a reader whose command names no error pattern. -/
def State.readWord (s : State) (addr : Nat) : Codeword × State :=
  let r := s.readLine (64 * (addr / 64)) []
  (r.1.getD (addr / 8 % 8) {}, r.2)

/-- BUDGET and LENGTH of an itinerary header, where it is a valid one (R38). -/
def State.header (s : State) (n : Nat) (w : Codeword) : Option (Nat × Nat) :=
  match checkWord w with
  | .bad _ => none
  | c =>
    let d := c.data
    let budget := bits d 47 32
    let len := if bits d 23 0 = 0 then 16777216 else bits d 23 0
    let entry := s.nreg (siteObj n 1) 3
    if bits d 63 48 = 0xFE01 ∧ bits d 31 24 = 0 ∧ 1 ≤ budget ∧ budget ≤ 2048 ∧ 2 ≤ len ∧ 1 ≤ entry ∧ entry < len then
      some (budget, len)
    else none

/-- Whether a site's map shares no pin with another site that is not FREE. -/
def State.mapFree (s : State) (n : Nat) : Bool :=
  siteNos.all fun m => m == n || (s.site m).st == .free || (s.pinMap m &&& s.pinMap n) == 0

/-- LOAD (R30): the header is read as any line is (R270), and held decisions of the site's pins are cleared (R191). (log 145, DESIGN CHOICE) -/
def State.cmdLoad (s : State) (n : Nat) : Nat × State :=
  if (s.site n).st ≠ .free then (0x0302, s)
  else
    let r := s.readWord (s.nreg (siteObj n 1) 2)
    let s := r.2
    match s.header n r.1 with
    | none => (0x0303, s)
    | some (budget, len) =>
      if s.pinMap n = 0 ∨ !s.mapFree n ∨ s.nreg (siteObj n 1) 5 = 0
          ∨ (s.spans n ∧ s.nreg (siteObj n 1) 6 ≠ s.nreg 0xA100 7) then (0x0303, s)
      else
        let s := s.setNat (siteObj n 1) 7 budget
        let s := s.hashLoad n len
        let s := s.enter n .loaded
        let s := (s.modSite n fun x => { x with length := len }).pinsOff n
        (0, s.each (s.sitePins n) State.clearDecisions)

/-- Whether a pin of the site is being calibrated (R399). -/
def State.calibrating (s : State) (n : Nat) : Bool := (s.sitePins n).any fun p => s.reg (pinObj p 11) 7 == 1

/-- Sites that hold a budget. -/
def State.admittedSites (s : State) : List Nat := siteNos.filter fun n => (s.site n).home.isSome

/-- The effect of an ARM that admission places on engine e (R29, R103, R128, R164, R426). -/
def State.armOn (s : State) (n e : Nat) : State :=
  let seqNo := s.nreg 0xC002 3
  let s := (s.setNat 0xC002 3 (seqNo + 1)).setNat (passObj n) 1 seqNo
  let s := s.hashArm n
  let o := 0x5100 + n
  let s := ((((s.setNat o 1 e).setNat o 2 (s.share n)).setNat o 4 0).setNat o 5 0).setNat o 7 0
  let s := s.setNat (0x6100 + n) 8 0
  let s := s.enter n .ready
  let s := s.modSite n fun x => { x with
    startAsked := false, haltAsked := false, halted := false, flags := 0, thread := { idx := s.nreg (siteObj n 1) 3 },
    play := {}, saved := {}, bitsDue := 0, home := some e, admitted := seqNo + 1, armedMeas := [], results := [], incomplete := [],
    records := [], form := none, worst := 0, failed := false, judged := [], recent := [], vecs := [], cycles := 0,
    overran := false, drain := none, mtch := none, sync := none, agreed := [], lastSync := none, issued := false,
    issuedLast := false, atResume := [], marked := [] }
  ((s.passCycles 1).take n { kind := .thread, prio := 1, site := n, context := 0 }).makeReady n

/-- ARM (R31, R107): the refusals in the order of R506's check 14. (log 28, DEDUCED; log 146, DESIGN CHOICE) -/
def State.cmdArm (s : State) (n : Nat) : Nat × State :=
  if (s.site n).st ≠ .loaded then (0x0302, s)
  else if s.start.sleepAsked.isSome then (0x010A, s)
  else
    let serial := s.serialArm n s.admittedSites
    let span := s.nreg (siteObj n 1) 6
    if serial = 0x0301 then (0x0301, s)
    else if serial ≠ 0 ∨ s.calibrating n ∨ s.reg 0xA100 5 = 1
        ∨ (s.spans n ∧ ((s.laneOf n).isNone ∨ s.reg 0xA100 1 = 0 ∨ span ≠ s.nreg 0xA100 7)) then (0x0305, s)
    else if s.store.cust = .opened ∨ s.store.cust = .closing then (0x0307, s)
    else match s.admission n with
      | .inr reason => (0x0304, (s.setNat 0x5001 7 reason).raise 1603)
      | .inl e =>
        let hint := Table.get 255 s.inn.engines n
        let s := if s.reg 0x2100 6 = 1 ∧ hint < 16 ∧ e ≠ hint then s.bump 0x5001 15 else s
        (0, s.armOn n e)

/-- START (R25, R29, R381): the site waits for its tick; a START_TIME already past counts. -/
def State.cmdStart (s : State) (n : Nat) : Nat × State :=
  if (s.site n).st ≠ .ready then (0x0302, s)
  else if s.spans n ∧ s.reg 0xA100 5 ≠ 2 then (0x0306, s)
  else
    let t := s.nreg (siteObj n 0) 3
    let s := if t ≠ 0 ∧ ofTime80 t ≤ s.localTime then s.bump 0x8000 15 else s
    (0, s.modSite n fun x => { x with startAsked := true })

/-! ### HALT, RESET, RELEASE, SEAL_HALTED, DISARM -/

/-- Whether the record of a SEAL in progress can no longer be stopped (R36). -/
def Site.sealing (x : Site) : Bool :=
  match x.drain with
  | some { kind := .seal _ _, decided := some _, .. } => true
  | _ => false

/-- HALT (R29, R36): from READY at once, otherwise at the next tick. (log 29, DEDUCED) -/
def State.cmdHalt (s : State) (n : Nat) : Nat × State :=
  let x := s.site n
  if x.st = .ready then (0, (s.haltSite n).dropPath n)
  else if !x.st.live ∨ x.sealing then (0x0302, s)
  else (0, s.modSite n fun x => { x with haltAsked := true })

/-- DISARM (R29): the budget returns and what the thread has queued is discarded. -/
def State.cmdDisarm (s : State) (n : Nat) : Nat × State :=
  if (s.site n).st ≠ .ready then (0x0302, s)
  else
    let s := (s.releaseBudget n).cancelTasks n
    let s := ((s.cancelSiteMeas n).endCapture n).dropPath n
    (0, (s.enter n .loaded).modSite n fun x => { x with startAsked := false, drain := none, sync := none, mtch := none, atResume := [] })

/-- Run state cleared (R29, R146, R217, R221): flags, counters, stacks, vector pointer; the pins high-impedance. -/
def State.clearRun (s : State) (n : Nat) : State :=
  let s := if (s.site n).form.isSome then s.formPending n else s
  let s := (s.endCapture n).disarmUnits n
  let s := (s.dropPath n).pinsOff n
  let s := s.clearObj (siteObj n 3)
  s.modSite n fun x => { st := x.st, length := x.length, custHash := x.custHash }

/-- RESET at once (R29). -/
def State.resetNow (s : State) (n : Nat) : State := (s.clearRun n).enter n .loaded

/-- RELEASE at once (R29, R423): the setup returns to its defaults and the site holds no pins. -/
def State.releaseNow (s : State) (n : Nat) : State :=
  let s := (s.clearRun n).hashRelease n
  let s := (s.clearObj (siteObj n 1)).clearObj (siteObj n 2)
  (s.modSite n fun _ => {}).enter n .free

/-- RESET (R29, R61): deferred to the next tick during play-out. -/
def State.cmdReset (s : State) (n : Nat) : Nat × State :=
  let x := s.site n
  if x.st ≠ .halted ∧ x.st ≠ .faulted ∧ x.st ≠ .sealed then (0x0302, s)
  else if x.playout then (0, s.modSite n fun x => { x with deferred := some false })
  else (0, s.resetNow n)

/-- RELEASE (R29, R61). -/
def State.cmdRelease (s : State) (n : Nat) : Nat × State :=
  let x := s.site n
  if x.st ≠ .loaded ∧ x.st ≠ .halted ∧ x.st ≠ .faulted ∧ x.st ≠ .sealed then (0x0302, s)
  else if x.playout then (0, s.modSite n fun x => { x with deferred := some true })
  else (0, s.releaseNow n)

/-- SEAL_HALTED (R29, R221, R428): SEALED, its units disarmed, with an ABORTED record at the next tick. -/
def State.cmdSealHalted (s : State) (n : Nat) : Nat × State :=
  if (s.site n).st ≠ .halted then (0x0302, s)
  else (0, ((s.enter n .sealed).disarmUnits n).modSite n fun x => { x with form := some (s.now + 1, 3) })

/-- A value of COMMAND carried out, its status in LAST_STATUS (R27, R29). Reserved codes are refused by the range check
before this. -/
def State.siteCommand (s : State) (n code : Nat) : Nat × State :=
  let r := match code with
    | 1 => s.cmdLoad n
    | 2 => s.cmdArm n
    | 3 => s.cmdStart n
    | 4 => s.cmdHalt n
    | 5 => s.cmdReset n
    | 6 => s.cmdRelease n
    | 7 => s.cmdSealHalted n
    | 8 => s.cmdDisarm n
    | _ => (0x0107, s)
  (r.1, r.2.setNat (siteObj n 0) 4 r.1)

end Sys2Proof.Machine
end

