-- ==== Sys2Proof/Machine/VectorPath.lean ====
section
/-! DEFINITION. The vector path: descriptor queues, run FIFOs, line reads and their delivery (R132-R139, R172). -/

namespace Sys2Proof.Machine

/-! ### Blocks and lines of a run (R132) -/

/-- Pins of a site on this engine. -/
def State.pinCount (s : State) (n : Nat) : Nat := (s.sitePins n).length

/-- First vector and count of a run that fetches, or nothing. -/
def DescKind.fetched : DescKind → Option (Nat × Nat)
  | .stream f c => some (f, c)
  | .block f c => some (f, c)
  | _ => none

/-- First block, number of blocks, first line and number of lines of a span of vectors over P pins. -/
def blockSpan (P first count : Nat) : Nat × Nat × Nat × Nat :=
  let b0 := first / 16
  let nb := (first + count - 1) / 16 - b0 + 1
  let l0 := b0 * P / 8
  let l1 := ((b0 + nb) * P - 1) / 8
  (b0, nb, l0, l1 - l0 + 1)

/-- How many blocks of a span lie wholly or partly in its first k lines. -/
def blocksTouched (P first count k : Nat) : Nat :=
  let g := blockSpan P first count
  if k = 0 then 0 else min g.2.1 ((8 * (g.2.2.1 + k) - 1) / P - g.1 + 1)

/-- Whether an entry takes one of the 64 entries of the descriptor queue: riders go with their neighbours. -/
def Desc.counts (d : Desc) : Bool := match d.kind with | .rider _ => false | .barrier _ => false | _ => true

/-- Entries of the descriptor queue taken, released and provisional together. -/
def Site.queued (x : Site) : Nat := (x.queue.filter Desc.counts).length

/-- Released entries of the descriptor queue. -/
def Site.released (x : Site) : Nat := (x.queue.filter fun d => d.counts && d.released).length

/-- Released entries of the descriptor queue that are of vectors, pattern or hold (R136). -/
def Site.releasedVecs (x : Site) : Nat :=
  (x.queue.filter fun d => d.released && (match d.kind with
    | .stream _ _ | .repeat _ | .literal .. | .block _ _ | .hold _ | .until _ => true
    | .period _ | .tset _ | .barrier _ | .rider _ => false)).length

/-- Run entries held. -/
def Site.runCount (x : Site) : Nat :=
  (x.runs.filter fun r => match r.kind with | .rider _ => false | .barrier _ => false | _ => true).length

/-! ### Taking a descriptor (R134, R172, R173) -/

/-- What a run entry does to the pins of its site as the fetch unit takes it: the slots and words of serial pins, each for the session that
the entry last taken on the pin will start. -/
def State.takePins (s : State) (n serial : Nat) (k : DescKind) : State :=
  match k with
  | .rider (.serialEnter c) =>
    match s.serialCfg n c with
    | none => s
    | some g =>
      s.each (s.cfgPins n g) fun s p =>
        if (s.pin p).fetchCfg = some c then s
        else s.modPin p fun q => { q with
          fetchCfg := some c, fetchNo := q.fetchNo + 1,
          feeds := if g.src = 3 then q.feeds ++ [{ no := q.fetchNo + 1, cfg := c, base := g.base, words := g.words, loop := g.loop }]
            else q.feeds }
  | .rider (.serialLeave c) =>
    match s.serialCfg n c with
    | none => s
    | some g => s.each (s.cfgPins n g) fun s p =>
        if (s.pin p).fetchCfg = some c then s.modPin p fun q => { q with fetchCfg := none } else s
  | .literal d _ _ _ slot =>
    match (s.sitePins n)[slot]? with
    | none => s
    | some p =>
      match (s.pin p).fetchCfg.bind (s.serialCfg n) with
      | some g => if g.src = 4 then s.modPin p fun q => { q with words := q.words ++ [{ word := d, run := serial, sess := q.fetchNo }] } else s
      | none => s
  | _ => s

/-- Pins that stream serial data and take no slot of a STREAM run (R172). -/
def State.streamingPins (s : State) (n : Nat) : List Nat :=
  (s.sitePins n).filter fun p =>
    match (s.pin p).fetchCfg.bind (s.serialCfg n) with | some g => g.src == 3 | none => false

/-- Whether the word queue of a MICRO pin stops the fetch unit at a literal (R173). -/
def State.wordsFull (s : State) (n : Nat) (k : DescKind) : Bool :=
  match k with
  | .literal _ _ _ _ slot =>
    match (s.sitePins n)[slot]? with
    | some p => decide ((s.pin p).words.length ≥ 32) &&
        (match (s.pin p).fetchCfg.bind (s.serialCfg n) with | some g => g.src == 4 | none => false)
    | none => false
  | _ => false

/-- The descriptor at the head of the queue made a run entry (R134). -/
def State.takeHead (s : State) (n : Nat) : State :=
  let x := s.site n
  match x.queue with
  | [] => s
  | d :: rest =>
    let r : Run := { kind := d.kind, epoch := d.epoch, taint := d.taint, serial := x.runSerial, flip := d.flip,
                     skip := s.streamingPins n }
    (s.setSite n { x with queue := rest, runs := x.runs ++ [r], runSerial := x.runSerial + 1 }).takePins n x.runSerial d.kind

/-- Entries at the head of the queue that need no run FIFO entry go with the descriptor before them. -/
def State.takeFree (s : State) (n : Nat) : Nat → State
  | 0 => s
  | k + 1 =>
    match (s.site n).queue with
    | d :: _ => if d.released && !d.counts then (s.takeHead n).takeFree n k else s
    | [] => s

/-- DESCRIPTOR_TAKE (R134): the fetch unit takes the site's next released descriptor into a free run entry. -/
def execDescriptorTake (n : SiteId) (s : State) : Out :=
  let s := s.takeFree n (s.site n).queue.length
  let x := s.site n
  match x.queue with
  | [] => .next s
  | d :: _ =>
    if d.released ∧ x.runCount < 256 ∧ !s.wordsFull n d.kind then
      let s := s.takeHead n
      .next (s.takeFree n (s.site n).queue.length)
    else .next s

/-! ### Fetch state (R137) -/

/-- Slots of a pin held: vector slots, and the stream codewords behind them (R153, R172). -/
def Pin.slotsHeld (q : Pin) : Nat := q.fifo.length + (q.feeds.map (·.fifo.length)).sum

/-- Slots of a pin that are held or reserved for a line read in flight. -/
def State.slotsTaken (s : State) (n p : Nat) : Nat :=
  let x := s.site n
  let P := s.pinCount n
  (s.pin p).slotsHeld + ((s.pin p).feeds.map fun f => 8 * f.issued - f.delivered).sum + ((x.runs.map fun r =>
    match r.kind with
    | .stream f c => if r.skip.contains p then 0 else blocksTouched P f c r.issued - r.delivered
    | _ => 0).sum)

/-- Slots held per pin of a site: the pins take and free them together, and what a pin streams is not counted. -/
def State.fill (s : State) (n : Nat) : Nat :=
  ((s.sitePins n).map fun p => (s.pin p).fifo.length).foldl max 0

/-- The fetch state of R137 from its last state, fill and lead; `ready` makes a low lead ON and not URGENT. -/
def State.fetchNext (s : State) (old fill lead : Nat) (ready : Bool) : Nat :=
  if lead < s.nInForce 0x6000 1 then (if ready then 1 else 2)
  else if 100 * fill ≥ 512 * s.nInForce 0x6000 3 then 0
  else if 100 * fill < 512 * s.nInForce 0x6000 2 then 1
  else if old = 2 then 1
  else old

/-- The fetch state of a site now: lead as at the last tick, fill as at this beat. (log 51, DEDUCED) -/
def State.fetchState (s : State) (n : Nat) : Nat :=
  let x := s.site n
  s.fetchNext x.play.fetch (s.fill n) (x.play.lead.getD 0xFFFF) (x.st == .ready)

/-- Whole frames of stream bits that a pin holds for a session (R172). -/
def State.streamLead (s : State) (n : Nat) (f : Feed) : Nat :=
  match s.serialCfg n f.cfg with
  | none => 0
  | some c => f.fifo.length * 64 * c.ui / (320000 * 65536)

/-! ### Line reads (R134, R138) -/

/-- The fetch state of a stream of pin p: lead as at the last tick, fill as at this beat. -/
def State.feedState (s : State) (n p : Nat) (f : Feed) : Nat :=
  s.fetchNext f.fetch (s.pin p).slotsHeld (f.lead.getD 0xFFFF) ((s.site n).st == .ready)

/-- Lines of a stream. -/
def Feed.lines (f : Feed) : Nat := (f.words + 7) / 8

/-- Whether a stream may issue its next line until its session ends: eight slots reserved, and a line left, or the stream restarts (R172). -/
def State.feedReady (s : State) (n p : Nat) (f : Feed) : Bool :=
  (f.loop || decide (f.issued < f.lines)) && decide (s.slotsTaken n p + 8 ≤ 512)

/-- The first run of a site with a line to read for which every pin has its slots reserved. -/
def State.runReady (s : State) (n : Nat) : Option Run :=
  let P := s.pinCount n
  let x := s.site n
  match x.runs.find? fun r => match r.kind.fetched with
      | some (f, c) => decide (r.issued < (blockSpan P f c).2.2.2)
      | none => false with
  | none => none
  | some r =>
    match r.kind with
    | .stream f c =>
      let more := blocksTouched P f c (r.issued + 1) - blocksTouched P f c r.issued
      if (s.sitePins n).all fun p => r.skip.contains p || decide (s.slotsTaken n p + more ≤ 512) then some r else none
    | _ =>
      let busy := x.runs.any fun y => decide (y.serial ≠ r.serial) && (match y.kind with | .block _ _ => y.issued > 0 | _ => false)
      if busy then none else some r

/-- Whether a line that has arrived waits in the reorder buffer for an earlier one of its run or stream (R134). -/
def State.waitsFor (s : State) (who : Reader) (line : Nat) : Bool := s.reads.any fun r => r.who == who && decide (r.line < line)

/-- The lines of memory channel c in its reorder buffer (R133). -/
def State.reordered (s : State) (c : Nat) : Nat :=
  let ofRun (n : Nat) (r : Run) : Nat :=
    let l0 := match r.kind.fetched with | some (f, k) => (blockSpan (s.pinCount n) f k).2.2.1 | none => 0
    (r.arrived.filter fun e => s.waitsFor (.run n r.serial) e.1 &&
      (s.memPlace (s.nreg (siteObj n 1) 4 + 64 * (l0 + e.1))).1 == c).length
  let ofFeed (p : Nat) (f : Feed) : Nat :=
    (f.arrived.filter fun e => s.waitsFor (.stream p f.no) e.1 && (s.memPlace (f.base + 64 * (e.1 % f.lines))).1 == c).length
  (s.sites.map fun e => (e.2.runs.map (ofRun e.1)).sum).sum + (s.pins.map fun e => (e.2.feeds.map (ofFeed e.1)).sum).sum

/-- Whether crossing X1 and the reorder buffer of the channel of an address have room for one more line of eight codewords, 128 each (R133,
R141). (log 119, DEDUCED) -/
def State.readRoom (s : State) (addr : Nat) : Bool :=
  let c := (s.memPlace addr).1
  decide ((s.reads.filter fun r => (s.memPlace r.addr).1 == c).length + s.reordered c < 16)

/-- A source of line reads: fetch state, lead, site, the address of its next line, and the pin and session of a stream. -/
structure Source where
  state : Nat
  lead : Nat
  site : Nat
  addr : Nat
  feed : Option (Nat × Nat) := none
  deriving DecidableEq, Repr

/-- The next line of a run. -/
def State.runAddr (s : State) (n : Nat) (r : Run) : Nat :=
  match r.kind.fetched with
  | some (f, c) => s.nreg (siteObj n 1) 4 + 64 * ((blockSpan (s.pinCount n) f c).2.2.1 + r.issued)
  | none => 0

/-- The sources that may issue a line read now. -/
def State.sources (s : State) : List Source :=
  (siteNos.map fun n =>
    let x := s.site n
    if !(x.st.busy || x.playout) || x.play.dead then []
    else
      let a := match s.runReady n with
        | some r => if s.fetchState n ≠ 0 then
            [({ state := s.fetchState n, lead := x.play.lead.getD 0xFFFF, site := n, addr := s.runAddr n r } : Source)] else []
        | none => []
      let b := ((s.sitePins n).map fun p => (s.pin p).feeds.filterMap fun f =>
        if s.feedState n p f ≠ 0 ∧ s.feedReady n p f then
          some ({ state := s.feedState n p f, lead := f.lead.getD 0xFFFF, site := n, addr := f.base + 64 * (f.issued % f.lines),
                  feed := some (p, f.no) } : Source)
        else none).flatten
      (a ++ b).filter fun o => s.readRoom o.addr).flatten

/-- Whether a source goes before another (R138): URGENT first, lowest lead first, then the lower site. -/
def Source.before (a b : Source) : Bool :=
  if a.state ≠ b.state then a.state > b.state
  else if a.lead ≠ b.lead then a.lead < b.lead
  else a.site < b.site

/-- The fetch states of a site and of its streams taken as they stand (R137). -/
def State.noteFetch (s : State) (n : Nat) : State :=
  let s := s.modSite n fun x => { x with play := { x.play with fetch := s.fetchState n } }
  s.each (s.sitePins n) fun s p => if (s.pin p).feeds.isEmpty then s else
    s.modPin p fun q => { q with feeds := q.feeds.map fun f => { f with fetch := s.feedState n p f } }

/-- The first of several sources. -/
def firstSource : List Source → Option Source
  | [] => none
  | a :: t => match firstSource t with
    | none => some a
    | some b => some (if b.before a then b else a)

/-- One line read issued for a source. -/
def State.issueRead (s : State) (o : Source) : State :=
  match o.feed with
  | some (p, no) =>
    match (s.pin p).feedOf no with
    | none => s
    | some f =>
      let s := s.modPin p fun q => q.setFeed { f with issued := f.issued + 1 }
      { s with reads := s.reads ++ [{ who := .stream p no, line := f.issued, addr := o.addr, urgent := o.state == 2 }] }
  | none =>
    match s.runReady o.site with
    | none => s
    | some r =>
      let s := s.modSite o.site fun x => { x with
        runs := x.runs.map fun y => if y.serial = r.serial then { y with issued := y.issued + 1 } else y }
      { s with reads := s.reads ++ [{ who := .run o.site r.serial, line := r.issued, addr := o.addr, urgent := o.state == 2 }] }

/-- LINE_READ_ISSUE (R138): the next line read of the eligible source that comes first. -/
def execLineReadIssue (s : State) : Out :=
  match firstSource s.sources with
  | none => .next s
  | some o =>
    .next ((s.noteFetch o.site).issueRead o)

/-! ### Delivery (R134) -/

/-- The codeword of slot k in block b, if its line has arrived. -/
def Run.codeword (r : Run) (P l0 b k : Nat) : Option Codeword :=
  let c := b * P + k
  match Table.get [] r.arrived (c / 8 - l0) with
  | [] => none
  | l => l[c % 8]?

/-- The codewords of a block for slots 0 to P - 1, if all have arrived. -/
def Run.blockOf (r : Run) (P l0 b : Nat) : Option (List Codeword) :=
  (List.range P).foldr (fun k a => match r.codeword P l0 b k, a with | some w, some l => some (w :: l) | _, _ => none)
    (some [])

/-- FIRST and LAST of block b of a run of vectors. -/
def nibbleSpan (first count b : Nat) : Nat × Nat :=
  (if b = first / 16 then first % 16 else 0,
   if b = (first + count - 1) / 16 then (first + count - 1) % 16 else 15)

/-- One block delivered to the pins that take slots. -/
def State.deliverBlock (s : State) (n : Nat) (r : Run) (first count b : Nat) (words : List Codeword) : State :=
  let g := nibbleSpan first count b
  s.each ((s.sitePins n).zip words) fun s e =>
    if r.skip.contains e.1 then s
    else
      let s := s.modPin e.1 fun q => { q with fifo := q.fifo ++ [{ word := e.2, first := g.1, last := g.2 }] }
      s.peak (0x6200 + e.1) 2 (s.pin e.1).slotsHeld

/-- A run changed by its serial number. -/
def State.modRun (s : State) (n serial : Nat) (f : Run → Run) : State :=
  s.modSite n fun x => { x with runs := x.runs.map fun r => if r.serial = serial then f r else r }

/-- The first run of a site with blocks still to deliver. -/
def State.openRun (s : State) (n : Nat) : Option Run :=
  let P := s.pinCount n
  (s.site n).runs.find? fun r => match r.kind.fetched with
    | some (f, c) => decide (r.delivered < (blockSpan P f c).2.1)
    | none => false

/-- Blocks that have arrived delivered in vector order, runs in order. -/
def State.deliver (s : State) (n : Nat) : Nat → State
  | 0 => s
  | fuel + 1 =>
    match s.openRun n with
    | none => s
    | some r =>
      match r.kind.fetched with
      | none => s
      | some (f, c) =>
        let P := s.pinCount n
        let g := blockSpan P f c
        let b := g.1 + r.delivered
        match r.blockOf P g.2.2.1 b with
        | none => s
        | some words =>
          let s := match r.kind with
            | .block _ _ => s.modSite n fun x => { x with block := x.block ++ [words] }
            | _ => s.deliverBlock n r f c b words
          let s := s.modRun n r.serial fun y =>
            { y with delivered := y.delivered + 1,
                     arrived := y.arrived.filter fun e => decide ((g.2.2.1 + e.1 + 1) * 8 > (b + 1) * P) }
          s.deliver n fuel

/-- The lines of a stream that have arrived in order passed on, cut at the end of the stream (R172). -/
def Feed.advance (f : Feed) : Nat → Feed
  | 0 => f
  | fuel + 1 =>
    let line := f.delivered / 8
    match Table.get [] f.arrived line with
    | [] => f
    | l =>
      let used := min 8 (f.words - 8 * (line % f.lines))
      { f with fifo := f.fifo ++ l.take used, delivered := f.delivered + 8, arrived := Table.erase f.arrived line }.advance fuel

/-- A line that has returned given to whoever waits for it. -/
def State.giveLine (s : State) (r : MemRead) (words : List Codeword) : State :=
  match r.who with
  | .run n serial =>
    (s.modRun n serial fun y => { y with arrived := Table.insert y.arrived r.line words }).deliver n 260
  | .stream p no =>
    match (s.pin p).feedOf no with
    | none => s
    | some f =>
      let s := s.modPin p fun q => q.setFeed ({ f with arrived := Table.insert f.arrived r.line words }.advance 64)
      s.peak (0x6200 + p) 2 (s.pin p).slotsHeld

/-- The site a line read is for. -/
def State.readSite (s : State) (r : MemRead) : Nat :=
  match r.who with
  | .run n _ => n
  | .stream p _ => (s.pinSite p).getD 64

/-- The class of a line read (R138, R274). -/
def MemRead.cls (r : MemRead) : Nat := if r.urgent then 3 else 5

/-- LINE_READ_RETURN (R270, R273-R275): the i-th read outstanding returns with the error patterns of its attempts, where it is the one that
its subchannel serves next. A channel that is not serving returns nothing until it serves again, or is fenced. -/
def execLineReadReturn (i : Nat) (flips : List (BitVec 640)) (s : State) : Out :=
  match s.reads[i]? with
  | none => .next s
  | some r =>
    if !s.serves r.cls i r.addr then .next s
    else
      let s := s.passOlder r.cls i r.addr
      let s := { s with reads := s.reads.eraseIdx i }
      let w := s.takeLine r.addr flips
      let n := s.readSite r
      .next (((w.2.noteFetch n).giveLine r w.1).noteFetch n)

end Sys2Proof.Machine
end

