-- ==== Sys2Proof/Machine/Playback.lean ====
section
/-! DEFINITION. Playback: vectors placed on the timeline, parked pins, lead, starvation and resumption (R17, R44-R54, R135,
R136, R145-R149, R165). -/

namespace Sys2Proof.Machine

/-! ### Faults held by the thread (R83, R148) -/

/-- A fault held pending in a context until its boundary (R83): the first is kept, later ones are counted; the run is tainted
and a WAITC ends at once with Z cleared. -/
def State.holdFault (s : State) (c code : Nat) (pc : BitVec 16) : State :=
  let x := s.ctx c
  let s := match x.fault with
    | some _ => s.bump 0xD200 9
    | none => s.setCtx c { x with fault := some (code, pc), taint := true }
  let s := match x.owner with
    | some i => if (s.entry i).work.ofSite then s.taint (s.entry i).site else s
    | none => s
  s.cutWait c

/-- The last fault taken at a boundary recorded, of instruction i (R96). -/
def State.noteFault (s : State) (n c code i : Nat) (detect boundary : Nat) : State :=
  let l : List (Nat × Nat) := [(1, n), (2, code), (3, i), (4, detect), (5, boundary), (6, c), (7, s.now),
    (8, (s.ctx c).tainted)]
  s.each l fun s e => s.setNat 0x4020 e.1 e.2

/-- A fault of instruction i taken at the boundary of a vendor routine in context c (R62, R83, R96): the site is tainted from detection on. Its
addresses lie in the vendor half, whose contents are Gelurno's: free values. (log 35, DEDUCED) -/
def State.vendorFault (s : State) (n c code i : Nat) : State :=
  let a := s.free
  let b := a.2.free
  ((b.2.noteFault n c code i (a.1 % 32768) (b.1 % 32768)).taint n).faultSite n code i

/-- A fault of a site's thread that is at a boundary, at its present instruction: in a context it is taken there, otherwise by its entry (R83,
R148). -/
def State.threadFault (s : State) (n code : Nat) : State :=
  if (s.entry n).state = .placed then s.vendorFault n (s.entry n).context code (s.site n).thread.idx else s.faultHere n code

/-- A fault of the vector path (R148, R149): the pins park now as under HALT, and the site faults at the thread's boundary. -/
def State.pathFault (s : State) (n code : Nat) : State :=
  let s := s.cutSite n (s.tickTu n)
  if s.inRun n then
    let c := (s.entry n).context
    s.holdFault c code (s.ctx c).ms.pc
  else
    (s.threadFault n code).modSite n fun x => { x with haltAsked := false }

/-! ### The pin-side check (R149) -/

/-- A slot that plays PARK for `k` vectors. -/
def State.poisonSlot (s : State) (n p k : Nat) : State :=
  ((((s.bump 0x6000 7).bump (0x6200 + p) 4).count (0x6100 + n) 9 k).taintPath n).raise 1611

/-- The code that stands for PARK in place of a pin action code (R145). -/
def parkCode : Nat := 16

/-- A codeword checked before its first vector: the word to play from, a marked one where it is lost. -/
def State.checkSlot (s : State) (n p k : Nat) (w : Codeword) : Codeword × State :=
  match checkWord w with
  | .good _ => (w, s)
  | .corrected _ v => (v, ((s.bump 0x6000 6).bump (0x6200 + p) 3).raise 1610)
  | .bad _ => ({ w with poison := true }, s.poisonSlot n p k)

/-- Nibble j of a checked codeword. -/
def nibbleOf (w : Codeword) (j : Nat) : Nat := if w.poison then parkCode else bits w.data (4 * j + 3) (4 * j)

/-- The next pin action code of a pin's FIFO, its slot freed after the LAST nibble (R133, R135). -/
def State.popCode (s : State) (n p : Nat) : Nat × State :=
  match (s.pin p).fifo with
  | [] => (parkCode, s)
  | sl :: rest =>
    let c := if sl.checked then (sl.word, s) else s.checkSlot n p (sl.last + 1 - sl.first) sl.word
    let next := if sl.first ≥ sl.last then rest
      else { sl with word := c.1, first := sl.first + 1, checked := true } :: rest
    (nibbleOf c.1 sl.first, c.2.modPin p fun q => { q with fifo := next })

/-! ### Events of a vector on a pin (R165) -/

/-- The driver state of a drive action (R158). -/
def driveOf (action : Nat) (d : DriveState) : DriveState :=
  match action with
  | 1 => .low
  | 2 => .high
  | 3 => .off
  | _ => d

/-- One vector that starts: its number, start, timing set, fail epoch, and the MATCH iteration it belongs to. -/
structure Vec where
  no : Nat
  start : Nat
  set : Nat
  epoch : Nat
  iter : Option Nat := none
  deriving DecidableEq, Repr

/-- The strobes of a shape placed for a pin, with what the DUT shows; an instant nothing is listed for shows 0 µV. -/
def placeStrobes (v : Vec) (p : Nat) (inputs : List StrobeInput) (l : List (Nat × Nat)) : List Strobe :=
  l.zipIdx.map fun e =>
    let i := inputs.find? fun y => y.pin == p && y.strobe == e.2
    { time := v.start + e.1.1, pin := p, expected := e.1.2, vth := some ((i.map (·.vth)).getD 0),
      vtl := some ((i.map (·.vtl)).getD 0), nth := (i.map (·.nth)).getD 0, ntl := (i.map (·.ntl)).getD 0, vector := v.no, epoch := v.epoch, iter := v.iter }

/-- A slot of a pin plays PARK from t on (R149), which its open gates see (R253). -/
def State.parkSlot (s : State) (p t : Nat) : State := (s.modPin p fun q => q.parkSlot t true).parkGates t fun x => x.pins.contains p

/-- The timed events of one vector on one pin (R165, R185): a shape with an uncorrectable codeword plays that vector as PARK. A poisoned slot
leaves PARK as the code that a later REPEAT repeats. (log 163, DESIGN CHOICE) -/
def State.placeVec (s : State) (n p code : Nat) (v : Vec) (inputs : List StrobeInput) : State :=
  let s := s.modPin p fun q => { q with lastCode := code }
  if !(s.pin p).timed v.start then s
  else if code ≥ 16 then s.parkSlot p v.start
  else
    let l := (s.tset p v.set).shapes.getD code []
    let fixed := (l.filter fun w => match checkWord w with | .corrected _ _ => true | _ => false).length
    let s := if fixed > 0 then s.count (0x6300 + p) 4 fixed else s
    if l.any fun w => !(checkWord w).ok then ((s.bump (0x6300 + p) 5).parkSlot p v.start).poisonSlot n p 1
    else
      let sh := shapeOf l
      let s := s.modPin p fun q => { q.parkSlot v.start false with
        events := q.events ++ sh.drives.map fun e => (v.start + e.1, driveOf e.2 q.drive) }
      s.modSite n fun x => { x with strobes := x.strobes ++ placeStrobes v p inputs sh.strobes }

/-! ### Riders (R44) -/

/-- SERIAL entry and exit of a pin at t (R174, R175): an entry that a session answers already has no effect; an exit that finds an entry
still waiting for its vector ends the session that this would have started. -/
def Pin.serialRider (q : Pin) (c t : Nat) (entering : Bool) : Pin :=
  let here := match q.serial with | some x => x.cfg == c && x.exitAt.isNone | none => false
  if entering then (if here then q else { q with awaiting := some c })
  else if q.awaiting = some c then { q.dropSession (q.sessions + 1) with awaiting := none, sessions := q.sessions + 1 }
  else if here then { q with serial := q.serial.map fun x => { x with exitAt := some t } }
  else q

/-- SERIAL entry and exit at t on the pins of a configuration; a session whose vector has begun has started. -/
def State.serialRider (s : State) (n c t : Nat) (entering : Bool) : State :=
  match s.serialCfg n c with
  | none => s
  | some g =>
    s.each (s.cfgPins n g) fun s p =>
      let s := match (s.pin p).awaiting, (s.pin p).sessionAt with
        | some k, some b => s.serialStart n p k b
        | _, _ => s
      s.modPin p fun q => q.serialRider c t entering

/-- One effect that takes place at the start of a vector, or at a hold span where no vector follows. -/
def State.ride (s : State) (n t : Nat) (r : Rider) : State :=
  match r with
  | .cap action cls => s.capEffect n action cls t
  | .mark w => s.capEffect n 8 w.toNat t
  | .meas d _ => s.placeMeas d t
  | .trig u 0 => s.armUnit u
  | .trig u 1 => s.fireUnit u (some t)
  | .trig u _ => s.disarmUnit u
  | .serialEnter c => s.serialRider n c t true
  | .serialLeave c => s.serialRider n c t false

/-- Every pending effect of a site takes place: at t, the start of a pattern vector, or where none follows at the start of the hold span
that came first since, or at t (R44). -/
def State.rideAll (s : State) (n t : Nat) (atHold : Bool) : State :=
  let l := (s.site n).riders
  let s := s.modSite n fun x => { x with riders := [] }
  s.each l fun s r => s.ride n (if atHold then r.2.getD t else t) r.1

/-- Whether an entry of a run FIFO or descriptor queue is of pattern vectors. -/
def DescKind.pattern (k : DescKind) : Bool :=
  match k with
  | .stream _ _ | .repeat _ | .literal .. | .block _ _ => true
  | _ => false

/-- Whether no pattern vector of a run follows what has been played: the thread is at its SEAL or HALT, and none is queued (R44). -/
def Site.noVector (x : Site) : Bool :=
  (match x.drain with | some { kind := .seal _ _, .. } | some { kind := .halt, .. } => true | _ => x.playout)
    && x.runs.all (fun r => !r.kind.pattern) && x.queue.all (fun d => !d.kind.pattern)

/-- A hold span of a site begins at t: its pins park, and effects that no vector follows take place (R44, R49, R51). (log 120, DEDUCED) -/
def State.beginHold (s : State) (n t : Nat) : State :=
  let s := (s.park n t).modSite n fun x => { x with riders := x.riders.map fun r => (r.1, r.2.or (some t)) }
  if (s.site n).noVector then s.rideAll n t true else s

/-! ### Starting a vector -/

/-- What a pattern vector does before its events (R44, R174, R176): pending effects, sessions that wait for it, and sessions
that paused. -/
def State.beginVec (s : State) (n t : Nat) : State :=
  let s := s.rideAll n t false
  let s := s.each (s.sitePins n) fun s p =>
    let s := if (s.pin p).awaiting.isSome ∧ (s.pin p).sessionAt.isNone then s.modPin p fun q => { q with sessionAt := some t } else s
    s.serialResume n p t
  s.modSite n fun x => { x with play := x.play.park t false }

/-- A pattern vector counted: VECTORS, the accumulator, and its STROBE sample to come (R17, R211, R214). -/
def State.endVec (s : State) (n : Nat) (v : Vec) : State :=
  let x := s.site n
  let mine := x.strobes.filter fun y => y.vector == v.no && (s.pin y.pin).timed v.start
  let last := (mine.map (·.time)).foldl max v.start
  let mark : VecMark := { vector := v.no, time := v.start, due := commitTick x.f0 last, period := x.play.period,
                          block := v.iter.isSome, epoch := v.epoch }
  let sampled := (s.cap n).st = .capturing ∧ s.reg (capObj n) 1 = 0
  let fin := v.start + x.play.period
  let epochs := if x.play.epochs.head?.map (·.2) = some v.epoch then x.play.epochs else (v.start, v.epoch) :: x.play.epochs
  let periods := if x.play.periods.head?.map (·.2) = some x.play.period then x.play.periods else (v.start, x.play.period) :: x.play.periods
  s.setSite n { x with vecs := if sampled then x.vecs ++ [mark] else x.vecs
                       play := { x.play with tu := fin, vectors := x.play.vectors + 1, lastEnd := fin, epochs := epochs, periods := periods } }

/-- The vector that starts next on a site. -/
def Site.nextVec (x : Site) (r : Run) (iter : Option Nat) : Vec :=
  { no := x.play.vectors, start := x.play.tu, set := x.play.tset, epoch := r.epoch, iter := iter }

/-- One pattern vector with a code for each pin (R165): `codes` answers the code and the state after it is read. -/
def State.playVec (s : State) (n : Nat) (r : Run) (iter : Option Nat) (inputs : List StrobeInput)
    (codes : State → Nat → Nat → Nat × State) : State :=
  let v := (s.site n).nextVec r iter
  let s := s.beginVec n v.start
  let s := s.each (s.sitePins n).zipIdx fun s e =>
    let c := codes s e.2 e.1
    c.2.placeVec n e.1 c.1 v inputs
  s.endVec n v

/-- The head run of a site replaced. -/
def State.setHead (s : State) (n : Nat) (f : Run → Option Run) : State :=
  s.modSite n fun x => match x.runs with
    | [] => x
    | r :: t => { x with runs := match f r with | some y => y :: t | none => t }

/-- The head run after one vector more of `count`. -/
def Run.stepped (count : Nat) (r : Run) : Option Run := if r.done + 1 ≥ count then none else some { r with done := r.done + 1 }

/-- Vectors of a STREAM run that are held. -/
def Run.held (P : Nat) (r : Run) (first count : Nat) : Nat :=
  if r.delivered ≥ (blockSpan P first count).2.1 then count else min count (16 * (first / 16 + r.delivered) - first)

/-- The word of a literal gets the start of its first vector (R173). -/
def stampWord (serial t : Nat) (l : List QWord) : List QWord := l.map fun w => if w.run = serial then { w with start := some t } else w

/-- Whether a pin of site n is, for a vector that starts at t, in a session with a MICRO source, which a literal's A0 and A1 do not concern
(R173). -/
def State.microPin (s : State) (n p t : Nat) : Bool :=
  let q := s.pin p
  let cfg := q.awaiting.or (q.serial.map (·.cfg))
  !q.timed t && (match cfg.bind (s.serialCfg n) with | some g => g.src == 4 | none => false)

/-- The code of a literal's vector k on the pin of a slot (R78); every other pin repeats its last code. -/
def literalCode (data : Word32) (a1 a0 count k : Nat) : Nat := if bit data (count - 1 - k) then a1 else a0

/-- The code of vector i of the MATCH block on slot k; a codeword is checked before its first vector in an iteration (R149). -/
def State.blockCode (s : State) (n p first len i k : Nat) : Nat × State :=
  let words := (s.site n).block.getD ((first + i) / 16 - first / 16) []
  let fresh := i = 0 ∨ (first + i) % 16 = 0
  match checkWord (words.getD k { poison := true }) with
  | .good d => (bits d (4 * ((first + i) % 16) + 3) (4 * ((first + i) % 16)), s)
  | .corrected d _ =>
    (bits d (4 * ((first + i) % 16) + 3) (4 * ((first + i) % 16)),
      if fresh then ((s.bump 0x6000 6).bump (0x6200 + p) 3).raise 1610 else s)
  | .bad _ => (parkCode, if fresh then s.poisonSlot n p (min (len - i) (16 - (first + i) % 16)) else s)

/-- The HOLD marker that a capture owes for a span which ends at a time (R215). -/
def State.holdMarker (s : State) (n span t : Nat) : State :=
  let c := s.cap n
  if c.st ≠ .idle ∧ span > 0 then s.setCap n { c with pend := c.pend ++ [(2, span, t)] } else s

/-- A hold vector of at most 4,294,967,295 tu started (R49): the pins park; `span` is what is left of the hold span. -/
def State.playHold (s : State) (n span : Nat) : State :=
  let h := min span 4294967295
  let x := s.site n
  let s := (s.beginHold n x.play.tu).holdMarker n h (x.play.tu + h)
  let s := s.modSite n fun y => { y with play := { y.play with
    tu := y.play.tu + h, holdTu := y.play.holdTu + h, lastEnd := y.play.tu + h } }
  s.setHead n fun r => if span - h = 0 then none else some { r with kind := .hold (span - h) }

/-- The first raw beat whose start has reached a time, in units of 2^-16 ns (R381). -/
def beatAt (t : NetTime) (target : Int) : Int :=
  let d := (target - t.t0) * 1000 * 2 ^ 48 / (1250 * 65536 * (2 ^ 48 + t.rate)) + t.c0
  ((List.range 8).map fun (k : Nat) => d - 3 + (k : Int)).find? (fun b => timeAt t b ≥ target) |>.getD (d + 4)

/-- Beats since the epoch as a time. -/
def timeOfBeats (b : Nat) : Int := (b * 1250 * 65536 : Nat) / 1000

/-- The hold span of a WAIT on PTP time, fixed when playback reaches it, and whether it is late (R54, R381). (log 53, DEDUCED) -/
def State.untilSpan (s : State) (n b : Nat) : Nat × Bool :=
  let x := s.site n
  let t : Int := (beatAt s.time (timeOfBeats b) - s.rawOf x.f0) * 5000
  ((t - (x.play.tu : Int)).toNat, decide (t < (x.play.tu : Int)))

/-- FLAGS.LATE and LATE_WAITS of a WAIT reached. -/
def State.markLate (s : State) (n : Nat) (late : Bool) : State :=
  let s := s.modSite n (·.flag flagLate late)
  if late then s.bump (siteObj n 3) 8 else s

/-- An iteration of a MATCH starts, in the frame before a tick: MATCH_ITER counts it (R34, R52). -/
def State.nextIter (s : State) (n serial first : Nat) : State :=
  match (s.site n).mtch with
  | some m =>
    (s.setNat (siteObj n 3) 7 (m.iters + 1)).modSite n fun y => { y with
      mtch := some { m with iters := m.iters + 1, base := serial, firstTick := m.firstTick.or (some first) } }
  | none => s

/-- Whether a site's playback may go on: it plays, or plays on until the tick at which a fault parks it, and it is neither starved nor cut. -/
def Site.playing (x : Site) : Bool := (x.st.live || x.playout || x.haltAsked) && x.play.starvedFrom.isNone && !x.play.dead

/-- The next vector of a site started, if it is held and starts before `limit` tu; effects of no length at the head of the
run FIFO are taken on the way. -/
def State.startNext (s : State) (n limit : Nat) (inputs : List StrobeInput) : Nat → Option State
  | 0 => none
  | fuel + 1 =>
    let x := s.site n
    if !x.playing ∨ x.play.tu ≥ limit then none
    else match x.runs with
      | [] => none
      | r :: _ =>
        if flipResult r.flip = 2 then none
        else match r.kind with
          | .rider e => ((s.modSite n fun y => { y with riders := y.riders ++ [(e, none)] }).setHead n fun _ => none).startNext n limit inputs fuel
          | .period p => ((s.modSite n fun y => { y with play := { y.play with period := p } }).setHead n fun _ => none).startNext n limit inputs fuel
          | .tset k => ((s.modSite n fun y => { y with play := { y.play with tset := k } }).setHead n fun _ => none).startNext n limit inputs fuel
          | .barrier _ => none
          | .hold span =>
            if span = 0 then (s.setHead n fun _ => none).startNext n limit inputs fuel else some (s.playHold n span)
          | .until b =>
            let u := s.untilSpan n b
            ((s.markLate n u.2).setHead n fun y => some { y with kind := .hold u.1 }).startNext n limit inputs fuel
          | .stream f c =>
            if r.done < r.held (s.pinCount n) f c then
              some ((s.playVec n r none inputs fun s _ p => if r.skip.contains p then ((s.pin p).lastCode, s) else s.popCode n p).setHead n (Run.stepped c))
            else none
          | .repeat c => some ((s.playVec n r none inputs fun s _ p => ((s.pin p).lastCode, s)).setHead n (Run.stepped c))
          | .literal d a1 a0 c slot =>
            let s := if r.done = 0 then match (s.sitePins n)[slot]? with
              | some p => s.modPin p fun q => { q with words := stampWord r.serial x.play.tu q.words }
              | none => s
              else s
            some ((s.playVec n r none inputs fun s k p =>
              if k = slot ∧ !s.microPin n p x.play.tu then (literalCode d a1 a0 c r.done, s) else ((s.pin p).lastCode, s)).setHead n (Run.stepped c))
          | .block f len =>
            let stopped : Bool := match r.stop with | some e => decide (e ≤ x.play.tu) | none => false
            if r.done % len = 0 ∧ stopped then
              ((s.setHead n fun _ => none).modSite n fun y => { y with block := [] }).startNext n limit inputs fuel
            else if x.block.length < (blockSpan (s.pinCount n) f len).2.1 then none
            else
              let i := r.done % len
              let first := x.f0 + (x.play.tu + 319999) / 320000
              let s := if i = 0 then s.nextIter n r.serial first else s
              some ((s.playVec n r (some (r.serial * 2 ^ 32 + r.done / len)) inputs fun s k p => s.blockCode n p f len i k).setHead n fun y =>
                some { y with done := y.done + 1 })

/-- How many entries of a run FIFO may be passed before a vector starts. -/
def Site.fuel (x : Site) : Nat := 2 * x.runs.length + 4

/-- VECTOR_START (R135, R165): the next held vector of a site starts, in the frame now open. (log 10, DESIGN CHOICE) -/
def execVectorStart (n : SiteId) (inputs : List StrobeInput) (s : State) : Out :=
  match s.startNext n (s.frameEnd n) inputs (s.site n).fuel with
  | some t => .next t
  | none => .next s

/-! ### Lead (R136) -/

/-- What is held of a site whose first tick is f0: the time of the first vector that is not held, or the end of the last held vector, and
whether every vector released is held. The walk ends at a barrier while the site waits at it; `due` lets it pass one whose tick has come. -/
def State.walkHeld (s : State) (n f0 : Nat) (due : Bool) : Nat → Nat → List Run → Nat × Bool
  | t, _, [] => (t, (s.site n).releasedVecs = 0)
  | t, p, r :: rest =>
    match r.kind with
    | .period q => s.walkHeld n f0 due t q rest
    | .hold h => s.walkHeld n f0 due (t + h) p rest
    | .until b =>
      let u : Int := (beatAt s.time (timeOfBeats b) - s.rawOf f0) * 5000
      s.walkHeld n f0 due (max t u.toNat) p rest
    | .stream f c =>
      let h := r.held (s.pinCount n) f c
      if h ≥ c then s.walkHeld n f0 due (t + (c - r.done) * p) p rest else (t + (h - r.done) * p, false)
    | .repeat c => s.walkHeld n f0 due (t + (c - r.done) * p) p rest
    | .literal _ _ _ c _ => s.walkHeld n f0 due (t + (c - r.done) * p) p rest
    | .block f len =>
      if (s.site n).block.length ≥ (blockSpan (s.pinCount n) f len).2.1 then s.walkHeld n f0 due t p rest else (t, false)
    | .barrier k =>
      let e := max k (f0 + (t + 319999) / 320000)
      if (s.site n).st = .waiting ∧ !(due ∧ e ≤ s.now) then (t, true) else s.walkHeld n f0 due ((e - f0) * 320000) p rest
    | .tset _ | .rider _ => s.walkHeld n f0 due t p rest

/-- The first tick of a site: that of its start, or the tick now in force for a site that has yet to start (R9). -/
def State.firstTick (s : State) (n : Nat) : Nat := if (s.site n).st = .ready then s.now else (s.site n).f0

/-- What is held of a site whose next vector is placed at t. -/
def State.heldFrom (s : State) (n : Nat) (due : Bool) (t : Nat) : Nat × Bool :=
  s.walkHeld n (s.firstTick n) due t (s.site n).play.period (s.site n).runs

/-- The held span of a site now. -/
def State.heldSpan (s : State) (n : Nat) : Nat × Bool := s.heldFrom n false (s.site n).play.tu

/-- L of a held span at tick T (R136): 0xFFFF where every vector released is held and the site waits or plays out. -/
def State.leadOf (s : State) (n : Nat) (h : Nat × Bool) (waits : Bool) : Nat :=
  let x := s.site n
  if x.st = .ready then min 0xFFFE (h.1 / 320000)
  else if (waits ∨ x.playout) ∧ h.2 then 0xFFFF
  else min 0xFFFE ((h.1 - s.tickTu n) / 320000)

/-- L at tick T as starvation is judged before the resume tick of a drain point is taken. -/
def State.leadNow (s : State) (n : Nat) : Nat := s.leadOf n (s.heldSpan n) ((s.site n).st == .waiting)

/-! ### Starting, starving and resuming -/

/-- Whether a thread waits at a drain point. -/
def Site.draining (x : Site) : Bool := x.drain.isSome

/-- Whether every vector that would start in the frame opening at tick tu `t` is held, the next one placed at t. -/
def State.frameHeld (s : State) (n t : Nat) : Bool :=
  let x := s.site n
  let h := s.heldFrom n false t
  decide (h.1 ≥ t + 320000) || ((x.draining || x.st == .waiting || x.playout) && h.2)

/-- Entry to RUNNING from READY (R9, R76, R152, R195, R428): the run's counts cleared, and flagged as clocks and supplies
stand (R11, R207, R460). -/
def State.enterRunning (s : State) (n : Nat) : State :=
  let s := s.clearCompare n
  let s := (s.setNat (0x6100 + n) 7 0).modSite n fun x => { x with
    f0 := s.now, scratch := [], identity := [], startTime := toTime80 s.localTime, worst := s.time.quality.rank,
    startAsked := false, play := { x.play with tu := 0 } }
  let s := if s.clk.ref ≠ .present then s.modSite n (·.flag flagRefclk true) else s
  let s := if s.clk.longHoldover ∨ s.therm.range ∨ !s.handler.supply.isEmpty ∨ (List.range 9).any s.supplyOut then s.taint n else s
  let s := s.enter n .running
  let s := if (s.site n).draining then s.enter n .waiting else s
  s.showSite n

/-- START_TAKES_EFFECT (R9, R381): the first tick at which any START_TIME is reached and the first frame is held; a site whose
thread has released all it will before a drain point starts with that. A spanning site stays READY while the phase of its chain is not
aligned (R25). (log 15, DEDUCED) -/
def execStartTakesEffect (n : SiteId) (s : State) : Out :=
  let x := s.site n
  let t := s.nreg (siteObj n 0) 3
  let ready := s.frameHeld n 0
  if x.st = .ready ∧ x.startAsked ∧ (t = 0 ∨ s.localTime ≥ ofTime80 t) ∧ ready ∧ (s.spans n → s.reg 0xA100 5 = 2) then .next (s.enterRunning n)
  else .next s

/-- STARVE_CAUSE (R115); `issued` says whether the thread has issued in the previous frame. -/
def State.starveCause (s : State) (n : Nat) (issued : Bool) : Nat :=
  if (s.site n).releasedVecs > 0 ∨ !(s.heldSpan n).2 then 1
  else if ((s.entry n).state = .ready ∨ (s.entry n).state = .placed) ∧ (s.entry n).since < s.now ∧ !issued then 2
  else 3

/-- One tick at which a site is starved (R115). -/
def State.countStarve (s : State) (n : Nat) (issued : Bool) : State :=
  ((s.bump (0x5100 + n) 6).setNat (0x5100 + n) 7 (s.starveCause n issued)).raise 1604

/-- A site starved at the tick now in force (R61, R147, R148). -/
def State.starve (s : State) (n : Nat) (issued : Bool) : State :=
  let x := s.site n
  let s := s.countStarve n issued
  let park (s : State) : State :=
    (s.beginHold n x.play.tu).modSite n fun y => { y with play := { y.play with starvedFrom := some y.play.tu } }
  if x.playout then
    ((park s).dropPath n).modSite n fun y => { y with play := { y.play with starvedFrom := none } }
  else if s.spans n then (s.sendAbort n 2 s.abortTick).pathFault n 0x0030
  else match s.nreg (0x6100 + n) 1 with
    | 2 => s.pathFault n 0x0030
    | 1 => park s
    | _ => (park s).taint n

/-- Whether a starved site may resume at the tick now in force (R147). -/
def State.starveOver (s : State) (n : Nat) : Bool :=
  match (s.site n).play.starvedFrom with
  | some e => decide (s.tickTu n ≥ e) && s.frameHeld n (s.tickTu n)
  | none => false

/-- Whether a resume tick of a drain point has come: the barrier stands behind nothing but effects of no length (R51). -/
def Site.resumeDue (x : Site) (now : Nat) : Bool :=
  x.st == .waiting && (match x.runs.dropWhile (Run.flat x.play.tu) with
    | { kind := .barrier k, .. } :: _ => decide (max k (x.f0 + (x.play.tu + 319999) / 320000) ≤ now)
    | _ => false)

/-- L at tick T (R136), what resumes at this very tick resumed: a starved site whose first unplayed vector starts at T, and the continuation of a
drain point. -/
def State.leadShown (s : State) (n : Nat) : Nat :=
  let x := s.site n
  let barriers := (x.runs.filter fun r => match r.kind with | .barrier _ => true | _ => false).length
  if x.play.starvedFrom.isSome then (if s.starveOver n then s.leadOf n (s.heldFrom n true (s.tickTu n)) (x.st == .waiting) else 0)
  else if x.resumeDue s.now then s.leadOf n (s.heldFrom n true x.play.tu) (x.draining || decide (barriers ≥ 2))
  else s.leadNow n

/-- The first unplayed vector of a starved site placed at the tick now in force (R147). -/
def State.unstarve (s : State) (n : Nat) : State :=
  match (s.site n).play.starvedFrom with
  | none => s
  | some e =>
    let t := s.tickTu n
    let s := s.holdMarker n (t - e) t
    let s := s.count (0x6100 + n) 7 (t - e)
    s.modSite n fun x => { x with play := { x.play with
      starvedFrom := none, tu := t, holdTu := x.play.holdTu + (t - e), starveTu := x.play.starveTu + (t - e) } }

/-- STARVE_RESUME (R147). -/
def execStarveResume (n : SiteId) (s : State) : Out :=
  if s.starveOver n ∧ (s.site n).st.live then .next (s.unstarve n) else .next s

/-- Whether the run entry at the head of a site's run FIFO fails its check (R149). -/
def Site.headBad (x : Site) : Bool := match x.runs with | r :: _ => flipResult r.flip == 2 | [] => false

/-- The run entry at the head checked and starvation judged for a site at the tick now in force (R136, R149): RUN_LOST parks the pins from this
tick. A site whose timeline has been cut has nothing to play. (log 52, DEDUCED; log 164, DESIGN CHOICE) -/
def State.judgeLead (s : State) (n : Nat) (issued : Bool) : State :=
  let x := s.site n
  if x.play.dead then s.dropPath n
  else if x.headBad ∧ (x.st.busy ∨ x.playout) then s.pathFault n 0x0031
  else if x.play.starvedFrom.isSome then (if s.starveOver n then s else s.countStarve n issued)
  else if (x.st.live ∨ x.playout) ∧ s.leadNow n = 0 then s.starve n issued
  else s

/-- The resume tick of a drain point reached (R51): the hold span from the end of the last vector ends, and the site returns
to RUNNING unless its thread is at another drain point; events placed directly after the drain point are raised (R44). -/
def State.resumeSite (s : State) (n tick : Nat) : State :=
  let x := s.site n
  let t := (max tick (x.f0 + (x.play.tu + 319999) / 320000) - x.f0) * 320000
  let h := t - x.play.tu
  let s := (if h > 0 then s.beginHold n x.play.tu else s).holdMarker n h t
  let due := x.atResume.filter fun e => decide (e.1 ≤ tick)
  let s := s.modSite n fun y => { y with atResume := y.atResume.filter fun e => !decide (e.1 ≤ tick), play := { y.play with tu := t, holdTu := y.play.holdTu + h } }
  let s := (s.each (due.map (·.2)) State.raise).setHead n fun _ => none
  let y := s.site n
  let again := y.draining || y.runs.any fun r => match r.kind with | .barrier _ => true | _ => false
  if y.st = .waiting ∧ !again then s.enter n .running else s

/-- The tick of the barrier at the head of the run FIFO, once the vectors before it have been started and every entry of no
length before it taken. -/
def Site.barrier (x : Site) : Option Nat :=
  match x.runs with
  | { kind := .barrier k, .. } :: _ => some (max k (x.f0 + (x.play.tu + 319999) / 320000))
  | _ => none

/-- Entries of no length at the head of the run FIFO taken, so that a barrier behind them is seen; one that fails its check stays (R149). -/
def State.skipFlat (s : State) (n : Nat) : Nat → State
  | 0 => s
  | fuel + 1 =>
    match (s.site n).runs with
    | [] => s
    | r :: _ =>
      if flipResult r.flip = 2 ∨ !r.flat (s.site n).play.tu then s
      else
        let s := match r.kind with
          | .rider e => s.modSite n fun y => { y with riders := y.riders ++ [(e, none)] }
          | .period p => s.modSite n fun y => { y with play := { y.play with period := p } }
          | .tset k => s.modSite n fun y => { y with play := { y.play with tset := k } }
          | _ => s.modSite n fun y => { y with block := [] }
        (s.setHead n fun _ => none).skipFlat n fuel

/-- Whether a site in play-out has nothing left to play, so that its pins park from the end of its last vector (R61, R146). -/
def Site.spent (x : Site) : Bool :=
  x.playout && !x.play.parked && (x.runs.dropWhile (Run.flat x.play.tu)).isEmpty && (x.queue.dropWhile Desc.flat).isEmpty

/-- Where nothing more of a site starts in the frame now closing, its pins park: a run entry that fails its check at the head of the FIFO
(R149), the hold span of a drain point, or the end of a play-out. -/
def State.settleEnd (s : State) (n : Nat) : State :=
  let x := s.site n
  if ((x.headBad && x.playing) || x.drainHold || (x.runs.isEmpty && x.spent)) ∧ x.play.tu < s.frameEnd n then s.beginHold n x.play.tu else s

/-- RESUME_TICK (R51): at the resume tick the continuation starts. -/
def execResumeTick (n : SiteId) (s : State) : Out :=
  let s1 := s.skipFlat n (s.site n).fuel
  match (s1.site n).barrier with
  | some k =>
    if (s.site n).st = .waiting ∧ k ≤ s.now then
      let s2 := s1.resumeSite n k
      .next (s2.judgeLead n (s2.site n).issuedLast)
    else .next s
  | none => .next s

/-- Everything of a site that falls in the frame now closing and that no step has taken: its vectors start with nothing shown
at their strobes, and a resume tick that has come is taken. -/
def State.catchUp (s : State) (n : Nat) : Nat → State
  | 0 => s
  | fuel + 1 =>
    let s := s.skipFlat n (s.site n).fuel
    match (s.site n).barrier with
    | some k =>
      if (s.site n).st = .waiting ∧ k ≤ s.now then (s.resumeSite n k).catchUp n fuel else (s.parkDue n).settleEnd n
    | none =>
      match s.startNext n (s.frameEnd n) [] (s.site n).fuel with
      | some t => t.catchUp n fuel
      | none => (s.parkDue n).settleEnd n

end Sys2Proof.Machine
end

