-- ==== Sys2Proof/Machine/Thread.lean ====
section
/-! DEFINITION. What threads and tasks share: the choice of the issuing context, cycles and budgets, staging of descriptors,
boundaries and yields (R66-R69, R77, R82, R113, R114). -/

namespace Sys2Proof.Machine

/-! ### Which context issues (R66) -/

/-- The site whose thread or task a context runs, or of whose thread it finishes a run. -/
def State.ctxSite (s : State) (c : Nat) : Option Nat := ((s.ctx c).owner.map fun i => (s.entry i).site).or (s.ctx c).orphan

/-- Whether a context goes first: its thread holds a pending fault, a Convoy abort or a HALT that has taken effect, or has ended. -/
def State.pressing (s : State) (c : Nat) : Bool :=
  (s.ctx c).fault.isSome || (s.ctx c).orphan.isSome ||
    (match s.ctxSite c with
     | some n => !(s.ctx c).task && ((s.site n).abort.isSome || (s.site n).halted)
     | none => false)

/-- Whether READY context a is chosen before b: pressing ones, then the level, then the longest READY. -/
def State.choose (s : State) (a b : Nat) : Bool :=
  let x := s.ctx a; let y := s.ctx b
  let la := (x.owner.map fun i => (s.entry i).prio).getD 8
  let lb := (y.owner.map fun i => (s.entry i).prio).getD 8
  if s.pressing a ≠ s.pressing b then s.pressing a
  else if la ≠ lb then la < lb
  else if x.readySince ≠ y.readySince then x.readySince < y.readySince
  else a < b

/-- The next ISSUING context of an engine: the one that issues, or the one R66 chooses among its READY contexts. -/
def State.issuer (s : State) (e : Nat) : Option Nat :=
  match (engineCtxs e).find? fun c => (s.ctx c).st = .issuing with
  | some c => some c
  | none =>
    ((engineCtxs e).filter fun c => (s.ctx c).st = .ready).foldl
      (fun a c => match a with | none => some c | some b => if s.choose c b then some c else some b) none

/-- Whether context c may issue now: it is its engine's ISSUING context, and no stall, SAFE_HALT or SLEEP holds it. -/
def State.mayIssue (s : State) (c : Nat) : Bool :=
  s.issuer (c / 8) == some c && !(s.ctx c).stalled && (s.mode == .service || s.mode == .warmStart || s.mode == .coldStart)

/-! ### Cycles and budgets (R67, R113, R114) -/

/-- Whether a context is in a micro-run of its own: a customer routine of a thread, or of one that has ended, or a task. Vendor routines of R43 are
instructions of the itinerary. (log 39, DEDUCED) -/
def State.inMicro (s : State) (c : Nat) : Bool :=
  match (s.ctx c).owner with
  | none => (s.ctx c).orphan.isSome
  | some i => (s.ctx c).task || (s.site (s.entry i).site).thread.custom

/-- The address of the microword that a context issues: in a vendor routine of R43 a free value of the vendor half (R114). (log 76, DESIGN CHOICE) -/
def State.addressOf (s : State) (c : Nat) : BitVec 16 × State :=
  if s.inMicro c then ((s.ctx c).ms.pc, s)
  else
    let a := s.free
    (BitVec.ofNat 16 (a.1 % 32768), a.2)

/-- Cycles of an engine counted to threads or to tasks (R127). -/
def State.engineCycles (s : State) (eng k : Nat) (task : Bool) : State :=
  if task then { s with inn := { s.inn with taskCycles := Table.set 0 s.inn.taskCycles eng (Table.get 0 s.inn.taskCycles eng + k) } }
  else { s with inn := { s.inn with threadCycles := Table.set 0 s.inn.threadCycles eng (Table.get 0 s.inn.threadCycles eng + k) } }

/-- Cycles that context c issues, counted to the site that owns its entry, or to the service reserve, as those of a repeated run are (R91);
the cycle that exceeds the declared budget holds OVERRUN pending. The thread of an ended site holds no budget. -/
def State.charge (s : State) (c k : Nat) : State :=
  match (s.ctx c).owner with
  | none => if (s.ctx c).orphan.isSome then (s.passCycles k).engineCycles (c / 8) k false else s
  | some i =>
    let e := s.entry i
    let s := (s.passCycles k).engineCycles (c / 8) k (s.ctx c).task
    if e.service ∨ (s.ctx c).restarted then s
    else
      let n := e.site
      let x := s.site n
      let s := s.modSite n fun y => { y with cycles := y.cycles + k, issued := y.issued || !(s.ctx c).task }
      if x.overran then s.count (0x5100 + n) 5 k
      else if x.cycles + k > s.budget n then
        let s := s.modSite n fun y => { y with overran := true }
        let a := s.addressOf c
        let s := a.2.holdFault c 0x0020 a.1
        let s := s.count (0x5100 + n) 5 (x.cycles + k - s.budget n - 1)
        s.sendAbort n 2 s.abortTick
      else s

/-! ### Staging (R77, R164) -/

/-- Whether the descriptor queue of a site has a free entry. -/
def State.queueRoom (s : State) (n : Nat) : Bool := (s.site n).queued < 64

/-- A descriptor staged, provisional or released, with its epoch and TAINT. -/
def State.stage (s : State) (n : Nat) (k : DescKind) (taint released : Bool) : State :=
  s.modSite n fun x => { x with queue := x.queue ++ [{ kind := k, epoch := x.thread.epoch, taint := taint, released := released }] }

/-- A descriptor staged by a run of context c, provisional until its END (R77). -/
def State.stageBy (s : State) (n c : Nat) (k : DescKind) : State :=
  s.modSite n fun x => { x with queue := x.queue ++ [{ kind := k, epoch := x.thread.epoch, taint := (s.ctx c).taint, ctx := c }] }

/-- The provisional descriptors of a run released in emission order (R77). -/
def State.release (s : State) (n c : Nat) : State :=
  let s := s.modSite n fun x => { x with queue := x.queue.map fun d => if d.ctx = c then { d with released := true } else d }
  let s := s.modCtx c fun y => { y with before := none }
  s.takeFree n (s.site n).queue.length

/-- What staging has told a thread about its vectors put back to what it was before a run. -/
def Thread.unstaged (t b : Thread) : Thread :=
  { t with period := b.period, tset := b.tset, checked := b.checked, knownHold := b.knownHold, blurred := b.blurred,
           crossed := b.crossed, anyPattern := b.anyPattern }

/-- The provisional descriptors of a run discarded (R86, R91), and with them what their staging told the thread. Capture actions it has issued
stand, as its other effects do. (log 124, DEDUCED) -/
def State.discard (s : State) (n c : Nat) : State :=
  let b := (s.ctx c).before
  let keeps (k : DescKind) : Bool := match k with | .rider _ => true | _ => false
  let s := s.modSite n fun x => { x with
    queue := x.queue.filter fun d => d.released || decide (d.ctx ≠ c) || keeps d.kind
    thread := match b with | some t => x.thread.unstaged t | none => x.thread }
  s.release n c

/-- The thread of a site changed. -/
def State.modThread (s : State) (n : Nat) (f : Thread → Thread) : State := s.modSite n fun x => { x with thread := f x.thread }

/-- A hold span of known or unknown length after the last pattern vector staged (R163). -/
def Thread.addHold (t : Thread) (h : Option Nat) : Thread :=
  match h with
  | some k => if t.blurred then t else { t with knownHold := t.knownHold + k }
  | none => { t with knownHold := 0, blurred := true }

/-- A new fail epoch (R42). -/
def State.newEpoch (s : State) (n : Nat) : State :=
  s.modSite n fun x => { x.flag flagFail false with thread := { x.thread with epoch := (x.thread.epoch + 1) % 2 ^ 32 } }

/-! ### Boundaries and yields (R68, R69, R82, R108) -/

/-- A site moved to the lowest engine with room for it (R108). -/
def State.moveHome (s : State) (n : Nat) : State :=
  let old := (s.site n).home
  match (List.range 16).find? fun e => some e ≠ old && s.hasRoom e (s.share n) with
  | some e =>
    let s := s.modSite n fun x => { x with home := some e, recalled := false }
    (s.setNat (0x5100 + n) 1 e).raiseWith 1606 [beBytes 8 (2 ^ 8 + n)]
  | none => (s.modSite n fun x => { x with recalled := false }).raiseWith 1606 [beBytes 8 n]

/-- The thread of a site gives up its context: saved for 8 cycles, and its entry PARKED (R65, R68). -/
def State.yieldThread (s : State) (n c : Nat) (internal : Bool) : State :=
  let s := s.modSite n fun x => { x with saved := (s.ctx c).ms, thread := { x.thread with internal := internal, limit := (s.ctx c).limit } }
  let s := s.modCtx c fun y => { y with st := .saving, wait := none, run := 0 }
  let s := s.setEntry n { s.entry n with state := .parked, since := s.now }
  if (s.site n).recalled then s.moveHome n else s

/-- A context that may go on issuing after a boundary: READY from now (R66), and no longer tainted (R83). -/
def State.rejoin (s : State) (c : Nat) : State :=
  s.modCtx c fun y => { y with st := .ready, readySince := s.inn.clock, run := 0, snap := y.ms, restarted := false, taint := false, tainted := 0,
                               effects := false }

/-- The boundary of a thread at the END of a run of instruction i (R82): a pending fault, a Convoy abort, a HALT that has taken effect, a
recall, then the END's own flags. `cont` says that the instruction goes on, `pc` is the address of the END, not known in a vendor routine. -/
def State.boundary (s : State) (n c i : Nat) (pc : Option (BitVec 16)) (yields cont : Bool) : State :=
  let x := s.site n
  let ended := s.modThread n fun t => { t with custom := false }
  match (s.ctx c).fault with
  | some (code, detect) =>
    let s := ended
    let s := if code = 0x0020 then s.bump 0x5001 12 else s
    let a := s.free
    let q := match pc with | some q => (q.toNat, s) | none => (a.1 % 32768, a.2)
    (q.2.noteFault n c code i detect.toNat q.1).faultSite n code i
  | none =>
    match x.abort with
    | some code => ended.faultSite n code i
    | none =>
      if x.halted then ended.haltSite n
      else if yields ∨ x.recalled ∨ (!cont ∧ x.queued ≥ s.nInForce 0x6000 5) then (s.rejoin c).yieldThread n c cont
      else s.rejoin c

/-! ### A thread at a drain point (R50) -/

/-- The thread reaches a drain point: its context is held by a WAITC and the site waits. -/
def State.enterDrain (s : State) (n c : Nat) (k : DrainKind) : State :=
  let s := s.modSite n fun x => { x with drain := some { kind := k, entered := s.now, index := x.thread.idx } }
  let s := s.modCtx c fun y => { y with st := .waiting, run := 0, snap := y.ms, restarted := false, taint := false, tainted := 0, effects := false }
  if (s.site n).st = .running then s.enter n .waiting else s

/-- The decision of a drain point that does not end the site (R50, R51): the thread goes on, and the continuation waits for
its resume tick, D frames from now at the earliest. -/
def State.leaveDrain (s : State) (n : Nat) (idx : Nat) : State :=
  let tick := s.now + s.nreg (siteObj n 2) 1
  let s := s.modSite n fun x => { x with drain := none, thread := { x.thread with idx := idx, fresh := some tick }.addHold none }
  let s := s.stage n (.barrier tick) false true
  let s := s.takeFree n (s.site n).queue.length
  let c := (s.entry n).context
  if (s.entry n).state = .placed ∧ (s.ctx c).st = .waiting then (s.passCycles 1).modCtx c fun y => { y with st := .ready, readySince := s.inn.clock } else s

end Sys2Proof.Machine
end

