-- ==== Sys2Proof/Machine/Operands.lean ====
section
/-! DEFINITION. Operand forms: the fields of an itinerary word (R39, R43) and of a microword (R70, R73, R74). -/

namespace Sys2Proof.Machine

/-! ### Itinerary words -/

/-- OPCODE. -/
def opcodeOf (w : Word64) : Nat := bits w 63 56
/-- COND. -/
def condOf (w : Word64) : Nat := bits w 55 53
/-- CLRF. -/
def clrfOf (w : Word64) : Bool := bit w 52

/-- The opcodes of R43. -/
def opcodeListed (o : Nat) : Bool := (decide (1 ≤ o) && decide (o ≤ 0x16)) || (decide (0x20 ≤ o) && decide (o ≤ 0x3F))

/-- The bits of the operand that an opcode reserves (R43), with [51:48] of every word. -/
def reservedMask (o : Nat) (abs : Bool) : Nat :=
  let top := 0xF * 2 ^ 48
  let upTo (k : Nat) : Nat := (2 ^ 48 - 1) - (2 ^ k - 1)
  top + match o with
  | 0x01 => if abs then 0 else 2 ^ 47 - 2 ^ 32
  | 0x02 => upTo 32
  | 0x04 | 0x06 | 0x15 | 0x16 => 2 ^ 48 - 1
  | 0x05 => upTo 24
  | 0x07 => 2 ^ 44 - 2 ^ 24
  | 0x08 => 2 ^ 42 - 2 ^ 24
  | 0x09 => (2 ^ 44 - 2 ^ 40) + (2 ^ 31 - 2 ^ 24)
  | 0x0C => upTo 6
  | 0x0D => upTo 32
  | 0x0E => upTo 16 + (2 ^ 8 - 2 ^ 3)
  | 0x0F => upTo 13
  | 0x10 => upTo 6
  | 0x11 => 2 ^ 32 - 2 ^ 20
  | 0x12 => upTo 15 + (2 ^ 8 - 2 ^ 2)
  | 0x13 => upTo 12 + (2 ^ 8 - 2)
  | 0x14 => upTo 17
  | _ => 0

/-- Whether every reserved bit of a listed instruction is 0. -/
def reservedClear (w : Word64) : Bool := (w.toNat &&& reservedMask (opcodeOf w) (bit w 47)) == 0

/-! ### Microwords -/

/-- D. -/
def fD (f : BitVec 26) : Nat := bits f 25 22
/-- A. -/
def fA (f : BitVec 26) : Nat := bits f 21 18
/-- B[17]: immediate form. -/
def fImm (f : BitVec 26) : Bool := bit f 17

/-- A micro-register. -/
def MicroState.reg (m : MicroState) (k : Nat) : Word32 := m.m.getD k 0

/-- A micro-register written. -/
def MicroState.put (m : MicroState) (k : Nat) (v : Word32) : MicroState := { m with m := m.m.set k v }

/-- Source B, or nothing where a reserved bit is set (R70). -/
def sourceB (m : MicroState) (f : BitVec 26) : Option Word32 :=
  if fImm f then some (BitVec.ofNat 32 (bits f 16 0))
  else if bits f 16 4 = 0 then some (m.reg (bits f 3 0)) else none

/-- The target of BR and CALLU: immediate B[15:0] or mB[15:0]. -/
def branchTarget (m : MicroState) (f : BitVec 26) : Option (BitVec 16) :=
  if fImm f then (if bit f 16 then none else some (BitVec.ofNat 16 (bits f 15 0)))
  else if bits f 16 4 = 0 then some (BitVec.ofNat 16 (m.reg (bits f 3 0)).toNat) else none

/-- Type and amount of a shift (R73). (log 41, DEDUCED) -/
def shiftForm (m : MicroState) (f : BitVec 26) : Option (Nat × Nat) :=
  if bits f 16 7 ≠ 0 then none
  else if fImm f then some (bits f 6 5, bits f 4 0)
  else if bit f 4 then none
  else some (bits f 6 5, (m.reg (bits f 3 0)).toNat % 32)

/-- Polynomial, width and number of bits of a CRC (R74). -/
def crcForm (m : MicroState) (f : BitVec 26) : Option (Word32 × Nat × Nat) :=
  if fImm f ∨ bits f 16 14 ≠ 0 then none
  else some (m.reg (bits f 3 0), bits f 8 4 + 1, bits f 13 9 + 1)

/-- The 17-bit immediate of an operand that takes nothing else. -/
def immediate (f : BitVec 26) : Option Nat := if fImm f then some (bits f 16 0) else none

end Sys2Proof.Machine
end

