-- ==== Sys2Proof/Machine/Itinerary.lean ====
section
/-! DEFINITION. The itinerary instructions (R39-R60), one meaning each. -/

namespace Sys2Proof.Machine

/-! ### The frame of an instruction -/

/-- Fault codes of R63 and R85 that instructions name. -/
def fIllegal : Nat := 0x0001
/-- RESERVED_FIELD. -/
def fReserved : Nat := 0x0002
/-- RANGE. -/
def fRange : Nat := 0x0003
/-- STACK. -/
def fStack : Nat := 0x0004
/-- OPERAND. -/
def fOperand : Nat := 0x0005
/-- RESOURCE. -/
def fResource : Nat := 0x0006
/-- SEQUENCE. -/
def fSequence : Nat := 0x0007
/-- DATA_POISON. -/
def fPoison : Nat := 0x0014
/-- ADDRESS. -/
def fAddress : Nat := 0x0015
/-- EMIT_INVALID. -/
def fEmit : Nat := 0x0016

/-- Whether the thread of a site is at an instruction it may execute now: placed in the context that issues, not in a customer
run and not at a drain point. -/
def State.mayRun (s : State) (n : Nat) : Bool :=
  let x := s.site n
  x.st.busy && (s.entry n).state == .placed && !x.thread.custom && !x.draining && s.mayIssue (s.entry n).context

/-- What an instruction does after its own checks: a fault with no effect, or with that of the reads it has made; nothing, because the descriptor queue is full; or a
state, with whether it reached a drain point, yields, or leaves an internal
boundary, or enters a customer routine. -/
inductive Done where
  | fault (code : Nat)
  | failed (s : State) (code : Nat)
  | full
  | next (s : State)
  | drain (s : State) (k : DrainKind)
  | yields (s : State)
  | partly (s : State)
  | custom (s : State)

/-- The site thread goes on with instruction `i`. -/
def State.goto (s : State) (n i : Nat) : State := s.modThread n fun t => { t with idx := i }

/-- The site thread goes on with the next instruction. -/
def State.advance (s : State) (n : Nat) : State := s.modThread n fun t => { t with idx := t.idx + 1 }

/-- A fault that an instruction of the vendor's routines takes at its boundary (R62, R96). A fault already pending is the one reported, and this
one counted (R83). (log 35, DEDUCED) -/
def State.instrFault (s : State) (n c code i : Nat) : State :=
  if (s.ctx c).fault.isSome then (s.bump 0xD200 9).boundary n c i none false false else s.vendorFault n c code i

/-- A thread after an instruction of opcode `op` has been reached: it no longer stands directly behind a drain point, unless that is EVENT (R44). -/
def Thread.pass (t : Thread) (op : Nat) : Thread := { t with reached := false, fresh := if op = 0x12 then t.fresh else none }

/-- One instruction (R39, R40, R43, R82): the index against LENGTH (R75), the opcode, COND, the reserved fields, its body under
the new epoch of CLRF where `early` says so (R42), and the boundary. An instruction that found the descriptor queue full has been reached
and its condition evaluated. (log 9, DESIGN CHOICE; log 34, DEDUCED; log 147, DESIGN CHOICE) -/
def State.instr (s : State) (n : Nat) (w : Word64) (op : Nat) (cost : Nat) (early : Bool) (body : State → Nat → Done) : Out :=
  if !s.mayRun n ∨ (opcodeOf w ≠ op ∧ opcodeListed (opcodeOf w)) then .next s
  else
    let c := (s.entry n).context
    let s := s.modCtx c fun y => { y with st := .issuing }
    let i := (s.site n).thread.idx
    if i ≥ (s.site n).length then .next ((s.charge c cost).instrFault n c fAddress i)
    else if !opcodeListed (opcodeOf w) then .next ((s.charge c cost).instrFault n c fIllegal i)
    else if condOf w = 7 then .next ((s.charge c cost).instrFault n c fReserved i)
    else if !(s.site n).thread.reached ∧ (s.site n).thread.vecLeft.isNone ∧ !siteCond (s.site n).flags (condOf w) then .next ((((s.charge c 4).modThread n (·.pass op)).advance n).boundary n c i none false false)
    else
      let s := s.charge c cost
      if !reservedClear w then .next (s.instrFault n c fReserved i)
      else
        let s0 := s.modThread n fun t => { t with reached := true }
        let s := s.modThread n (·.pass op)
        let s := if clrfOf w ∧ early then s.newEpoch n else s
        match body s c with
        | .fault code => .next (s0.instrFault n c code i)
        | .failed t code => .next (t.instrFault n c code i)
        | .full => .next (s0.boundary n c i none true true)
        | .next t => .next (t.boundary n c i none false false)
        | .yields t => .next (t.boundary n c i none true false)
        | .partly t => .next (t.boundary n c i none true true)
        | .custom t => .next t
        | .drain t k =>
          if (t.ctx c).fault.isSome ∨ (t.site n).abort.isSome ∨ (t.site n).halted then .next (t.boundary n c i none false false)
          else .next (t.enterDrain n c k)

/-- TAINT of a descriptor staged now. -/
def State.tainting (s : State) (c : Nat) : Bool := (s.ctx c).taint

/-- A descriptor of a context staged: one that carries TAINT is counted (R96). -/
def Ctx.countTaint (x : Ctx) : Ctx := { x with tainted := if x.taint then x.tainted + 1 else x.tainted }

/-- One descriptor staged and released by a vendor instruction. -/
def State.emit (s : State) (n c : Nat) (k : DescKind) : State :=
  ((s.stage n k (s.tainting c) true).modCtx c Ctx.countTaint).takeFree n 130

/-- A descriptor of pattern vectors staged after the check of R164. -/
def State.emitVectors (s : State) (n c : Nat) (k : DescKind) : State := (s.emit n c k).modThread n Thread.staged

/-! ### Streaming and repetition (R45, R46) -/

/-- Descriptors of up to 4,096 vectors from v on, at most 64 and while the queue has room. -/
def State.emitRun (s : State) (n c : Nat) : Nat → Nat → Nat → Nat × State
  | 0, _, left => (left, s)
  | fuel + 1, v, left =>
    if left = 0 ∨ !s.queueRoom n then (left, s)
    else
      let k := min 4096 left
      (s.emitVectors n c (.stream v k)).charge c 2 |>.emitRun n c fuel (v + k) (left - k)

/-- One run of a VEC that still has `left` vectors to stream from VP (R45). -/
def State.vecRun (s : State) (n c left : Nat) : Done :=
  if left = 0 then .next ((s.modThread n fun t => { t with vecLeft := none }).advance n)
  else if !s.queueRoom n then .partly (s.modThread n fun t => { t with vecLeft := some left })
  else if !s.stagingOk n then .fault fEmit
  else
    let vp := (s.site n).thread.vp
    let r := s.emitRun n c 64 vp left
    let s := r.2.modThread n fun t => { t with vp := vp + (left - r.1) }
    if r.1 = 0 then .next ((s.modThread n fun t => { t with vecLeft := none }).advance n)
    else .partly (s.modThread n fun t => { t with vecLeft := some r.1 })

/-- VEC (R45). -/
def execVec (n : SiteId) (w : Word64) (s : State) : Out :=
  s.instr n w 0x01 6 (((s.site n).thread.vecLeft).isNone) fun s c =>
    let t := (s.site n).thread
    match t.vecLeft with
    | some left => s.vecRun n c left
    | none =>
      let abs := bit w 47
      let start := if abs then bits w 46 16 else t.vp
      let count := if abs then (if bits w 15 0 = 0 then 65536 else bits w 15 0) else bits w 31 0
      if start + count > s.nreg (siteObj n 1) 5 then .fault fRange
      else (s.modThread n fun t => { t with vp := start }).vecRun n c count

/-- RPT (R46). -/
def execRpt (n : SiteId) (w : Word64) (s : State) : Out :=
  s.instr n w 0x02 6 true fun s c =>
    let k := bits w 31 0
    if !(s.site n).thread.anyPattern then .fault fSequence
    else if k = 0 then .next (s.advance n)
    else if !s.queueRoom n then .full
    else if !s.stagingOk n then .fault fEmit
    else .next ((s.emitVectors n c (.repeat k)).advance n)

/-! ### Loops, calls and jumps (R47, R48) -/

/-- The address of the word of the itinerary at an index. -/
def State.itinAddr (s : State) (n i : Nat) : Nat := s.nreg (siteObj n 1) 2 + 8 * i

/-- Loops opened since the last open call. -/
def Thread.ownLoops (t : Thread) : Nat := t.loops.length - (t.calls.head?.map (·.2)).getD 0

/-- Whether a target lies in the itinerary (R47). -/
def State.targetOk (s : State) (n t : Nat) : Bool := decide (1 ≤ t) && decide (t < (s.site n).length)

/-- Loops closed before a jump. -/
def State.popLoops (s : State) (n k : Nat) : State := s.modThread n fun t => { t with loops := t.loops.drop k }

/-- LOOP (R47): the word that its target names is read as any line is (R270). -/
def execLoop (n : SiteId) (w : Word64) (s : State) : Out :=
  s.instr n w 0x03 7 true fun s _ =>
    let t := (s.site n).thread
    let e := bits w 47 24
    let k := bits w 23 0
    if e ≤ t.idx ∨ e ≥ (s.site n).length then .fault fRange
    else
      let r := s.readWord (s.itinAddr n e)
      let s := r.2
      match checkWord r.1 with
      | .bad _ => .failed s fPoison
      | d =>
        if opcodeOf d.data ≠ 0x04 then .failed s fRange
        else if k = 0 then .next (s.goto n (e + 1))
        else if t.loops.length ≥ 8 then .failed s fStack
        else .next ((s.modThread n fun t => { t with loops := (t.idx + 1, k) :: t.loops }).advance n)

/-- The innermost loop closed. Of a call open in it, that many loops fewer were open (R47). -/
def Thread.closeLoop (t : Thread) (rest : List (Nat × Nat)) : Thread :=
  { t with loops := rest, calls := t.calls.map fun c => (c.1, min c.2 rest.length) }

/-- ENDL (R47). -/
def execEndl (n : SiteId) (w : Word64) (s : State) : Out :=
  s.instr n w 0x04 5 true fun s _ =>
    match (s.site n).thread.loops with
    | [] => .fault fStack
    | (i, k) :: rest =>
      if k > 1 then .next (s.modThread n fun t => { t with idx := i, loops := (i, k - 1) :: rest })
      else .next ((s.modThread n (·.closeLoop rest)).advance n)

/-- CALL (R47). -/
def execCall (n : SiteId) (w : Word64) (s : State) : Out :=
  s.instr n w 0x05 7 true fun s _ =>
    let t := (s.site n).thread
    let target := bits w 23 0
    if !s.targetOk n target then .fault fRange
    else if t.calls.length ≥ 16 then .fault fStack
    else .next ((s.modThread n fun t => { t with calls := (t.idx + 1, t.loops.length) :: t.calls }).goto n target)

/-- RET (R47). -/
def execRet (n : SiteId) (w : Word64) (s : State) : Out :=
  s.instr n w 0x06 6 true fun s _ =>
    match (s.site n).thread.calls with
    | [] => .fault fStack
    | (i, k) :: rest =>
      if (s.site n).thread.loops.length > k then .fault fStack
      else .next (s.modThread n fun t => { t with idx := i, calls := rest })

/-- The checks of a jump: its target, then POP (R47). -/
def State.jumpFault (s : State) (n target pop : Nat) : Option Nat :=
  if !s.targetOk n target then some fRange
  else if pop > (s.site n).thread.ownLoops ∨ pop > 8 then some fStack
  else none

/-- A jump taken or not: POP loops are closed either way (R47). -/
def State.jump (s : State) (n target pop : Nat) (taken : Bool) : State :=
  let s := s.popLoops n pop
  if taken then s.goto n target else s.advance n

/-- JMP (R47). -/
def execJmp (n : SiteId) (w : Word64) (s : State) : Out :=
  s.instr n w 0x07 5 true fun s _ =>
    match s.jumpFault n (bits w 23 0) (bits w 47 44) with
    | some code => .fault code
    | none => .next (s.jump n (bits w 23 0) (bits w 47 44) true)

/-- JFAIL (R48): at once with DRAIN = 0, otherwise a drain point. CLRF acts after the test (R42). -/
def execJfail (n : SiteId) (w : Word64) (s : State) : Out :=
  s.instr n w 0x08 8 false fun s _ =>
    let target := bits w 23 0
    let pop := bits w 47 44
    let sense := bit w 42
    match s.jumpFault n target pop with
    | some code => .fault code
    | none =>
      if bit w 43 then .drain s (.jfail sense target pop (clrfOf w))
      else
        let taken := (s.site n).has flagFail != sense
        let s := if clrfOf w then s.newEpoch n else s
        .next (s.jump n target pop taken)

/-- JEVT (R48). -/
def execJevt (n : SiteId) (w : Word64) (s : State) : Out :=
  s.instr n w 0x09 7 true fun s _ =>
    let target := bits w 23 0
    let pop := bits w 47 44
    let mask := BitVec.ofNat 8 (bits w 39 32)
    match s.jumpFault n target pop with
    | some code => .fault code
    | none =>
      let pending := (s.site n).thread.pending
      let taken := (pending &&& mask) != 0
      let s := if bit w 31 then s.modThread n fun t => { t with pending := pending &&& ~~~mask } else s
      .next (s.jump n target pop taken)

/-! ### MATCH and WAIT (R52-R54) -/

/-- The masked pins of a MATCH with the code each awaits, or nothing where a masked slot has no pin (R52). -/
def State.matchPins (s : State) (n bank mask expect : Nat) : Option (List (Nat × Nat)) :=
  let pins := s.sitePins n
  (setBits 16 mask).foldr (fun i a =>
    match pins[16 * bank + i]?, a with
    | some p, some l => some ((p, if natBit expect i then 2 else 0) :: l)
    | _, _ => none) (some [])

/-- MATCH (R52, R53). -/
def execMatchI (n : SiteId) (w : Word64) (s : State) : Out :=
  s.instr n w 0x0A 14 true fun s c =>
    let mask := bits w 45 30
    let len := bits w 13 9 + 1
    let vp := (s.site n).thread.vp
    match s.matchPins n (bits w 47 46) mask (bits w 29 14) with
    | none => .fault fOperand
    | some pins =>
      if mask = 0 then .fault fOperand
      else if vp + len > s.nreg (siteObj n 1) 5 then .fault fRange
      else if !s.queueRoom n then .full
      else if !s.stagingOk n then .fault fEmit
      else
        let s := s.emitVectors n c (.block vp len)
        let s := s.modSite n fun x => ({ x with
          mtch := some { first := vp, len := len, masked := pins, timeout := bits w 4 0 * 4 ^ bits w 8 5 } }.flag flagMatched
            false).flag flagTimeout false
        .drain s .match

/-- WAIT with MODE = 0 (R54). -/
def execWaitHold (n : SiteId) (w : Word64) (s : State) : Out :=
  if bit w 47 then .next s
  else s.instr n w 0x0B 8 true fun s c =>
    let h := 5000 * bits w 46 0
    if h = 0 then .next (s.advance n)
    else if !s.queueRoom n then .full
    else .next (((s.emit n c (.hold h)).modThread n (·.addHold (some h))).advance n)

/-- The target of a WAIT on PTP time (R54): the instant nearest to the present whose beat count has the low bits, the later of
two equally near. -/
def State.waitTarget (s : State) (low : Nat) : Int :=
  let b := beatsOf s.localTime
  let d := ((low : Int) - b) % 2 ^ 47
  if d ≤ 2 ^ 46 then b + d else b + d - 2 ^ 47

/-- WAIT with MODE = 1 (R54). -/
def execWaitTime (n : SiteId) (w : Word64) (s : State) : Out :=
  if !bit w 47 then .next s
  else s.instr n w 0x0B 8 true fun s c =>
    if !s.queueRoom n then .full
    else .next (((s.emit n c (.until (s.waitTarget (bits w 46 0)).toNat)).modThread n (·.addHold none)).advance n)

/-! ### Timing, capture, measurement and serial control (R55) -/

/-- TSET (R55, R164). -/
def execTset (n : SiteId) (w : Word64) (s : State) : Out :=
  s.instr n w 0x0C 6 true fun s c =>
    let k := bits w 5 0
    if !s.setValid n k then .fault fOperand
    else if !s.queueRoom n then .full
    else .next (((s.emit n c (.tset k)).modThread n fun t => { t with tset := k }).advance n)

/-- PERIOD (R55). -/
def execPeriod (n : SiteId) (w : Word64) (s : State) : Out :=
  s.instr n w 0x0D 6 true fun s c =>
    let p := bits w 31 0
    if p < 2500 then .fault fOperand
    else if !s.queueRoom n then .full
    else .next (((s.emit n c (.period p)).modThread n fun t => { t with period := some p }).advance n)

/-- An effect that rides to the start of the next vector (R44). -/
def State.rider (s : State) (n c : Nat) (r : Rider) : State := s.emit n c (.rider r)

/-- A CAP of one action (R55, R216): what the acquisition engine accepts takes effect at the next vector. The row of action a
meets another ACTION only where that is reserved. -/
def State.capInstr (s : State) (n a : Nat) (w : Word64) : Out :=
  if bits w 2 0 ≠ a ∧ bits w 2 0 ≤ 4 then .next s
  else s.instr n w 0x0E 9 true fun s c =>
    if bits w 2 0 > 4 then .fault fReserved
    else
      let r := s.capIssue n a
      .next ((if r.1 then r.2.rider n c (.cap a (bits w 15 8)) else r.2).advance n)

/-- CAP STOP. -/
def execCapStop (n : SiteId) (w : Word64) (s : State) : Out := s.capInstr n 0 w
/-- CAP START. -/
def execCapStart (n : SiteId) (w : Word64) (s : State) : Out := s.capInstr n 1 w
/-- CAP PAUSE. -/
def execCapPause (n : SiteId) (w : Word64) (s : State) : Out := s.capInstr n 2 w
/-- CAP RESUME. -/
def execCapResume (n : SiteId) (w : Word64) (s : State) : Out := s.capInstr n 3 w
/-- CAP COMMIT. -/
def execCapCommit (n : SiteId) (w : Word64) (s : State) : Out := s.capInstr n 4 w

/-- MEAS (R55, R249, R250). (log 157, DESIGN CHOICE) -/
def execMeas (n : SiteId) (w : Word64) (s : State) : Out :=
  s.instr n w 0x0F 11 true fun s c =>
    let d := bits w 11 0
    if !s.ownsDef n d then .fault fResource
    else if (s.mdef d).mode = 0 then .fault fOperand
    else
      let before := (s.mdef d).st
      let s := s.armMeas n d (bit w 12)
      let armed := (s.mdef d).st = .armed ∧ before ≠ .armed ∧ before ≠ .gate
      .next ((if armed then s.rider n c (.meas d (bit w 12)) else s).advance n)

/-- A TRIG of one action (R55, R221, R226). -/
def State.trigInstr (s : State) (n a : Nat) (w : Word64) : Out :=
  if bits w 5 4 ≠ a ∧ bits w 5 4 ≤ 2 then .next s
  else s.instr n w 0x10 8 true fun s c =>
    let u := bits w 3 0
    if bits w 5 4 = 3 then .fault fReserved
    else if s.nreg (tuObj u) 1 ≠ n then .fault fResource
    else .next ((s.rider n c (.trig u a)).advance n)

/-- TRIG ARM. -/
def execTrigArm (n : SiteId) (w : Word64) (s : State) : Out := s.trigInstr n 0 w
/-- TRIG FIRE. -/
def execTrigFire (n : SiteId) (w : Word64) (s : State) : Out := s.trigInstr n 1 w
/-- TRIG DISARM. -/
def execTrigDisarm (n : SiteId) (w : Word64) (s : State) : Out := s.trigInstr n 2 w

/-- A source of EVENT (R44, R55): raised as the micro-engine executes it, or, directly after a drain point, as the site resumes. -/
def State.raiseEvent (s : State) (n e : Nat) : State :=
  match (s.site n).thread.fresh with
  | some t => if (s.site n).st = .waiting then s.modSite n fun x => { x with atResume := x.atResume ++ [(t, e)] } else s.raise e
  | none => s.raise e

/-- EVENT (R55). -/
def execEvent (n : SiteId) (w : Word64) (s : State) : Out :=
  s.instr n w 0x12 6 true fun s _ =>
    let m := if bit w 14 then bits w 13 8 else n.val
    .next ((s.raiseEvent n (siteEvent m (4 + bits w 1 0))).advance n)

/-- The configurations of a site's pins in emission order after an entry or an exit (R163, R174): the pins whose mode changes cross it. -/
def Thread.serialMode (t : Thread) (pins : List Nat) (c : Nat) (entering : Bool) : Thread :=
  let crossed := t.crossed ++ pins.filter fun p => !t.crossed.contains p && t.inSerial.contains (p, c) != entering
  if entering then
    { t with crossed := crossed, inSerial := t.inSerial.filter (fun e => !pins.contains e.1) ++ pins.map (·, c) }
  else { t with crossed := crossed, inSerial := t.inSerial.filter fun e => !(pins.contains e.1 && e.2 == c) }

/-- SERIAL with DIR = 1 (R55, R174). -/
def execSerialEnter (n : SiteId) (w : Word64) (s : State) : Out :=
  if !bit w 0 ∧ opcodeOf w = 0x13 then .next s
  else s.instr n w 0x13 16 true fun s c =>
    let k := bits w 11 8
    match s.serialCfg n k with
    | none => .fault fOperand
    | some g =>
      let pins := s.cfgPins n g
      if (s.site n).thread.inSerial.any fun e => pins.contains e.1 && e.2 != k then .fault fOperand
      else .next (((s.rider n c (.serialEnter k)).modThread n (·.serialMode pins k true)).advance n)

/-- SERIAL with DIR = 0 (R55, R175). -/
def execSerialLeave (n : SiteId) (w : Word64) (s : State) : Out :=
  if bit w 0 ∧ opcodeOf w = 0x13 then .next s
  else s.instr n w 0x13 16 true fun s c =>
    let k := bits w 11 8
    match s.serialCfg n k with
    | none => .fault fOperand
    | some g =>
      let pins := (s.cfgPins n g).filter fun p => (s.site n).thread.inSerial.contains (p, k)
      .next (((s.rider n c (.serialLeave k)).modThread n (·.serialMode pins k false)).advance n)

/-! ### SYNC, SEAL, HALT and YIELD (R57-R60) -/

/-- SYNC (R57, R58). The epoch that CLRF begins comes after the vote (R42). -/
def execSync (n : SiteId) (w : Word64) (s : State) : Out :=
  s.instr n w 0x11 12 false fun s _ =>
    if bits w 18 16 > 3 then .fault fReserved
    else if bits w 47 32 = 0 then .fault fOperand
    else .drain (s.modSite n fun x => { x with
      agreed := x.agreed.filter (· ≠ bits w 15 0)
      sync := some { id := bits w 15 0, comb := bit w 19, vote := bits w 18 16, timeout := bits w 47 32, clrf := clrfOf w } }) .sync

/-- SEAL (R59). -/
def execSealI (n : SiteId) (w : Word64) (s : State) : Out :=
  s.instr n w 0x14 28 true fun s _ => .drain s (.seal (bits w 15 0) (bit w 16))

/-- HALT (R60). -/
def execHalt (n : SiteId) (w : Word64) (s : State) : Out := s.instr n w 0x15 9 true fun s _ => .drain s .halt

/-- YIELD (R43, R68). -/
def execYield (n : SiteId) (w : Word64) (s : State) : Out := s.instr n w 0x16 3 true fun s _ => .yields (s.advance n)

end Sys2Proof.Machine
end

