-- ==== Sys2Proof/Machine/Drain.lean ====
section
/-! DEFINITION. Drain points and the end of a site: decisions, agreements, verdict records and play-out (R48-R61). -/

namespace Sys2Proof.Machine

/-! ### What is outstanding (R50) -/

/-- Whether a shape of a pin has a strobe. -/
def State.strobes (s : State) (p set code : Nat) : Bool :=
  code < 16 && !(shapeOf ((s.tset p set).shapes.getD code [])).strobes.isEmpty

/-- The codes still to be played from a pin's FIFO. -/
def Pin.codes (q : Pin) : List Nat :=
  (q.fifo.map fun sl => (List.range' sl.first (sl.last + 1 - sl.first)).map (nibbleOf (match checkWord sl.word with
    | .bad _ => { sl.word with poison := true }
    | .corrected _ w => w
    | .good _ => sl.word))).flatten

/-- A pin's view of what is to be played: codes left in its FIFO, its last code, the timing set in force, and the serial configuration in
force. -/
structure Ahead where
  codes : List Nat
  last : Nat
  set : Nat
  cfg : Option Nat

/-- The codes that vectors of the region of site n hold for a slot, as memory stands (R132). -/
def State.regionCodes (s : State) (n slot first count : Nat) : List Nat :=
  (List.range' first count).map fun v =>
    let w := fixWord (s.peekWord (s.nreg (siteObj n 1) 4 + 8 * (v / 16 * s.pinCount n + slot)))
    nibbleOf (if (checkWord w).ok then w else { w with poison := true }) (v % 16)

/-- What an entry of no length changes in a pin's view. -/
def State.aheadOf (s : State) (n p : Nat) (a : Ahead) (k : DescKind) : Ahead :=
  let names (c : Nat) : Bool := match s.serialCfg n c with | some g => (s.cfgPins n g).contains p | none => false
  match k with
  | .tset t => { a with set := t }
  | .rider (.serialEnter c) => if names c then { a with cfg := some c } else a
  | .rider (.serialLeave c) => if a.cfg = some c then { a with cfg := none } else a
  | _ => a

/-- The codes that an entry still plays on a pin, and its view after them; `done` of its vectors have started. -/
def State.codesOf (s : State) (n p slot : Nat) (a : Ahead) (k : DescKind) (done : Nat) : List Nat × Ahead :=
  let streams : Bool := match a.cfg.bind (s.serialCfg n) with | some g => g.src == 3 | none => false
  match k with
  | .stream f c =>
    if streams then ([], a)
    else
      let held := a.codes.take (c - done)
      let l := held ++ s.regionCodes n slot (f + done + held.length) (c - done - held.length)
      (l, { a with codes := a.codes.drop (c - done), last := l.getLast?.getD a.last })
  | .repeat _ => ([a.last], a)
  | .literal d a1 a0 c i =>
    let micro : Bool := match a.cfg.bind (s.serialCfg n) with | some g => g.src == 4 | none => false
    if i = slot ∧ !micro then
      let l := (List.range' done (c - done)).map (literalCode d a1 a0 c)
      (l, { a with last := l.getLast?.getD a.last })
    else ([a.last], a)
  | _ => ([], s.aheadOf n p a k)

/-- Whether a pin in serial mode under a configuration compares the bits it receives (R178). -/
def State.compares (s : State) (n : Nat) (cfg : Option Nat) : Bool :=
  match cfg.bind (s.serialCfg n) with | some g => g.rx == 1 || g.rx == 2 | none => false

/-- Whether a pattern vector not yet started strobes pin p of site n, or receives bits that it compares, of the entries of its run FIFO and
descriptor queue in order (R178). -/
def State.strobesAhead (s : State) (n p slot : Nat) : Ahead → List (DescKind × Nat) → Bool
  | _, [] => false
  | a, e :: rest =>
    let r := s.codesOf n p slot a e.1 e.2
    (if a.cfg.isNone then r.1.any (s.strobes p a.set) else e.1.pattern && s.compares n a.cfg) || s.strobesAhead n p slot r.2 rest

/-- A pin's view of what is to be played now. -/
def State.aheadNow (s : State) (n p : Nat) : Ahead :=
  let q := s.pin p
  let cfg := q.awaiting.or (match q.serial with | some x => if x.exitAt.isSome then none else some x.cfg | none => none)
  (s.site n).riders.foldl (fun a r => s.aheadOf n p a (.rider r.1))
    { codes := q.codes, last := q.lastCode, set := (s.site n).play.tset, cfg := cfg }

/-- Whether bits that a pin compares before the end of the last vector started, and before its exit, are still to be committed (R178): until
that time has come, and where the receiver is locked until the last bit's commit tick. -/
def State.bitsAhead (s : State) (n p : Nat) : Bool :=
  let x := s.site n
  match (s.pin p).serial with
  | none => false
  | some y =>
    let e := min x.play.lastEnd (y.exitAt.getD x.play.lastEnd)
    s.compares n (some y.cfg) &&
      (decide (e > s.tickTu n) || (y.rx == .locked && e > 0 && decide (commitTick x.f0 (e - 1) > s.now)))

/-- Whether no strobe of a released descriptor of the site is outstanding: every one committed (R50, R79). At a drain point all that the thread
has emitted is released. -/
def State.drained (s : State) (n : Nat) : Bool :=
  let x := s.site n
  let l := x.runs.map (fun r => (r.kind, r.done)) ++ (x.queue.filter (·.released)).map fun d => (d.kind, 0)
  x.strobes.isEmpty && (x.judged.filter (·.strobe)).isEmpty && decide (x.bitsDue ≤ s.now)
    && (s.sitePins n).zipIdx.all fun e => !(s.strobesAhead n e.1 e.2 (s.aheadNow n e.1) l) && !s.bitsAhead n e.1

/-! ### Play-out (R61) -/

/-- Whether a site still has vectors to play at the tick now in force. -/
def State.remains (s : State) (n : Nat) : Bool :=
  let x := s.site n
  !x.runs.isEmpty || !x.queue.isEmpty || decide (x.play.lastEnd > s.tickTu n)

/-- A site that has ended by SEAL or HALT plays out what it released, or parks at once. -/
def State.playOut (s : State) (n : Nat) : State :=
  if s.remains n then s.modSite n fun x => { x.flag flagPlayout true with playout := true }
  else s.park n (s.site n).play.lastEnd

/-- PLAYOUT_END (R61): the last vector released has ended and the pins park. -/
def execPlayoutEnd (n : SiteId) (s : State) : Out :=
  let x := s.site n
  if x.playout ∧ x.runs.isEmpty ∧ x.queue.isEmpty ∧ x.play.lastEnd ≤ s.frameEnd n then
    .next ((s.park n x.play.lastEnd).modSite n fun y => { y.flag flagPlayout false with playout := false })
  else .next s

/-! ### JFAIL, SEAL and HALT (R48, R59, R60) -/

/-- The decision of a JFAIL with DRAIN = 1 (R48). -/
def State.decideJfail (s : State) (n : Nat) (sense : Bool) (target pop : Nat) (clrf : Bool) : State :=
  let x := s.site n
  let taken := x.has flagFail != sense
  let s := if clrf then s.newEpoch n else s
  let s := s.popLoops n pop
  s.leaveDrain n (if taken then target else x.thread.idx + 1)

/-- The decision of a SEAL (R59): effects without a vector to ride on happen, measurements that have not published are
cancelled, and the capture is committed and stopped. -/
def State.decideSeal (s : State) (n : Nat) : State :=
  let s := s.skipFlat n (s.site n).fuel
  let s := s.rideAll n (s.site n).play.tu true
  let s := (s.cancelSiteMeas n).closeCapture n
  s.modSite n fun x => { x with drain := x.drain.map fun d => { d with decided := some s.now } }

/-- The decision of a HALT (R60). -/
def State.decideHalt (s : State) (n : Nat) : State :=
  let s := s.skipFlat n (s.site n).fuel
  ((s.rideAll n (s.site n).play.tu true).haltSite n).playOut n

/-- DRAIN_DECISION (R50): every strobe emitted before the instruction is committed, at a tick after the one at which the thread
reached it. (log 32, DEDUCED) -/
def execDrainDecision (n : SiteId) (s : State) : Out :=
  let x := s.site n
  match x.drain with
  | none => .next s
  | some d =>
    if x.st ≠ .waiting ∨ s.now ≤ d.entered ∨ d.decided.isSome ∨ !s.drained n then .next s
    else match d.kind with
      | .jfail sense target pop clrf => .next (s.decideJfail n sense target pop clrf)
      | .seal _ _ => .next (s.decideSeal n)
      | .halt => .next (s.decideHalt n)
      | _ => .next s

/-- The end of a run by SEAL (R29, R59, R116): the record formed, the site SEALED, its budget and READY tasks gone. -/
def State.sealSite (s : State) (n outcome bin : Nat) (idsrc : Bool) : State :=
  let s := s.formVerdict n outcome bin idsrc
  let s := (s.enter n .sealed).releaseBudget n
  let s := (s.cancelTasks n).disarmUnits n
  s.modSite n fun x => { x with drain := none, sync := none, mtch := none, startAsked := false, haltAsked := false, abort := none }

/-- VERDICT_RECORD (R36, R59): at the tick that closes the frame after SEAL's decision tick. -/
def execVerdictRecord (n : SiteId) (s : State) : Out :=
  match (s.site n).drain with
  | some { kind := .seal bin idsrc, decided := some t, .. } =>
    if (s.site n).st = .waiting ∧ s.now ≥ t + 1 then
      .next ((s.sealSite n (s.sealOutcome n) bin idsrc).playOut n)
    else .next s
  | _ => .next s

/-! ### MATCH (R52, R53) -/

/-- The last vector of a MATCH block that strobes pin p, from the codes of its slot in the block buffer (R52). -/
def State.lastStrobe (s : State) (n p : Nat) (m : MatchRun) : Option Nat :=
  let x := s.site n
  let slot := (s.sitePins n).findIdx (· == p)
  ((List.range m.len).filter fun i =>
    let w := fixWord ((x.block.getD ((m.first + i) / 16 - m.first / 16) []).getD slot { poison := true })
    s.strobes p x.play.tset (nibbleOf (if (checkWord w).ok then w else { w with poison := true }) ((m.first + i) % 16))).getLast?

/-- Whether iteration i of a MATCH has matched, `started` of whose vectors have started: for each masked pin the code of its last strobe in the
block, with those before it committed, is the one it awaits (R52). -/
def State.iterMatches (s : State) (n : Nat) (m : MatchRun) (i started : Nat) : Bool :=
  let x := s.site n
  let k := m.base * 2 ^ 32 + i
  m.masked.all fun e =>
    (match s.lastStrobe n e.1 m with | some j => decide (j < started) | none => false)
      && !(x.strobes.any fun y => y.iter == some k && y.pin == e.1) && !(x.judged.any fun y => y.iter == some k && y.pin == some e.1)
      && (match (m.codes.filter fun c => c.1 == k && c.2.1 == e.1).getLast? with
          | some c => c.2.2 == e.2
          | none => false)

/-- Whether some iteration has matched. -/
def State.matchFound (s : State) (n : Nat) : Bool :=
  match (s.site n).mtch with
  | none => false
  | some m =>
    let done := match (s.site n).runs with
      | { kind := .block _ _, done := d, serial := b, .. } :: _ => if b = m.base then d else 0
      | _ => 0
    (List.range m.iters).any fun i => s.iterMatches n m i (done - i * m.len)

/-- A MATCH completes at the tick now in force (R51-R53): no iteration starts from it on, VP moves past the block, and the
thread goes on. -/
def State.endMatch (s : State) (n : Nat) : State :=
  match (s.site n).mtch with
  | none => s
  | some m =>
    let t := s.tickTu n
    let s := s.modSite n fun x => { x with
      mtch := none, thread := { x.thread with vp := x.thread.vp + m.len },
      runs := x.runs.map fun r => match r.kind with
        | .block _ _ => if r.stop.isNone then { r with stop := some t } else r
        | _ => r }
    s.leaveDrain n ((s.site n).thread.idx + 1)

/-- Whether the timeout of a MATCH has expired at the tick now in force. -/
def State.matchExpired (s : State) (n : Nat) : Bool :=
  match (s.site n).mtch with
  | some { timeout := k, firstTick := some f, .. } => decide (k ≠ 0) && decide (s.now ≥ f + k)
  | _ => false

/-- Whether a site waits at a drain point of MATCH. -/
def Site.matching (x : Site) : Bool :=
  x.st == .waiting && (match x.drain with | some { kind := .match, .. } => true | _ => false)

/-- MATCHED (R53). -/
def execMatched (n : SiteId) (s : State) : Out :=
  let x := s.site n
  if x.matching ∧ s.matchFound n then .next ((s.modSite n (·.flag flagMatched true)).endMatch n) else .next s

/-- MATCH_TIMEOUT (R53): TIMEOUT and FAIL, one fail of the site, and site event 2. A match committed at the same tick counts
as a match. -/
def execMatchTimeout (n : SiteId) (s : State) : Out :=
  let x := s.site n
  if x.matching ∧ !s.matchFound n ∧ s.matchExpired n then
    let s := s.modSite n fun x => (x.flag flagTimeout true).flag flagFail true
    let s := (s.bareFail n (s.site n).thread.epoch).raise (siteEvent n 2)
    .next (s.endMatch n)
  else .next s

/-! ### SYNC (R57, R58, R308) -/

/-- Whether a site waits at a drain point of SYNC. -/
def Site.syncing (x : Site) : Option SyncRun :=
  match x.st, x.drain with
  | .waiting, some { kind := .sync, .. } => x.sync
  | _, _ => none

/-- The vote of a SYNC (R57). -/
def Site.voteOf (x : Site) (v : Nat) : Bool :=
  match v with
  | 0 => true
  | 1 => x.has flagFail
  | 2 => !x.has flagFail
  | _ => x.has flagMatched

/-- The SYNC of a site whose posting tick has come: every vector emitted before it is committed (R57). (log 36, DEDUCED) -/
def State.postDue (s : State) (n : Nat) : Option SyncRun :=
  match (s.site n).syncing, (s.site n).drain with
  | some y, some d => if y.posted.isNone ∧ s.now > d.entered ∧ s.drained n then some y else none
  | _, _ => none

/-- SYNC_POST (R57): the vote is posted. (log 36, DEDUCED) -/
def execSyncPost (n : SiteId) (s : State) : Out :=
  match s.postDue n with
  | some y =>
    let v := (s.site n).voteOf y.vote
    let alone := !s.spans n
    let t := s.modSite n fun x => { x with sync := some { y with
      posted := some s.now, value := v, latest := if alone then some (s.now, v) else none } }
    .next (if y.clrf then t.newEpoch n else t)
  | none => .next s

/-- The agreement tick L + N + 2 of a SYNC whose result is known, with the result. -/
def State.agreement (s : State) (n : Nat) : Option (Nat × Bool) :=
  match (s.site n).syncing with
  | some { posted := some _, latest := some (l, v), .. } =>
    some (l + (if s.spans n then s.nreg 0xA100 7 else 1) + 2, v)
  | _ => none

/-- Whether the agreement tick of a site has come. -/
def State.agreed (s : State) (n : Nat) : Bool := match s.agreement n with | some (t, _) => decide (s.now ≥ t) | none => false

/-- Whether the timeout of a SYNC has expired without an agreement (R58). -/
def State.syncExpired (s : State) (n : Nat) : Bool :=
  match (s.site n).syncing with
  | some { posted := some p, timeout := k, .. } => decide (s.now ≥ p + k) && !s.agreed n
  | _ => false

/-- SYNC_AGREEMENT (R57, R308): FLAGS.SYNC written at the agreement tick; the P contribution ends. (log 158, DEDUCED) -/
def execSyncAgreement (n : SiteId) (s : State) : Out :=
  match s.agreement n with
  | some (t, v) =>
    if s.now ≥ t then
      let s := if s.spans n then s.bump 0xA100 12 else s
      let id := match (s.site n).sync with | some y => [y.id] | none => []
      let s := s.modSite n fun x => { x.flag flagSync v with
        sync := none, lastSync := x.sync.map (t, ·), agreed := x.agreed.filter (!id.contains ·) ++ id }
      let s := s.leaveDrain n ((s.site n).thread.idx + 1)
      .next (if (s.entry n).state = .placed then s.charge (s.entry n).context 4 else s)
    else .next s
  | none => .next s

/-- SYNC_TIMEOUT (R58): the timeout from the posting tick expires first; the abort goes over Convoy and the site faults. -/
def execSyncTimeout (n : SiteId) (s : State) : Out :=
  if s.syncExpired n then .next ((s.sendAbort n 0 s.now).threadFault n 0x0008) else .next s

end Sys2Proof.Machine
end

