-- ==== Sys2Proof/Machine/ControlStore.lean ====
section
/-! DEFINITION. The control store and its customer half (R87-R94). -/

namespace Sys2Proof.Machine

/-! ### Entries and copies (R87, R91) -/

/-- One past the last entry. -/
def storeEnd : Nat := 32768

/-- A copy of an entry; an entry nothing has been written to holds two zero microwords. -/
def Store.copy (x : Store) (mirror : Bool) (k : Nat) : Codeword := Table.get {} (if mirror then x.mirror else x.primary) k

/-- A copy of an entry written. -/
def Store.setCopy (x : Store) (mirror : Bool) (k : Nat) (w : Codeword) : Store :=
  if mirror then { x with mirror := Table.set {} x.mirror k w } else { x with primary := Table.set {} x.primary k w }

/-- Both copies of an entry written together. -/
def Store.put (x : Store) (k : Nat) (w : Codeword) : Store :=
  { (x.setCopy false k w).setCopy true k w with lost := x.lost.filter (· ≠ k) }

/-- The data of an entry as its good copy gives it, or nothing where both are lost. -/
def Store.word (x : Store) (k : Nat) : Option Word64 :=
  if x.lost.contains k then none
  else match checkWord (x.copy false k), checkWord (x.copy true k) with
    | .good d, _ => some d
    | .corrected d _, _ => some d
    | .bad _, .good d => some d
    | .bad _, .corrected d _ => some d
    | .bad _, .bad _ => none

/-- The microword at an address. -/
def Store.micro (x : Store) (addr : Nat) : Option Word32 :=
  (x.word (addr / 2)).map fun d => BitVec.ofNat 32 (if addr % 2 = 0 then bits d 31 0 else bits d 63 32)

/-- Whether the primary copy of an entry is uncorrectable and its mirror good. -/
def Store.needsRepair (x : Store) (k : Nat) : Bool := !(checkWord (x.copy false k)).ok && (checkWord (x.copy true k)).ok

/-- One copy corrected in place where a single bit is wrong (R91). -/
def State.correctCopy (s : State) (mirror : Bool) (k : Nat) : State :=
  match checkWord (s.store.copy mirror k) with
  | .corrected _ w => ({ s with store := s.store.setCopy mirror k w }).bump 0x4000 6
  | _ => s

/-- A copy rewritten from the other one. -/
def State.repairCopy (s : State) (mirror : Bool) (k : Nat) : State :=
  ({ s with store := s.store.setCopy mirror k (s.store.copy (!mirror) k) }).bump 0x4000 7

/-- An entry lost (R91): E1548 for a customer entry; E1549, CRITICAL, for a vendor entry. -/
def State.loseEntry (s : State) (k : Nat) : State :=
  if s.store.lost.contains k then s
  else
    let s := ({ s with store := { s.store with lost := s.store.lost ++ [k] } }).bump 0x4000 8
    if k ≥ 16384 then s.reportFault { resource := 9, level := 6, source := 1548 }
    else s.reportFault { resource := 9, level := 6, severity := 3, source := 1549 }

/-- An entry read by an issuing context, its primary copy not in need of repair (R91): a single-bit error is corrected, and an entry with both
copies uncorrectable is lost. -/
def State.readStore (s : State) (k : Nat) : State :=
  if (checkWord (s.store.copy false k)).ok then s.correctCopy false k else s.loseEntry k

/-- Both copies of an entry read and mended, as the scrubber does it (R91). -/
def State.scrubEntry (s : State) (k : Nat) : State :=
  let s := (s.correctCopy false k).correctCopy true k
  match (checkWord (s.store.copy false k)).ok, (checkWord (s.store.copy true k)).ok with
  | true, true => s
  | false, true => s.repairCopy false k
  | true, false => s.repairCopy true k
  | false, false => s.loseEntry k

/-- Whether the scrubber skips an entry that is being loaded (R92). -/
def State.scrubSkips (s : State) (k : Nat) : Bool :=
  if k < 16384 then s.mode == .coldStart && decide (s.start.step < 6)
  else s.store.cust == .opened || s.store.cust == .closing

/-- The scrubber's visit of one frame (R92), while the beat PLL runs. -/
def State.scrub (s : State) : State :=
  if s.clk.beat = .unlocked ∨ s.clk.beat = .off then s
  else
    let k := s.store.scrub
    let s := if s.scrubSkips k then s else s.scrubEntry k
    let s := { s with store := { s.store with scrub := (k + 1) % storeEnd } }
    if k + 1 = storeEnd then s.bump 0x4000 9 else s

/-! ### The entry table (R88, R90) -/

/-- The entry of the store that holds entry n of the table. -/
def custKey (n : Nat) : Nat := 0x4000 + n

/-- Entry n of the table as its microwords give it: ENTRY and RUN_LIMIT where it is VALID. -/
def Store.custEntry (x : Store) (n : Nat) : Option (Nat × Nat) :=
  match x.micro (0x8000 + 2 * n), x.micro (0x8001 + 2 * n) with
  | some a, some b => if bit a 31 then some (bits a 15 0, bits b 8 0) else none
  | _, _ => none

/-- The check of CLOSE on one entry. -/
def Store.entryOk (x : Store) (n : Nat) : Bool :=
  match x.micro (0x8000 + 2 * n), x.micro (0x8001 + 2 * n) with
  | some a, some b =>
    bits a 30 16 == 0 && bits b 31 9 == 0
      && (!bit a 31 || (decide (bits a 15 0 ≥ 0x8040) && decide (1 ≤ bits b 8 0) && decide (bits b 8 0 ≤ 256)))
  | _, _ => false

/-- The microwords of a half as hashed: 4 bytes each, most significant first, ascending (R89). Of an entry that is lost the spec does not say what
CLOSE hashes: two zero microwords. (log 166, DESIGN CHOICE) -/
def Store.halfBytes (x : Store) (half : Nat) : List Byte :=
  ((List.range 32768).map fun i => beBytes 4 ((x.micro (32768 * half + i)).getD 0).toNat).flatten

/-! ### Commands of the customer half (R90) -/

/-- OPEN. -/
def State.custOpen (s : State) : Nat × State :=
  if (s.store.cust ≠ .empty ∧ s.store.cust ≠ .closed) ∨ s.anyBusy then (0x0108, s)
  else (0, { s with store := { s.store with cust := .opened } })

/-- CLOSE: the 32 entries of the table are read, and mended where they can be (R91). -/
def State.custClose (s : State) : Nat × State :=
  if s.store.cust ≠ .opened then (0x0108, s)
  else
    let s := s.each (List.range 32) fun s n => s.scrubEntry (custKey n)
    if !((List.range 32).all s.store.entryOk) then (0x0308, s) else (0, { s with store := { s.store with cust := .closing } })

/-- Every customer microword 0 and the half EMPTY (R90). -/
def State.custEmpty (s : State) : State :=
  { s with store := { s.store with
      primary := s.store.primary.filter (·.1 < 16384), mirror := s.store.mirror.filter (·.1 < 16384),
      lost := s.store.lost.filter (· < 16384), cust := .empty } }

/-- CLEAR. -/
def State.custClear (s : State) : Nat × State :=
  if (s.store.cust ≠ .opened ∧ s.store.cust ≠ .closed) ∨ s.anyBusy then (0x0108, s) else (0, s.custEmpty)

/-- The entries from a to b of the store that hold anything, in the order of the table. -/
def Store.keysIn (x : Store) (a b : Nat) : List Nat :=
  let ks (t : Table Codeword) : List Nat := (t.map (·.1)).filter fun k => decide (a ≤ k) && decide (k < b)
  let l := ks x.primary
  l ++ (ks x.mirror).filter fun k => !l.contains k

/-- CUST_CLOSE_DONE (R90): the hashing of the customer half ends. The hash reads every entry, which mends it as any read does, or finds it lost
(R91). -/
def execCustCloseDone (s : State) : Out :=
  if s.store.cust = .closing then
    let s := s.each (s.store.keysIn 16384 storeEnd) State.scrubEntry
    .next (({ s with store := { s.store with cust := .closed } }).setOct 0x4000 5 (sha384 (s.store.halfBytes 1)))
  else .next s

/-! ### The vendor image (R89) -/

/-- The header of the vendor image written (R89, R94): only during step 5 of the cold start. -/
def State.writeHeader (s : State) (b : List Byte) : Nat × State :=
  if b.length ≠ 160 then (0x0105, s)
  else if s.mode ≠ .coldStart ∨ s.start.step ≠ 5 then (0x0108, s)
  else if field b 10 11 ≠ 0 then (0x0107, s)
  else if field b 0 3 ≠ 0x564D4331 ∨ field b 12 15 ≠ 32768 then (0x0106, s)
  else (0, { s with store := { s.store with header := b, vendor := .header }, start := { s.start with headerFresh := true, entries := [] } })

/-- The vendor half read for its verification (R89): an entry with one copy uncorrectable is repaired from the other, a single-bit error
corrected (R91). -/
def State.mendVendor (s : State) : State :=
  let mend (s : State) (k : Nat) : State :=
    let s := (s.correctCopy false k).correctCopy true k
    match (checkWord (s.store.copy false k)).ok, (checkWord (s.store.copy true k)).ok with
    | false, true => s.repairCopy false k
    | true, false => s.repairCopy true k
    | _, _ => s
  s.each (s.store.keysIn 0 16384) mend

/-- The verification of the vendor half (R89): accepted, or rejected. -/
def State.vendorOk (s : State) : Bool :=
  let h := s.store.header
  Config.bootKeyAccepts (h.take 64) (h.drop 64)
    && sha384 (s.store.halfBytes 0) == (h.drop 16).take 48
    && decide (field h 8 9 ≤ s.step)
    && (List.range 16384).all fun k => (s.store.word k).isSome

end Sys2Proof.Machine
end

