-- ==== Sys2Proof/Machine/Microcode.lean ====
section
/-! DEFINITION. The microwords (R70-R91), one meaning each, and what happens to contexts between them. -/

namespace Sys2Proof.Machine

/-! ### Runs of a context -/

/-- Whether the next microword of a context is customer code. -/
def Ctx.customer (x : Ctx) : Bool := decide (x.ms.pc.toNat ≥ 0x8000)

/-- The micro-registers of a context changed. -/
def State.modMs (s : State) (c : Nat) (f : MicroState → MicroState) : State := s.modCtx c fun x => { x with ms := f x.ms }

/-- The next address. (log 152, DESIGN CHOICE) -/
def MicroState.step (m : MicroState) : MicroState := { m with pc := m.pc + 1 }

/-- A fault held pending at the microword a context issues. -/
def State.hold (s : State) (c code : Nat) : State := s.holdFault c code (s.ctx c).ms.pc

/-- A microword that executes as NOP and holds a fault pending (R72). -/
def State.nopFault (s : State) (c code : Nat) : State := (s.hold c code).modMs c MicroState.step

/-- ILLEGAL_MICROWORD. -/
def fMicro : Nat := 0x0010
/-- PROTECTION. -/
def fProtect : Nat := 0x0011
/-- MSTACK. -/
def fMstack : Nat := 0x0012
/-- WATCHDOG. -/
def fWatchdog : Nat := 0x0013
/-- CUST_ABSENT. -/
def fAbsent : Nat := 0x0017
/-- CS_LOST. -/
def fLost : Nat := 0x0018

/-- The registers that a microword names, by its fields: D and A where the opcode uses them, and mB in register form. -/
def regsNamed (op : Nat) (f : BitVec 26) : List Nat :=
  let d := if [0x01, 0x02, 0x03, 0x04, 0x05, 0x06, 0x07, 0x08, 0x0A, 0x0F, 0x10, 0x15].contains op then [fD f]
    else if op = 0x0E then [fD f, fD f + 1] else []
  let a := if [0x03, 0x04, 0x05, 0x06, 0x07, 0x08, 0x09, 0x0A, 0x0E, 0x0F, 0x10, 0x11, 0x12, 0x14, 0x15].contains op then [fA f] else []
  let b := if !fImm f ∧ ([0x01, 0x03, 0x04, 0x05, 0x06, 0x07, 0x08, 0x09, 0x0A, 0x0B, 0x0C].contains op ∨ (op = 0x11 ∧ (fD f = 0 ∨ fD f = 2)))
    then [bits f 3 0] else []
  d ++ a ++ b

/-- Whether a microword stalls on data that a FETCH has not brought yet (R75, R82). -/
def Ctx.stallsOn (x : Ctx) (op : Nat) (f : BitVec 26) : Bool :=
  x.fetch.any fun p => op == 0x3F || (regsNamed op f).any fun r => r == p.pair || r == p.pair + 1

/-- The cycles a microword issues: 2 for a CALLU, RETU or BR that branches, or is barred from it, 1 otherwise (R72, R87). -/
def microCost (taken : Bool) : Nat := if taken then 2 else 1

/-- Whether the model knows where a context stands: in customer code, or in a task whose entry a POST gave. The entries of the engine's own
tasks are free values, and the word at such an address is what is commanded. (log 126, DEDUCED) -/
def State.knownPc (s : State) (c : Nat) : Bool :=
  (s.ctx c).customer || (match (s.ctx c).owner with | some i => (s.entry i).work == .none | none => false)

/-- One microword (R66, R67, R83, R86, R91): it issues only as the context's turn and run allow and where it is the word stored at PC; a word
that waits for FETCH data stalls; a lost entry executes as NOP. -/
def State.micro (s : State) (c : Nat) (op : Nat) (f : BitVec 26) (taken : Bool) (body : State → State) : Out :=
  let x := s.ctx c
  let pc := x.ms.pc.toNat
  let known := s.knownPc c
  let word := s.store.micro pc
  let lost := known && word.isNone
  let cost := if lost then 1 else microCost taken
  if !s.mayIssue c ∨ !s.inMicro c ∨ x.run + cost > x.limit ∨ (known ∧ s.store.needsRepair (pc / 2)) then .next s
  else if known ∧ !lost ∧ word ≠ some (BitVec.ofNat 32 (op * 2 ^ 26 + f.toNat)) then .next s
  else
    let s := if known then s.readStore (pc / 2) else s
    if !lost ∧ x.stallsOn op f then .next (s.modCtx c fun y => { y with st := .waiting, stalled := true })
    else
      let s := s.modCtx c fun y => { y with st := .issuing, run := y.run + cost }
      let s := s.charge c cost
      if lost then .next (s.nopFault c fLost) else .next (body s)

/-! ### Arithmetic and logic (R72-R74) -/

/-- The result and flags of an operation written to mD and the flags. -/
def MicroState.alu (m : MicroState) (d : Option Nat) (r : AluOut) : MicroState :=
  let m := match d with | some k => m.put k r.val | none => m
  { m with z := r.z.getD m.z, n := r.n.getD m.n, c := r.c.getD m.c, v := r.v.getD m.v }

/-- An operation of mA and source B. -/
def State.binary (s : State) (c : Nat) (f : BitVec 26) (d : Option Nat) (aUsed : Bool) (g : Word32 → Word32 → AluOut) : State :=
  let m := (s.ctx c).ms
  match sourceB m f with
  | none => s.nopFault c fMicro
  | some b =>
    if (!aUsed ∧ fA f ≠ 0) ∨ (d.isNone ∧ fD f ≠ 0) then s.nopFault c fMicro
    else s.modMs c fun m => (m.alu d (g (m.reg (fA f)) b)).step

/-- NOP, and any word whose opcode is not listed (R72): reserved operands and opcodes hold ILLEGAL_MICROWORD. -/
def execNop (c : CtxId) (w : Word32) (s : State) : Out :=
  let op := bits w 31 26
  if (1 ≤ op ∧ op ≤ 0x15) ∨ op = 0x3F then .next s
  else s.micro c op (BitVec.ofNat 26 w.toNat) false fun s => if w = 0 then s.modMs c MicroState.step else s.nopFault c fMicro

/-- MOV. -/
def execMov (c : CtxId) (f : BitVec 26) (s : State) : Out :=
  s.micro c 0x01 f false fun s => s.binary c f (some (fD f)) false fun _ b => aluZN b

/-- MOVH. -/
def execMovh (c : CtxId) (f : BitVec 26) (s : State) : Out :=
  s.micro c 0x02 f false fun s =>
    if !fImm f ∨ bits f 16 15 ≠ 0 ∨ fA f ≠ 0 then s.nopFault c fMicro
    else s.modMs c fun m =>
      let low := (m.reg (fD f)).toNat % 2 ^ 17
      (m.alu (some (fD f)) (aluZN (BitVec.ofNat 32 (bits f 14 0 * 2 ^ 17 + low)))).step

/-- ADD. -/
def execAdd (c : CtxId) (f : BitVec 26) (s : State) : Out :=
  s.micro c 0x03 f false fun s => s.binary c f (some (fD f)) true aluAdd

/-- SUB. -/
def execSub (c : CtxId) (f : BitVec 26) (s : State) : Out :=
  s.micro c 0x04 f false fun s => s.binary c f (some (fD f)) true aluSub

/-- AND. -/
def execAnd (c : CtxId) (f : BitVec 26) (s : State) : Out :=
  s.micro c 0x05 f false fun s => s.binary c f (some (fD f)) true fun a b => aluZN (a &&& b)

/-- OR. -/
def execOr (c : CtxId) (f : BitVec 26) (s : State) : Out :=
  s.micro c 0x06 f false fun s => s.binary c f (some (fD f)) true fun a b => aluZN (a ||| b)

/-- XOR. -/
def execXor (c : CtxId) (f : BitVec 26) (s : State) : Out :=
  s.micro c 0x07 f false fun s => s.binary c f (some (fD f)) true fun a b => aluZN (a ^^^ b)

/-- SHF (R73). -/
def execShf (c : CtxId) (f : BitVec 26) (s : State) : Out :=
  s.micro c 0x08 f false fun s =>
    match shiftForm (s.ctx c).ms f with
    | none => s.nopFault c fMicro
    | some (t, k) => s.modMs c fun m => (m.alu (some (fD f)) (aluShift t k (m.reg (fA f)))).step

/-- CMP. -/
def execCmp (c : CtxId) (f : BitVec 26) (s : State) : Out :=
  s.micro c 0x09 f false fun s => s.binary c f none true aluSub

/-- CRC (R74). -/
def execCrc (c : CtxId) (f : BitVec 26) (s : State) : Out :=
  s.micro c 0x0A f false fun s =>
    match crcForm (s.ctx c).ms f with
    | none => s.nopFault c fMicro
    | some (poly, w, k) => s.modMs c fun m => (m.alu (some (fD f)) (aluCrc w k poly (m.reg (fA f)) (m.reg (fD f)))).step

/-! ### Branches (R71, R72, R87) -/

/-- Whether customer code may not go to an address. -/
def Ctx.barred (x : Ctx) (t : BitVec 16) : Bool := x.customer && decide (t.toNat < 0x8000)

/-- Whether a BR transfers. -/
def State.brTaken (s : State) (c : Nat) (f : BitVec 26) : Bool :=
  let x := s.ctx c
  match branchTarget x.ms f with
  | some t => fA f == 0 && condHolds x.ms (fD f) && !x.barred t
  | none => false

/-- Whether a CALLU takes its 2 cycles: it is a legal word and the micro-stack has room (R72, R87). -/
def State.callTaken (s : State) (c : Nat) (f : BitVec 26) : Bool :=
  let m := (s.ctx c).ms
  (branchTarget m f).isSome && fA f == 0 && fD f == 0 && decide (m.stack.length < 8)

/-- Whether a RETU takes its 2 cycles. -/
def State.retTaken (s : State) (c : Nat) (f : BitVec 26) : Bool := f == 0 && !(s.ctx c).ms.stack.isEmpty

/-- The cycles of the microword w at a context. -/
def State.wordCost (s : State) (c : Nat) (w : Word32) : Nat :=
  let f := BitVec.ofNat 26 w.toNat
  microCost (match bits w 31 26 with
    | 0x0B => s.brTaken c f
    | 0x0C => s.callTaken c f
    | 0x0D => s.retTaken c f
    | _ => false)

/-- BR. -/
def execBr (c : CtxId) (f : BitVec 26) (s : State) : Out :=
  s.micro c 0x0B f (s.brTaken c f) fun s =>
    let x := s.ctx c
    match branchTarget x.ms f with
    | none => s.nopFault c fMicro
    | some t =>
      if fA f ≠ 0 ∨ fD f = 15 then s.nopFault c fMicro
      else if !condHolds x.ms (fD f) then s.modMs c MicroState.step
      else if x.barred t then s.nopFault c fProtect
      else s.modMs c fun m => { m with pc := t }

/-- CALLU. -/
def execCallu (c : CtxId) (f : BitVec 26) (s : State) : Out :=
  s.micro c 0x0C f (s.callTaken c f) fun s =>
    let x := s.ctx c
    match branchTarget x.ms f with
    | none => s.nopFault c fMicro
    | some t =>
      if fA f ≠ 0 ∨ fD f ≠ 0 then s.nopFault c fMicro
      else if x.ms.stack.length ≥ 8 then s.nopFault c fMstack
      else if x.barred t then s.nopFault c fProtect
      else s.modMs c fun m => { m with pc := t, stack := (m.pc + 1) :: m.stack }

/-- RETU. -/
def execRetu (c : CtxId) (f : BitVec 26) (s : State) : Out :=
  s.micro c 0x0D f (s.retTaken c f) fun s =>
    let x := s.ctx c
    if f ≠ 0 then s.nopFault c fMicro
    else match x.ms.stack with
      | [] => s.nopFault c fMstack
      | t :: rest => if x.barred t then s.nopFault c fProtect else s.modMs c fun m => { m with pc := t, stack := rest }

/-! ### FETCH, LDT and STT (R75, R76) -/

/-- The site that owns a context's operation. -/
def State.owningSite (s : State) (c : Nat) : Nat := (s.ctxSite c).getD 0

/-- FETCH (R75): the read runs in the background; an index beyond the image gives 0 and ADDRESS. (log 43, DEDUCED) -/
def execFetch (c : CtxId) (f : BitVec 26) (s : State) : Out :=
  s.micro c 0x0E f false fun s =>
    let n := s.owningSite c
    if !fImm f ∨ bits f 16 15 ≠ 0 ∨ fD f % 2 = 1 then s.nopFault c fMicro
    else
      let i := ((s.ctx c).ms.reg (fA f)).toNat + bits f 14 0
      if i ≥ (s.site n).length then (s.hold c fAddress).modMs c fun m => ((m.put (fD f) 0).put (fD f + 1) 0).step
      else
        let p : FetchPend := { pair := fD f, addr := s.nreg (siteObj n 1) 2 + 8 * i, pc := (s.ctx c).ms.pc, since := s.now }
        s.modCtx c fun x => { x with fetch := x.fetch ++ [p], ms := x.ms.step }

/-- FETCH_DATA (R75): the data of the oldest FETCH arrives whose turn of class 4 has come (R274, R275); what is uncorrectable or poisoned is
written as stored and holds DATA_POISON at the address of the FETCH. -/
def execFetchData (c : CtxId) (flips : List (BitVec 640)) (s : State) : Out :=
  match (s.ctx c).fetch.zipIdx.find? fun e => s.serves 4 (256 * c.val + e.2) e.1.addr with
  | none => .next s
  | some (p, i) =>
      let s := (s.passOlder 4 (256 * c.val + i) p.addr).passCycles 1
      let r := s.takeLine (64 * (p.addr / 64)) flips
      let w := checkWord (r.1.getD (p.addr / 8 % 8) {})
      let d := w.data
      let s := r.2.modCtx c fun y => { y with
        fetch := y.fetch.eraseIdx i, stalled := false, st := if y.stalled then .ready else y.st
        readySince := if y.stalled then s.inn.clock else y.readySince
        ms := (y.ms.put p.pair (BitVec.ofNat 32 (bits d 63 32))).put (p.pair + 1) (BitVec.ofNat 32 (bits d 31 0)) }
      .next (if w.ok then s else s.holdFault c fPoison p.pc)

/-- A word of SITE_INFO (R76). -/
def State.siteInfo (s : State) (n k : Nat) : Word32 :=
  let x := s.site n
  match k with
  | 0 => BitVec.ofNat 32 x.flags.toNat
  | 1 => BitVec.ofNat 32 x.thread.vp
  | 2 => BitVec.ofNat 32 x.thread.epoch
  | 3 => BitVec.ofNat 32 (s.pinCount n)
  | 4 => BitVec.ofNat 32 s.now
  | 5 => BitVec.ofNat 32 (x.thread.period.getD 0)
  | _ => BitVec.ofNat 32 x.thread.tset

/-- How many words a table space has. -/
def spaceSize (space : Nat) : Nat :=
  match space with
  | 0 => 64 | 1 => 8 | 2 => 7 | 3 => 256 | _ => 65536

/-- The pair j of a stack of the thread. -/
def pairAt (l : List (Nat × Nat)) (j : Nat) : Nat × Nat := l.getD j (0, 0)

/-- A stack of the thread with pair j changed. -/
def setPair (l : List (Nat × Nat)) (j : Nat) (f : Nat × Nat → Nat × Nat) : List (Nat × Nat) :=
  (List.range (max l.length (j + 1))).map fun k => if k = j then f (pairAt l k) else pairAt l k

/-- A stack of the thread with k pairs. -/
def resize (l : List (Nat × Nat)) (k : Nat) : List (Nat × Nat) := (List.range k).map (pairAt l)

/-- Item k of a thread's itinerary state (R76): VP, the fail epoch, what is left of a VEC, the loops and calls open, and for each open loop its
first instruction and count and for each open call its return and the loops open at it. -/
def Thread.item (t : Thread) (k : Nat) : Option Nat :=
  match k with
  | 0 => some t.vp
  | 1 => some t.epoch
  | 2 => some (t.vecLeft.getD 0)
  | 3 => some t.loops.length
  | 4 => some t.calls.length
  | _ =>
    let j := k - 5
    if j < 16 then some (if j % 2 = 0 then (pairAt t.loops (j / 2)).1 else (pairAt t.loops (j / 2)).2)
    else if j < 48 then some (if j % 2 = 0 then (pairAt t.calls (j / 2 - 8)).1 else (pairAt t.calls (j / 2 - 8)).2)
    else none

/-- A thread with item k changed. -/
def Thread.setItem (t : Thread) (k v : Nat) : Thread :=
  let put (first : Bool) (e : Nat × Nat) : Nat × Nat := if first then (v, e.2) else (e.1, v)
  match k with
  | 0 => { t with vp := v }
  | 1 => { t with epoch := v }
  | 2 => { t with vecLeft := if v = 0 then none else some v }
  | 3 => { t with loops := resize t.loops (min v 8) }
  | 4 => { t with calls := resize t.calls (min v 16) }
  | _ =>
    let j := k - 5
    if j < 16 then { t with loops := setPair t.loops (j / 2) (put (j % 2 == 0)) }
    else if j < 48 then { t with calls := setPair t.calls (j / 2 - 8) (put (j % 2 == 0)) }
    else t

/-- Word a of THREAD of site n. (log 44, DESIGN CHOICE) -/
def State.threadWord (s : State) (n a : Nat) : Word32 :=
  let t := (s.site n).thread
  match t.item (Config.threadItem a) with
  | some v => BitVec.ofNat 32 v
  | none => if t.aux.any (·.1 = a) then Table.get 0 t.aux a else BitVec.ofNat 32 (Config.threadWord n a)

/-- Word a of THREAD stored. -/
def Thread.setWord (t : Thread) (a : Nat) (v : Word32) : Thread :=
  if (t.item (Config.threadItem a)).isSome then t.setItem (Config.threadItem a) v.toNat
  else { t with aux := Table.insert t.aux a v }

/-- The word that an LDT or STT addresses. -/
def MicroState.tableWord (m : MicroState) (f : BitVec 26) : Nat := bits f 13 0 + (m.reg (fA f)).toNat % 65536

/-- The entry of the store that an LDT reads whose primary copy has first to be repaired (R91). -/
def State.ldtRepairs (s : State) (c : Nat) (f : BitVec 26) : Option Nat :=
  let x := s.ctx c
  let a := x.ms.tableWord f
  if fImm f ∧ bits f 16 14 = 4 ∧ a < 65536 ∧ ¬(x.customer ∧ a < 0x8000) ∧ s.store.needsRepair (a / 2) then some (a / 2) else none

/-- LDT (R76). Data that is uncorrectable holds DATA_POISON, and mD is a free value (R85). (log 151, DESIGN CHOICE) -/
def execLdt (c : CtxId) (f : BitVec 26) (s : State) : Out :=
  if (s.ldtRepairs c f).isSome then .next s
  else s.micro c 0x0F f false fun s =>
    let n := s.owningSite c
    let x := s.ctx c
    let space := bits f 16 14
    let a := x.ms.tableWord f
    let write (s : State) (v : Word32) : State := s.modMs c fun m => (m.put (fD f) v).step
    if !fImm f ∨ space > 4 then s.nopFault c fMicro
    else if a ≥ spaceSize space then write (s.hold c fAddress) 0
    else if x.customer ∧ (space = 3 ∨ (space = 4 ∧ a < 0x8000)) then write (s.hold c fProtect) 0
    else match space with
      | 0 => write s (Table.get 0 (s.site n).scratch a)
      | 1 => write s (Table.get 0 (s.site n).identity a)
      | 2 => write s (s.siteInfo n a)
      | 3 => write s (s.threadWord n a)
      | _ =>
        let s := s.readStore (a / 2)
        match s.store.micro a with
        | some v => write s v
        | none =>
          let v := s.free
          write (v.2.hold c fPoison) (BitVec.ofNat 32 v.1)

/-- STT (R76). -/
def execStt (c : CtxId) (f : BitVec 26) (s : State) : Out :=
  s.micro c 0x10 f false fun s =>
    let n := s.owningSite c
    let x := s.ctx c
    let space := bits f 16 14
    let a := x.ms.tableWord f
    let v := x.ms.reg (fD f)
    let go (s : State) : State := s.modMs c MicroState.step
    let mark (s : State) : State := s.modCtx c fun y => { y with effects := true }
    if !fImm f ∨ space > 4 then s.nopFault c fMicro
    else if space = 2 ∨ space = 4 ∨ (x.customer ∧ space = 3) then go (s.hold c fProtect)
    else if a ≥ spaceSize space then go (s.hold c fAddress)
    else match space with
      | 0 => go (mark (s.modSite n fun y => { y with scratch := Table.set 0 y.scratch a v }))
      | 1 => go (mark (s.modSite n fun y => { y with identity := Table.set 0 y.identity a v }))
      | _ => go (mark (s.modThread n (·.setWord a v)))

/-! ### EMIT (R77, R78, R164) -/

/-- What an EMIT asks for, if its operands are within their limits: the descriptor and the thread after it. -/
def State.emitOf (s : State) (n : Nat) (kind : Nat) (a b : Word32) : Option (DescKind × (Thread → Thread)) :=
  let t := (s.site n).thread
  let k := a.toNat
  match kind with
  | 0 =>
    if 1 ≤ k ∧ k ≤ 4096 ∧ b.toNat + k ≤ s.nreg (siteObj n 1) 5 ∧ s.stagingOk n then some (.stream b.toNat k, Thread.staged) else none
  | 1 => if 1 ≤ k ∧ t.anyPattern ∧ s.stagingOk n then some (.repeat k, Thread.staged) else none
  | 2 =>
    let slot := bits b 5 0
    let count := bits b 10 6 + 1
    let micro : Bool := match (s.sitePins n)[slot]? with
      | some p => match (t.inSerial.find? (·.1 = p)).bind fun e => s.serialCfg n e.2 with
        | some g => g.src == 4 && count != 32
        | none => false
      | none => true
    if bits b 31 20 = 0 ∧ !bit b 11 ∧ !micro ∧ t.anyPattern ∧ s.stagingOk n then
      some (.literal a (bits b 19 16) (bits b 15 12) count slot, Thread.staged)
    else none
  | 3 => if 1 ≤ k then some (.hold k, (·.addHold (some k))) else none
  | 4 => if 2500 ≤ k then some (.period k, fun t => { t with period := some k }) else none
  | _ => if k < 64 ∧ s.setValid n k then some (.tset k, fun t => { t with tset := k }) else none

/-- EMIT of one kind. (log 42, DEDUCED) -/
def State.emitMicro (s : State) (c : Nat) (kind : Nat) (f : BitVec 26) : Out :=
  if fD f ≠ kind ∧ fD f ≤ 5 then .next s
  else s.micro c 0x11 f false fun s =>
    let n := s.owningSite c
    let m := (s.ctx c).ms
    let regForm := kind = 0 ∨ kind = 2
    if fD f > 5 ∨ fImm f ∨ (regForm ∧ bits f 16 4 ≠ 0) ∨ (!regForm ∧ bits f 17 0 ≠ 0) then s.nopFault c fMicro
    else
      let room := s.queueRoom n
      let setZ (s : State) : State := s.modMs c fun m => { m with z := room }.step
      match s.emitOf n kind (m.reg (fA f)) (m.reg (bits f 3 0)) with
      | none => setZ (s.hold c fEmit)
      | some (d, g) =>
        if !room then setZ s
        else
          let t := (s.site n).thread
          let s := s.modCtx c fun x => { x.countTaint with before := x.before.or (some t) }
          setZ ((s.stageBy n c d).modThread n g)

/-- EMIT STREAM. -/
def execEmitStream (c : CtxId) (f : BitVec 26) (s : State) : Out := s.emitMicro c 0 f
/-- EMIT REPEAT. -/
def execEmitRepeat (c : CtxId) (f : BitVec 26) (s : State) : Out := s.emitMicro c 1 f
/-- EMIT LITERAL. -/
def execEmitLiteral (c : CtxId) (f : BitVec 26) (s : State) : Out := s.emitMicro c 2 f
/-- EMIT HOLD. -/
def execEmitHold (c : CtxId) (f : BitVec 26) (s : State) : Out := s.emitMicro c 3 f
/-- EMIT PERIOD. -/
def execEmitPeriod (c : CtxId) (f : BitVec 26) (s : State) : Out := s.emitMicro c 4 f
/-- EMIT TSET. -/
def execEmitTset (c : CtxId) (f : BitVec 26) (s : State) : Out := s.emitMicro c 5 f

/-! ### WAITC (R79) -/

/-- Whether a WAITC names a resource its site owns, and CONVOY only from vendor code. -/
def State.waitOwned (s : State) (n cond : Nat) (arg : Word32) (customer : Bool) : Bool :=
  match cond with
  | 5 => s.nreg (tuObj (bits arg 3 0)) 1 == n
  | 6 => (s.mdef (bits arg 11 0)).owner == n
  | 8 => !customer
  | _ => true

/-- Whether the condition of a WAITC is true at a tick, or by the end of the frame that opens at it where `late` says so (TIME alone changes
within a frame). (log 159, DEDUCED) -/
def State.waitTrue (s : State) (n cond : Nat) (arg : Word32) (since : Nat) (late : Bool) : Bool :=
  let x := s.site n
  match cond with
  | 0 => decide (s.now > since)
  | 1 => decide (64 - x.queued ≥ bits arg 6 0)
  | 2 => decide (x.released < s.nInForce 0x6000 4)
  | 3 => (x.thread.pending &&& BitVec.ofNat 8 (bits arg 7 0)) != 0
  | 4 => s.drained n
  | 5 => (s.tu (bits arg 3 0)).fired
  | 6 => (s.mdef (bits arg 11 0)).published
  | 7 => decide ((BitVec.ofNat 32 (s.clk.c + if late then 63 else 0) - arg).toInt ≥ 0)
  | _ => x.agreed.contains (bits arg 15 0)

/-- WAITC. -/
def execWaitc (c : CtxId) (f : BitVec 26) (s : State) : Out :=
  s.micro c 0x12 f false fun s =>
    let n := s.owningSite c
    let x := s.ctx c
    let arg := x.ms.reg (fA f)
    let done (s : State) (z : Bool) : State := s.modMs c fun m => { m with z := z }.step
    if !fImm f ∨ fD f > 8 then s.nopFault c fMicro
    else if !s.waitOwned n (fD f) arg x.customer then done (s.hold c fProtect) false
    else if x.fault.isSome ∨ x.orphan.isSome ∨ (!x.task ∧ ((s.site n).abort.isSome ∨ (s.site n).halted)) then done s false
    else if s.waitTrue n (fD f) arg s.now false then done s true
    else
      let t := bits f 16 0
      (s.modMs c MicroState.step).modCtx c fun y => { y with
        st := .waiting, wait := some { cond := fD f, arg := arg, since := s.now, deadline := if t = 0 then none else some (s.now + t) } }

/-- A WAITC ended with Z as given: the context is READY. -/
def State.wake (s : State) (c : Nat) (z : Bool) : State :=
  (s.passCycles 1).modCtx c fun y => { y with wait := none, st := .ready, readySince := s.inn.clock + 1, ms := { y.ms with z := z } }

/-- WAITC_WAKE. -/
def execWaitcWake (c : CtxId) (s : State) : Out :=
  match (s.ctx c).wait with
  | some w => if s.waitTrue (s.owningSite c) w.cond w.arg w.since true then .next (s.wake c true) else .next s
  | none => .next s

/-- WAITC_TIMEOUT. -/
def execWaitcTimeout (c : CtxId) (s : State) : Out :=
  match (s.ctx c).wait with
  | some { cond := k, arg := a, since := t, deadline := some d } =>
    if s.now ≥ d ∧ !s.waitTrue (s.owningSite c) k a t false then .next (s.wake c false) else .next s
  | _ => .next s

/-! ### EVT, CAPC and POST (R80) -/

/-- A source that a microword raises: a Caravan task defers its first four (R120). -/
def State.raiseBy (s : State) (c e : Nat) : State :=
  let x := s.ctx c
  let s := s.modCtx c fun y => { y with effects := true }
  match x.owner.bind fun i => (s.entry i).caravan with
  | some cv =>
    if x.events.length < 4 then s.modCtx c fun y => { y with events := y.events ++ [e] }
    else (s.raise e).bump (0x5400 + cv) 8
  | none => s.raise e

/-- EVT. -/
def execEvt (c : CtxId) (f : BitVec 26) (s : State) : Out :=
  s.micro c 0x13 f false fun s =>
    let x := s.ctx c
    let go (s : State) : State := s.modMs c MicroState.step
    if !fImm f ∨ fD f ≠ 0 ∨ fA f ≠ 0 ∨ bits f 16 12 ≠ 0 ∨ (!bit f 11 ∧ bits f 10 2 ≠ 0) then s.nopFault c fMicro
    else if bit f 11 then (if x.customer then go (s.hold c fProtect) else go (s.raiseBy c (bits f 10 0)))
    else go (s.raiseBy c (siteEvent (s.owningSite c) (4 + bits f 1 0)))

/-- CAPC of one kind. (log 149, DESIGN CHOICE) -/
def State.capcMicro (s : State) (c : Nat) (kind : Nat) (f : BitVec 26) : Out :=
  if fD f ≠ kind ∧ (fD f ≤ 4 ∨ fD f = 8) then .next s
  else s.micro c 0x14 f false fun s =>
    let n := s.owningSite c
    if !fImm f ∨ (fD f > 4 ∧ fD f ≠ 8) then s.nopFault c fMicro
    else
      let a := (s.ctx c).ms.reg (fA f)
      let r := s.capIssue n kind
      let s := if r.1 then r.2.stageBy n c (.rider (if kind = 8 then .mark a else .cap kind (bits f 7 0))) else r.2
      let s := if r.1 then s.modCtx c fun y => { y with effects := true } else s
      s.modMs c fun m => { m with z := r.1 }.step

/-- CAPC STOP. -/
def execCapcStop (c : CtxId) (f : BitVec 26) (s : State) : Out := s.capcMicro c 0 f
/-- CAPC START. -/
def execCapcStart (c : CtxId) (f : BitVec 26) (s : State) : Out := s.capcMicro c 1 f
/-- CAPC PAUSE. -/
def execCapcPause (c : CtxId) (f : BitVec 26) (s : State) : Out := s.capcMicro c 2 f
/-- CAPC RESUME. -/
def execCapcResume (c : CtxId) (f : BitVec 26) (s : State) : Out := s.capcMicro c 3 f
/-- CAPC COMMIT. -/
def execCapcCommit (c : CtxId) (f : BitVec 26) (s : State) : Out := s.capcMicro c 4 f
/-- CAPC MARK. -/
def execCapcMark (c : CtxId) (f : BitVec 26) (s : State) : Out := s.capcMicro c 8 f

/-- OWNER of a Caravan: c itself for a service Caravan (R118, R129). -/
def State.caravanOwner (s : State) (cv : Nat) : Nat := if cv < 64 then cv else s.nreg (0x5400 + cv) 1

/-- The entry of a POST, or nothing where the Innkeeper refuses it (R80, R100, R118, R119). (log 45, DEDUCED) -/
def State.postTask (s : State) (n entry prio : Nat) (arg : Word32) (cv : Option Nat) (customer : Bool) : Bool × State :=
  let e : Entry := { state := .ready, kind := .task, prio := prio, entry := entry, arg := arg }
  match cv with
  | none =>
    let a := s.allocGeneral n e
    match a.1 with
    | some i => (true, a.2.makeReady i)
    | none => (false, a.2)
  | some v =>
    if s.caravanOwner v ≠ n ∨ (customer ∧ v < 64) ∨ (s.caravan v).outstanding ≥ 1024 then (false, s.refusePost)
    else
      let a := s.allocGeneral n e
      match a.1 with
      | some i =>
        let q := a.2.joinCaravan v
        (true, (q.2.setEntry i { q.2.entry i with caravan := some v, seq := q.1 }).makeReady i)
      | none => (false, a.2)

/-- POST: with B[3] = 0, B[11:4] names no Caravan and is ignored. (log 150, DESIGN CHOICE) -/
def execPost (c : CtxId) (f : BitVec 26) (s : State) : Out :=
  s.micro c 0x15 f false fun s =>
    let n := s.owningSite c
    let x := s.ctx c
    let entry := (x.ms.reg (fA f)).toNat % 65536
    let prio := bits f 2 0
    if !fImm f ∨ bits f 16 12 ≠ 0 then s.nopFault c fMicro
    else if x.customer ∧ (prio ≤ 2 ∨ entry < 0x8000) then (s.hold c fProtect).modMs c MicroState.step
    else
      let r := s.postTask n entry prio (x.ms.reg (fD f)) (if bit f 3 then some (bits f 11 4) else none) x.customer
      let s := if r.1 then r.2.modCtx c fun y => { y with effects := true } else r.2
      s.modMs c fun m => { m with z := r.1 }.step

/-! ### END and the boundaries (R81, R82, R86) -/

/-- What the work of a finished engine task does at its final END, which frees its entry; Caravan items give their results at release
(R103, R120). A record that finds the verdict store full stays in its entry (R429). -/
def State.finishWork (s : State) (i : Nat) (w : Work) : State :=
  match w with
  | .sealPrep run =>
    let room := s.pass.formed.all fun f => f.rcd.run != run || s.storeRoom f.rcd
    let s := if room then s.freeEntry i else s.setEntry i { s.entry i with state := .done }
    { s with pass := { s.pass with formed := s.pass.formed.map fun f => if f.rcd.run = run then { f with prepared := true } else f } }
  | _ => s.freeEntry i

/-- A context freed. -/
def State.freeCtx (s : State) (c : Nat) : State :=
  s.modCtx c fun y => if y.st = .retired then y else {}

/-- A task ended (R82, R119): a fault makes a Caravan item VOID and is taken as one of the posting site's instruction; otherwise
the item is DONE, or its entry free. -/
def State.endTask (s : State) (c : Nat) : State :=
  let x := s.ctx c
  match x.owner with
  | none => s.freeCtx c
  | some i =>
    let e := s.entry i
    match x.fault with
    | some (code, pc) =>
      let s := if code = 0x0020 then s.bump 0x5001 12 else s
      let s := s.noteFault e.site c code (s.site e.site).thread.idx pc.toNat x.ms.pc.toNat
      let s := match e.caravan with
        | some _ => s.setEntry i { e with state := .void }
        | none => s.freeEntry i
      if e.work.ofSite then (s.freeCtx c).faultHere e.site code else s.freeCtx c
    | none =>
      let s := match e.caravan with
        | some _ => s.setEntry i { e with state := .done, events := x.events }
        | none => s.finishWork i e.work
      s.freeCtx c

/-- The END of a thread's customer run (R81, R82, R97). -/
def State.endThread (s : State) (n c : Nat) (cont yields : Bool) (resume : BitVec 16) : State :=
  let pc := (s.ctx c).ms.pc
  let i := (s.site n).thread.idx
  let s := if cont then s.modMs c fun m => { m with pc := resume } else s
  let s := (s.modCtx c fun y => { y with snap := y.ms }).release n c
  let s := if cont then s else (s.modThread n fun t => { t with custom := false }).advance n
  s.boundary n c i (some pc) yields cont

/-- The END of the run of a thread that has ended (R82, R116): what it has staged plays where its site plays on until the next tick (R62), a fault
is recorded, and the context is free. -/
def State.endOrphan (s : State) (n c : Nat) : State :=
  let x := s.ctx c
  let s := if (s.site n).haltAsked then s.release n c else s.discard n c
  let s := match x.fault with
    | some (code, pc) => s.noteFault n c code (s.site n).thread.idx pc.toNat x.ms.pc.toNat
    | none => s
  s.freeCtx c

/-- END. -/
def execEndI (c : CtxId) (f : BitVec 26) (s : State) : Out :=
  s.micro c 0x3F f false fun s =>
    let n := s.owningSite c
    let x := s.ctx c
    let cont := bit f 25
    let resume := BitVec.ofNat 16 (bits f 15 0)
    if bits f 23 18 ≠ 0 ∨ bit f 17 ≠ cont ∨ bit f 16 ∨ (!cont ∧ resume ≠ 0) ∨ (x.task ∧ cont) then s.nopFault c fMicro
    else
      let s := if cont ∧ x.barred resume then s.hold c fProtect else s
      if x.orphan.isSome then s.endOrphan n c
      else if x.task then ((s.release n c).modCtx c fun y => { y with snap := y.ms }).endTask c
      else s.endThread n c cont (bit f 24) resume

/-- Whether the next microword of a context would exceed its run limit (R86). A word at an address that the model does not know may cost 2. -/
def State.overLimit (s : State) (c : Nat) : Bool :=
  let x := s.ctx c
  let cost := if s.knownPc c then (match s.store.micro x.ms.pc.toNat with | some w => s.wordCost c w | none => 1) else 2
  decide (x.run + cost > x.limit)

/-- WATCHDOG (R86): the microword is not issued; provisional descriptors are discarded and the boundary is forced. -/
def execWatchdog (c : CtxId) (s : State) : Out :=
  let x := s.ctx c
  if !s.mayIssue c ∨ !s.inMicro c ∨ !s.overLimit c then .next s
  else
    let n := s.owningSite c
    let s := ((s.hold c fWatchdog).bump (0x4010 + c / 8) 6).discard n c
    .next (if x.orphan.isSome then s.endOrphan n c else if x.task then s.endTask c else s.boundary n c (s.site n).thread.idx (some x.ms.pc) false false)

/-- SAVING_DONE (R65). -/
def execSavingDone (c : CtxId) (s : State) : Out :=
  if (s.ctx c).st = .saving then .next (s.freeCtx c) else .next s

/-- A retired context may leave its engine one site too many: the one admitted last is re-homed at its next boundary (R108). -/
def State.rehome (s : State) (e : Nat) : State :=
  if (s.homed e).length + 2 > s.usable e then
    match (s.homed e).foldl (fun a n => match a with
        | none => some n
        | some m => if (s.site n).admitted > (s.site m).admitted then some n else some m) (none : Option Nat) with
    | none => s
    | some n =>
      if !((List.range 16).any fun k => decide (k ≠ e) && s.hasRoom k (s.share n)) then s.raiseWith 1606 [beBytes 8 n]
      else if (s.entry n).state = .placed then s.modSite n fun x => { x with recalled := true }
      else s.moveHome n
  else s

/-- A context that failed its self-test retires (R91): a fault of the context at level RETIRE, E1545 and re-homing (R108). -/
def State.retire (s : State) (c n : Nat) : State :=
  let s := (s.setCtx c { st := .retired }).raise 1545
  (s.handFault { resource := 0x80 + c, level := 6, site := n, source := 1545 }).rehome (c / 8)

/-- A restart that cannot be made ends the site (R463): the thread where it stands, a task as one that faulted. A site whose thread has ended
already has no fault to take. -/
def State.restartFails (s : State) (c n : Nat) : State :=
  let x := s.ctx c
  if x.orphan.isSome then s else
  let s := if x.task then
      match x.owner with
      | some i =>
        let e := s.entry i
        match e.caravan with
        | some _ => s.setEntry i { e with state := .void }
        | none => s.freeEntry i
      | none => s
    else s
  s.faultHere n 0x0102

/-- The entry of the store that a CUSTn word reads as the thread of site n executes it now (R97). -/
def State.custReads (s : State) (n : Nat) (w : Word64) : Option Nat :=
  let op := opcodeOf w
  let t := (s.site n).thread
  if s.mayRun n ∧ t.idx < (s.site n).length ∧ 0x20 ≤ op ∧ op ≤ 0x3F ∧ condOf w ≠ 7 ∧ reservedClear w
      ∧ (t.reached ∨ t.vecLeft.isSome ∨ siteCond (s.site n).flags (condOf w)) then some (custKey (op - 0x20))
  else none

/-- That entry, where its primary copy has first to be repaired (R91). -/
def State.custRepairs (s : State) (n : Nat) (w : Word64) : Option Nat := (s.custReads n w).filter s.store.needsRepair

/-- The instruction at which the thread of a site stands, as memory stands. -/
def State.itinNow (s : State) (n : Nat) : Word64 := (checkWord (s.peekWord (s.itinAddr n (s.site n).thread.idx))).data

/-- The entry of the store whose primary copy an issuing context finds uncorrectable and its mirror good: that of the word at PC, the one
that an LDT there reads, or the one that a CUSTn of its thread reads. -/
def State.repairs (s : State) (c : Nat) : Option Nat :=
  let pc := (s.ctx c).ms.pc.toNat
  if !s.inMicro c then
    match (s.ctx c).owner with
    | some i => s.custRepairs (s.entry i).site (s.itinNow (s.entry i).site)
    | none => none
  else if !s.knownPc c then none
  else if s.store.needsRepair (pc / 2) then some (pc / 2)
  else match s.store.micro pc with
    | some w => if bits w 31 26 = 0x0F then s.ldtRepairs c (BitVec.ofNat 26 w.toNat) else none
    | none => none

/-- The spare context that a restart takes (R91, R108): the lowest FREE one of the engine, beyond those kept for homed threads. (log 49, DEDUCED) -/
def State.spareCtx (s : State) (c : Nat) : Option Nat :=
  if (s.ctx c).restarted ∨ (s.freeCtxs (c / 8)).length ≤ s.unplaced (c / 8) then none else (s.freeCtxs (c / 8)).head?

/-- CS_RESTART (R91): the primary of the entry read is rewritten from its mirror and the run repeats from its last snapshot in
a spare context of the engine; the context self-tests and returns, or retires. Without a spare, or in a run that is itself a repeat,
the restart fails (R463). (log 49, DEDUCED) -/
def execCsRestart (c : CtxId) (selfTest : Bool) (s : State) : Out :=
  match (if !s.mayIssue c then none else s.repairs c) with
  | none => .next s
  | some k =>
    let n := s.owningSite c
    let e := c / 8
    let s := (((s.correctCopy true k).repairCopy false k).bump (0x4010 + e) 7).passCycles 1
    let s := s.reportFault { resource := 0x80 + c, level := 5, site := n, source := 1547 }
    let s := s.discard n c
    let x := s.ctx c
    let s := match s.spareCtx c with
      | some d =>
        let s := s.setCtx d { x with st := .ready, ms := x.snap, run := 0, fetch := [], wait := none, stalled := false
                                     readySince := s.inn.clock, effects := false, restarted := true }
        let s := match x.owner with | some i => s.setEntry i { s.entry i with context := d } | none => s
        if x.effects then (s.modCtx d fun y => { y with taint := true }).taint n else s
      | none => s.restartFails c n
    .next (if selfTest then s.setCtx c {} else s.retire c n)

/-! ### CUSTn (R97) -/

/-- CUSTn: the vendor prologue reads entry n of the table and branches to it; m2-m15 are free values. Its read of the store is one of an issuing
context (R22, R91): a primary copy that is uncorrectable waits for CS_RESTART, and a lost entry holds CS_LOST. -/
def execCust (n : SiteId) (w : Word64) (s : State) : Out :=
  let op := opcodeOf w
  if (s.custRepairs n w).isSome then .next s
  else s.instr n w (if 0x20 ≤ op ∧ op ≤ 0x3F then op else 0x20) 5 true fun s c =>
    let k := custKey (op - 0x20)
    let s := s.readStore k
    if (s.store.word k).isNone then .failed s fLost
    else match s.store.custEntry (op - 0x20) with
    | none => .failed s fAbsent
    | some (entry, limit) =>
      let base := s.freeCtr
      let regs := BitVec.ofNat 32 (bits w 31 0) :: BitVec.ofNat 32 (bits w 47 32) ::
        (List.range 14).map fun i => BitVec.ofNat 32 (Config.freeValue (base + i))
      let s := { s with freeCtr := base + 14 }
      let s := s.modThread n fun t => { t with custom := true }
      .custom (s.modCtx c fun y => { y with
        ms := { m := regs, pc := BitVec.ofNat 16 entry }, limit := limit, run := 0, cust := true, effects := false
        snap := { m := regs, pc := BitVec.ofNat 16 entry }, restarted := false })

end Sys2Proof.Machine
end

