-- ==== Sys2Proof/Machine/Innkeeper.lean ====
section
/-! DEFINITION. The Innkeeper: dispatch, wakes, Caravan release, the sweep and the accounts of a frame (R104-R130). -/

namespace Sys2Proof.Machine

/-! ### Placement (R108, R111) -/

/-- The bin of a wait in frames (R126). -/
def waitBin (old : Bool) (wait : Nat) : Nat :=
  if old ∨ wait ≥ 8192 then 15 else if wait = 0 then 1 else min 14 (2 + Nat.log2 wait)

/-- An entry placed in the lowest free context of an engine: a thread restores in 4 cycles from its save slot, a task starts with
m0 = ARG, m1 = its site, m2-m15 free values, all flags clear and an empty micro-stack (R68, R80). (log 40, DESIGN CHOICE) -/
def State.place (s : State) (i e : Nat) : State :=
  match (s.freeCtxs e).head? with
  | none => s
  | some c =>
    let x := s.entry i
    let s := (s.passCycles 1).bump (0x5010 + x.prio) (waitBin x.old (s.now - x.since))
    let s := s.setEntry i { x with state := .placed, context := c, old := false }
    if x.kind = .thread then
      let y := s.site x.site
      let s := s.setCtx c { st := .ready, ms := y.saved, snap := y.saved, owner := some i, limit := y.thread.limit,
                            cust := y.thread.custom, readySince := s.inn.clock }
      (s.charge c 4).modSite x.site fun z => { z with issued := y.issued }
    else
      let base := s.freeCtr
      let regs := x.arg :: BitVec.ofNat 32 x.site :: (List.range 14).map fun k => BitVec.ofNat 32 (Config.freeValue (base + k))
      let ms : MicroState := { m := regs, pc := BitVec.ofNat 16 x.entry }
      let limit := if x.entry ≥ 0x8000 then 256 else 512
      ({ s with freeCtr := base + 14 }).setCtx c { st := .ready, ms := ms, snap := ms, owner := some i, task := true,
                                                   limit := limit, readySince := s.inn.clock }

/-- The Ledger's wakes at a tick (R109): a PARKED thread becomes READY below its watermark, or for a pending event of its
mask. -/
def State.wakeThread (s : State) (n : Nat) : State :=
  let x := s.site n
  let e := s.entry n
  if e.state = .parked then
    let mask := BitVec.ofNat 8 (s.nreg (0x5100 + n) 8)
    if x.released < s.nInForce 0x6000 4 ∨ (x.thread.internal ∧ x.released < s.nInForce 0x6000 5) ∨ (x.thread.pending &&& mask) ≠ 0 then
      s.makeReady n
    else s
  else s

/-! ### Caravans (R118-R121) -/

/-- The entry of the head item of a Caravan. -/
def State.headItem (s : State) (cv : Nat) : Option Nat :=
  let h := (s.caravan cv).head
  (s.entriesWhere fun _ e => e.caravan == some cv && e.seq == h).head?

/-- A result handed on at release: measurements into their record, a packaged record to export (R120, R239). -/
def State.deliverWork (s : State) (w : Work) (ok : Bool) : State :=
  match w with
  | .recordMeas no =>
    let r := s.rcd no
    if r.stage ≠ .committed then s
    else if ok ∧ natBit r.flags.toNat 6 = false then
      (s.setRec no { r with stage := .measured, meas := (List.range 8).map fun k => s.measureOne r k }).storeResults no
    else (s.setRec no { r with stage := .measured, flags := r.flags ||| 2048, meas := s.noResults r.site }).storeResults no
  | .packaging no =>
    let r := s.rcd no
    if r.stage = .exported ∨ r.stage = .packaged then s
    else
      let s := if ok then s.setRec no { r with stage := .packaged }
        else (s.setRec no { r with stage := .packaged, flags := r.flags ||| 64 }).storeResults no
      s.sendRecord no
  | _ => s

/-- One item released from the head of a Caravan (R120). -/
def State.releaseItem (s : State) (cv i : Nat) : State :=
  let e := s.entry i
  let ok := e.state == .done
  let s := if ok then s.each e.events State.raise else s
  let s := s.deliverWork e.work ok
  let s := s.bump (0x5400 + cv) (if ok then 5 else 6)
  let v := s.caravan cv
  let s := s.setCaravan cv { v with head := (v.head + 1) % 65536, outstanding := v.outstanding - 1, stalled := 0, stallRaised := false }
  (s.freeEntry i).postHeld s.inn.held.length

/-- Items released from the head while it is DONE or VOID. -/
def State.releaseHead (s : State) (cv : Nat) : Nat → State
  | 0 => s
  | k + 1 =>
    match s.headItem cv with
    | some i => if (s.entry i).state = .done ∨ (s.entry i).state = .void then (s.releaseItem cv i).releaseHead cv k else s
    | none => s

/-- CARAVAN_RELEASE (R120): up to 4 items in a micro-engine cycle. -/
def execCaravanRelease (cv : Fin 256) (s : State) : Out := .next (s.releaseHead cv 4)

/-- Whether a Caravan's head holds up a later item that is DONE (R121). -/
def State.stalls (s : State) (cv : Nat) : Bool :=
  let v := s.caravan cv
  decide (v.outstanding > 0) &&
    (match s.headItem cv with
     | some i => (s.entry i).state ≠ .done && (s.entry i).state ≠ .void
     | none => true)
    && (s.ledger.any fun e => e.2.caravan == some cv && e.2.state == .done && e.2.seq != v.head)

/-- One frame of a Caravan counted (R121). -/
def State.stallFrame (s : State) (cv : Nat) : State :=
  if s.stalls cv then (s.setCaravan cv { s.caravan cv with stalled := (s.caravan cv).stalled + 1 }).bump (0x5400 + cv) 7
  else if (s.caravan cv).stalled = 0 then s
  else s.setCaravan cv { s.caravan cv with stalled := 0 }

/-- CARAVAN_STALL (R121): raised once after 1,024 frames in a row, and again only after the head has been released. -/
def execCaravanStall (cv : Fin 256) (s : State) : Out :=
  let v := s.caravan cv
  if v.stalled ≥ 1024 ∧ !v.stallRaised then .next ((s.setCaravan cv { v with stallRaised := true }).raise 1605) else .next s

/-! ### Entries as stored, and the sweep (R101, R104, R105) -/

/-- STATE of an entry (R102). -/
def EntryState.code : EntryState → Nat
  | .free => 0 | .parked => 1 | .ready => 2 | .placed => 3 | .armed => 4 | .done => 5 | .void => 6

/-- KIND of an entry. -/
def EntryKind.code : EntryKind → Nat
  | .thread => 0 | .task => 1 | .measurement => 2 | .record => 3

/-- LINK of entry i: the next entry of its ready list, or of its Caravan. (log 125, DESIGN CHOICE) -/
def State.entryLink (s : State) (i : Nat) : Nat :=
  let e := s.entry i
  let next := if e.state = .ready then
      (((s.readyList.filter fun j => (s.entry j).prio == e.prio).dropWhile (· ≠ i)).drop 1).head?
    else match e.caravan with
      | some c => (s.entriesWhere fun _ x => x.caravan == some c && x.seq == (e.seq + 1) % 65536).head?
      | none => none
  next.getD (Config.endLink % 2 ^ 17)

/-- The two words of entry i (R101). -/
def State.entryWord (s : State) (i k : Nat) : Word64 :=
  let e := s.entry i
  if k = 0 then
    BitVec.ofNat 64 (e.state.code * 2 ^ 61 + e.kind.code * 2 ^ 58 + e.prio * 2 ^ 55 + (if e.caravan.isSome then 2 ^ 54 else 0)
      + e.caravan.getD 0 * 2 ^ 46 + e.seq * 2 ^ 30 + e.site * 2 ^ 24 + (if e.service then 2 ^ 23 else 0) + e.context * 2 ^ 16 + e.entry)
  else BitVec.ofNat 64 (e.arg.toNat * 2 ^ 32 + s.entryLink i * 2 ^ 15 + (if e.old then 2 ^ 14 else 0) + e.since % 2 ^ 14)

/-- The stored codeword of one of the two words. -/
def State.entryCodeword (s : State) (i k : Nat) : Codeword :=
  let f := Table.get (0, 0) s.inn.flips i
  flipWord (encodeWord (s.entryWord i k)) (if k = 0 then f.1 else f.2)

/-- The loss of the packaging entry of a record (R104, R220): the record is marked LOST, and a measurement task that has not been placed is not
run. -/
def State.loseRecord (s : State) (no : Nat) : State :=
  let l := s.entriesWhere fun _ e => e.work == .recordMeas no && e.state == .ready
  (s.setRec no { s.rcd no with flags := (s.rcd no).flags ||| 64 }).each l State.cancel

/-- A task that was PLACED when its entry was lost runs no further (R104). (log 48, DEDUCED) -/
def State.dropTask (s : State) (e : Entry) : State :=
  if e.state = .placed ∧ e.kind = .task then (s.discard e.site e.context).freeCtx e.context else s

/-- The entry of a lost task: VOID in its Caravan, otherwise free. -/
def State.loseTask (s : State) (i : Nat) (e : Entry) : State :=
  match e.caravan with
  | some _ => (s.dropTask e).setEntry i { e with state := .void }
  | none => (s.dropTask e).freeEntry i

/-- An uncorrectable entry and the operation it held (R104). (log 48, DEDUCED) -/
def State.loseLedger (s : State) (i : Nat) : State :=
  let e := s.entry i
  let s := (s.bump 0x5001 11).raise 1601
  let s := s.handFault { resource := 10, level := 6, site := if !e.work.ofSite ∨ e.state = .free then 255 else e.site, source := 1601 }
  let s := { s with inn := { s.inn with flips := Table.erase s.inn.flips i } }
  if e.state = .free then s
  else match e.kind with
  | .thread => s.faultHere i 0x0021
  | .measurement => s.cancelMeas e.arg.toNat
  | .record => (s.freeEntry i).loseCapture e.site i
  | .task =>
    match e.work with
    | .none => (s.taint e.site).loseTask i e
    | .sealPrep run =>
      let again := s.pass.formed.any fun f => f.rcd.run == run && !f.reposted
      let s := s.loseTask i e
      if again then
        ({ s with pass := { s.pass with formed := s.pass.formed.map (fun (f : Formed) => if f.rcd.run == run then { f with reposted := true } else f) } }).postService
          { site := e.site, prio := e.prio, work := e.work }
      else s
    | .recordMeas _ => s.loseTask i e
    | .packaging no => (s.loseRecord no).loseTask i e
    | .fault => (s.loseTask i e).postFault e.site
    | .housekeeping => (s.loseTask i e).postService { site := e.site, prio := e.prio, work := e.work }

/-- One entry read (R104): a single-bit error of a word is corrected in place, an uncorrectable entry is lost. -/
def State.readEntry (s : State) (i : Nat) : State :=
  let w := [checkWord (s.entryCodeword i 0), checkWord (s.entryCodeword i 1)]
  if w.any (!·.ok) then s.loseLedger i
  else
    let k := (w.filter fun x => match x with | .corrected _ _ => true | _ => false).length
    if k = 0 then s
    else
      let s := { s with inn := { s.inn with flips := Table.erase s.inn.flips i } }
      s.each (List.range k) fun s _ => (s.bump 0x5001 10).raise 1600

/-- One entry read by the sweep (R104, R105): a READY one that has waited 8,192 frames or more is OLD. -/
def State.sweepEntry (s : State) (i : Nat) : State :=
  let s := s.readEntry i
  let e := s.entry i
  if e.state = .ready ∧ (s.now % 16384 + 16384 - e.since % 16384) % 16384 ≥ 8192 then s.setEntry i { e with old := true } else s

/-- Housekeeping (R103): the engine posts it at level 7. The spec says neither when nor what it does: whether one is posted at the end of a
pass of the sweep is a free value. (log 127, DESIGN CHOICE) -/
def State.housekeep (s : State) : State :=
  let a := s.free
  let b := a.2.free
  if a.1 % 2 = 1 then b.2.postService { site := b.1 % 64, prio := 7, work := .housekeeping } else b.2

/-- The sweep of one frame: 64 entries, a pass in 2,048 frames. -/
def State.sweepLedger (s : State) : State :=
  let k := s.inn.sweep
  let l := (s.entriesWhere fun i _ => i / 64 == k) ++ ((s.inn.flips.map (·.1)).filter fun i => i / 64 == k && (s.entry i).state == .free)
  let s := s.each l State.sweepEntry
  let s := { s with inn := { s.inn with sweep := (k + 1) % 2048 } }
  if k + 1 = 2048 then (s.bump 0x5001 13).housekeep else s

/-- DISPATCH (R104, R111): the first READY entry, in the order of the lists, that an engine may take is read and placed. (log 46, DEDUCED) -/
def execDispatch (s : State) : Out :=
  if s.mode = .sleep ∨ s.mode = .safeHalt ∨ s.mode = .off then .next s
  else match s.readyList.findSome? fun i => (s.engineFor i).map fun e => (i, e) with
    | some (i, e) =>
      let t := s.readEntry i
      .next (if (t.entry i).state = .ready then t.place i e else t)
    | none => .next s

/-! ### The accounts of a frame (R113, R115) -/

/-- Whether a context of a site holds a fault until its boundary. -/
def State.faultPending (s : State) (n : Nat) : Bool :=
  (List.range 128).any fun c => s.ctxSite c == some n && (s.ctx c).fault.isSome

/-- The cycles of a site in the frame that closes; an over-run lasts until the boundary that acts on it (R114). -/
def State.closeSite (s : State) (n : Nat) : State :=
  let k := (s.site n).cycles
  let o := 0x5100 + n
  if (s.site n).home.isNone ∧ k = 0 then (if s.reg o 3 = 0 then s else s.setNat o 3 0).modSite n fun x => { x with issuedLast := x.issued, issued := false }
  else ((s.setNat o 3 k).peak o 4 k).modSite n fun x => { x with cycles := 0, issuedLast := x.issued, issued := false, overran := x.overran && s.faultPending n }

/-- The cycles of an engine in the frame that closes. -/
def State.closeEngine (s : State) (e : Nat) : State :=
  let a := Table.get 0 s.inn.threadCycles e
  let b := Table.get 0 s.inn.taskCycles e
  let o := 0x5020 + e
  let s := (s.setNat o 3 (min 255 a)).setNat o 4 (min 255 b)
  let s := if a + b ≥ 128 then s.bump o 5 else s
  let s := s.count o 6 (128 - (a + b))
  (s.setNat (0x4010 + e) 4 (min 128 (a + b))).count (0x4010 + e) 5 (a + b)

/-- The hints and margins that the host has written take effect (R122, R123). -/
def State.takeHints (s : State) : State :=
  let hints (sub d : Nat) : Table Nat := siteNos.filterMap fun n => let v := s.nreg (0x5100 + n) sub; if v = d then none else some (n, v)
  { s with inn := { s.inn with margin := s.nreg 0x5000 3, high := s.nreg 0x5000 4, ranks := hints 10 0, engines := hints 11 255 } }.watchUse

/-- Step 4 of the frame commit (R15, R109, R113): the frame's account closed, and PARKED threads that wake. -/
def State.innkeeperTick (s : State) : State :=
  let s := s.takeHints.passCycles 1
  let s := s.each siteNos State.closeSite
  let s := s.each (List.range 16) State.closeEngine
  let s := { s with inn := { s.inn with threadCycles := [], taskCycles := [] } }
  let s := s.each (s.caravans.map (·.1)) State.stallFrame
  let s := s.sweepLedger
  s.each siteNos State.wakeThread

end Sys2Proof.Machine
end

