-- ==== Sys2Proof/Machine/Memory.lean ====
section
/-! DEFINITION. The vector memory controller: refresh, power-down, replay, retrain, fence, training (R264-R286). -/

namespace Sys2Proof.Machine

/-! ### Channels -/

/-- The channels. -/
def chanNos : List Nat := [0, 1]

/-- s with channel c changed. -/
def State.modChan (s : State) (c : Nat) (f : Channel → Channel) : State := s.setChan c (f (s.chan c))

/-- Every rank of a channel has received a command now (R280). -/
def Channel.used (x : Channel) (now : Nat) : Channel :=
  { x with ranks := (List.range 8).foldl (fun l k => Table.set {} l k { Table.get {} x.ranks k with lastUse := now, down := false }) x.ranks }

/-- One command of a retry buffer issued again, with the activate that an access needs (R281). -/
def State.again (s : State) (c : Nat) (x : DramCmd) : State :=
  let opened (b row : Nat) : State :=
    if Table.get 0 (s.chan c).rows b = row + 1 then s
    else (s.modChan c fun y => { y with rows := Table.set 0 y.rows b (row + 1) }).markRow c b
  match x with
  | .access addr => opened (s.memBank addr) (s.memRow addr)
  | .activate b row => opened b row
  | .precharge b => s.modChan c fun y => { y with rows := y.rows.filter fun e => e.1 != b }
  | .refresh _ | .modeRead _ => s

/-- The commands of the retry buffers reissued in order after every bank has been precharged; neighbour refresh waits for the next precharge
(R279, R281). -/
def State.reissue (s : State) (c : Nat) : State :=
  let l := s.retryLive c 0 ++ s.retryLive c 1
  let s := s.modChan c fun x => { x.used s.now with rows := [] }
  s.each l fun s e => s.again c e.1

/-- The writes that a channel holds completed (R280). -/
def State.completeWrites (s : State) (c : Nat) : State :=
  let x := s.chan c
  let s := s.setChan c { x with x2 := [], writes := [] }
  s.each (Table.get [] x.writes 0 ++ Table.get [] x.writes 1 ++ x.x2) fun s e => s.touch e.addr

/-- A channel enters self-refresh, with its writes completed and its banks precharged (R280). -/
def State.sleepChannel (s : State) (c : Nat) : State :=
  ((s.completeWrites c).precharge c fun _ => true).modChan c fun x => { x with mode := .selfRefresh, sleepy := false }

/-! ### Refresh (R276-R278) -/

/-- The bank index, BA, of a bank. -/
def bankIndex (b : Nat) : Nat := b % 32 / 8

/-- The bank index that a real-time burst holds on a rank: that of the oldest line read which waits there, else of an open row. (log 72, DEDUCED) -/
def State.heldIndex (s : State) (sc k : Nat) : Nat :=
  let c := sc / 2
  let waiting := s.reads.find? fun r => s.queuedOn sc r.addr && s.memBank r.addr / 32 == k
  match waiting with
  | some r => bankIndex (s.memBank r.addr)
  | none => (((s.chan c).rows.find? fun e => e.1 / 32 == k).map fun e => bankIndex e.1).getD 0

/-- s with rank k of channel c changed. -/
def State.modRank (s : State) (c k : Nat) (f : Rank → Rank) : State :=
  s.modChan c fun x => { x with ranks := Table.set {} x.ranks k (f (Table.get {} x.ranks k)) }

/-- One REFsb to a bank index of a rank, its banks precharged first (R276). -/
def State.refreshIndex (s : State) (c k i : Nat) : State :=
  ((s.precharge c fun b => b / 32 == k && bankIndex b == i).command c k (.refresh k)).modRank c k fun r => { r with part := r.part ++ [i] }

/-- The open unit of a rank, or the one that OWED lets it open, taken on by REFsb to every bank index but those that a burst holds; a unit that
they complete is discharged, and the next one opened (R276). -/
def State.refreshUnits (s : State) (c k : Nat) (held : List Nat) : Nat → State
  | 0 => s
  | n + 1 =>
    let r := Table.get {} (s.chan c).ranks k
    if r.owed = 0 then s
    else
      let s := s.each ((List.range 4).filter fun i => !held.contains i && !r.part.contains i) fun s i => s.refreshIndex c k i
      let y := Table.get {} (s.chan c).ranks k
      if y.part.length < 4 then s
      else (s.modRank c k fun r => { r with owed := r.owed - 1, part := [] }).refreshUnits c k held n

/-- A split of a burst (R277): the rank is precharged; one REFsb closes the open unit where it lacks only one bank index, else one REFab
discharges a unit; the burst resumes, and the next unit opens. (log 72, DEDUCED) -/
def State.splitBurst (s : State) (sc k : Nat) : State :=
  let c := sc / 2
  let i := s.heldIndex sc k
  let s := (s.precharge c fun b => b / 32 == k).command c k (.refresh k)
  let s := s.modRank c k fun r => { r with owed := r.owed - 1, part := [] }
  ((s.bump (0x9010 + sc) 6).raise 1676).refreshUnits c k [i] 4

/-- The splits that fell due during a replay, started as it ends (R278). -/
def State.lateSplits (s : State) (c : Nat) : State :=
  s.each [2 * c, 2 * c + 1] fun s sc =>
    s.each (List.range 4) fun s k =>
      let key := 4 * (sc % 2) + k
      if (Table.get {} (s.chan c).ranks key).owed = 4 then s.splitBurst sc key else s

/-- A channel serves again after a replay or retrain, with the splits that fell due; it enters the self-refresh that waited for it, or goes on
(R278, R280). -/
def State.serveAgain (s : State) (c : Nat) : State :=
  let s := (s.reissue c).modChan c fun x => { x.used s.now with mode := .serving, since := s.now, endedAt := some s.now, bad := 0 }
  let s := (s.lateSplits c).sendWaiting
  if (s.chan c).sleepy then s.sleepChannel c else s.moveWrites c

/-- REFRESH_DUE (R276, R277): tREFI, 3,120 beats or half of it while hot, has passed on a rank. `held` says whether a real-time
burst holds a bank index; where none does, every unit owed is discharged. A replay lets no refresh through (R281). (log 72, DEDUCED) -/
def execRefreshDue (sc rank : Fin 4) (held : Bool) (s : State) : Out :=
  let c := sc.val / 2
  let x := s.chan c
  let key := 4 * (sc.val % 2) + rank.val
  let r := Table.get {} x.ranks key
  if x.mode = .absent ∨ x.mode = .training ∨ x.mode = .selfRefresh ∨ rank.val ≥ s.rankCount c
      ∨ s.now < r.lastDue + (if r.hot then 24 else 48) then .next s
  else
    let owed := min 4 (r.owed + 1)
    let s := s.peak (0x9010 + sc.val) 7 owed
    let s := s.modRank c key fun r => { r with owed := owed, lastDue := s.now }
    if x.mode = .replay then .next s
    else
      let s := s.refreshUnits c key (if held then [s.heldIndex sc.val key] else []) 5
      if (Table.get {} (s.chan c).ranks key).owed = 4 then .next (s.splitBurst sc.val key) else .next s

/-- MR4_READ (R276, R282): every 12,500 frames MR4 of every rank of a channel in use is read, but not that of a fenced one; `hot` holds one bit
per subchannel and rank. (log 173, DEDUCED) -/
def execMr4Read (hot : List Bool) (s : State) : Out :=
  if s.now % 12500 ≠ 0 then .next s
  else .next <| s.each (List.range 16) fun s i =>
    let c := i / 8
    let x := s.chan c
    if (x.mode = .serving ∨ x.mode = .replay ∨ x.mode = .retrain) ∧ i % 4 < s.rankCount c then
      (s.command c (i % 8) (.modeRead (i % 8))).modRank c (i % 8) fun r => { r with hot := hot.getD i r.hot }
    else s

/-- POWER_DOWN (R280): a rank that has received no command for PD_TIMER frames enters power-down. -/
def execPowerDown (sc rank : Fin 4) (s : State) : Out :=
  let c := sc.val / 2
  let x := s.chan c
  let key := 4 * (sc.val % 2) + rank.val
  let r := Table.get {} x.ranks key
  let t := s.nInForce 0x9000 4
  if t = 0 ∨ x.mode ≠ .serving ∨ rank.val ≥ s.rankCount c ∨ r.down ∨ s.now < r.lastUse + t then .next s
  else .next ((s.setChan c { x with ranks := Table.set {} x.ranks key { r with down := true } }).bump (0x9010 + sc.val) 9)

/-! ### Training results (R283, R284) -/

/-- The geometry word of a training blob (R283). -/
def State.geometryWord (s : State) (c : Nat) : Nat :=
  let g (k : Nat) : Nat := s.nreg (0x9001 + c) k
  g 2 * 2 ^ 56 + g 3 * 2 ^ 48 + g 4 * 2 ^ 40 + g 5 * 2 ^ 32 + c * 2 ^ 24

/-- The fields that begin a training blob (R283). -/
def State.blobHead (s : State) (c : Nat) : List Byte :=
  beBytes 4 0x54524E31 ++ beBytes 4 1 ++ beBytes 4 (s.nreg 0x9000 7) ++ beBytes 8 (s.geometryWord c)

/-- Whether the fields of a blob written into TRAINING of channel c agree with the declaration (R283). -/
def State.blobFits (s : State) (c : Nat) : Bool := ((s.oct (0x9001 + c) 8).take 20) == s.blobHead c

/-- The TRAINING that the engine makes of channel c: its remainder is opaque, and each training has its own. -/
def State.trainingBlob (s : State) (c : Nat) : List Byte := s.blobHead c ++ (Config.trainingRemainder s.freeCtr c).take 4076

/-- The results of a training of channel c stored (R283, R284). (log 133, DEDUCED) -/
def State.storeTraining (s : State) (c : Nat) : State :=
  { s.setOct (0x9001 + c) 8 (s.trainingBlob c) with freeCtr := s.freeCtr + 1 }

/-! ### Replay, retrain and fence (R281, R282) -/

/-- DRAM_ALERT (R281, R282): ALERT_N of a channel asserts for CA parity or for write CRC. -/
def execDramAlert (ch : ChanId) (crc : Bool) (s : State) : Out :=
  let m := (s.chan ch.val).mode
  if m = .serving ∨ m = .replay ∨ m = .retrain then
    .next ((s.bump (0x9001 + ch.val) (if crc then 10 else 9)).memError ch.val true)
  else .next s

/-- Whether a fault of a channel stands at a level and may end: in recovery, or about to be decided by hardware. -/
def State.memEnds (s : State) (c level : Nat) : Bool :=
  match s.faultOf (c + 1) with
  | some f => f.level == level && !(s.handler.offered.isSome && s.handler.current == some f)
  | none => true

/-- REPLAY_DONE (R281): the retry buffer has been reissued and service resumes. -/
def execReplayDone (ch : ChanId) (s : State) : Out :=
  let x := s.chan ch.val
  if x.mode = .replay ∧ x.level = 1 ∧ s.memEnds ch.val 1 then
    let s := (s.bump (0x9001 + ch.val) 11).raise 1673
    let us := s.usSince x.since
    let s := s.recovered (ch.val + 1) us
    .next (s.serveAgain ch.val)
  else .next s

/-- RETRAIN_DONE (R282): a fast retrain has converged and held requests are served. -/
def execRetrainDone (ch : ChanId) (s : State) : Out :=
  let x := s.chan ch.val
  if x.mode = .retrain ∧ x.level = 2 ∧ s.memEnds ch.val 2 then
    let us := s.usSince x.since
    let s := s.recovered (ch.val + 1) us
    .next ((s.storeTraining ch.val).serveAgain ch.val)
  else .next s

/-- RETRAIN_TIMEOUT (R282): a retrain has not converged within 400 µs, 5,000 frames, and the channel moves up to FENCE. -/
def execRetrainTimeout (ch : ChanId) (s : State) : Out :=
  let x := s.chan ch.val
  if x.mode = .retrain ∧ x.level = 2 ∧ s.now ≥ x.since + 5000 then .next (s.memClimb ch.val 4) else .next s

/-- ESCALATE_WINDOW_END (R282): the window after handling has passed. -/
def execEscalateWindowEnd (ch : ChanId) (s : State) : Out :=
  let x := s.chan ch.val
  match x.endedAt with
  | none => .next s
  | some t =>
    if s.now ≥ t + s.nInForce 0x9000 6 then .next (s.setChan ch.val { x with level := 0, endedAt := none, bad := 0 }) else .next s

/-- A retrain begins on a channel: E1674 and RETRAINS (R282). (log 73, DEDUCED) -/
def State.startRetrain (s : State) (c : Nat) : State :=
  (((s.precharge c fun _ => true).modChan c fun x =>
    { x with mode := .retrain, level := 2, since := s.now, endedAt := none, bad := 0 }).bump (0x9001 + c) 12).raise 1674

/-- The recovery of a memory channel at the level decided (R281, R282). -/
def State.recoverMem (s : State) (c level : Nat) : State :=
  if (s.chan c).mode = .absent ∨ (s.chan c).mode = .fenced then s
  else match level with
    | 1 => s.modChan c fun x => { x with mode := .replay, level := 1 }
    | 2 => s.startRetrain c
    | 4 =>
      let last := s.lastChannel c
      let s := s.fence c
      if last then s.critical { resource := c + 1, level := 4, severity := 3, source := 1675, frame := s.now } else s
    | _ => s

/-! ### Self-refresh (R280) -/

/-- Both channels enter self-refresh; one that replays or retrains enters it when that has ended. -/
def State.enterSelfRefresh (s : State) : State :=
  s.each chanNos fun s c => match (s.chan c).mode with
    | .serving => s.sleepChannel c
    | .replay | .retrain => s.modChan c fun x => { x with sleepy := true }
    | _ => s

/-- Both channels leave self-refresh through a fast retrain (R280, R284). -/
def State.leaveSelfRefresh (s : State) : State :=
  s.each chanNos fun s c =>
    if (s.chan c).mode = .selfRefresh then
      ((s.storeTraining c).modChan c fun x =>
        { x.used s.now with mode := .serving, sleepy := false, level := 0, endedAt := none, bad := 0, retry := [] }).sendWaiting.moveWrites c
    else s.modChan c fun x => { x with sleepy := false }

/-- Whether a channel replays or retrains: SLEEP entry and a warm start wait for its end (R280). -/
def State.memBusy (s : State) : Bool := chanNos.any fun c => (s.chan c).mode == .replay || (s.chan c).mode == .retrain

/-- A fast retrain at the exit of self-refresh that does not converge: taken at RETRAIN, it escalates at once to FENCE (R479). -/
def State.failRetrain (s : State) (c : Nat) : State :=
  if (s.chan c).mode = .selfRefresh then
    let s := s.startRetrain c
    s.memClimb c 4
  else s

/-! ### Geometry and training (R264-R266, R283) -/

/-- Data bytes of a channel by its declaration (R266). -/
def State.chanBytes (s : State) (c : Nat) : Nat :=
  let g (k : Nat) : Nat := s.nreg (0x9001 + c) k
  2 * g 2 * g 3 * (32 / g 4) * g 5 * 2 ^ 27

/-- Whether the populated channels stay within 128 GiB (R266). -/
def State.capacityOk (s : State) : Bool :=
  decide (((chanNos.filter fun c => s.reg (0x9001 + c) 1 == 1).map s.chanBytes).sum ≤ 2 ^ 37)

/-- One populated channel trained (R265, R266, R283): `fails` is an outcome of the DIMM, `spoilt` that of the pattern test on a
supplied blob. (log 75, DEDUCED) -/
def State.trainChannel (s : State) (c : Nat) (fails spoilt : Bool) : State :=
  if s.reg (0x9001 + c) 1 = 0 then s.setChan c {}
  else if c = 1 ∧ s.reg 0x9001 1 = 1 ∧ s.geometryWord 1 ≠ s.geometryWord 0 + 2 ^ 24 then (s.setChan c {}).raise 1678
  else
    let fast := s.inForce 0x2100 1 = 1
    let took := fast ∧ s.blobFits c ∧ !spoilt
    let s := if fast ∧ ¬ took then s.raise 1677 else s
    if took then s.setChan c (Channel.used { mode := .serving, since := s.now } s.now)
    else if fails then s.setChan c {}
    else (s.storeTraining c).setChan c (Channel.used { mode := .serving, since := s.now } s.now)

/-- CAPACITY and PLANNING of the channels in use (R266, R285, R286). -/
def State.setCapacity (s : State) : State :=
  let s := s.each chanNos fun s c => s.setNat (0x9001 + c) 7 (if (s.chan c).mode = .absent then 0 else s.chanBytes c)
  let n := s.chansUsed.length
  let s := s.setNat 0x9000 8 ((s.chansUsed.map s.chanBytes).sum)
  s.setNat 0x9000 9 (s.nreg 0x9000 7 * 25 * n / 4)

/-- Step 7 of the cold start (R283). Bit c of `outcome` says that channel c does not train, bit 2 + c that its supplied blob
fails its pattern test. Memory content is undefined afterwards. -/
def State.trainAll (s : State) (outcome : Nat) : State :=
  let s := s.each chanNos fun s c => s.trainChannel c (natBit outcome c) (natBit outcome (2 + c))
  ({ s with mem := [] }).setCapacity

/-- Step 7 of the cold start begun (R283, R286): every populated channel trains. -/
def State.startTraining (s : State) : State :=
  s.each chanNos fun s c => if s.reg (0x9001 + c) 1 = 1 then s.setChan c { mode := .training, since := s.now } else s

/-- The content of vector memory lost to its addresses, as a change of ORDER or CHANNEL_SPLIT has it (R273). (log 21, DEDUCED) -/
def State.scatter (s : State) : State := { s with mem := [] }

end Sys2Proof.Machine
end

