-- ==== Sys2Proof/Machine/Stagelink.lean ====
section
/-! DEFINITION. Stagelink: bring-up, packets from the host, retry, lane loss and degradation (R289-R302), load windows
(R424) and timing-set packets (R161). -/

namespace Sys2Proof.Machine

/-! ### The link and its lanes -/

/-- STATE of the link (R301): 0 DOWN, 1 TRAINING, 2 UP, 3 DEGRADING. -/
def State.linkState (s : State) : Nat := s.nreg 0xA000 4

/-- Failed receive lanes. -/
def State.rxFailed (s : State) : Nat := s.nreg 0xA000 16 % 65536

/-- Failed transmit lanes, as the partner reported them. -/
def State.txFailed (s : State) : Nat := s.nreg 0xA000 16 / 65536

/-- Failed lanes recorded. -/
def State.setFailed (s : State) (rx tx : Nat) : State := s.setNat 0xA000 16 (tx % 65536 * 65536 + rx % 65536)

/-- The quads of a version that hold no failed lane, lowest first (R299). -/
def goodQuads (version failed : Nat) : List Nat :=
  (List.range (if version = 3 then 4 else 2)).filter fun q => failed / 2 ^ (4 * q) % 16 = 0

/-- The width that hardware chooses (R299); 0 where no good quad is left. -/
def hwWidth (version failed : Nat) : Nat := 4 * (goodQuads version failed).length

/-- The lanes of a width over the good quads. -/
def widthLanes (version failed width : Nat) : List Nat :=
  ((goodQuads version failed).take (width / 4)).flatMap fun q => [4 * q, 4 * q + 1, 4 * q + 2, 4 * q + 3]

/-- LANE_STATE of every receive lane: a code for the lanes in use, failed or unused for the others (R302). -/
def State.setLanes (s : State) (lanes : List Nat) (code : Nat) : State :=
  let failed := s.rxFailed
  s.each (List.range 16) fun s i =>
    s.setNat (0xA010 + i) 1 (if natBit failed i then 3 else if lanes.contains i then code else 0)

/-- SKEW_UI of lanes that have been deskewed (R291, R302): 0 to 48 UI, a free value for each. (log 176, DESIGN CHOICE) -/
def State.deskew (s : State) (lanes : List Nat) : State :=
  s.each lanes fun s i => let f := s.free; f.2.setReg (0xA010 + i) 5 ((f.1 % 49 : Nat) : Int)

/-- Bring-up begun (R292): TRAINING, with every lane that has not failed in training. -/
def State.bringUp (s : State) : State :=
  (s.setNat 0xA000 4 1).setLanes (List.range (if s.nreg 0xA000 2 = 3 then 16 else 8)) 1

/-- The version that widths go by: the one in use, or before bring-up the highest offered. -/
def State.linkVersion (s : State) : Nat := if s.nreg 0xA000 3 = 0 then s.nreg 0xA000 2 else s.nreg 0xA000 3

/-- The link goes DOWN (R292, R298, R299). -/
def State.linkDown (s : State) : State :=
  let s := ((((s.setNat 0xA000 4 0).setNat 0xA000 3 0).setNat 0xA000 5 0).setNat 0xA000 6 0).setLanes [] 0
  { s with sl := { s.sl with rxTarget := none, txTarget := none, retrain := false, choiceBy := none, chosen := none } }

/-- Packets from a SEQ on sent again (R295): RETRIES and E1685. -/
def State.replayFrom (s : State) (seq : Nat) : State :=
  let l := s.sl.unacked.dropWhile fun e => decide ((e.1 + 4096 - seq) % 4096 ≥ 2048)
  let s := l.foldl (fun s e => s.send (e.2.out e.1)) s
  (s.bump 0xA000 12).raise 1685

/-- What is unacknowledged sent again when traffic resumes (R299), then what waits. -/
def State.resume (s : State) : State :=
  let s := match s.sl.unacked with
    | [] => s
    | e :: _ => s.replayFrom e.1
  s.flush

/-- Whether bring-up runs in the present state (R292, R468, R479). -/
def State.linkRuns (s : State) : Bool :=
  match s.mode with
  | .off => false
  | .coldStart => decide (s.start.step ≥ 3)
  | .sleep => s.start.wakeStep == 3
  | _ => true

/-- SL_BRINGUP_DONE (R292): the partner's range of versions; the highest common one is adopted. -/
def execSlBringupDone (lo hi : Nat) (s : State) : Out :=
  if s.linkState ≥ 2 ∨ s.sl.retrain ∨ !s.linkRuns then .next s
  else
    let v := min hi (s.nreg 0xA000 2)
    if v < max lo (s.nreg 0xA000 1) then
      .next ((s.send (.versionBlock (s.nreg 0xA000 1) (s.nreg 0xA000 2))).linkDown.raiseRanges 1684 (s.nreg 0xA000 1) (s.nreg 0xA000 2) lo hi)
    else
      let rx := hwWidth v s.rxFailed
      let tx := hwWidth v s.txFailed
      if rx = 0 ∨ tx = 0 then .next s
      else
        let s := s.send (.versionBlock (s.nreg 0xA000 1) (s.nreg 0xA000 2))
        let s := ((((s.setNat 0xA000 3 v).setNat 0xA000 4 2).setNat 0xA000 5 rx).setNat 0xA000 6 tx).setLanes
          (widthLanes v s.rxFailed rx) 2
        let s := (s.recovered 3 (s.usSince (((s.faultOf 3).map (·.frame)).getD s.now))).recovered 4
          (s.usSince (((s.faultOf 4).map (·.frame)).getD s.now))
        .next ((s.deskew (widthLanes v s.rxFailed rx)).raise 1680).resume

/-! ### Retry (R295) -/

/-- The retrain that four replays in a row bring about; a degradation that stands goes on, and retrains the link itself (R299). -/
def State.linkRetrain (s : State) (resource : Nat) : State :=
  match s.faultOf resource with
  | some f => if f.level ≥ 2 then s else s.climb { f with level := 2 }
  | none => s.handFault { resource := resource, level := 2, source := 1685 }

/-- A CRC error or a gap found in what the host sends: a NAK names the expected SEQ, and packets are discarded until it
arrives. -/
def State.rejectPacket (s : State) : State :=
  if s.sl.nakked then s
  else
    let n := s.sl.naks + 1
    let s := ({ s with sl := { s.sl with nakked := true, naks := n } }).send (.nak s.sl.expect)
    let s := (s.bump 0xA000 12).raise 1685
    if n ≥ 4 then ({ s with sl := { s.sl with naks := 0 } }).linkRetrain 3
    else if (s.faultOf 3).isSome then s
    else s.handFault { resource := 3, level := 1, source := 1685 }

/-- A packet that fails its CRC (R295). Another error in the replay itself draws another NAK. -/
def State.badCrc (s : State) : State := (({ s with sl := { s.sl with nakked := false } }).bump 0xA000 13).rejectPacket

/-- PACKET_CRC_ERROR (R295). -/
def execPacketCrcError (s : State) : Out := if s.linkState = 2 then .next s.badCrc else .next s

/-- SL_ACK (R295): every packet up to a SEQ leaves the replay buffer. -/
def execSlAck (seq : Nat) (s : State) : Out :=
  let keep := s.sl.unacked.dropWhile fun e => decide ((seq + 4096 - e.1) % 4096 < 2048)
  if s.linkState < 2 ∨ keep.length = s.sl.unacked.length then .next s
  else
    let s := { s with sl := { s.sl with unacked := keep, ackAt := s.now, replays := 0 } }
    let s := match s.faultOf 4 with
      | some f => if f.level = 1 then s.recovered 4 (s.usSince f.frame) else s
      | none => s
    .next s.settleExports.flush

/-- One replay of the engine's packets; the fourth in a row retrains the link. (log 77, DEDUCED) -/
def State.replayOnce (s : State) (seq : Nat) : State :=
  let n := s.sl.replays + 1
  let s := ({ s with sl := { s.sl with replays := n, ackAt := s.now } }).replayFrom seq
  if n ≥ 4 then ({ s with sl := { s.sl with replays := 0 } }).linkRetrain 4
  else if (s.faultOf 4).isSome then s
  else s.handFault { resource := 4, level := 1, source := 1685 }

/-- SL_NAK (R295). A NAK acknowledges what lies before the SEQ it names. -/
def execSlNak (seq : Nat) (s : State) : Out :=
  if s.linkState ≠ 2 ∨ s.sl.unacked.isEmpty then .next s else .next (s.replayOnce seq)

/-- SL_ACK_TIMEOUT (R295): the ACK has not advanced for 125 frames, 10 µs. -/
def execSlAckTimeout (s : State) : Out :=
  match s.sl.unacked with
  | [] => .next s
  | e :: _ => if s.linkState = 2 ∧ s.now ≥ s.sl.ackAt + 125 then .next (s.replayOnce e.1) else .next s

/-- SL_HOLD_IN (R297, R496): while it is asserted no packet starts; ignored during reset. Its beats are counted frame by frame. -/
def execSlHoldIn (level : Bool) (s : State) : Out :=
  if s.mode = .off ∨ (s.mode = .coldStart ∧ s.start.step = 1) then .next s else
  let s := { s with sl := { s.sl with holdIn := level, holdMoved := s.sl.holdMoved || level != s.sl.holdIn } }
  .next (if level then s else s.flush)

/-! ### Lane loss (R298-R300) -/

/-- The degradation of the receive direction decided: WIDTH goes to the partner and training begins. -/
def State.startDegrade (s : State) : State :=
  let v := s.nreg 0xA000 3
  let hw := hwWidth v s.rxFailed
  let w := min hw (s.sl.chosen.getD hw)
  let s := s.setLanes (widthLanes v s.rxFailed w) 1
  ({ s with sl := { s.sl with rxTarget := some w, chosen := none, choiceBy := none } }).setNat 0xA000 4 3
    |>.send (.widthBlock s.rxFailed w)

/-- The link lost for want of lanes (R298, R299): DOWN, E1683, a fault of the direction at level DOWN. -/
def State.loseLink (s : State) (resource : Nat) : State :=
  let s := ((s.dropFault resource).linkDown).raise 1683
  s.handFault { resource := resource, level := 4, source := 1683 }

/-- LANE_FAIL (R298): lane 16 is the clock lane; cause 0 LOS, 1 LOL, 2 sixteen block errors, 3 a skew beyond 48 UI, whose SKEW_UI is a free value
(log 176, DESIGN CHOICE). During bring-up the link comes up without the lane. -/
def execLaneFail (lane : Fin 17) (cause : Nat) (s : State) : Out :=
  if s.linkState = 0 ∨ cause > 3 then .next s
  else if lane.val = 16 then .next (((s.setFailed 65535 s.txFailed).raise 1681).loseLink 3)
  else if s.nreg (0xA010 + lane.val) 1 ≠ 1 ∧ s.nreg (0xA010 + lane.val) 1 ≠ 2 then .next s
  else
    let o := 0xA010 + lane.val
    let s := match cause with
      | 0 => s.bump o 2
      | 1 => s.bump o 3
      | 2 => s.count o 4 16
      | _ => let f := s.free; f.2.setReg o 5 ((49 + f.1 % 79 : Nat) : Int)
    let s := ((s.setFailed (orBit s.rxFailed lane.val) s.txFailed).setNat o 1 3).raise 1681
    if hwWidth s.linkVersion s.rxFailed = 0 then .next (s.loseLink 3)
    else if s.linkState = 1 ∧ !s.sl.retrain then .next s
    else match s.sl.rxTarget with
      | some _ => .next s.startDegrade
      | none =>
        if (match s.faultOf 3 with | some f => f.level == 3 | none => false) then .next s
        else
          let s := if s.inForce 0x2100 8 = 1 then
            { s with sl := { s.sl with choiceBy := some (s.now + s.nInForce 0x2101 8), chosen := none, late := false } } else s
          match s.faultOf 3 with
          | some f => .next (s.climb { f with level := 3, source := 1681, severity := 2 })
          | none => .next (s.handFault { resource := 3, level := 3, source := 1681 })

/-- WIDTH_CONTROL_BLOCK (R299): the partner reports failed transmit lanes and its choice of a width, and the transmit direction follows; it
never takes more lanes than the quads without a failed lane give. (log 184, DEDUCED) -/
def execWidthControlBlock (block : WidthBlock) (s : State) : Out :=
  if s.linkState < 2 then .next s
  else
    let s := s.setFailed s.rxFailed (s.txFailed ||| block.failed.toNat)
    let w := min (hwWidth (s.nreg 0xA000 3) s.txFailed) block.width
    if w = 0 then .next (s.loseLink 4)
    else
      let s := ({ s with sl := { s.sl with txTarget := some w } }).setNat 0xA000 4 3
      .next (if (s.faultOf 4).isSome then s else s.handFault { resource := 4, level := 3, source := 1682 })

/-- SL_DEGRADE_DONE (R295, R299): training at the new width, or a retrain at the present one, completes and traffic resumes. -/
def execSlDegradeDone (s : State) : Out :=
  let since (r : Nat) : Nat := s.usSince (((s.faultOf r).map (·.frame)).getD s.now)
  if s.linkState = 1 ∧ s.sl.retrain then
    let s := ({ s with sl := { s.sl with retrain := false } }).setNat 0xA000 4 2
    .next (((s.recovered 3 (since 3)).recovered 4 (since 4)).setLanes
      (widthLanes (s.nreg 0xA000 3) s.rxFailed (s.nreg 0xA000 5)) 2).resume
  else if s.linkState = 3 ∧ (s.sl.rxTarget.isSome ∨ s.sl.txTarget.isSome) then
    let s1 := match s.sl.rxTarget with
      | some w => ((((s.setNat 0xA000 5 w).setLanes (widthLanes (s.nreg 0xA000 3) s.rxFailed w) 2).bump 0xA000 14).raise 1682).recovered 3 (since 3)
      | none => s
    let s2 := match s.sl.txTarget with
      | some w => (((s1.setNat 0xA000 6 w).bump 0xA000 14).raise 1682).recovered 4 (since 4)
      | none => s1
    .next (({ s2 with sl := { s2.sl with rxTarget := none, txTarget := none } }).setNat 0xA000 4 2).resume
  else .next s

/-- The recovery of a direction of the link at the level decided (R453). -/
def State.recoverLink (s : State) (resource level : Nat) : State :=
  match level with
  | 2 =>
    if s.linkState ≥ 2 then
      (({ s with sl := { s.sl with retrain := true } }).setNat 0xA000 4 1).setLanes (widthLanes (s.nreg 0xA000 3) s.rxFailed (s.nreg 0xA000 5)) 1
    else s
  | 3 => if resource = 3 ∧ s.linkState ≥ 2 then s.startDegrade else s
  | 4 => if s.linkState ≠ 0 then s.linkDown.raise 1683 else s
  | _ => s

/-- RESTORE (R301): the link retrains at full width. -/
def State.restoreLink (s : State) : State :=
  let s := ((s.dropFault 3).dropFault 4).linkDown
  (s.setFailed 0 0).bringUp

/-! ### Packets from the host (R293, R294) -/

/-- Whether the device accepts a host packet in its state: CS_WRITE only in step 5 of a cold start, all in service. -/
def State.packetAllowed (s : State) (cs : Bool) : Bool :=
  match s.mode with
  | .service => true
  | .coldStart => cs && s.start.step == 5
  | _ => false

/-! ### Load windows (R424) -/

/-- Object 0xC020 + w. -/
def winObj (w : Nat) : Nat := 0xC020 + w

/-- The window that is not FREE and holds an address. -/
def State.windowAt (s : State) (addr : Nat) : Option Nat :=
  (List.range 32).find? fun w =>
    s.reg (winObj w) 4 ≠ 0 && decide (s.nreg (winObj w) 1 ≤ addr) && decide (addr < s.nreg (winObj w) 1 + s.nreg (winObj w) 2)

/-- Whether the windows take one line of a packet whose lines start at `first`: a line inside an OPEN window comes next in it. -/
def State.windowTakes (s : State) (first addr : Nat) : Bool :=
  match s.windowAt addr with
  | none => true
  | some w => s.reg (winObj w) 4 == 1 && s.nreg (winObj w) 1 + s.nreg (winObj w) 5 == max first (s.nreg (winObj w) 1)

/-- A line taken by the window that holds its address: hashed, and the window CLOSED by its last line. -/
def State.windowLine (s : State) (addr : Nat) (words : List Codeword) : State :=
  match s.windowAt addr with
  | none => s
  | some w =>
    let o := winObj w
    let h := (Table.get {} s.pass.hashers w).update (words.map fun c => beBytes 8 c.data.toNat).flatten
    let got := s.nreg o 5 + 64
    let s := s.setNat o 5 got
    if got = s.nreg o 2 then
      (({ s with pass := { s.pass with hashers := Table.erase s.pass.hashers w } }).setNat o 4 2).setOct o 6 h.digest
    else { s with pass := { s.pass with hashers := Table.insert s.pass.hashers w h } }

/-- Step 5 of a cold start ends once every vendor entry has been written since the header (R469). -/
def State.endsHost (s : State) : State :=
  if s.mode = .coldStart ∧ s.start.step = 5 ∧ s.start.headerFresh ∧ s.start.entries.length = 16384 then
    { s with start := { s.start with step := 6, entries := [], headerFresh := false } }
  else s

/-- CS_WRITE applied, or its refusal (R87, R89, R90, R294). -/
def State.csWrite (s : State) (p : Packet) : Nat × State :=
  let words := p.lines.flatMap fun l => (List.range 8).map fun k => { l.getD k {} with poison := false }
  let n := words.length
  if p.addr + n > storeEnd then (0x0401, s)
  else if (p.addr < 16384 ∧ n > 0 ∧ !(s.mode == .coldStart && s.start.headerFresh))
      ∨ (p.addr + n > 16384 ∧ s.store.cust ≠ .opened) then (0x0404, s)
  else
    let put := words.foldl (fun (a : Nat × Store) w => (a.1 + 1, a.2.put a.1 w)) (p.addr, s.store)
    let fresh := ((List.range n).map (p.addr + ·)).filter fun k => decide (k < 16384) && !s.start.entries.contains k
    let s := { s with store := put.2, start := { s.start with entries := if s.mode == DevMode.coldStart then s.start.entries ++ fresh else [] } }
    (0, s.endsHost)

/-! ### Timing-set packets (R161, R185) -/

/-- The first reason among shapes. -/
def setReject (shapes : List (List Codeword)) : Option Nat := shapes.findSome? shapeReject

/-- TSET_WRITE applied, or its refusal (R161, R185, R187). -/
def State.tsetWrite (s : State) (p : Packet) : Nat × State :=
  let k := p.tag.toNat
  let pins := setBits 64 p.addr
  let words := p.lines.flatMap fun l => (List.range 8).map fun i => { l.getD i {} with poison := false }
  if p.lines.length ≠ 8 then (0x0105, s)
  else if k ≥ 64 then (0x0107, s)
  else if pins.any s.pinBusy then (0x0405, s)
  else
    let shapes := (List.range 16).map fun j => (words.drop (4 * j)).take 4
    match setReject shapes with
    | none => (0, s.each pins fun s n => s.modPin n fun q => { q with sets := Table.set {} q.sets k { status := .valid, shapes := shapes } })
    | some why =>
      let s := s.each pins fun s n => (s.modPin n fun q => { q with sets := Table.set {} q.sets k { status := .rejected } }).setNat
        (0x6300 + n) 3 (k * 256 + why)
      (0, if pins.isEmpty then s else s.raise 1617)

/-! ### The receive buffer (R141, R144, R294, R296) -/

/-- Bytes that a packet takes in the receive buffer: its header and trailer, and the payload lines not yet served. -/
def RxPacket.size (x : RxPacket) : Nat := 24 + 72 * (x.pkt.lines.length - (if x.type = 1 then x.served else 0))

/-- RX_BUFFER_USED (R301). -/
def Link.rxUsed (l : Link) : Nat := (l.rx.map RxPacket.size).sum

/-- The size of the receive buffer. -/
def rxBytes : Nat := 262144

/-- SL_HOLD_OUT as the buffer stands (R296). -/
def State.holdOutNow (s : State) : State :=
  let u := 100 * s.sl.rxUsed
  if !s.sl.holdOut ∧ u ≥ s.nreg 0xA000 7 * rxBytes then
    ((({ s with sl := { s.sl with holdOut := true } }).bump 0xA000 10).send (.holdOut true))
  else if s.sl.holdOut ∧ u ≤ s.nreg 0xA000 8 * rxBytes then ({ s with sl := { s.sl with holdOut := false } }).send (.holdOut false)
  else s

/-- The head packet served: its refusal sent, if it has one. -/
def State.popRx (s : State) (status : Nat) (tag : Word32) : State :=
  let s := { s with sl := { s.sl with rx := s.sl.rx.drop 1 } }
  if status = 0 then s else s.refuse tag status

/-- The head packet with one line more served. -/
def State.lineServed (s : State) (x : RxPacket) : State := { s with sl := { s.sl with rx := x :: s.sl.rx.drop 1 } }

/-- The checks of a MEM_WRITE: a status, 0 where it may be applied (R273, R282, R424). (log 79, DEDUCED) -/
def State.memWriteCheck (s : State) (p : Packet) : Nat :=
  let n := p.lines.length
  if p.addr % 64 ≠ 0 ∨ n > 32 then 0x0106
  else if p.addr + 64 * n > s.memCapacity then 0x0401
  else if (List.range n).any fun i => s.fenced (p.addr + 64 * i) then 0x0402
  else if (List.range n).all fun i => s.windowTakes p.addr (p.addr + 64 * i) then 0
  else 0x0108

/-- A line of the host written with metadata CLASS HOST (R268, R269), through crossing X2 in class 7 (R274). -/
def State.hostLine (s : State) (addr : Nat) (l : List Codeword) : State :=
  let words := (List.range 8).map fun k => { l.getD k {} with poison := false }
  ((s.windowLine addr words).writeLine addr 1 255 words).putWrite 7 addr

/-- The check of a MEM_WRITE before its next line: all of it before the first one, a fence before a later one. -/
def State.nextLineCheck (s : State) (x : RxPacket) : Nat :=
  if x.served = 0 then s.memWriteCheck x.pkt else if s.fenced (x.pkt.addr + 64 * x.served) then 0x0402 else 0

/-- A MEM_WRITE refused: E1736 where a load window refuses it (R424). -/
def State.refuseWrite (s : State) (status : Nat) (tag : Word32) : State :=
  (if status = 0x0108 then s.raise 1736 else s).popRx status tag

/-- The next line of a MEM_WRITE written, the packet done with its last one. -/
def State.writeNext (s : State) (x : RxPacket) (addr : Nat) (l : List Codeword) : State :=
  let s := s.hostLine addr l
  if x.served + 1 = x.pkt.lines.length then s.popRx 0 x.pkt.tag else s.lineServed { x with served := x.served + 1 }

/-- What the head packet does next, or nothing where it has to wait: a MEM_WRITE for room in X2 (R144), a MEM_READ_REQ for a turn of class 7
(R274, R275). (log 131, DEDUCED) -/
def State.serveRx (s : State) : Option State :=
  match s.sl.rx with
  | [] => none
  | x :: _ =>
    let p := x.pkt
    let a := p.addr + 64 * x.served
    if x.status ≠ 0 then some (s.popRx x.status p.tag)
    else match x.type with
      | 1 =>
        if s.nextLineCheck x ≠ 0 then some (s.refuseWrite (s.nextLineCheck x) p.tag)
        else match p.lines[x.served]? with
          | none => some (s.popRx 0 p.tag)
          | some l => if s.x2Room a then some (s.writeNext x a l) else none
      | 2 =>
        if p.addr % 64 ≠ 0 ∨ p.count > 32 then some (s.popRx 0x0106 p.tag)
        else if x.served ≥ p.count then
          some ((s.popRx 0 p.tag).slSend { type := 0x03, tag := p.tag.toNat, addr := p.addr, lines := x.got })
        else if s.bulkTurn a then
          let r := (s.bulkSlot a).readLine a (x.flips.getD x.served [])
          some ((r.2.crossed 1 1 false).lineServed { x with served := x.served + 1, got := x.got ++ [r.1] })
        else none
      | 4 => let r := s.csWrite p; some (r.2.popRx r.1 p.tag)
      | _ => let r := s.tsetWrite p; some (r.2.popRx r.1 p.tag)

/-- The receive buffer emptied as far as it goes, in SEQ order. -/
def State.pumpRx (s : State) : Nat → State
  | 0 => s
  | k + 1 => match s.serveRx with | some t => t.pumpRx k | none => s

/-- The steps that a receive buffer may take. -/
def Link.rxSteps (l : Link) : Nat := (l.rx.map fun x => x.pkt.lines.length + x.pkt.count + 2).sum

/-- The receive buffer served, and SL_HOLD_OUT. -/
def State.pump (s : State) : State := (s.pumpRx s.sl.rxSteps).holdOutNow

/-- Whether a packet's CRC is right (R293). -/
def crcMatches (p : Packet) (type : Nat) : Bool :=
  match p.crc with
  | none => true
  | some c => c == packetCrc type p.reserved p.seq (if type = 2 then p.count else p.lines.length) p.tag.toNat p.addr p.lines p.poisonLines

/-- The block errors of the lanes counted (R290, R302). -/
def State.blockErrors (s : State) (l : List Nat) : State := s.each l fun s i => s.bump (0xA010 + i) 4

/-- The status of a packet on its arrival (R294, R506): its type, the device state, reserved fields. (log 175, DEDUCED) -/
def State.arrivalStatus (s : State) (type : Nat) (p : Packet) : Nat :=
  if !([1, 2, 4, 5].contains type) then 0x0403
  else if !s.packetAllowed (type == 4) then 0x010A
  else if p.reserved ≠ 0 ∨ p.poisonLines ≠ 0 then 0x0107
  else 0

/-- A packet of the host arrives (R294-R296): in SEQ order it is acknowledged and enters the receive buffer with the status that its type or the
device state gives it. A SEQ already taken is acknowledged again; a gap, or a packet that finds the buffer full, draws a NAK. (log 78, DEDUCED) -/
def State.receive (s0 : State) (type : Nat) (p : Packet) (flips : List Flips) : State :=
  let x : RxPacket := { type := type, pkt := p, flips := flips }
  let s := s0.blockErrors p.blockErrors
  if s.linkState ≠ 2 then s
  else if !crcMatches p type then s.badCrc
  else if p.seq ≠ s.sl.expect then
    if (s.sl.expect + 4096 - p.seq) % 4096 ≤ 2048 ∧ p.seq < 4096 then s.send (.ack ((s.sl.expect + 4095) % 4096))
    else s.rejectPacket
  else if s.sl.rxUsed + x.size > rxBytes then ({ s with sl := { s.sl with nakked := false } }).rejectPacket
  else
    let s := { s with sl := { s.sl with expect := (p.seq + 1) % 4096, nakked := false, naks := 0 } }
    let s := match s.faultOf 3 with
      | some f => if f.level = 1 then s.recovered 3 (s.usSince f.frame) else s
      | none => s
    let s := ({ s with sl := { s.sl with rx := s.sl.rx ++ [{ x with status := s.arrivalStatus type p }] } }).send (.ack p.seq)
    ((s.crossed 3 s.sl.rxUsed true).holdOutNow).pump

/-- MEM_WRITE (R294). -/
def execMemWrite (p : Packet) (s : State) : Out := .next (s.receive 1 p [])

/-- MEM_READ_REQ (R294). -/
def execMemReadReq (p : Packet) (flips : List (List (BitVec 640))) (s : State) : Out := .next (s.receive 2 p flips)

/-- CS_WRITE (R294). -/
def execCsWrite (p : Packet) (s : State) : Out := .next (s.receive 4 p [])

/-- TSET_WRITE (R161). -/
def execTsetWrite (p : Packet) (s : State) : Out := .next (s.receive 5 p [])

/-- RESERVED_PACKET (R294): a type that no host packet has is refused before any other check. -/
def execReservedPacket (type : Byte) (p : Packet) (s : State) : Out :=
  if [1, 2, 4, 5].contains type.toNat then .next s else .next (s.receive type.toNat p [])

end Sys2Proof.Machine
end

