-- ==== Sys2Proof/Machine/Convoy.lean ====
section
/-! DEFINITION. Convoy: words, agreements, aborts, keys and frame-phase alignment (R303-R314). -/

namespace Sys2Proof.Machine

/-! ### Words (R304) -/

/-- CRC-32C over bits [127:32] of a word. (log 80, DEDUCED) -/
def wordCrc (x : Nat) : Nat := crc32 0x1EDC6F41 (bitList 96 (x / 2 ^ 32))

/-- Whether a word is good. -/
def wordGood (x : Nat) : Bool := x % 2 ^ 32 == wordCrc x

/-- A word of its fields; `bad` inverts its CRC. -/
def makeWord (seq cmd acc dist : Nat) (bad : Bool) : BitVec 128 :=
  let x := seq % 65536 * 2 ^ 112 + cmd % 65536 * 2 ^ 96 + acc % 2 ^ 40 * 2 ^ 56 + dist % 2 ^ 24 * 2 ^ 32
  BitVec.ofNat 128 (x + (if bad then 0xFFFFFFFF - wordCrc x else wordCrc x))

/-- The 5 ACC bits of a lane. -/
def laneAcc (acc k : Nat) : Nat := acc / 2 ^ (35 - 5 * k) % 32

/-- The 3 DIST bits of a lane. -/
def laneDist (dist k : Nat) : Nat := dist / 2 ^ (21 - 3 * k) % 8

/-- The lanes. -/
def laneNos : List Nat := List.range 8

/-- Lane fields put together, lane 0 first. -/
def packLanes (w : Nat) (f : Nat → Nat) : Nat := laneNos.foldl (fun a k => a * 2 ^ w + f k % 2 ^ w) 0

/-! ### Contributions (R306) -/

/-- The site on a lane. -/
def State.laneSite (s : State) (k : Nat) : Option Nat :=
  let n := s.nreg 0xA101 (k + 1)
  if n < 64 then some n else none

/-- P and V of a site: the vote posted, or the one that falls due at this tick, until the agreement tick. -/
def State.votePosted (s : State) (n : Nat) : Nat :=
  let posted (v c : Bool) : Nat := 2 + (if v != c then 1 else 0)
  if s.agreed n then 1
  else match (s.site n).sync with
    | some { posted := some _, value := v, comb := c, .. } => posted v c
    | _ => match s.postDue n with
      | some y => posted ((s.site n).voteOf y.vote) y.comb
      | none => 1

/-- This engine's contribution to a lane, P V XT XM XO, as its state stands at the tick: what the steps of this very tick post or find is in
it. (log 160, DEDUCED) -/
def State.contribution (s : State) (k : Nat) : Nat :=
  let pv : Nat := match s.laneSite k with | some n => s.votePosted n | none => 1
  let late : Bool := match s.laneSite k with | some n => s.syncExpired n | none => false
  let x (kind : Nat) : Nat := if s.convoy.aborts.any fun a => a.1 == k && a.2.1 == kind && decide (s.now ≤ a.2.2) then 1 else 0
  pv * 8 + (if late then 1 else x 0) * 4 + x 1 * 2 + x 2

/-- The contribution to the word of the tick in force (R304). -/
def Convoy.ownOf (c : Convoy) (k : Nat) : Nat := c.own.getD k 8

/-- A contribution combined with what has come: P and V by AND, the others by OR. -/
def combine (a b : Nat) : Nat := (a / 8 &&& b / 8) * 8 + (a % 8 ||| b % 8)

/-- The chain frame of the tick now in force. -/
def State.chainFrame (s : State) : Nat := (s.now + s.convoy.offset) % 65536

/-! ### Faults of spanning sites -/

/-- A site faulted by a Convoy abort or the loss of the chain (R82, R309, R311): at the boundary its thread comes to. -/
def State.convoyFault (s : State) (n code : Nat) : State :=
  if s.inRun n then
    (s.modSite n fun x => { x with abort := some (x.abort.getD code) }).cutWait (s.entry n).context
  else s.faultHere n code

/-- The live sites that span engines. -/
def State.spanning (s : State) : List Nat := siteNos.filter fun n => (s.site n).st.live && s.spans n

/-- The chain DOWN (R311): spanning sites fault, ALIGN_STATE is UNALIGNED, E1689. -/
def State.convoyDown (s : State) : State :=
  let s := ((s.setNat 0xA100 4 3).setNat 0xA100 5 0).raise 1689
  let s := { s with convoy := { s.convoy with good := 0, lost := 0, cmd := none, newPhase := none } }
  let s := s.handFault { resource := 5, level := 4, source := 1689 }
  s.each s.spanning fun s n => s.convoyFault n 0x40

/-- A word bad or missing (R311). -/
def State.wordLost (s : State) : State :=
  let n := s.convoy.lost + 1
  let s := { s with convoy := { s.convoy with lost := n, good := 0 } }
  if s.reg 0xA100 4 = 2 then
    let s := (s.bump 0xA100 9).raise 1687
    if n ≥ 4 then s.convoyDown else s
  else s

/-- A good word (R304): eight in a row lock. -/
def State.wordFound (s : State) : State :=
  let n := s.convoy.good + 1
  let s := { s with convoy := { s.convoy with lost := 0, good := n } }
  if s.reg 0xA100 4 ≠ 2 ∧ n ≥ 8 then
    let s := s.setNat 0xA100 4 2
    match s.faultOf 5 with
    | some f => s.recovered 5 (s.usSince f.frame)
    | none => s
  else s

/-! ### What a verified word brings (R307-R310) -/

/-- The DIST code of a lane verified in the word of chain frame `seq`. -/
def State.takeDist (s : State) (seq k code : Nat) : State :=
  match s.laneSite k with
  | none => s
  | some n =>
    match (s.site n).sync with
    | some y =>
      if y.posted.isSome ∧ (code = 4 ∨ code = 5) then
        let l := s.now - (s.chainFrame + 65536 + 1 - seq) % 65536
        s.modSite n fun x => { x with sync := some { y with latest := some (l, (code == 5) != y.comb) } }
      else if y.posted.isSome ∧ code = 6 ∧ y.latest.isNone then (s.sendAbort n 2 s.abortTick).convoyFault n 0x40
      else if 1 ≤ code ∧ code ≤ 3 then { s with convoy := { s.convoy with dists := s.convoy.dists ++ [(k, code)] } }
      else s
    | none =>
      if 1 ≤ code ∧ code ≤ 3 then { s with convoy := { s.convoy with dists := s.convoy.dists ++ [(k, code)] } } else s

/-- An abort code acted on at a tick (R309), unless this engine sent the abort itself or has taken it already. -/
def State.applyDist (s : State) (d : Nat × Nat) : State :=
  match s.laneSite d.1 with
  | none => s
  | some n =>
    if !(s.site n).st.live ∨ (s.site n).abort.isSome ∨ (s.convoy.aborts.any fun a => a.1 == d.1) then s
    else ((s.bump 0xA100 11).raise 1688).convoyFault n (match d.2 with | 3 => 9 | 2 => 8 | _ => 0x41)

/-- The SYNC that a key in the word of chain frame `seq` is about: the one in progress, or the one whose agreement tick came after that
word was built (R310). -/
def State.keyedSync (s : State) (n seq : Nat) : Option SyncRun :=
  match (s.site n).lastSync with
  | some (t, y) =>
    let ago := (t + s.convoy.offset + 65536 - seq % 65536) % 65536
    if 1 ≤ ago ∧ ago < 32768 then some y else (s.site n).sync
  | none => (s.site n).sync

/-- A key of the HEAD compared by a member whose thread has issued SYNC on the lane (R310), its agreement tick past or not. -/
def State.takeKey (s : State) (seq op lane data : Nat) (flag : Bool) : State :=
  match s.laneSite lane with
  | none => s
  | some n =>
    match s.keyedSync n seq with
    | none => s
    | some y =>
      let same : Bool := match op with
        | 4 => data == n
        | 5 => data == y.id / 256
        | 6 => data == y.id % 256
        | _ => data == s.nreg (siteObj n 2) 1 && flag == y.comb
      if same ∨ !(s.site n).st.live then s else (s.sendAbort n 1 s.abortTick).convoyFault n 9

/-- The keys a HEAD cycles through: lanes whose thread has issued SYNC and not passed its agreement tick, four ops each. -/
def State.keys (s : State) : List Nat :=
  laneNos.flatMap fun k =>
    match s.laneSite k with
    | none => []
    | some n =>
      match if s.agreed n then none else (s.site n).sync with
      | none => []
      | some y =>
        let key (op data : Nat) (flag : Bool) : Nat := op * 4096 + k * 512 + (if flag then 256 else 0) + data % 256
        [key 4 n false, key 5 (y.id / 256) false, key 6 (y.id % 256) false, key 7 (s.nreg (siteObj n 2) 1) y.comb]

/-! ### ALIGN (R312) -/

/-- Whether a site of this engine stands in the way of an alignment. -/
def State.alignBusy (s : State) : Bool := siteNos.any fun n => (s.site n).st.busy || (s.site n).playout

/-- ALIGN_STATE 2, 3 or 4, with E1686. -/
def State.alignEnds (s : State) (code : Nat) : State := (s.setNat 0xA100 5 code).raise 1686

/-- A CMD with an op, a flag and data. -/
def cmdWord (op : Nat) (flag : Bool) (data : Nat) : Nat := op * 4096 + (if flag then 256 else 0) + data % 256

/-- The write of COMMAND at the HEAD: enumeration begins, or BUSY. (log 81, DEDUCED) -/
def State.startAlign (s : State) : State :=
  if s.alignBusy then s.alignEnds 4
  else
    let s := (s.setNat 0xA100 5 1).setNat 0xA100 6 0
    { s with convoy := { s.convoy with cmd := some (cmdWord 1 false 1) } }

/-- The new frame phase of a member whose path delay is `delay` beats and at which the word's start arrived in beat `beat` of its frame: its
tick falls that many beats before the arrival (R312), which moves it by (beat − delay) mod 64 beats, so P falls by as much (R13). (log 27, DEDUCED) -/
def State.newPhase (s : State) (beat delay : Nat) : State :=
  let b := (beat + 64 * delay - delay) % 64
  { s with convoy := { s.convoy with newPhase := some ((s.clk.phase % 64 + 64 - b) % 64) } }

/-- A CMD of ALIGN at a member: what it does and what it forwards. A busy member sets FLAG in ENUM. An exchange that fails, at a lap above 56
beats or at another engine, leaves the phase as it is (R312); the member's ALIGN_STATE then tells LAP or BUSY. Otherwise it stays ALIGNING
until the phase is applied at the next tick (R14). (log 138, DESIGN CHOICE) -/
def State.memberCmd (s : State) (seq op data : Nat) (flag : Bool) (beat : Nat) (fails : Bool) : Nat × State :=
  match op with
  | 1 =>
    let s := (s.setNat 0xA100 6 data).setNat 0xA100 5 1
    (cmdWord 1 (flag || s.alignBusy) (data + 1), if s.alignBusy ∨ flag ∨ fails then s.alignEnds 4 else s)
  | 2 => (cmdWord 2 flag data, s.setNat 0xA100 7 data)
  | _ =>
    let delay := data + s.nreg 0xA100 2
    let s := if s.alignBusy then s.alignEnds 4
      else if fails ∨ delay + 4 > 56 then s.alignEnds 3
      else ({ s with convoy := { s.convoy with offset := (seq + 65536 - s.now % 65536) % 65536 } }).newPhase beat delay
    (cmdWord 3 flag (delay + 4), s)

/-- A CMD of ALIGN that has returned to the HEAD. -/
def State.headCmd (s : State) (op data : Nat) (flag : Bool) : State :=
  if s.reg 0xA100 5 ≠ 1 then s
  else match op with
    | 1 =>
      if flag then s.alignEnds 4
      else
        let s := s.setNat 0xA100 7 data
        { s with convoy := { s.convoy with cmd := some (cmdWord 2 false data) } }
    | 2 => { s with convoy := { s.convoy with cmd := some (cmdWord 3 false 2) } }
    | 3 =>
      let lap := data + s.nreg 0xA100 2
      let s := s.setNat 0xA100 8 lap
      s.alignEnds (if lap > 56 then 3 else 2)
    | _ => s

/-! ### Words received and sent -/

/-- The next bit of a word on the line, scrambled by x^58 + x^39 + 1 (R303): with it the last 58 bits sent. -/
def scrambleBit (r : BitVec 58) (b : Bool) : BitVec 58 := (r <<< 1) ||| BitVec.ofNat 58 ((b ^^ (bit r 38 ^^ bit r 57)).toNat)

/-- A word sent, its 128 bits scrambled, most significant bit first (R303). (log 161, DESIGN CHOICE) -/
def State.sendWord (s : State) (w : BitVec 128) : State :=
  let r := (List.range 128).foldl (fun (a : BitVec 58 × BitVec 128) i =>
    let r := scrambleBit a.1 (bit w (127 - i))
    (r, (a.2 <<< 1) ||| BitVec.ofNat 128 (bit r 0).toNat)) (s.convoy.scr, 0)
  ({ s with convoy := { s.convoy with scr := r.1 } }).send (.convoy w r.2)

/-- A good word's DIST taken, lane by lane. -/
def State.takeDists (s : State) (seq dist : Nat) : State := s.each laneNos fun s k => s.takeDist seq k (laneDist dist k)

/-- CONVOY_WORD at the HEAD: the word it launched has returned with its complete ACC. -/
def State.headWord (s : State) (x : Nat) : State :=
  let s := { s with convoy := { s.convoy with gotWord := true } }
  if wordGood x then
    let seq := x / 2 ^ 112 % 65536
    let cmd := x / 2 ^ 96 % 65536
    let s := (s.wordFound).takeDists seq (x / 2 ^ 32 % 2 ^ 24)
    let s := { s with convoy := { s.convoy with prev := s.convoy.acc, acc := x / 2 ^ 56 % 2 ^ 40 } }
    s.headCmd (cmd / 4096) (cmd % 256) (natBit cmd 8)
  else { s with convoy := { s.convoy with lastBad := !s.convoy.inverted } }.wordLost

/-- CONVOY_WORD at a MEMBER: contributions combined on the way, CMD taken, and the word sent on, its CRC inverted where it came
bad. -/
def State.memberWord (s : State) (x beat : Nat) (fails : Bool) : State :=
  let seq := x / 2 ^ 112 % 65536
  let cmd := x / 2 ^ 96 % 65536
  let dist := x / 2 ^ 32 % 2 ^ 24
  let acc := packLanes 5 fun k => combine (laneAcc (x / 2 ^ 56) k) (s.convoy.ownOf k)
  let s := { s with convoy := { s.convoy with gotWord := true } }
  if wordGood x then
    let s := s.wordFound
    let op := cmd / 4096
    let r := if 1 ≤ op ∧ op ≤ 3 then s.memberCmd seq op (cmd % 256) (natBit cmd 8) beat fails
      else if 4 ≤ op ∧ op ≤ 7 then (cmd, s.takeKey seq op (cmd / 512 % 8) (cmd % 256) (natBit cmd 8))
      else (cmd, s)
    (r.2.takeDists seq dist).sendWord (makeWord seq r.1 acc dist false)
  else s.wordLost.sendWord (makeWord seq cmd acc dist true)

/-- A slip of crossing X7 between words, a fault of the chain (R143, R303, R311). -/
def State.slipChain (s : State) : State :=
  ((s.bump 0x6017 4).raise 1613).convoyDown

/-- CONVOY_WORD (R304, R311), with a slip of X7 before it or none: in SAFE_HALT the stream is repeated unchanged. -/
def execConvoyWord (w : ConvoyIn) (s : State) : Out :=
  let role := s.nreg 0xA100 1
  if s.mode = .safeHalt then .next (s.sendWord w.word)
  else if s.mode ≠ .service ∨ role = 0 then .next s
  else
    let s := if w.slip then s.slipChain else s
    let s := s.crossed 7 1 false
    if role = 1 then .next (s.headWord w.word.toNat) else .next (s.memberWord w.word.toNat w.beat w.fails)

/-- The DIST field of the HEAD's next word (R307, R311). -/
def State.headDist (s : State) : Nat :=
  packLanes 3 fun k =>
    let a := laneAcc s.convoy.acc k
    if s.reg 0xA100 4 = 3 then 1
    else if natBit a 1 then 3
    else if natBit a 2 then 2
    else if natBit a 0 then 1
    else if natBit a 4 then (if natBit (laneAcc s.convoy.prev k) 4 then 6 else if natBit a 3 then 5 else 4)
    else 0

/-- Order 6 of the frame commit (R15, R304, R307, R309-R311): missing words counted, verified aborts applied, this engine's contributions
formed, and at the HEAD the word of the chain frame that begins launched. It leaves with its CRC inverted where the word before it came back
bad that had left good. (log 162, DEDUCED) -/
def State.convoyTick (s : State) : State :=
  let role := s.nreg 0xA100 1
  if role = 0 ∨ s.mode ≠ .service then s
  else
    let s := if s.reg 0xA100 4 = 2 ∧ !s.convoy.gotWord then s.wordLost else s
    let ds := s.convoy.dists
    let s := { s with convoy := { s.convoy with gotWord := false, dists := [] } }
    let s := s.each ds State.applyDist
    let s := { s with convoy := { s.convoy with
      aborts := s.convoy.aborts.filter fun a => decide (s.now ≤ a.2.2 + 3), own := laneNos.map s.contribution, built := true } }
    if role = 1 then
      let keys := s.keys
      let cmd : Nat := match s.convoy.cmd with
        | some c => c
        | none => if keys.isEmpty then 0 else keys.getD (s.convoy.keyAt % keys.length) 0
      let bad := s.convoy.lastBad && s.reg 0xA100 4 != 3
      let w := makeWord s.chainFrame cmd (packLanes 5 s.convoy.ownOf) s.headDist bad
      ({ s with convoy := { s.convoy with
        cmd := none, lastBad := false, inverted := bad, keyAt := (s.convoy.keyAt + 1) % max 1 keys.length } }).sendWord w
    else s

end Sys2Proof.Machine
end

