-- ==== Sys2Proof/Machine/NetTime.lean ====
section
/-! DEFINITION. Network time: the local clock, PTP, the servo, time quality, triggers, captures and PPS (R367-R391). -/

namespace Sys2Proof.Machine

/-! ### The local clock (R367, R368) -/

/-- The largest rate word: 1,000 ppm. -/
def rateMax : Int := 281474976710

/-- 1 ns in units of time. -/
def nsUnit : Int := 65536

/-- A rate word kept within its range, a clamp counted (R367). -/
def State.clampRate (s : State) (r : Int) : Int × State :=
  if r > rateMax then (rateMax, s.bump 0x8000 14)
  else if r < -rateMax then (-rateMax, s.bump 0x8000 14)
  else (r, s)

/-- The clock anchored anew at the tick, with a step (R368). -/
def State.reanchor (s : State) (step : Int) : State :=
  let t := s.localTime
  s.modTime fun x => { x with c0 := s.clk.c, t0 := t + step }

/-- The nominal length of some frames. (log 14, DEDUCED) -/
def frameUnits (frames : Nat) : Int := frames * 64 * 81920

/-- The sync interval in whole frames (R368): that of the Syncs used, or LOG_SYNC_INTERVAL as transmitter. -/
def State.syncFrames (s : State) : Nat :=
  if s.inForce 0x8001 1 = 2 then
    let k := s.inForce 0x8001 7
    if k ≥ 0 then 12500000 * 2 ^ k.toNat else 12500000 / 2 ^ (-k).toNat
  else max 1 s.time.syncEvery

/-- A power of two of seconds in frames. -/
def logFrames (k : Int) : Nat := if k ≥ 0 then 12500000 * 2 ^ k.toNat else 12500000 / 2 ^ (-k).toNat

/-- A slew ended: the phase it has realised leaves what is owed (R368). -/
def State.endSlew (s : State) : State :=
  let x := s.time
  match x.slewEnd with
  | none => s
  | some e =>
    let done := frameUnits (min s.now e - x.slewFrom) * x.add
    let s := s.reanchor 0
    s.modTime fun y => { y with add := 0, slewEnd := none, owed := y.owed - done.tdiv (2 ^ 48) }

/-- A slew begun over the next sync interval for what is owed (R368). -/
def State.beginSlew (s : State) : State :=
  let x := s.time
  if x.owed = 0 then s
  else
    let I := s.syncFrames
    let N := frameUnits I
    let limit := s.nInForce 0x8001 11 * nsUnit
    let room : Int := if x.owed > 0 then rateMax - x.rate else rateMax + x.rate
    let byRate := ((room + 1) * N - 1) / 2 ^ 48
    let size := min (min (x.owed.natAbs : Int) limit) (max 0 byRate)
    let d := if x.owed > 0 then size else -size
    let s := s.reanchor 0
    s.modTime fun y => { y with add := (d * 2 ^ 48).tdiv N, slewFrom := s.now, slewEnd := some (s.now + I) }

/-- A step asked for: it acts at the next tick, or waits while a site holds budget (R368). -/
def State.askStep (s : State) (d : Int) : State := s.modTime fun x => { x with nextStep := some d, stepWaits := s.anyBusy }

/-- A phase correction asked for: a slew, or a step where it exceeds STEP_THRESHOLD; a step waits while a site holds budget
(R368). -/
def State.askPhase (s : State) (d : Int) : State :=
  if (d.natAbs : Int) > s.nInForce 0x8001 12 * nsUnit then
    s.askStep d
  else s.modTime fun x => { x with nextAdj := some (x.nextAdj.getD 0 + d) }

/-- A step applied (R368, R382): STEPS and E1705. -/
def State.applyStep (s : State) : State :=
  match s.time.nextStep with
  | none => s
  | some d =>
    let s := (s.reanchor d).modTime fun x => { x with nextStep := none, stepWaits := false }
    (s.bump 0x8000 13).raise 1705

/-- STEP_APPLY (R368): a pending step at the first tick at which no site holds budget. -/
def execStepApply (s : State) : Out :=
  if s.time.stepWaits ∧ !s.anyBusy then .next s.applyStep else .next s

/-- SLEW_END (R368): the I frames of a slew have ended; what it has not realised goes on. -/
def execSlewEnd (s : State) : Out :=
  match s.time.slewEnd with
  | some e => if s.now ≥ e then .next s.endSlew.beginSlew else .next s
  | none => .next s

/-! ### Quality (R377-R380) -/

/-- A quality to take effect at the next tick (R377). A new cause restarts the counts. -/
def State.setQuality (s : State) (q : Quality) : State :=
  s.modTime fun x => { x with nextQuality := some q, settle := 0, resumed := false, good := 0, bad := 0 }

/-- The quality in force, or the one that the next tick takes. -/
def State.qualityAhead (s : State) : Quality := s.time.nextQuality.getD s.time.quality

/-- The peer-delay exchange of a port. -/
def State.pdelay (s : State) (p : Nat) : Pdelay := Table.get {} s.time.pdelays p

/-- s with the exchange of a port changed. -/
def State.modPdelay (s : State) (p : Nat) (f : Pdelay → Pdelay) : State :=
  s.modTime fun x => { x with pdelays := Table.set {} x.pdelays p (f (s.pdelay p)) }

/-- A burst of four exchanges 1 ms apart begun on a port (R373). -/
def State.startBurst (s : State) (p : Nat) : State := s.modPdelay p fun x => { x with burst := 4, results := [], t1 := none }

/-- The exchange of a port that becomes UP: each port begins a burst (R373), and its time without a valid exchange counts from here. -/
def State.startPdelay (s : State) (p : Nat) : State :=
  (s.modPdelay p fun x => { x with validAt := s.now, failed := false }).each portNos State.startBurst

/-- REROUTE (R377, R378): the servo frozen, the burst on both ports, the mean path delay discarded. -/
def State.reroute (s : State) : State :=
  let s := s.setQuality .reroute
  let s := s.each portNos State.startBurst
  s.modTime fun x => { x with means := [], delayT3 := none, rerouted := true }

/-- The event of a quality. -/
def Quality.event : Quality → Nat
  | .locked => 1700 | .holdover => 1701 | .freerun => 1702 | .reroute => 1703

/-- The quality that a tick takes, with its event and STATE_SINCE. -/
def State.takeQuality (s : State) : State :=
  match s.time.nextQuality with
  | none => s
  | some q =>
    let old := s.time.quality
    let again := q = .reroute ∧ s.time.rerouted
    let s := s.modTime fun x => { x with nextQuality := none, rerouted := false }
    if q = old ∧ !again then s
    else
      let left : Option Nat := if q = .locked then none else if old = .locked then some s.now else s.time.leftLocked
      let s := s.modTime fun x => { x with quality := q, leftLocked := left, qualities := (s.now, q) :: x.qualities }
      (s.setNat 0x8000 10 (toTime80 s.localTime)).raise q.event

/-- Whether REFCLK is within its window. -/
def State.refOk (s : State) : Bool := s.clk.ref == .present

/-- The counts of settling begun again (R377). -/
def State.recount (s : State) : State := s.modTime fun x => { x with settle := 0, resumed := false, good := 0, bad := 0 }

/-- A cause that takes LOCKED to HOLDOVER; in another quality it restarts the counts. (log 141, DEDUCED) -/
def State.loseLock (s : State) : State := if s.qualityAhead = .locked then s.setQuality .holdover else s.recount

/-- PTP_SYNC_TIMEOUT (R377): no Sync for 3 sync intervals; a transmitter's quality has its own rule (R379). -/
def execPtpSyncTimeout (s : State) : Out :=
  if s.inForce 0x8001 1 ≠ 2 ∧ s.now ≥ s.time.syncAt + 3 * s.time.syncEvery then .next s.loseLock else .next s

/-- HOLDOVER_LIMIT (R377): the limit has passed since LOCKED was left. A REROUTE that waits for its tick comes first. -/
def execHoldoverLimit (s : State) : Out :=
  match s.time.leftLocked with
  | some t =>
    if s.time.nextQuality ≠ some .reroute ∧ s.qualityAhead ≠ .freerun ∧ s.qualityAhead ≠ .locked ∧ s.now ≥ t + 12500000 * s.nInForce 0x8001 9 then
      .next (s.setQuality .freerun)
    else .next s
  | none => .next s

/-- Whether the host has written a correction within the last HOST_TIMEOUT sync intervals (R376). -/
def State.hostFresh (s : State) : Bool :=
  match s.time.hostAt with
  | some t => decide (s.now < t + s.nInForce 0x8010 5 * s.time.syncEvery)
  | none => false

/-- HOST_LOCK_TIMEOUT (R376): no host correction within HOST_TIMEOUT sync intervals. -/
def execHostLockTimeout (s : State) : Out :=
  if s.inForce 0x2100 3 = 1 ∧ s.inForce 0x8001 1 = 1 ∧ s.qualityAhead = .locked
      ∧ !s.hostFresh then
    .next (s.setQuality .holdover)
  else .next s

/-- Whether the ordinary clock runs: from step 3 of a cold start, but in SLEEP and SAFE_HALT (R380, R468, R476). -/
def State.clockRuns (s : State) : Bool :=
  match s.mode with
  | .off | .sleep | .safeHalt => false
  | .coldStart => decide (s.start.step ≥ 3)
  | _ => true

/-- Whether the engine is a time receiver, or a transmitter, and its ordinary clock runs. -/
def State.plays (s : State) (role : Nat) : Bool := s.clockRuns && s.inForce 0x8001 1 == role

/-- Whether the disciplined offset has stayed within LOCK_THRESHOLD for 8 consecutive seconds, up to the last edge that is due (R379). -/
def State.ppsLocked (s : State) : Bool :=
  match s.time.ppsAt with
  | some k => decide (s.time.ppsGood ≥ 8) && decide (s.localTime ≤ (k + 1) * 1000000000 * nsUnit + s.nInForce 0x8001 13 * nsUnit)
  | none => false

/-- What a transmitter reports, in place of R377 (R379). -/
def State.transmitterQuality (s : State) : State :=
  if !s.plays 2 then s
  else
    let ok := s.inForce 0x8001 15 = 1 ∧ s.time.timeSet ∧ (s.inForce 0x8001 16 = 255 ∨ s.ppsLocked = true)
    let q : Quality := if ok then .locked else .freerun
    if s.qualityAhead = q then s else s.setQuality q

/-- LOCKED with the host's servo needs HOST_LOCKED (R376). -/
def State.hostQuality (s : State) : State :=
  if s.plays 1 ∧ s.inForce 0x2100 3 = 1 ∧ s.qualityAhead = .locked ∧ s.inForce 0x8010 4 = 0 then s.setQuality .holdover else s

/-! ### PTP frames (R370-R372) -/

/-- Object 0x8002 + p. -/
def ptpObj (p : Nat) : Nat := 0x8002 + p

/-- The ports that the engine originates PTP frames on (R371). -/
def State.ptpPorts (s : State) : List Nat :=
  match s.nreg 0x1010 2 with
  | 1 => [0]
  | 2 => portNos.filter s.portUp
  | _ => []

/-- Whether a PTP frame is taken; one that is dropped, stripped or a duplicate is not (R370, R371). (log 139, DEDUCED) -/
def State.ptpTake (s : State) (p kind : Nat) (m : PtpMsg) : Bool × State :=
  if !s.portUp p then (false, s)
  else if m.domain ≠ s.nInForce 0x8001 2 then (false, s.bump (ptpObj p) 6)
  else if m.clock = s.uid then (false, s)
  else
    let key := (m.clock, m.portNo, kind, m.seqId)
    let recent := s.time.seen.filter fun e => decide (s.now < e.2.2.2.2 + 25000)
    if recent.any fun e => e.1 == key.1 && e.2.1 == key.2.1 && e.2.2.1 == key.2.2.1 && e.2.2.2.1 == key.2.2.2 then
      (false, s.modTime fun x => { x with seen := recent })
    else (true, s.modTime fun x => { x with seen := recent ++ [(m.clock, m.portNo, kind, m.seqId, s.now)] })

/-- The residence of a forwarded event message, scaled by the rate (R372); in SLEEP to 10 ns (R380). (log 140, DESIGN CHOICE) -/
def State.residence (s : State) (m : PtpMsg) : Int :=
  let t := m.egress - m.ingress
  let d := if s.mode = .sleep then t / (10 * nsUnit) * (10 * nsUnit) else t
  d + d * (s.time.rate + s.time.add) / 2 ^ 48

/-- ASYMMETRY of a port in units of time (R373). -/
def State.asymmetry (s : State) (p : Nat) : Int := s.inForce (ptpObj p) 3 * nsUnit / 1000

/-- A PTP frame sent on through the other port (R371-R373): Sync and Delay_Req with their residence, Sync with the ASYMMETRY of the ingress
port and, in P2P mode, its link delay. A copy that ends with /V/ leaves as not delivered. -/
def State.ptpForward (s : State) (p kind : Nat) (m : PtpMsg) : State :=
  let q := 1 - p
  if !s.portUp q then s
  else if kind = 0 ∨ kind = 1 then
    if !m.delivered then (s.bump (ptpObj p) 6).send (.ptp kind q m)
    else
      let r := s.residence m
      let link : Int := if kind = 0 then s.asymmetry p + (if s.inForce 0x8001 3 = 2 then s.reg (ptpObj p) 1 else 0) else 0
      let s := s.peak (ptpObj p) 4 (r / nsUnit).toNat
      s.send (.ptp kind q { m with correction := m.correction + r + link })
  else s.send (.ptp kind q m)

/-- Signaling and Management, which have no command of their own: they are forwarded (R370). A message that is none of R370's is dropped and
counted; one that has a command of its own comes by it. (log 144, PRESUMED) -/
def State.ptpOther (s : State) (p : Nat) (f : RingFrame) : State :=
  let kind := ofBytes (f.payload.take 1) % 16
  let part := fun (i n : Nat) => ofBytes ((f.payload.drop i).take n)
  let m : PtpMsg := { domain := part 4 1, clock := part 20 8, portNo := part 28 2, seqId := part 30 2 }
  if kind = 12 ∨ kind = 13 then
    let r := s.ptpTake p kind m
    if r.1 ∧ r.2.portUp (1 - p) then r.2.send (.frame (1 - p) f) else r.2
  else if [0, 1, 2, 3, 8, 9, 10, 11].contains kind then s
  else s.bump (ptpObj p) 6

/-! ### Masters (R370) -/

/-- Whether one data set is better than another: the smaller first difference wins. -/
def rankLess : List Nat → List Nat → Bool
  | a :: s, b :: t => if a = b then rankLess s t else decide (a < b)
  | _, _ => false

/-- The best of several masters. -/
def bestMaster : List Master → Option Master
  | [] => none
  | m :: t => match bestMaster t with
    | none => some m
    | some b => some (if rankLess b.rank m.rank then b else m)

/-- The data set of an Announce, in the order of the default BMCA. -/
def ptpRank (m : PtpMsg) : List Nat :=
  [m.gmPrio1, m.gmClass, m.gmQuality, m.gmPrio2, m.gmIdentity, m.stepsRemoved, m.clock, m.portNo]

/-- The choice of a master made again (R377): another one, or another parent port, is E1704 and leaves LOCKED. With none left the
engine has no master. (log 101, DEDUCED) -/
def State.selectMaster (s : State) : State :=
  let live := s.time.masters.filter fun m => decide (s.now < m.heard + 3 * m.every)
  let s := s.modTime fun x => { x with masters := live }
  match bestMaster live with
  | none => s.modTime fun x => { x with master := none, awaiting := none }
  | some m =>
    let key := some (m.clock, m.portNo)
    if s.time.master = key then s
    else
      let s := ((s.setOct 0x8000 8 (beBytes 8 m.clock ++ beBytes 2 m.portNo)).setOct 0x8000 9 (beBytes 8 m.gm)).raise 1704
      (s.modTime fun x => { x with master := key, heard := m.heard, announceEvery := m.every, awaiting := none }).loseLock

/-- ANNOUNCE_RECEIPT_TIMEOUT (R370, R377): no Announce of the selected master for 3 announce intervals. (log 106, DEDUCED) -/
def execAnnounceReceiptTimeout (s : State) : Out :=
  if s.now ≥ s.time.heard + 3 * s.time.announceEvery then
    if s.plays 1 then .next s.selectMaster.loseLock else if s.plays 0 then .next s.loseLock else .next s
  else .next s

/-- Whether a message is the first copy of its sequenceId that the receiver takes, of the last 64 taken, and the state that has taken it (R371). (log 178, DESIGN CHOICE) -/
def State.firstCopy (s : State) (kind : Nat) (m : PtpMsg) : Bool × State :=
  let key := (m.clock, m.portNo, kind, m.seqId)
  if s.time.took.contains key then (false, s)
  else
    let l := s.time.took ++ [key]
    (true, s.modTime fun x => { x with took := l.drop (l.length - 64) })

/-- ANNOUNCE (R370, R371). -/
def execAnnounce (p : PortId) (m : PtpMsg) (s : State) : Out :=
  let r := s.ptpTake p.val 11 m
  if !r.1 then .next r.2
  else
    let first := r.2.firstCopy 11 m
    let s := if r.2.plays 1 && first.1 then
        let s := first.2
        let every := max 1 (logFrames m.logInterval)
        let one : Master := { clock := m.clock, portNo := m.portNo, rank := ptpRank m, gm := m.gmIdentity, heard := s.now,
                              every := every }
        let s := s.modTime fun x => { x with
          masters := (x.masters.filter fun k => !(k.clock == m.clock && k.portNo == m.portNo)) ++ [one],
          heard := if x.master = some (m.clock, m.portNo) then s.now else x.heard }
        s.selectMaster
      else r.2
    .next (s.ptpForward p.val 11 m)

/-! ### Syncs and the servo (R374-R376) -/

/-- The path delay for a Sync that came by a port: PEER_DELAY in P2P, the mean of four answers in E2E; none while it is not
valid, PDELAY_VALID is clear or a burst runs (R373, R374, R377). -/
def State.pathDelay (s : State) (via : Nat) : Option Int :=
  if s.reg (ptpObj via) 2 ≠ 1 ∨ (s.pdelay via).burst ≠ 0 then none
  else if s.inForce 0x8001 3 = 2 then some (s.reg (ptpObj via) 1)
  else if s.time.means.length ≥ 4 then some (s.time.means.sum / 4) else none

/-- The rate that the loop sets for an offset, a free value within the range (R367, R375). -/
def State.servoRate (s : State) (offset : Int) : Int × State :=
  ({ s with freeCtr := s.freeCtr + 1 }).clampRate (Config.servoRate s.freeCtr s.time.rate offset)

/-- One correction of the servo in hardware (R375): frozen in HOLDOVER and REROUTE until settled. -/
def State.servo (s : State) (offset : Int) : State :=
  let frozen := (s.qualityAhead = .holdover ∨ s.qualityAhead = .reroute) ∧ !s.time.resumed
  if frozen then s
  else
    let r := s.servoRate offset
    (r.2.modTime fun x => { x with nextRate := some r.1 }).askPhase (-offset)

/-- Settling and locking at a usable Sync (R377). -/
def State.judgeSync (s : State) (offset : Int) : State :=
  let near := decide ((offset.natAbs : Int) ≤ s.nInForce 0x8001 13 * nsUnit)
  if s.qualityAhead = .locked then
    let bad := if near then 0 else s.time.bad + 1
    let s := s.modTime fun x => { x with bad := bad }
    if bad ≥ 4 then s.setQuality .holdover else s
  else
    let n := s.time.settle + 1
    let s := s.modTime fun x => { x with settle := n, resumed := x.resumed || decide (n ≥ s.nInForce 0x8001 10) }
    if !s.time.resumed then s
    else
      let good := if near then s.time.good + 1 else 0
      let s := s.modTime fun x => { x with good := good }
      let hostOk : Bool := s.inForce 0x2100 3 = 0 || (s.inForce 0x8010 4 == 1 && s.hostFresh)
      if good ≥ 8 ∧ s.refOk ∧ hostOk then s.setQuality .locked else s

/-- A sample of the host-assisted servo queued (R376, R388): up to 64, the oldest dropped. -/
def State.queueSample (s : State) (y : SyncIn) (link : Int) : State :=
  let b := timeBytes y.origin ++ timeBytes y.ingress ++ encodeInt 8 (y.correction + link)
  let q := s.oct 0x8010 1 ++ b
  s.setOct 0x8010 1 (if q.length > 2048 then q.drop 32 else q)

/-- A complete Sync of the selected master used (R375-R377). -/
def State.useSync (s : State) (y : SyncIn) : State :=
  let prev := s.time.lastSync
  let moved : Bool := match prev with | some z => z.via != y.via | none => false
  let s := s.modTime fun x => { x with lastSync := some y, awaiting := none, syncAt := s.now,
                                       means := if moved then [] else x.means, delayT3 := if moved then none else x.delayT3 }
  let asym := s.asymmetry y.via
  match s.pathDelay y.via with
  | none => s
  | some d =>
    let offset := y.ingress - y.origin - y.correction - asym - d
    let s := s.modTime fun x => { x with offset := offset, delay := d }
    let s := s.judgeSync offset
    if s.inForce 0x2100 3 = 1 then s.queueSample y (asym + d) else s.servo offset

/-- PTP_SYNC (R371, R372, R375): forwarded, and its first copy taken from the port of the selected master. -/
def execPtpSync (p : PortId) (m : PtpMsg) (s : State) : Out :=
  let r := s.ptpTake p.val 0 m
  if !r.1 then .next r.2
  else
    let s := r.2.bump (ptpObj p.val) 5
    let mine : Bool := s.plays 1 && (match s.time.master with | some (c, n) => c == m.clock && n == m.portNo | none => false)
    let first := s.firstCopy 0 m
    let s := if mine && first.1 then
        let s := first.2
        let y : SyncIn := { clock := m.clock, portNo := m.portNo, seqId := m.seqId, via := p.val, ingress := m.ingress,
                            correction := m.correction, origin := m.origin }
        let s := s.modTime fun x => { x with syncEvery := max 1 (logFrames m.logInterval) }
        if m.twoStep then s.modTime fun x => { x with awaiting := some y, syncAt := s.now } else s.useSync y
      else s
    .next (s.ptpForward p.val 0 m)

/-- FOLLOW_UP (R370): the origin time and further correction of a two-step Sync. -/
def execFollowUp (p : PortId) (m : PtpMsg) (s : State) : Out :=
  let r := s.ptpTake p.val 8 m
  if !r.1 then .next r.2
  else
    let s := r.2
    let s := match s.time.awaiting with
      | some y =>
        if y.clock = m.clock ∧ y.portNo = m.portNo ∧ y.seqId = m.seqId then
          s.useSync { y with origin := m.origin, correction := y.correction + m.correction }
        else s
      | none => s
    .next (s.ptpForward p.val 8 m)

/-- DELAY_REQ (R372): forwarded with its residence; a transmitter in E2E mode answers it under the port rule of R371. -/
def execDelayReq (p : PortId) (m : PtpMsg) (s : State) : Out :=
  let r := s.ptpTake p.val 1 m
  if !r.1 then .next r.2
  else
    let s := r.2
    let s := if s.plays 2 ∧ s.inForce 0x8001 3 = 1 then
        s.each s.ptpPorts fun s q =>
          s.send (.ptp 9 q { domain := m.domain, clock := s.uid, portNo := q + 1, seqId := m.seqId, origin := m.ingress,
                             correction := m.correction, reqClock := m.clock, reqPort := m.portNo })
      else s
    .next (s.ptpForward p.val 1 m)

/-- DELAY_RESP (R374): an answer of the selected master to the engine's own request gives one mean path delay; the last four count. The asymmetry that
IEEE 1588 adds to Sync and takes from Delay_Req leaves their mean as it is (R373). (log 102, PRESUMED) -/
def execDelayResp (p : PortId) (m : PtpMsg) (s : State) : Out :=
  let r := s.ptpTake p.val 9 m
  if !r.1 then .next r.2
  else
    let s := r.2
    let s := match s.time.delayT3, s.time.lastSync with
      | some t3, some y =>
        if m.reqClock = s.uid ∧ m.seqId = s.time.delaySeq ∧ s.time.master = some (m.clock, m.portNo) then
          let down := y.ingress - y.origin - y.correction
          let d := (down + (m.origin - t3 - m.correction)) / 2
          s.modTime fun x => { x with means := (x.means ++ [d]).drop ((x.means.length + 1) - 4), delayT3 := none }
        else s
      | _, _ => s
    .next (s.ptpForward p.val 9 m)

/-- DELAY_REQ_SEND (R374): out of the port on which the selected master's Sync arrives. -/
def execDelayReqSend (egress : Int) (s : State) : Out :=
  match s.time.lastSync with
  | none => .next s
  | some y =>
    if s.plays 1 ∧ s.inForce 0x8001 3 = 1 ∧ s.portUp y.via then
      let n := (s.time.delaySeq + 1) % 65536
      let s := s.modTime fun x => { x with delaySeq := n, delayT3 := some egress }
      .next (s.send (.ptp 1 y.via { domain := s.nInForce 0x8001 2, clock := s.uid, portNo := y.via + 1, seqId := n, egress := egress }))
    else .next s

/-! ### Peer delay (R373) -/

/-- PDELAY_REQ (R370, R373): answered with a two-step Pdelay_Resp; never forwarded. -/
def execPdelayReq (p : PortId) (m : PtpMsg) (s : State) : Out :=
  if !s.portUp p.val then .next s
  else if m.domain ≠ s.nInForce 0x8001 2 then .next (s.bump (ptpObj p.val) 6)
  else
    let base : PtpMsg := { domain := m.domain, clock := s.uid, portNo := p.val + 1, seqId := m.seqId, reqClock := m.clock,
                           reqPort := m.portNo }
    .next ((s.send (.ptp 3 p.val { base with twoStep := true, origin := m.ingress, egress := m.egress })).send
      (.ptp 10 p.val { base with origin := m.egress, correction := m.correction }))

/-- An exchange complete: the link delay joins the last four, or the burst. -/
def State.pdelayDone (s : State) (p : Nat) (x : Pdelay) (turn : Int) (t1 : Int) : State :=
  let d := ((x.t4 - t1) - turn - x.corr) / 2
  let l := (x.results ++ [d]).drop ((x.results.length + 1) - 4)
  let burst := x.burst - 1
  let s := s.modPdelay p fun y => { y with results := l, burst := burst, t1 := none, t2 := none, validAt := s.now, failed := false }
  if burst = 0 then (s.setReg (ptpObj p) 1 (l.sum / (max 1 l.length : Nat))).setNat (ptpObj p) 2 1 else s

/-- Whether a peer-delay answer on a port is of another domain: it is dropped and counted (R370). -/
def State.foreign (s : State) (p : Nat) (m : PtpMsg) : Bool := s.portUp p && m.domain != s.nInForce 0x8001 2

/-- PDELAY_RESP (R373): of a one-step neighbour it completes the exchange, of a two-step one it waits for the Follow_Up. -/
def execPdelayResp (p : PortId) (m : PtpMsg) (s : State) : Out :=
  let x := s.pdelay p.val
  if s.foreign p.val m then .next (s.bump (ptpObj p.val) 6) else
  match x.t1 with
  | some t1 =>
    if s.portUp p.val ∧ m.reqClock = s.uid ∧ m.reqPort = p.val + 1 ∧ m.seqId = x.seq then
      let y := { x with t2 := some m.origin, t4 := m.ingress, corr := m.correction }
      if m.twoStep then .next (s.modPdelay p.val fun _ => y) else .next (s.pdelayDone p.val y 0 t1)
    else .next s
  | none => .next s

/-- PDELAY_RESP_FOLLOW_UP (R373). -/
def execPdelayRespFollowUp (p : PortId) (m : PtpMsg) (s : State) : Out :=
  let x := s.pdelay p.val
  if s.foreign p.val m then .next (s.bump (ptpObj p.val) 6) else
  match x.t1, x.t2 with
  | some t1, some t2 =>
    if s.portUp p.val ∧ m.reqClock = s.uid ∧ m.reqPort = p.val + 1 ∧ m.seqId = x.seq then
      .next (s.pdelayDone p.val { x with corr := x.corr + m.correction } (m.origin - t2) t1)
    else .next s
  | _, _ => .next s

/-- PDELAY_REQ_SEND (R373): at the peer-delay interval, or 1 ms apart in a burst. -/
def execPdelayReqSend (p : PortId) (egress : Int) (s : State) : Out :=
  let x := s.pdelay p.val
  let every := if x.burst > 0 then 12500 else logFrames (s.inForce 0x8001 8)
  if s.portUp p.val ∧ (x.sentAt = 0 ∨ s.now ≥ x.sentAt + every) then
    let n := (x.seq + 1) % 65536
    let s := s.modPdelay p.val fun y => { y with seq := n, t1 := some egress, t2 := none, sentAt := s.now }
    .next (s.send (.ptp 2 p.val { domain := s.nInForce 0x8001 2, clock := s.uid, portNo := p.val + 1, seqId := n, egress := egress }))
  else .next s

/-- PDELAY_FAIL (R373): no valid exchange for 3 intervals on a port that is UP, or whose last ones were valid. -/
def execPdelayFail (p : PortId) (s : State) : Out :=
  if (s.reg (ptpObj p.val) 2 = 1 ∨ s.portUp p.val) ∧ !(s.pdelay p.val).failed ∧ s.now ≥ (s.pdelay p.val).validAt + 3 * logFrames (s.inForce 0x8001 8) then
    .next (((s.modPdelay p.val fun x => { x with failed := true }).setNat (ptpObj p.val) 2 0).raise 1709)
  else .next s

/-! ### The transmitter (R379) -/

/-- PTP_SYNC_SEND: a one-step Sync with the local time of its egress, a free value within the frame. (log 142, DESIGN CHOICE) -/
def execPtpSyncSend (s : State) : Out :=
  if s.plays 2 ∧ (s.time.syncSentAt = 0 ∨ s.now ≥ s.time.syncSentAt + s.syncFrames) then
    let n := (s.time.sendSeq + 1) % 65536
    let f := s.free
    let t := s.localTime + (f.1 % (64 * 81920) : Nat)
    let s := f.2.modTime fun x => { x with sendSeq := n, syncSentAt := s.now }
    .next (s.each s.ptpPorts fun s p => s.send (.ptp 0 p { domain := s.nInForce 0x8001 2, clock := s.uid, portNo := p + 1, seqId := n,
                                                           origin := t, logInterval := s.inForce 0x8001 7 }))
  else .next s

/-- ANNOUNCE_SEND: one per second. -/
def execAnnounceSend (s : State) : Out :=
  if s.plays 2 ∧ (s.time.announceSentAt = 0 ∨ s.now ≥ s.time.announceSentAt + 12500000) then
    let n := (s.time.announceSeq + 1) % 65536
    let s := s.modTime fun x => { x with announceSeq := n, announceSentAt := s.now }
    let m : PtpMsg := { domain := s.nInForce 0x8001 2, clock := s.uid, seqId := n, gmPrio1 := s.nInForce 0x8001 4,
                        gmClass := s.nInForce 0x8001 6, gmPrio2 := s.nInForce 0x8001 5, gmIdentity := s.uid }
    .next (s.each s.ptpPorts fun s p => s.send (.ptp 11 p { m with portNo := p + 1 }))
  else .next s

/-! ### Host corrections (R376, R379) -/

/-- OFFSET_ADJ and RATE_SET in a state that refuses them: PTP_SERVO 0, or a REROUTE not settled. -/
def State.hostServoClosed (s : State) : Bool := s.reg 0x2100 3 == 0 || (s.qualityAhead == .reroute && !s.time.resumed)

/-- OFFSET_ADJ taken: it acts at the next tick. -/
def State.offsetAdj (s : State) (d : Int) : State := (s.askPhase d).modTime fun x => { x with hostAt := some s.now }

/-- RATE_SET taken: it acts at the next tick. -/
def State.rateSet (s : State) (v : Int) : State :=
  let r := s.clampRate v
  r.2.modTime fun x => { x with nextRate := some r.1, hostAt := some s.now }

/-- TIME_SET taken: a correction to a time under R368, a slew where it does not exceed STEP_THRESHOLD (R379). (log 104, DEDUCED) -/
def State.timeSet (s : State) (t : Nat) : State :=
  let d := ofTime80 t - s.localTime
  (s.modTime fun x => { x with timeSet := true }).askPhase d

/-! ### Captures, triggers and PPS (R381-R391) -/

/-- Object 0x8020 + i. -/
def ttObj (i : Nat) : Nat := 0x8020 + i

/-- TIME_TRIGGER (R381, R389): a target whose first beat lies in this frame, or that has passed. (log 105, DEDUCED) -/
def execTimeTrigger (i : Fin 8) (s : State) : Out :=
  let o := ttObj i.val
  let target := ofTime80 (s.nInForce o 1)
  if s.inForce o 4 = 1 ∧ target ≤ s.timeAtBeat 63 then
    let s := if target ≤ timeAt s.time ((s.clk.c : Int) - 1) then s.bump o 6 else s
    let act := s.nInForce o 3
    let beat := ((List.range 64).find? fun b => decide (target ≤ s.timeAtBeat b)).getD 0
    let s := (s.count o 5 1)
    let s := if natBit act 4 then s.evtPulse (act % 16) (s.clk.c + s.placeBeat beat) else s
    let s := if natBit act 5 then s.raise (1710 + i.val) else s
    let per := s.nInForce o 2
    .next (if per = 0 then s.setForce o 4 0 else s.setForce o 1 (toTime80 (target + per * nsUnit)))
  else .next s

/-- PPS_PULSE (R384): a whole second plus PPS_OFFSET lies in this frame and PPS_OUT rises once for PPS_WIDTH. -/
def execPpsPulse (s : State) : Out :=
  let off := s.inForce 0x8040 3 * nsUnit
  let sec : Int := 1000000000 * nsUnit
  let t := s.localTime
  let next := -((-(t - off)) / sec) * sec + off
  let on := s.inForce 0x8040 1 = 2 ∨ (s.inForce 0x8040 1 = 1 ∧ s.time.quality = .locked)
  let rise := if s.mode = .sleep then
      (((List.range 9).map fun k => s.timeAtBeat (8 * k)).find? fun t => decide (next ≤ t)).getD next
    else next
  if on ∧ next < s.timeAtBeat 64 ∧ s.time.ppsFrame ≠ some s.now then
    .next ((s.modTime fun x => { x with ppsFrame := some s.now }).send (.pps rise.toNat (s.nInForce 0x8040 2)))
  else .next s

/-- A rate taken at the tick: beside the addition of a slew that goes on, the total stays within the range, a clamp counted (R367). (log 177, DEDUCED) -/
def State.takeRate (s0 : State) (r : Int) : State :=
  let s := s0.reanchor 0
  let add := if s.time.nextAdj.isSome then 0 else s.time.add
  let t := s.clampRate (r + add)
  t.2.modTime fun x => { x with rate := t.1 - add, nextRate := none }

/-- The corrections that a tick takes (R368, R376, R377), and 0x8000 as at the tick (R385). -/
def State.timeTick (s : State) : State :=
  let s := match s.time.nextRate with
    | some r => s.takeRate r
    | none => s
  let s := if s.time.nextStep.isSome ∧ !s.time.stepWaits then
      if s.anyBusy then s.modTime fun x => { x with stepWaits := true } else s.applyStep
    else s
  let s := match s.time.nextAdj with
    | some d =>
      let s := s.endSlew
      (s.modTime fun x => { x with owed := x.owed + d, nextAdj := none }).beginSlew
    | none => s
  s.transmitterQuality.hostQuality.takeQuality

/-- 0x8000 published as at the tick (R385). -/
def State.publishTime (s : State) : State :=
  let x := s.time
  let s := (s.setNat 0x8000 1 x.quality.code).setNat 0x8000 2 (toTime80 s.localTime)
  let s := (s.setNat 0x8000 3 x.c0.toNat).setNat 0x8000 4 (x.t0 % 2 ^ 64).toNat
  let s := ((s.setReg 0x8000 5 (x.rate + x.add)).setReg 0x8000 6 x.offset).setReg 0x8000 7 x.delay
  let s := s.setNat 0x8000 12 x.stepWaits.toNat
  s.setNat 0x8000 11 (match x.leftLocked with | some t => (s.now - t) * 80 / 1000000 | none => 0)

end Sys2Proof.Machine
end

