-- ==== Sys2Proof/Machine/Ring.lean ====
section
/-! DEFINITION. The ring: ports, supervision, forwarding, wrapping, closing, walks and station numbers (R317-R337). -/

namespace Sys2Proof.Machine

/-! ### Ports -/

/-- Object 0x1011 + p. -/
def portObj (p : Nat) : Nat := 0x1011 + p

/-- Port p of the ring. -/
def State.port (s : State) (p : Nat) : Port := Table.get {} s.ring.ports p

/-- s with port p changed. -/
def State.modPort (s : State) (p : Nat) (f : Port → Port) : State :=
  { s with ring := { s.ring with ports := Table.set {} s.ring.ports p (f (s.port p)) } }

/-- PORT_STATE (R327). -/
def State.portState (s : State) (p : Nat) : Nat := s.nreg (portObj p) 1

/-- A port in a state; LEVEL is 0 unless it is UP (R340). -/
def State.setPort (s : State) (p v : Nat) : State :=
  let s := s.setNat (portObj p) 1 v
  if v = 2 then s else s.setNat (portObj p) 6 0

/-! ### Egress (R324) -/

/-- The bytes of a ring frame with n payload bytes, header and FCS included (R320). -/
def wireBytes (n : Nat) : Nat := max 64 (34 + n)

/-- Port p with what its egress has sent since it was last looked at: a byte takes 8 ns at 1.25 GBd and 80 ns at 100 Mb/s, one of R324's classes
after the other. (log 179, DEDUCED) -/
def State.egress (s : State) (p : Nat) : Port :=
  let x := s.port p
  let n := (s.now - x.since) * (if s.reg (portObj p) 2 = 1 then 1 else 10)
  { x with urgent := x.urgent - n, fwd := x.fwd - (n - x.urgent), since := s.now }

/-- SUPERVISION or NOTICE bytes given to the egress of a port. -/
def State.sendUrgent (s : State) (p bytes : Nat) : State :=
  s.modPort p fun _ => { s.egress p with urgent := (s.egress p).urgent + bytes }

/-- Whether the forwarding buffer of a port, 32 KiB, takes a frame of some bytes (R324). -/
def State.fwdRoom (s : State) (p bytes : Nat) : Bool := decide ((s.egress p).fwd + bytes ≤ 32768)

/-- A frame sent on: through the forwarding buffer of a port that is UP, or dropped and counted where that is full (R324). `room` says whether
frames in progress that the model does not hold leave it room. -/
def State.sendOn (s : State) (p bytes : Nat) (room : Bool) (m : Sent) : State :=
  if !s.portUp p then s
  else if !room ∨ !s.fwdRoom p bytes then s.bump (portObj p) 9
  else (s.modPort p fun _ => { s.egress p with fwd := (s.egress p).fwd + bytes }).send m

/-! ### Wrapped, closed and alone -/

/-- A NOTIFY sent to its station (R355). -/
def State.sendNotify (s : State) (y : Notify) : State :=
  s.originate 1 y.dst (32 + y.data.length) fun ps h => .notify ps h y.tid y.data

/-- A NOTICE of the station's own about a port, to every station, sent out of ports that are UP (R320, R321, R333, R334). -/
def State.notice (s : State) (ports : List Nat) (about : Nat) (close : Bool) : State :=
  if ports.isEmpty then s
  else
    let h := s.ownHeader 4 255 10
    (s.each ports fun s p => s.sendUrgent p (wireBytes 10)).ownFrame.send
      (.notice ports { h with dual := h.dual || decide (ports.length = 2), about := about } close s.uid)

/-- The ring entered WRAPPED (R333, R378). -/
def State.wrap (s : State) : State := (s.setNat 0x1010 2 2).reroute

/-- With no port UP the station is ALONE (R339). -/
def State.alone (s : State) : State := if s.portUp 0 ∨ s.portUp 1 then s else s.setNat 0x1010 2 0

/-- A port that has become DOWN or REFUSED while the other is UP makes an end station (R333); with no port UP the station is
ALONE (R339). -/
def State.endStation (s : State) (p : Nat) : State :=
  if s.portUp (1 - p) then
    let s := s.notice [1 - p] p false
    { s with ring := { s.ring with reported := true } }.wrap
  else s.alone

/-- A link declared lost (R329). A lost link has no level, so that it leaves the SLEEP rate (R319). (log 179, DEDUCED) -/
def State.loseRingLink (s : State) (p : Nat) : State :=
  let s := (s.modPort p fun x => { x with valid := 0, lost := true, want := none, request := none, asked := false, gotAck := false,
                                          answered := false, urgent := 0, fwd := 0 }).setPort p 0
  let s := if s.reg (portObj p) 2 = 1 then (s.setNat (portObj p) 2 0).raise 1697 else s
  let s := (s.bump (portObj p) 10).raise 1691
  (s.endStation p).handFault { resource := 6 + p, level := 9, source := 1691 }

/-- LINK_LOST (R329): in UP, SYNC or REFUSED. -/
def execLinkLost (p : PortId) (s : State) : Out :=
  if [1, 2, 3].contains (s.portState p.val) then .next (s.loseRingLink p.val) else .next s

/-- RATE_CHANGE_TIMEOUT (R332): not UP again within 1 ms. -/
def execRateChangeTimeout (p : PortId) (s : State) : Out :=
  if s.portState p.val = 4 ∧ s.now ≥ (s.port p.val).changeAt + 12500 then .next (s.loseRingLink p.val) else .next s

/-- PCS_SYNCHRONISED (R327): a port that has started (R318) goes from DOWN to SYNC. -/
def execPcsSynchronised (p : PortId) (s : State) : Out :=
  if s.ring.started ∧ s.portState p.val = 0 then
    .next ((s.modPort p.val fun x => { x with valid := 0, lastValid := s.now }).setPort p.val 1)
  else .next s

/-- The ports started, once REFCLK is present in a cold start (R318). -/
def State.startPorts (s : State) : State :=
  if s.mode = .coldStart ∧ s.clk.ref = .present ∧ !s.start.resetLow then { s with ring := { s.ring with started := true } } else s

/-! ### Supervision (R327-R332) -/

/-- The level of a link whose neighbour offers a range: the highest in both (R5, R330). -/
def State.linkLevel (s : State) (range : Nat) : Option Nat :=
  let hi := min (range % 16) (s.nreg 0x1000 6)
  let lo := max (range / 16 % 16) (s.nreg 0x1000 5)
  if lo ≤ hi then some hi else none

/-- A port whose link works at a level becomes UP (R327, R330, R373); it ends a fault WRAP of its link. In SLEEP it asks for the SLEEP rate
(R319). A station that has neither reported nor consumed a BREAK since the last CLOSE is CLOSED once both ports are UP, and WRAPPED with one; with
a break the ring stays WRAPPED until a CLOSE (R334). -/
def State.portComesUp (s : State) (p level : Nat) : State :=
  let s := (s.setPort p 2).setNat (portObj p) 6 level
  let sleepy : Bool := s.mode == .sleep && s.nreg (portObj p) 2 == 0
  let s := ((s.modPort p fun x => { x with upSince := s.now, want := if sleepy then some true else x.want }).raise 1690).startPdelay p
  let s := s.recovered (6 + p) (s.usSince (((s.faultOf (6 + p)).map (·.frame)).getD s.now))
  if s.ringState = 1 then s
  else s.setNat 0x1010 2 (if s.portUp (1 - p) ∧ !s.ring.reported ∧ !s.ring.broken then 1 else 2)

/-- The neighbour of a port judged (R330). -/
def State.judgeNeighbour (s : State) (p : Nat) : State :=
  match s.linkLevel (s.nreg (portObj p) 5) with
  | some l =>
    if s.portState p = 2 then s.setNat (portObj p) 6 l else s.portComesUp p l
  | none =>
    if s.portState p = 3 then s
    else
      let r := s.nreg (portObj p) 5
      (((s.setPort p 3).modPort p fun x => { x with lost := true }).raiseRanges 1694 (s.nreg 0x1000 5) (s.nreg 0x1000 6) (r / 16 % 16)
        (r % 16)).endStation p

/-- Whether a link may use the SLEEP rate (R319, R331). -/
def State.rateEligible (s : State) (p : Nat) : Bool :=
  s.portState p == 2 && decide (s.nreg (portObj p) 6 ≥ 4) && natBit (s.nreg (portObj p) 7) 0

/-- Whether a change of rate may be asked for and made: down on an eligible port, up on any that is UP. -/
def State.mayChangeRate (s : State) (p : Nat) (down : Bool) : Bool := if down then s.rateEligible p else s.portUp p

/-- A link at the SLEEP rate that may no longer use it, because its level has fallen to 3 or the neighbour no longer advertises SLEEP_RATE, asks for
the return (R319, R331). (log 179, DEDUCED) -/
def State.keepRate (s : State) (p : Nat) : State :=
  if s.portUp p ∧ s.reg (portObj p) 2 = 1 ∧ !s.rateEligible p ∧ (s.port p).want ≠ some false then
    s.modPort p fun x => { x with want := some false, asked := false, gotAck := false }
  else s

/-- Requests and ACKs of a rate change (R332). -/
def State.rateBits (s : State) (p : Nat) (m : SupMsg) : State :=
  let slow := s.nreg (portObj p) 2 = 1
  let s := if (s.port p).request.isNone then
      if m.rateDown ∧ !slow ∧ s.mayChangeRate p true then s.modPort p fun x => { x with request := some true, answered := false }
      else if m.rateUp ∧ slow ∧ s.mayChangeRate p false then s.modPort p fun x => { x with request := some false, answered := false }
      else s
    else s
  let x := s.port p
  if x.asked ∧ ((x.want = some true ∧ m.rateDownAck) ∨ (x.want = some false ∧ m.rateUpAck)) then
    s.modPort p fun x => { x with gotAck := true }
  else s

/-- A valid SUPERVISION frame (R327-R330). (log 83, DEDUCED) -/
def State.supervised (s : State) (p : Nat) (m : SupMsg) : State :=
  let o := portObj p
  let old := s.nreg o 3
  let range := m.lo * 16 + m.hi
  let moved := decide (s.nreg o 5 ≠ range)
  let changed := decide (old ≠ m.uid)
  let s := (((s.setNat o 3 m.uid).setNat o 4 m.station).setNat o 5 range).setNat o 7 m.caps
  let s := s.modPort p fun x => { x with valid := if changed then 1 else x.valid + 1, lastValid := s.now }
  if changed then
    let s := if old = 0 then s else s.raise 1696
    (if s.portState p = 4 then s else s.setPort p 1).alone
  else
    let n := (s.port p).valid
    let s := if (s.portState p = 1 ∨ s.portState p = 4) ∧ n ≥ 3 then s.judgeNeighbour p
      else if (s.portState p = 2 ∨ s.portState p = 3) ∧ moved then s.judgeNeighbour p
      else s
    (s.keepRate p).rateBits p m

/-- The ring frame in progress dropped by an overflow of crossing X5, whose writer cannot be held (R143). -/
def State.dropFrame (s : State) : State := ((s.crossed 5 64 true).bump 0x6015 3).raise 1613

/-- SUPERVISION (R322, R328): a frame of the neighbour. One that is not valid breaks the run of valid ones. -/
def execSupervision (p : PortId) (f : RingFrame) (m : SupMsg) (s : State) : Out :=
  if s.portState p.val = 0 then .next s
  else
    let spoil (s : State) : State := s.modPort p.val fun x => { x with valid := 0 }
    if f.overflow then .next s.dropFrame
    else if !f.good then .next (spoil (s.bump (portObj p.val) 8))
    else if f.etherType ≠ 0x88B5 then .next (s.bump 0x1010 9)
    else if m.port ≠ 1 - p.val then .next (spoil s)
    else .next (s.supervised p.val m)

/-- A rate change begun at a supervision interval once request and ACK have passed both ways (R332), if the port may still make it (R319); with
its port out of UP the station may be ALONE (R339). -/
def State.changeRate (s : State) (p : Nat) : State :=
  let x := s.port p
  let target := if x.asked ∧ x.gotAck then x.want else if x.answered then x.request else none
  let clear (s : State) : State :=
    s.modPort p fun x => { x with want := none, asked := false, gotAck := false, request := none, answered := false }
  match target with
  | none => s
  | some down =>
    if !s.mayChangeRate p down then clear s
    else
      let s := s.modPort p fun _ => s.egress p
      let s := (s.setPort p 4).setNat (portObj p) 2 (if down then 1 else 0)
      ((clear s).modPort p fun x => { x with valid := 0, changeAt := s.now }).alone.raise 1697

/-- SUPERVISION_SEND (R327, R332): every 1,250 frames. Each port sends a frame of its own, to DST 0xFF and without DUAL. (log 181, DESIGN CHOICE) -/
def execSupervisionSend (p : PortId) (s : State) : Out :=
  let due : Bool := match (s.port p.val).sentAt with
    | some t => decide (s.now ≥ t + 1250)
    | none => true
  if s.ring.started ∧ due then
    let s := s.changeRate p.val
    let x := s.port p.val
    let want := x.want.filter (s.mayChangeRate p.val)
    let m : SupMsg := { uid := s.uid, station := s.station, port := p.val, ringState := s.ringState, caps := 15,
                        rateDown := want == some true, rateUp := want == some false,
                        rateDownAck := x.request == some true, rateUpAck := x.request == some false }
    let s := s.modPort p.val fun x => { x with sentAt := some s.now, asked := x.asked || want.isSome,
                                               answered := x.answered || x.request.isSome }
    .next ((s.sendUrgent p.val (wireBytes 16)).ownFrame.send (.supervision p.val { s.ownHeader 2 255 16 with dual := false } m))
  else .next s

/-- A change of rate asked for on every port (R332): down on entering SLEEP, up on leaving it. -/
def State.askRate (s : State) (down : Bool) : State :=
  s.each portNos fun s p =>
    let slow : Bool := s.nreg (portObj p) 2 == 1
    if slow = down then s.modPort p fun x => { x with want := none, asked := false, gotAck := false }
    else s.modPort p fun x => { x with want := some down, asked := false, gotAck := false }

/-! ### Wrapping and closing (R333, R334) -/

/-- CLOSE_TIMER (R334): a link that was lost has been UP for 300 µs. -/
def execCloseTimer (p : PortId) (s : State) : Out :=
  let x := s.port p.val
  if s.portState p.val = 2 ∧ x.lost ∧ s.now ≥ x.upSince + 3750 then
    let s := s.modPort p.val fun x => { x with lost := false }
    .next (s.notice (portNos.filter s.portUp) p.val true)
  else .next s

/-- What a received frame comes to (R322): consumed, and sent on. -/
structure Taken where
  consume : Bool := false
  forward : Bool := false
  deriving DecidableEq, Repr

/-- The frame types of R321 that a ring frame may have. -/
def ringTypes : List Nat := [1, 2, 3, 4, 5, 6]

/-- Whether a frame has been consumed in the last 2 ms (R323). -/
def State.duplicate (s : State) (f : RingFrame) : Bool :=
  [1, 5, 6].contains f.type && f.src != 0
    && s.ring.consumed.any fun e => e.1 == f.src && e.2.1 == f.seq && decide (s.now < e.2.2 + 25000)

/-- A frame noted as consumed: the last 256 of each SRC. -/
def State.noteConsumed (s : State) (f : RingFrame) : State :=
  if [1, 5, 6].contains f.type ∧ f.src ≠ 0 then
    let mine := (s.ring.consumed.filter fun e => e.1 == f.src) ++ [(f.src, f.seq, s.now)]
    let rest := s.ring.consumed.filter fun e => e.1 != f.src
    { s with ring := { s.ring with consumed := rest ++ mine.drop (mine.length - 256) } }
  else s

/-- One hop fewer. -/
def hopped (f : RingFrame) : RingFrame := { f with hops := (f.hops + 255) % 256 }

/-- A frame found bad while it is forwarded (R322): its outgoing copy ends with an error-propagation code group. Between ports of one rate
forwarding cuts through, and whether it had begun is a free value; between different rates the whole frame is stored first (R324). (log 136, DESIGN CHOICE) -/
def State.spoilCopy (s : State) (p : Nat) (f : RingFrame) : State :=
  if s.portUp (1 - p) ∧ s.reg (portObj p) 2 = s.reg (portObj (1 - p)) 2 ∧ f.etherType = 0x88B5 ∧ f.type ≠ 2 ∧ f.hops ≠ 1 ∧ f.src ≠ s.station ∧ f.dst ≠ s.station then
    let a := s.free
    if a.1 % 2 = 1 then a.2.send (.frame (1 - p) (hopped f)) else a.2
  else s

/-- The rows of R322 for a frame at a port that is UP. A station with no number consumes only WALK, NOTICE and ASSIGN. -/
def State.classify (s : State) (p : Nat) (f : RingFrame) : Taken × State :=
  if s.portState p = 0 then ({}, s)
  else if f.overflow then ({}, s.dropFrame)
  else if s.portState p ≠ 2 then ({}, s)
  else if !f.good then ({}, (s.bump (portObj p) 8).spoilCopy p f)
  else if f.etherType = 0x88F7 then ({}, s.ptpOther p f)
  else if f.etherType ≠ 0x88B5 ∨ !ringTypes.contains f.type then ({}, s.bump 0x1010 9)
  else if f.type = 2 then ({}, s)
  else if f.src = s.station ∧ f.src ≠ 0 then ({}, s)
  else
    let may : Bool := s.station != 0 || [3, 4, 5].contains f.type
    let own := decide (f.dst = s.station) && s.station != 0
    let mine := may && (own || f.dst == 255)
    if f.hops = 1 then (({ consume := mine } : Taken), if mine then s else s.bump 0x1010 8)
    else if own then ({ consume := may }, s)
    else ({ consume := mine, forward := true }, s)

/-- A frame that is not a copy of one consumed before: such a copy is dropped (R323). -/
def State.takeFrame (s : State) (p : Nat) (f : RingFrame) : Taken × State :=
  let r := s.classify p f
  if !r.1.consume then r
  else if r.2.duplicate f then ({}, r.2.bump 0x1010 7)
  else (r.1, r.2.noteConsumed f)

/-- A frame taken from the ring: whether this station consumes it, and the state once it has been filtered and sent on (R322-R324). -/
def State.receiveFrame (s : State) (p : Nat) (f : RingFrame) (room : Bool) : Bool × State :=
  let r := s.takeFrame p f
  (r.1.consume, if r.1.forward then r.2.sendOn (1 - p) (wireBytes f.payload.length) room (.frame (1 - p) (hopped f)) else r.2)

/-- RING_FRAME_FORWARD (R322-R324): forwarded through the other port while that is UP and its buffer has room. -/
def execRingFrameForward (p : PortId) (f : RingFrame) (room : Bool) (s : State) : Out :=
  .next (s.receiveFrame p.val f (room && f.room)).2

/-- A NOTICE sent on, in the class of notices (R324). (log 84, DEDUCED) -/
def State.passNotice (s : State) (p : Nat) (f : RingFrame) (close : Bool) (reporter : Nat) (r : Taken) : State :=
  if r.forward ∧ s.portUp (1 - p) then (s.sendUrgent (1 - p) (wireBytes 10)).send (.notice [1 - p] (hopped f) close reporter) else s

/-- A BREAK notice consumed (R333): WRAPPED, BREAKS and E1692, its segmented flag set by a second one without a CLOSE between (R334). -/
def State.breakSeen (s : State) : State :=
  let s := ((s.bump 0x1010 5).raiseWith 1692 [beBytes 8 (if s.ring.broken then 1 else 0)]).wrap
  { s with ring := { s.ring with broken := true } }

/-- NOTICE_BREAK (R333): WRAPPED, BREAKS and E1692. -/
def execNoticeBreak (p : PortId) (f : RingFrame) (reporter : Nat) (s : State) : Out :=
  let r := s.takeFrame p.val { f with type := 4 }
  let s := r.2
  let s := if r.1.consume then s.breakSeen else s
  .next (s.passNotice p.val f false reporter r.1)

/-- NOTICE_CLOSE (R334): CLOSED with both ports UP or no break reported by this station. -/
def execNoticeClose (p : PortId) (f : RingFrame) (reporter : Nat) (s : State) : Out :=
  let r := s.takeFrame p.val { f with type := 4 }
  let s := r.2
  let s := if r.1.consume then { s with ring := { s.ring with broken := false } } else s
  let s := if r.1.consume ∧ ((s.portUp 0 ∧ s.portUp 1) ∨ !s.ring.reported) then
      let was := s.ringState
      let s := ((s.bump 0x1010 6).raise 1693).setNat 0x1010 2 1
      let s := { s with ring := { s.ring with reported := false } }
      if was = 2 then s.reroute else s
    else s
  .next (s.passNotice p.val f true reporter r.1)

/-! ### Discovery (R335-R337) -/

/-- A station number taken; a change raises E1695. -/
def State.takeNumber (s : State) (n : Nat) : State := if n = s.station then s else (s.setNat 0x1010 1 n).raise 1695

/-- 2 to the i, or 0. -/
def flagBit (x : Bool) (i : Nat) : Nat := if x then 2 ^ i else 0

/-- The station record (R336) but for what a walk says: DUPLICATE and the port it arrived on. -/
def State.stationRec (s : State) : WalkRec :=
  { uid := s.uid, station := s.station, grade := s.grade, range := 0x35, state := s.deviceState,
    flags := flagBit (s.portUp 0) 0 + flagBit (s.portUp 1) 1 + flagBit (s.ringState == 2) 2 + flagBit (s.inForce 0x2100 7 == 1) 4 }

/-- The record of this station in a walk that arrived by a port (R336); in SLEEP the Night porter's copy, with the number that it holds (R326). -/
def State.walkRec (s : State) (p : Nat) (m : WalkMsg) : WalkRec :=
  let dup := m.records.any fun r => r.station == s.station && s.station != 0
  let w := if s.mode = .sleep then s.ring.record.getD s.stationRec else s.stationRec
  { w with station := s.station, flags := w.flags + flagBit dup 3 + flagBit (p == 0) 5 }

/-- A walk acted on (R336, R337): a number taken from it, this station's record appended. -/
def State.walked (s : State) (p : Nat) (m : WalkMsg) : State × WalkMsg :=
  let due : Bool := s.inForce 0x2100 7 == 0 && (s.station == 0 || (m.renumber && !s.anyBusy))
  let s := if due ∧ 1 ≤ m.next ∧ m.next ≤ 254 then s.takeNumber m.next else s
  let s := { s with ring := { s.ring with walks := s.ring.walks ++ [m.id] } }
  (s, { m with next := (m.next + 1) % 256, records := m.records ++ [s.walkRec p m] })

/-- The payload bytes of a walk (R335). -/
def walkBytes (m : WalkMsg) : Nat := 16 + 16 * m.records.length

/-- The walk as an end station of a WRAPPED ring returns it to the controller that sent it (R336). The spec gives the reply no form: it is a frame
of the station's own with the walk as this station leaves it. (log 182, DESIGN CHOICE) -/
def State.returnWalk (s : State) (f : RingFrame) (m : WalkMsg) : State :=
  s.originate 3 (if f.src = 0 then 255 else f.src) (walkBytes m) fun ps h => .walk (ps.headD 0) h m

/-- WALK (R335, R336): once for each WALK_ID; later copies go on unchanged. At the end of a WRAPPED ring the walk goes back. -/
def execWalk (p : PortId) (f : RingFrame) (m : WalkMsg) (s : State) : Out :=
  let r := s.takeFrame p.val { f with type := 3 }
  let s := r.2
  let acts : Bool := r.1.consume && !s.ring.walks.contains m.id
  let s := if r.1.consume then (s.setNat 0x1010 4 m.id).setNat 0x1010 3 m.records.length else s
  let out := if acts then s.walked p.val m else (s, m)
  let s := out.1
  let q := 1 - p.val
  if r.1.forward ∧ s.portUp q then
    .next (s.sendOn q (wireBytes (walkBytes out.2)) f.room (.walk q { hopped f with length := walkBytes out.2 } out.2))
  else if acts ∧ s.ringState = 2 ∧ !s.portUp q then .next (s.returnWalk f out.2)
  else .next s

/-- ASSIGN (R337): a number for the station whose UID it names, in mode 1 and with no site that holds budget. -/
def execAssign (p : PortId) (f : RingFrame) (uid : Nat) (number : Nat) (s : State) : Out :=
  let f := { f with type := 5, payload := beBytes 8 uid ++ beBytes 1 number }
  let r := s.receiveFrame p.val f f.room
  let s := r.2
  .next (if r.1 ∧ uid = s.uid then
      if s.inForce 0x2100 7 = 1 ∧ !s.anyBusy ∧ 1 ≤ number ∧ number ≤ 254 then s.takeNumber number else s.bump 0x1010 10
    else s)

end Sys2Proof.Machine
end

