-- ==== Sys2Proof/Machine/Edges.lean ====
section
/-! DEFINITION. Edges: comparator decisions and their time stamps (R191, R246), and edges on EVT pins (R497). -/

namespace Sys2Proof.Machine

/-! ### Comparator edges -/

/-- Object 0x3000 + 16n + 6. -/
def tdcObj (p : Nat) : Nat := pinObj p 6

/-- A time stamp of pin p (R246): one rise and one fall of a comparator in each beat; a further one is lost. EXT_COMPARE is added to
it (R403). -/
def State.stamp (s : State) (p : Nat) (vtl above : Bool) (beat tap : Nat) : State :=
  let b := s.clk.c + beat
  let here := (s.pin p).edges.filter fun e => e.2.2 == b
  if here.any fun e => e.1 == vtl && e.2.1 == above then
    ((s.bump (tdcObj p) 2).raise (pinEvent p 5)).lostEdge p vtl above
  else
    let s := (s.modPin p fun q => { q with edges := here ++ [(vtl, above, b)] }).bump (tdcObj p) 1
    let s := s.each ((s.liveDefs).filter fun d => (s.mdef d).st == .gate && (s.mdef d).comparators.contains (p, vtl)) fun s d =>
      let f0 := (s.site (s.mdef d).site).f0
      s.measEdge d p vtl above (((s.now - f0) * 320000 + beat * 5000 + tap * 10 : Nat) + s.inForce (pinObj p 10) 2).toNat
    let at0 := s.ptpOf s.now (beat * 5000 + tap * 10)
    s.captureAll (edgeSource 3 (2 * p + (if vtl then 1 else 0)) above) (at0 + s.inForce (pinObj p 10) 2 * 16384 / 1000)

/-- COMPARATOR_EDGE (R191, R246): the input crosses the far edge of a band and a comparator that runs continuously changes its
decision. Its first decision after none is no edge; a parked pin takes no stamp; a pin being calibrated does not see the
ball (R394). -/
def execComparatorEdge (n : PinId) (vtl : Bool) (above : Bool) (beat : Nat) (tap : Nat) (s : State) : Out :=
  let q := s.pin n.val
  let held := if vtl then q.heldTl else q.heldTh
  if s.beatsStop ∨ !q.runs vtl ∨ beat ≥ 64 ∨ tap ≥ 500 ∨ held = some above ∨ s.reg (pinObj n.val 11) 7 = 1 then .next s
  else
    let s := if vtl then s.setHeld n.val q.heldTh (some above) beat tap else s.setHeld n.val (some above) q.heldTl beat tap
    let f0 := (s.site ((s.pinSite n.val).getD 64)).f0
    if held.isNone ∨ s.parkedPin n.val ((s.now - f0) * 320000 + beat * 5000 + tap * 10) then .next s
    else .next (s.stamp n.val vtl above beat tap)

/-! ### EVT pins -/

/-- MODE of an EVT pin. -/
def State.evtMode (s : State) (i : Nat) : Nat := s.nInForce (0x8050 + i) 1

/-- Trigger EXT terms (R222): each armed unit whose EXT_SEL names the edge has an occurrence at its time in site time, beside those that wait. -/
def State.evtExt (s : State) (i : Nat) (rising : Bool) (beat : Nat) : State :=
  s.each (List.range 16) fun s u =>
    let t := s.tu u
    let sel := s.nreg (tuObj u) 12
    if t.armed ∧ sel % 8 = i ∧ natBit sel 3 = !rising then
      let f0 := (s.site (s.nreg (tuObj u) 1)).f0
      s.setTu u { t with ext := t.ext ++ [(s.now - f0) * 320000 + beat * 5000] }
    else s

/-- PPS discipline (R379): a rising edge of the named pin against the whole seconds of local time steers the rate. -/
def State.ppsEdge (s : State) (i beat : Nat) : State :=
  if s.plays 2 ∧ s.nInForce 0x8001 16 = i ∧ s.evtMode i = 4 then
    let sec : Int := 1000000000 * nsUnit
    let t := s.timeAtBeat beat
    let off := (t + sec / 2) % sec - sec / 2
    let near := decide ((off.natAbs : Int) ≤ s.nInForce 0x8001 13 * nsUnit)
    let k := (t + sec / 2) / sec
    let r := s.servoRate off
    r.2.modTime fun x => { x with
      nextRate := some r.1, ppsAt := if near then some k else none
      ppsGood := if !near then 0 else if x.ppsAt = some (k - 1) then x.ppsGood + 1 else if x.ppsAt = some k then x.ppsGood else 1 }
  else s

/-- EVT_EDGE (R497): detected to the beat; it feeds EXT terms in TRIG_IN, PPS discipline in SYNC_IN, and captures in every input
mode. Gates read the level. A pin driven by the engine sees no edge from outside. -/
def execEvtEdge (i : Fin 8) (rising : Bool) (beat : Nat) (s : State) : Out :=
  let e := s.evt i.val
  let m := s.evtMode i.val
  if e.level = rising ∨ beat ≥ 64 ∨ m = 3 then .next s
  else
    let s := s.setEvt i.val { e with level := rising, changed := s.clk.c + beat }
    if m = 0 then .next s
    else
      let s := if m = 2 then s.evtExt i.val rising beat else s
      let s := if rising then s.ppsEdge i.val beat else s
      .next (s.captureAll (edgeSource 1 i.val rising) (s.timeAtBeat (s.placeBeat beat)))

end Sys2Proof.Machine
end

