-- ==== Sys2Proof/Machine/Calibration.lean ====
section
/-! DEFINITION. Calibration and ageing: runs, corrections, drift, host arithmetic, the sealed blob and the margin plan
(R393-R418), and the temperature sensors (R493). -/

namespace Sys2Proof.Machine

/-! ### Coefficients -/

/-- s with its calibration changed. -/
def State.modCal (s : State) (f : Cal → Cal) : State := { s with cal := f s.cal }

/-- The calibrated value of correction kind k of pin p, without drift and declaration. -/
def State.calBase (s : State) (p k : Nat) : Int := Table.get 0 s.cal.base (8 * p + k)

/-- A vernier coefficient: period difference in 2^-10 fs, start and stop offset in fs. -/
def State.vernCoef (s : State) (c q : Nat) : Int := Table.get (if q = 0 then 512000 else 0) s.cal.vern (4 * c + q)

/-- A clock coefficient: skew in fs, gain in 2^-24 of nominal. -/
def State.clockCoef (s : State) (p q : Nat) : Int := Table.get 0 s.cal.clock (2 * p + q)

/-- The declared external delay of a correction kind, in fs (R403). -/
def State.extDelay (s : State) (p k : Nat) : Int :=
  if k < 4 then -(s.reg (pinObj p 10) 1) * 250 else s.reg (pinObj p 10) 2 * 250

/-- A TARGET of a pin (R417). -/
def State.timingTarget (s : State) (p k : Nat) : Int := s.reg (pinObj p 7) (k + 1)

/-- The six correction kinds of R168. -/
def kinds : List Nat := [0, 1, 2, 3, 4, 5]

/-- Whether six timing values keep the limits of R397. -/
def timingOk (l : List Int) : Bool :=
  (l.all fun v => decide (v.natAbs ≤ 500000)) && l.all fun v => l.all fun w => decide (v - w ≤ 50000)

/-- Six timing values with those outside a limit replaced by old ones; all of them where the spread is too wide (R397). How many were
replaced. -/
def fixTiming (old new : List Int) : List Int × Nat :=
  let one := (old.zip new).map fun e => if e.2.natAbs ≤ 500000 then e.2 else e.1
  let n := (new.filter fun v => !decide (v.natAbs ≤ 500000)).length
  if timingOk one then (one, n) else (old, n + 1)

/-- The targets of a pin from calibrated values, drift and declarations. -/
def State.targetsFrom (s : State) (p : Nat) (base : List Int) (drift : Int) : List Int :=
  (kinds.zip base).map fun e => e.2 + drift + s.extDelay p e.1

/-- Timing targets of a pin stored. -/
def State.setTargets (s : State) (p : Nat) (l : List Int) : State :=
  s.each (kinds.zip l) fun s e => s.setReg (pinObj p 7) (e.1 + 1) e.2

/-- The calibrated timing values of a pin. -/
def State.baseOf (s : State) (p : Nat) : List Int := kinds.map (s.calBase p)

/-- A value outside a limit on a pin (R397): E(16n + 8) and E1722. -/
def State.pinLimit (s : State) (p n : Nat) : State :=
  s.each (List.range n) fun s _ => (s.raise (pinEvent p 8)).raise 1722

/-! ### CAL_HASH (R406) -/

/-- The targets of all domains in the order and encoding of R406. -/
def State.calTargets (s : State) : List Byte :=
  (pinNos.flatMap fun p => kinds.flatMap fun k => encodeInt 4 (s.timingTarget p k))
    ++ (pinNos.flatMap fun p => [1, 2, 3, 4].flatMap fun k => encodeInt 4 (s.reg (pinObj p 8) k))
    ++ (pinNos.flatMap fun p => s.oct (pinObj p 9) 1)
    ++ ([0, 1, 2, 3].flatMap fun c => [0, 1, 2].flatMap fun q => encodeInt 4 (s.vernCoef c q))
    ++ (pinNos.flatMap fun p => [0, 1].flatMap fun q => encodeInt 4 (s.clockCoef p q))

/-- The five COUNT values. -/
def State.calCounts (s : State) : List Byte := (List.range 5).flatMap fun d => beBytes 4 (s.nreg 0xB000 (d + 1))

/-- CAL_HASH taken anew. -/
def State.rehash (s : State) : State := s.setOct 0xB000 16 (sha384 (s.calTargets ++ s.calCounts))

/-! ### Runs (R393-R396) -/

/-- The domains in the order of a run: CLOCK, VERNIER, TDC, TIMING, LEVELS. -/
def domainOrder : List Nat := [4, 3, 2, 0, 1]

/-- The quantities of one unit of a domain, step by step: a TDC step covers the 500 taps of a pin. (log 107, DEDUCED) -/
def stepsOfUnit (d : Nat) : List (List Nat) :=
  match d with
  | 0 => kinds.map fun k => [k]
  | 1 => [[0], [1], [2], [3]]
  | 2 => [List.range 500]
  | 3 => [[0], [1], [2]]
  | _ => [[0], [1]]

/-- The steps of a domain over a mask of pins: unit and quantities. -/
def calSteps (d pins : Nat) : List (Nat × List Nat) :=
  (if d = 3 then [0, 1, 2, 3] else setBits 64 pins).flatMap fun u => (stepsOfUnit d).map fun q => (u, q)

/-- Whether the pair of results of a step agrees (R396); the tolerance of VERNIER is that of the period difference, of CLOCK that of
the skew. -/
def calAgrees (d : Nat) (q : List Nat) (a b : List Int) : Bool :=
  let within (t : Nat) : Bool := (a.zip b).all fun e => decide ((e.1 - e.2).natAbs ≤ t)
  match d with
  | 0 => within 800
  | 1 => within 300
  | 2 => within 100
  | 3 => q != [0] || within 20480
  | _ => q != [0] || within 400

/-- The mean of two results rounded to the nearest; which of the two nearest a tie takes is a free value. (log 108, DESIGN CHOICE) -/
def State.meanOf (s : State) (a b : Int) : Int × State :=
  if (a + b) % 2 = 0 then ((a + b) / 2, s)
  else
    let f := s.free
    ((a + b) / 2 + (f.1 % 2 : Nat), f.2)

/-- Means of two lists. -/
def State.meansOf (s : State) : List Int → List Int → List Int × State
  | a :: l, b :: m =>
    let r := s.meanOf a b
    let t := r.2.meansOf l m
    (r.1 :: t.1, t.2)
  | _, _ => ([], s)

/-- The pins of a run that are being calibrated: those of PINS where a domain of pins is in the run. -/
def Cal.busyPins (c : Cal) : Nat :=
  if (c.domain.toList ++ c.queue).any (· ≠ 3) then c.pins else 0

/-- CAL_PIN_STATE of one pin as run and movement have it (R417). -/
def State.calPinState (s : State) (p : Nat) : Nat :=
  if natBit s.cal.busyPins p then 1
  else if kinds.any (fun k => s.timingTarget p k != s.reg (pinObj p 7) (k + 7))
      || ([1, 2, 3, 4].any fun k => s.reg (pinObj p 8) k != s.reg (pinObj p 8) (k + 4))
      || ([0, 1].any fun q => s.clockCoef p q != Table.get 0 s.cal.clockIn (2 * p + q)) then 2
  else 0

/-- CAL_PIN_STATE of some pins set anew. -/
def State.setPinStates (s : State) (l : List Nat) : State := s.each l fun s p => s.setNat (pinObj p 11) 7 (s.calPinState p)

/-- The run ends and its pins leave CALIBRATING. -/
def State.endRun (s : State) : State :=
  let pins := setBits 64 s.cal.pins
  let s := s.modCal fun c => { c with domain := none, queue := [], pins := 0, step := 0, retry := 0, waitFrom := none, got := [],
                                      news := [], kept := 0, cancel := false }
  (s.setNat 0xB002 4 0).setPinStates pins

/-- The next domain of the run, or its end. -/
def State.nextDomain (s : State) : State :=
  match s.cal.queue with
  | [] => s.endRun
  | d :: t =>
    (s.modCal fun c => { c with domain := some d, queue := t, step := 0, retry := 0, waitFrom := none, got := [], news := [],
                                kept := 0 }).setNat 0xB002 4 1

/-- START (R395). -/
def State.calStart (s : State) : Nat × State :=
  let mask := s.nreg 0xB002 2
  let pins := s.nreg 0xB002 3
  if s.cal.domain.isSome ∨ !s.inService ∨ mask = 0 ∨ (setBits 64 pins).any s.pinBusy then (0x0108, s)
  else
    let l := domainOrder.filter fun d => natBit mask d && !(calSteps d pins).isEmpty
    let total := (l.map fun d => (calSteps d pins).length).sum
    let s := s.modCal fun c => { c with pins := pins, queue := l, cancel := false }
    let s := ((s.setNat 0xB002 5 0).setNat 0xB002 6 total).nextDomain
    (0, s.setPinStates (setBits 64 s.cal.busyPins))

/-- CANCEL (R398): the run ends at the next tick. -/
def State.calCancel (s : State) : State :=
  if s.cal.domain.isSome then s.modCal fun c => { c with cancel := true, waitFrom := none, got := [] } else s

/-- A step finished, with new values or the old ones kept (R396). -/
def State.stepDone (s : State) (news : Option (List Int)) : State :=
  let c := s.cal
  let d := c.domain.getD 0
  let unit := (((calSteps d c.pins)[c.step]?).map (·.1)).getD 0
  let s := match news with
    | some l => s.modCal fun c => { c with news := c.news ++ [(c.step, l)] }
    | none =>
      let s := s.bump 0xB002 8
      let s := if d = 3 ∨ d = 4 then s.raise 1721 else s.raise (pinEvent unit 7)
      s.modCal fun c => { c with kept := c.kept + 1 }
  (s.modCal fun c => { c with step := c.step + 1, retry := 0, waitFrom := none, got := [] }).bump 0xB002 5 |>.setNat 0xB002 4 1

/-- A pair of results judged (R396): agreed, measured again, or the old value kept after three retries. -/
def State.judgePair (s : State) (q : List Nat) (a b : List Int) : State :=
  let d := s.cal.domain.getD 0
  if calAgrees d q a b then
    let r := s.meansOf a b
    r.2.stepDone (some r.1)
  else if s.cal.retry < 3 then
    ((s.bump 0xB002 7).modCal fun c => { c with retry := c.retry + 1, waitFrom := none, got := [] }).setNat 0xB002 4 1
  else s.stepDone none

/-- A measurement record of host-assisted arithmetic (R404). -/
def calRecord (d unit q run retry : Nat) (v : Int) : List Byte :=
  beBytes 1 d ++ beBytes 1 unit ++ beBytes 2 q ++ beBytes 1 run ++ beBytes 1 retry ++ zeroBytes 2 ++ encodeInt 8 v

/-- The step in progress, where one can be measured: a domain that needs the vernier channels waits for those that measurements hold
(R395). -/
def State.openStep (s : State) : Option (Nat × Nat × List Nat) :=
  match s.cal.domain with
  | none => none
  | some d =>
    if s.cal.cancel ∨ ((d = 0 ∨ d = 3) ∧ !s.vernierBusy.isEmpty) then none
    else ((calSteps d s.cal.pins)[s.cal.step]?).map fun e => (d, e.1, e.2)

/-- CAL_STEP_DONE (R396, R404): the two results of the step, in the order of its quantities. -/
def execCalStepDone (first second : List Int) (s : State) : Out :=
  match s.openStep with
  | none => .next s
  | some (d, unit, q) =>
    if s.cal.waitFrom.isSome ∨ first.length ≠ q.length ∨ second.length ≠ q.length then .next s
    else if s.inForce 0x2100 2 = 1 then
      let rows (run : Nat) (l : List Int) : List Byte := (q.zip l).flatMap fun e => calRecord d unit e.1 run s.cal.retry e.2
      let s := s.setOct 0xB040 1 (s.oct 0xB040 1 ++ rows 0 first ++ rows 1 second)
      .next ((s.modCal fun c => { c with waitFrom := some s.now, got := [] }).setNat 0xB002 4 2)
    else .next (s.judgePair q first second)

/-- Coefficient records written (R404, R405): RANGE for one that names no open step or has a reserved field set. -/
def State.coeffs (s : State) (l : List CalRec) : Nat × State :=
  match s.openStep, s.cal.waitFrom with
  | some (d, unit, q), some _ =>
    let bad (r : CalRec) : Bool :=
      r.domain != d || r.unitNo != unit || !q.contains r.quantity || decide (r.run > 1) || r.retry != s.cal.retry || r.reserved != 0
    if l.any bad then (0x0106, s)
    else
      let got := l.foldl (fun g r => (g.filter fun e => !(e.1 == r.quantity && e.2.1 == r.run)) ++ [(r.quantity, r.run, r.value)])
        s.cal.got
      let value (k run : Nat) : Option Int := (got.find? fun e => e.1 == k && e.2.1 == run).map (·.2.2)
      let a := q.filterMap fun k => value k 0
      let b := q.filterMap fun k => value k 1
      let s := s.modCal fun c => { c with got := got }
      (0, if a.length = q.length ∧ b.length = q.length then s.judgePair q a b else s)
  | _, _ => if l.isEmpty then (0, s) else (0x0106, s)

/-- CAL_HOST_TIMEOUT (R405). -/
def execCalHostTimeout (s : State) : Out :=
  match s.cal.domain, s.cal.waitFrom with
  | some d, some t =>
    if s.now ≥ t + 12500 * s.nInForce 0xB040 3 then .next (((s.setNat 0xB000 (11 + d) 5).endRun).raise 1729) else .next s
  | _, _ => .next s

/-! ### Domain commit (R397) -/

/-- The new value of a step's quantity, the old one where the step kept it. -/
def Cal.newOr (c : Cal) (i j : Nat) (old : Int) : Int :=
  match c.news.find? (fun e => e.1 == i) with
  | some e => e.2.getD j old
  | none => old

/-- TIMING of one pin committed; i is the index of the pin among those of the run. -/
def State.commitTiming (s : State) (i p : Nat) : State × Nat :=
  let old := s.baseOf p
  let new := (kinds.zip old).map fun e => s.cal.newOr (6 * i + e.1) 0 e.2
  let was := s.targetsFrom p old 0
  let r := fixTiming was (s.targetsFrom p new 0)
  let base := (kinds.zip r.1).map fun e => e.2 - s.extDelay p e.1
  let s := s.modCal fun c => { c with base := (kinds.zip base).foldl (fun t e => Table.set 0 t (8 * p + e.1) e.2) c.base }
  let o := pinObj p 11
  let s := (((s.setTargets p r.1).setNat o 1 (toTime80 s.localTime)).setReg o 4 s.therm.mean).setReg o 5 0
  ((s.setNat o 6 0).pinLimit p r.2, r.2)

/-- LEVELS of one pin committed. -/
def State.commitLevels (s : State) (i p : Nat) : State × Nat :=
  let r := [0, 1, 2, 3].foldl (fun (a : State × Nat) k =>
    let old := a.1.reg (pinObj p 8) (k + 1)
    let v := a.1.cal.newOr (4 * i + k) 0 old
    if v.natAbs ≤ 20000 then (a.1.setReg (pinObj p 8) (k + 1) v, a.2) else (a.1, a.2 + 1)) (s, 0)
  ((r.1.setNat (pinObj p 11) 2 (toTime80 s.localTime)).pinLimit p r.2, r.2)

/-- Tap widths with those outside a limit replaced by old ones; all of them where their sum is outside (R397). -/
def fixTaps (old new : List Int) : List Int × Nat :=
  let inside (v : Int) : Bool := decide (1500 ≤ v) && decide (v ≤ 3500)
  let one := (old.zip new).map fun e => if inside e.2 then e.2 else e.1
  let n := (new.filter fun v => !inside v).length
  if (one.sum - 1250000).natAbs ≤ 10000 then (one, n) else (old, n + 1)

/-- The tap widths of a pin. -/
def State.taps (s : State) (p : Nat) : List Int :=
  let b := s.oct (pinObj p 9) 1
  (List.range 500).map fun k => (ofBytes ((b.drop (2 * k)).take 2) : Int)

/-- Tap widths of a pin stored. -/
def State.setTaps (s : State) (p : Nat) (l : List Int) : State := s.setOct (pinObj p 9) 1 (l.flatMap (encodeInt 2))

/-- TDC of one pin committed. -/
def State.commitTdc (s : State) (i p : Nat) : State × Nat :=
  let old := s.taps p
  let new := (List.range 500).map fun k => s.cal.newOr i k (old.getD k 0)
  let r := fixTaps old new
  (((s.setTaps p r.1).setNat (pinObj p 11) 3 (toTime80 s.localTime)).pinLimit p r.2, r.2)

/-- VERNIER of one channel committed. -/
def State.commitVernier (s : State) (i c : Nat) : State × Nat :=
  [0, 1, 2].foldl (fun (a : State × Nat) q =>
    let v := a.1.cal.newOr (3 * i + q) 0 (a.1.vernCoef c q)
    if q = 0 ∧ !(decide (460800 ≤ v) && decide (v ≤ 563200)) then (a.1.raise 1722, a.2 + 1)
    else (a.1.modCal fun x => { x with vern := Table.set (if q = 0 then 512000 else 0) x.vern (4 * c + q) v }, a.2)) (s, 0)

/-- CLOCK of one pin committed. -/
def State.commitClock (s : State) (i p : Nat) : State × Nat :=
  [0, 1].foldl (fun (a : State × Nat) q =>
    let v := a.1.cal.newOr (2 * i + q) 0 (a.1.clockCoef p q)
    if q = 1 ∧ v.natAbs > 503316 then (a.1.pinLimit p 1, a.2 + 1)
    else (a.1.modCal fun x => { x with clock := Table.set 0 x.clock (2 * p + q) v }, a.2)) (s, 0)

/-- One unit of a domain committed: how many values failed a limit. -/
def State.commitUnit (s : State) (d i u : Nat) : State × Nat :=
  match d with
  | 0 => s.commitTiming i u
  | 1 => s.commitLevels i u
  | 2 => s.commitTdc i u
  | 3 => s.commitVernier i u
  | _ => s.commitClock i u

/-- The units of a domain, numbered. -/
def calUnits (d pins : Nat) : List (Nat × Nat) :=
  let l := if d = 3 then [0, 1, 2, 3] else setBits 64 pins
  (List.range l.length).zip l

/-- The margin plan of one pin in tu (R410). -/
def State.marginOf (s : State) (p : Nat) : Nat :=
  let base : Int := if s.grade = 2 then 40 else 24
  let ceilDiv (a b : Int) : Int := -((-a) / b)
  let away : Int := ((s.therm.mean - s.reg (pinObj p 11) 4).natAbs : Int) - 1000
  let temp := if s.reg (pinObj p 11) 1 = 0 then 0 else ceilDiv (2 * max 0 away) 100
  (base + ceilDiv (4 * s.reg 0xB020 9) 1000 + temp + ceilDiv ((s.reg (pinObj p 11) 5).natAbs : Int) 2500
    + (if s.reg (pinObj p 11) 6 = 1 then 80 else 0)).toNat

/-- Whether the die temperature has departed from the CAL_TEMP of some calibrated pin (R402). -/
def State.departed (s : State) : Bool :=
  pinNos.any fun p => s.reg (pinObj p 11) 1 != 0 && decide ((s.therm.mean - s.reg (pinObj p 11) 4).natAbs > 1000)

/-- TEMP_DEPARTED judged anew; E1726 when it is set. -/
def State.judgeTemp (s : State) : State :=
  let now := s.departed
  if now ∧ s.reg 0xB000 19 = 0 then (s.setNat 0xB000 19 1).raise 1726
  else if now then s else s.setNat 0xB000 19 0

/-- CAL_STATE after a TIMING run over every pin (R409). -/
def State.timingWhole (s : State) (d pins : Nat) : State :=
  if d = 0 ∧ pins = 2 ^ 64 - 1 then (s.setNat 0xB000 18 1).modCal fun c => { c with provisional := none } else s

/-- CAL_DOMAIN_COMMIT (R397): every step of the domain has finished; checked values become targets, with CAL_HASH, CAL_EPOCH, COUNT, LAST and
RESULT. -/
def execCalDomainCommit (s : State) : Out :=
  match s.cal.domain with
  | none => .next s
  | some d =>
    let c := s.cal
    let total := (calSteps d c.pins).length
    if c.cancel ∨ c.step < total then .next s
    else
      let units := calUnits d c.pins
      let r := units.foldl (fun (a : State × Nat) e => let x := a.1.commitUnit d e.1 e.2; (x.1, a.2 + x.2)) (s, 0)
      let result := if c.kept = total then 3 else if c.kept > 0 then 2 else if r.2 > 0 then 4 else 1
      let s := ((r.1.bump 0xB000 (d + 1)).setNat 0xB000 (d + 6) (toTime80 r.1.localTime)).setNat 0xB000 (d + 11) result
      let s := (s.rehash.bump 0xB000 17).raise 1720
      let s := if d = 3 then s else s.each units fun s e => s.raise (pinEvent e.2 6)
      .next (((s.timingWhole d c.pins).judgeTemp).nextDomain)

/-! ### Corrections in force (R399, R400) -/

/-- A value moved towards its target by at most a step. -/
def slew (step v target : Int) : Int := if v < target then min target (v + step) else max target (v - step)

/-- Pins whose values are moving: those whose CAL_PIN_STATE or stored corrections tell so. -/
def State.movingPins (s : State) : List Nat :=
  let listed := s.regs.filterMap fun e =>
    let o := e.1 / 256
    if 0x3000 ≤ o ∧ o < 0x3400 ∧ (o % 16 = 7 ∨ o % 16 = 8) then some ((o - 0x3000) / 16) else none
  let clocks := (s.cal.clock ++ s.cal.clockIn).map fun e => e.1 / 2
  ((listed ++ clocks).eraseDups).filter fun p => s.calPinState p != 0 || s.reg (pinObj p 11) 7 != 0

/-- The largest change of a delay-line gain that moves no event of the pin by more than some fs: a delay reaches 8,999 tu (R168,
R400). -/
def gainStep (fs : Int) : Int := max 1 (fs * 2 ^ 24 / 2249750)

/-- CORRECTION_STEP on one pin (R399): an idle pin takes its targets, another moves by the slew steps. -/
def State.slewPin (s : State) (p : Nat) : State :=
  let fs := s.inForce 0xB001 1
  let idle := !s.pinBusy p
  let move (step v t : Int) : Int := if idle then t else slew step v t
  let s := s.each kinds fun s k => s.setReg (pinObj p 7) (k + 7) (move fs (s.reg (pinObj p 7) (k + 7)) (s.timingTarget p k))
  let s := s.each [1, 2, 3, 4] fun s k =>
    s.setReg (pinObj p 8) (k + 4) (move (s.inForce 0xB001 2) (s.reg (pinObj p 8) (k + 4)) (s.reg (pinObj p 8) k))
  let s := s.each [0, 1] fun s q =>
    let v := Table.get 0 s.cal.clockIn (2 * p + q)
    let w := move (if q = 0 then fs else gainStep fs) v (s.clockCoef p q)
    s.modCal fun c => { c with clockIn := Table.set 0 c.clockIn (2 * p + q) w }
  s.setPinStates [p]

/-- Whether an open gate names a pin, or holds a vernier channel (R400). -/
def State.gateNames (s : State) (pin : Bool) (n : Nat) : Bool :=
  s.defs.any fun e => e.2.st == .gate && (if pin then e.2.pins.contains n else e.2.vernier && e.2.conv == some n)

/-- Tap widths and vernier coefficients in force (R400): those whose pin or channel no open gate names take their targets. The conversions that
commands report are made with them. (log 143, DESIGN CHOICE) -/
def State.takeCoefs (s : State) : State :=
  let taps := s.octs.filter fun e => e.1 / 256 / 16 ≥ 0x300 && e.1 / 256 / 16 < 0x340 && e.1 / 256 % 16 == 9 && e.1 % 256 == 1
  let s := s.each taps fun s e =>
    let p := (e.1 / 256 - 0x3000) / 16
    if s.gateNames true p then s else s.modCal fun c => { c with tapsIn := Table.set [] c.tapsIn p e.2 }
  if s.cal.vernIn = s.cal.vern then s
  else s.each [0, 1, 2, 3] fun s v =>
    if s.gateNames false v then s
    else s.each [0, 1, 2] fun s q =>
      s.modCal fun c => { c with vernIn := Table.set (if q = 0 then 512000 else 0) c.vernIn (4 * v + q) (s.vernCoef v q) }

/-- A provisional blob judged at the first tick with the quality LOCKED (R409). -/
def State.judgeProvisional (s : State) : State :=
  match s.cal.provisional with
  | none => s
  | some created =>
    if s.time.quality ≠ .locked then s
    else
      let age := s.localTime - ofTime80 created
      let s := s.modCal fun c => { c with provisional := none }
      if age < 28800 * 1000000000 * 65536 ∧ age ≥ -(1000000000 * 65536) then s.setNat 0xB000 18 1
      else (s.setNat 0xB000 18 3).raise 1725

/-- Order 5 of a tick (R15): one correction step; a cancelled run ends (R398). -/
def State.calTick (s : State) : State :=
  let s := if s.cal.cancel then s.endRun else s
  ((s.each s.movingPins State.slewPin).takeCoefs).judgeProvisional

/-! ### Drift (R401) -/

/-- New timing targets of a pin after a change of drift or declaration, checked under R397. -/
def State.retarget (s : State) (p : Nat) (drift : Int) : State :=
  let old := kinds.map (s.timingTarget p)
  let r := fixTiming old (s.targetsFrom p (s.baseOf p) drift)
  ((s.setTargets p r.1).pinLimit p r.2).setPinStates [p]

/-- Whether DRIFT_PERIOD has passed since the last pair of a pin (R401): each pin is measured twice in it. (log 107, DEDUCED) -/
def State.driftDue (s : State) (p : Nat) : Bool :=
  let t := Table.get 0 s.cal.driftAt p
  t == 0 || decide (s.now + 1 ≥ t + s.nInForce 0xB001 4)

/-- A pair of a pin noted. -/
def State.driftTaken (s : State) (p : Nat) : State := s.modCal fun c => { c with driftAt := Table.set 0 c.driftAt p (s.now + 1) }

/-- DRIFT_MEASUREMENT (R401): a pair on the replica of a pin, on a vernier channel that is free. -/
def execDriftMeasurement (n : PinId) (first second : List Int) (s : State) : Out :=
  let p := n.val
  let free := [0, 1, 2, 3].any fun v => !(s.vernierBusy ++ s.calVerniers).contains v
  match first, second with
  | [a], [b] =>
    if s.inForce 0xB001 3 = 0 ∨ s.mode = .sleep ∨ s.mode = .safeHalt ∨ s.mode = .off ∨ natBit s.cal.busyPins p ∨ !free
        ∨ !s.driftDue p then .next s
    else if (a - b).natAbs > 800 then .next ((s.driftTaken p).bump 0xB001 7)
    else
      let s := s.driftTaken p
      let r := s.meanOf a b
      let limit : Int := s.inForce 0xB001 5 * 250
      let d := max (-limit) (min limit r.1)
      let s := r.2.setReg (pinObj p 11) 5 d
      let s := if d ≠ r.1 ∧ s.reg (pinObj p 11) 6 = 0 then
          ((s.setNat (pinObj p 11) 6 1).raise (pinEvent p 9)).raise 1727
        else s
      .next ((s.retarget p d).bump 0xB001 6)
  | _, _ => .next s

/-- Whether declared delays of a pin keep the limits of R397 (R403). -/
def State.extFits (s : State) (p : Nat) (sub : Nat) (v : Int) : Bool :=
  let s := s.setReg (pinObj p 10) sub v
  timingOk (s.targetsFrom p (s.baseOf p) (s.reg (pinObj p 11) 5))

/-- A declared delay taken (R403). -/
def State.setExt (s : State) (p sub : Nat) (v : Int) : State :=
  let s := s.setReg (pinObj p 10) sub v
  (s.setTargets p (s.targetsFrom p (s.baseOf p) (s.reg (pinObj p 11) 5))).setPinStates [p]

/-! ### The blob (R407-R409) -/

/-- The blob's header up to its nonce. -/
def State.blobHeader (s : State) (nonce : Nat) : List Byte :=
  beBytes 4 0x43424C31 ++ beBytes 2 1 ++ zeroBytes 2 ++ beBytes 8 s.uid ++ beBytes 10 (toTime80 s.localTime)
    ++ beBytes 1 s.time.quality.code ++ zeroBytes 1 ++ encodeInt 2 s.therm.mean ++ s.calCounts
    ++ ((List.range 5).flatMap fun d => beBytes 10 (s.nreg 0xB000 (d + 6))) ++ s.oct 0xB000 16 ++ beBytes 12 nonce

/-- The plain body: the targets in the encoding of R406, then what is for the engine only. -/
def State.blobBody (s : State) : List Byte :=
  s.calTargets ++ pinNos.flatMap fun p =>
    (kinds.flatMap fun k => encodeInt 4 (s.calBase p k)) ++ encodeInt 2 (s.reg (pinObj p 11) 4)
      ++ encodeInt 4 (s.reg (pinObj p 11) 5) ++ beBytes 1 (s.nreg (pinObj p 11) 6)
      ++ [1, 2, 3].flatMap fun k => beBytes 10 (s.nreg (pinObj p 11) k)

/-- A blob built from the targets of the moment: EXPORTS and LAST_EXPORT (R407). The nonce is a free value. -/
def State.exportBlob (s : State) : List Byte × State :=
  let f := s.free
  let s := f.2
  let nonce := f.1 % 2 ^ 96
  let head := s.blobHeader nonce
  let b := head ++ Config.blobSeal s.uid (BitVec.ofNat 96 nonce) head s.blobBody
  (b, (s.bump 0xB010 3).setNat 0xB010 4 (toTime80 s.localTime))

/-- Bytes of a plain body. -/
def blobLength : Nat := 67120 + 64 * 61

/-- A blob authenticated: header and plain body, or nothing (R408). (log 110, DEDUCED) -/
def State.openBlob (s : State) (b : List Byte) : Option (List Byte) :=
  let head := b.take 160
  if b.length < 176 ∨ ofBytes (b.take 4) ≠ 0x43424C31 ∨ field b 4 5 ≠ 1 ∨ field b 8 15 ≠ s.uid then none
  else match Config.blobOpen s.uid (BitVec.ofNat 96 (field b 148 159)) head (b.drop 160) with
    | some body => if body.length = blobLength then some (head ++ body) else none
    | none => none

/-- BLOB written (R408): AUTH, or COUNTS and LAST_TIMES restored, CAL_HASH with them (R406), and the targets kept for their judgement. -/
def State.importBlob (s : State) (b : List Byte) : Nat × State :=
  match s.openBlob b with
  | none => (0x0309, s)
  | some plain =>
    let s := s.each (List.range 5) fun s d =>
      (s.setNat 0xB000 (d + 1) (field plain (30 + 4 * d) (33 + 4 * d))).setNat 0xB000 (d + 6)
        (field plain (50 + 10 * d) (59 + 10 * d))
    (0, (s.modCal fun c => { c with blob := some plain }).rehash)

/-- A signed field of bytes a to b. -/
def signedField (l : List Byte) (a b : Nat) : Int :=
  let n := 2 ^ (8 * (b + 1 - a))
  let v := field l a b
  if 2 * v ≥ n then (v : Int) - n else v

/-- The targets of a blob taken at once (R408): targets and values in force, CAL_TEMP, drift and times of every pin. -/
def State.useBlob (s : State) (plain : List Byte) : State :=
  let b := plain.drop 160
  let i4 (o : Nat) : Int := signedField b o (o + 3)
  let s := s.each pinNos fun s p =>
    let x := 67120 + 61 * p
    let s := s.each kinds fun s k =>
      let v := i4 (24 * p + 4 * k)
      ((s.setReg (pinObj p 7) (k + 1) v).setReg (pinObj p 7) (k + 7) v).modCal fun c =>
        { c with base := Table.set 0 c.base (8 * p + k) (i4 (x + 4 * k)) }
    let s := s.each [0, 1, 2, 3] fun s k =>
      let v := i4 (1536 + 16 * p + 4 * k)
      (s.setReg (pinObj p 8) (k + 1) v).setReg (pinObj p 8) (k + 5) v
    let s := s.setOct (pinObj p 9) 1 ((b.drop (2560 + 1000 * p)).take 1000)
    let s := s.each [0, 1] fun s q =>
      let v := i4 (66608 + 8 * p + 4 * q)
      s.modCal fun c => { c with clock := Table.set 0 c.clock (2 * p + q) v, clockIn := Table.set 0 c.clockIn (2 * p + q) v }
    let o := pinObj p 11
    let s := ((s.setReg o 4 (signedField b (x + 24) (x + 25))).setReg o 5 (i4 (x + 26))).setNat o 6 (field b (x + 30) (x + 30))
    s.each [1, 2, 3] fun s k => s.setNat o k (field b (x + 21 + 10 * k) (x + 30 + 10 * k))
  let s := s.each [0, 1, 2, 3] fun s c => s.each [0, 1, 2] fun s q =>
    s.modCal fun x => { x with vern := Table.set (if q = 0 then 512000 else 0) x.vern (4 * c + q) (i4 (66560 + 12 * c + 4 * q)) }
  let s := s.each (List.range 5) fun s d => s.setNat 0xB000 (d + 11) 6
  s.rehash

/-! ### Self-calibration at a cold start (R468, step 8) -/

/-- A free value from lo to lo + n - 1. -/
def State.freeIn (s : State) (lo : Int) (n : Nat) : Int × State :=
  let f := s.free
  (lo + (f.1 % n : Nat), f.2)

/-- Free values, one for each member of a list. -/
def State.freeList {α : Type} (l : List α) (lo : Int) (n : Nat) (s : State) : List Int × State :=
  l.foldl (fun (a : List Int × State) _ => let r := a.2.freeIn lo n; (a.1 ++ [r.1], r.2)) ([], s)

/-- One pin calibrated in full: what its measurements give is free within the limits of R397. -/
def State.freePin (s : State) (p : Nat) : State :=
  let b := s.freeIn (-500000) 950001
  let t := b.2.freeList kinds b.1 50001
  let l := t.2.freeList [0, 1, 2, 3] (-20000) 40001
  let w := l.2.freeList (List.range 500) 1500 2001
  let c := w.2.freeIn (-500000) 1000001
  let g := c.2.freeIn (-503316) 1006633
  let s := g.2
  let s := (s.setTargets p t.1).each (kinds.zip t.1) fun s e =>
    (s.setReg (pinObj p 7) (e.1 + 7) e.2).modCal fun x => { x with base := Table.set 0 x.base (8 * p + e.1) e.2 }
  let s := s.each ([0, 1, 2, 3].zip l.1) fun s e => (s.setReg (pinObj p 8) (e.1 + 1) e.2).setReg (pinObj p 8) (e.1 + 5) e.2
  let s := s.setTaps p (fixTaps (s.taps p) w.1).1
  let set (q : Nat) (v : Int) (x : Cal) : Cal :=
    { x with clock := Table.set 0 x.clock (2 * p + q) v, clockIn := Table.set 0 x.clockIn (2 * p + q) v }
  let s := s.modCal fun x => set 1 g.1 (set 0 c.1 x)
  let o := pinObj p 11
  let t0 := toTime80 s.localTime
  (((s.setNat o 1 t0).setNat o 2 t0).setNat o 3 t0).setReg o 4 s.therm.mean

/-- All five domains run on all 64 pins, each ending OK. (log 109, DESIGN CHOICE) -/
def State.selfCalibrate (s : State) : State :=
  let s := s.each pinNos State.freePin
  let s := s.each [0, 1, 2, 3] fun s c =>
    let a := s.freeIn 460800 102401
    let b := a.2.freeIn (-500000) 1000001
    let d := b.2.freeIn (-500000) 1000001
    d.2.modCal fun x => { x with vern := Table.set 0 (Table.set 0 (Table.set 512000 x.vern (4 * c) a.1) (4 * c + 1) b.1)
                                          (4 * c + 2) d.1 }
  let s := s.each domainOrder fun s d =>
    let s := ((s.bump 0xB000 (d + 1)).setNat 0xB000 (d + 6) (toTime80 s.localTime)).setNat 0xB000 (d + 11) 1
    let s := (s.bump 0xB000 17).raise 1720
    if d = 3 then s else s.each pinNos fun s p => s.raise (pinEvent p 6)
  (s.setNat 0xB000 18 1).rehash.judgeTemp

/-- The calibration step of a cold start (R408, R409): the blob judged by temperature, then by age; without its targets the engine
calibrates in full. -/
def State.coldCalibrate (s : State) : State :=
  match s.cal.blob with
  | none => s.selfCalibrate
  | some plain =>
    let s := s.modCal fun c => { c with blob := none }
    if (signedField plain 28 29 - s.therm.mean).natAbs > 500 then ((s.setNat 0xB010 2 6).raise 1724).selfCalibrate
    else
      let created := field plain 16 25
      let known := s.time.quality = .locked ∨ s.time.quality = .holdover
      let age := s.localTime - ofTime80 created
      let young := age < 28800 * 1000000000 * 65536 ∧ age ≥ -(1000000000 * 65536)
      if known ∧ ¬ young then ((s.setNat 0xB010 2 5).raise 1724).selfCalibrate
      else
        let s := (s.useBlob plain).raise 1723
        let s := if known then (s.setNat 0xB010 2 1).setNat 0xB000 18 1
          else ((s.setNat 0xB010 2 2).setNat 0xB000 18 2).modCal fun c => { c with provisional := some created }
        s.judgeTemp

/-! ### Ageing and temperature (R402, R410, R493) -/

/-- The margin plan reported anew (R410): the largest of the pins; which of several pins MARGIN_PIN names is a free value. -/
def State.judgeMargin (s : State) : State :=
  let l := pinNos.map fun p => (s.marginOf p, p)
  let top := (l.map (·.1)).foldl max 0
  let tied := (l.filter fun e => e.1 == top).map (·.2)
  let f := s.free
  let s := f.2.setNat 0xB030 2 (tied.getD (f.1 % tied.length) 0)
  let base := if s.grade = 2 then 40 else 24
  let before := if s.cal.raisedAt = 0 then base else s.cal.raisedAt
  let s := s.modCal fun c => { c with margin := top }
  if top ≥ before + 4 then (s.modCal fun c => { c with raisedAt := top }).raise 1728 else s

/-- AGEING_READ (R410): the slowdown of the eight sensors in ppm. -/
def execAgeingRead (slowdown : List Int) (s : State) : Out :=
  if slowdown.length ≠ 8 ∨ s.mode = .off then .next s
  else
    let s := s.each ((List.range 8).zip slowdown) fun s e => s.setReg 0xB020 (e.1 + 1) e.2
    .next ((s.setReg 0xB020 9 (slowdown.foldl max (slowdown.headD 0))).judgeMargin)

/-- The die temperature: the mean of the four sensors in 0.01 °C (R493), TEMP_C in whole °C; where rounding is called for the spec
names none: free values. -/
def State.takeMean (s : State) (l : List Int) : State :=
  let up (s : State) (a : Int) (n : Nat) : Int × State :=
    if a % n = 0 then (a / n, s) else let f := s.free; (a / n + (f.1 % 2 : Nat), f.2)
  let m := up s l.sum 4
  let c := up m.2 m.1 100
  ({ c.2 with therm := { c.2.therm with mean := m.1, sensors := l } }).setReg 0xE000 4 c.1

/-- The limits of the hottest and the coldest sensor (R493). -/
def State.judgeHeat (s : State) (hot cold : Int) : State :=
  let x := s.therm
  let high := decide (hot ≥ 10000) || (x.high && decide (hot ≥ 9500))
  let range := decide (hot > 10500) || decide (cold < 0)
  let spread := decide (hot - cold > 800)
  let s := if high ∧ !x.high then s.raise 1568 else s
  let s := if range ∧ !x.range then s.raise 1569 else s
  let s := if range then s.taintLive else s
  let s := if spread ∧ !x.spread then s.raise 1571 else s
  let s := { s with therm := { s.therm with high := high, range := range, spread := spread } }
  let s := if hot ≥ 11500 then s.raise 1570 else s
  if hot ≥ 11500 ∧ s.mode ≠ .safeHalt then s.handFault { resource := 0, level := 10, severity := 3, source := 1570 } else s

/-- TEMP_READ (R402, R493): the four sensors in 0.01 °C. -/
def execTempRead (sensors : List Int) (s : State) : Out :=
  match sensors with
  | a :: t =>
    if t.length ≠ 3 ∨ s.mode = .off then .next s
    else
      .next ((s.takeMean sensors).judgeHeat (t.foldl max a) (t.foldl min a)).judgeTemp
  | [] => .next s

/-- THERM_N_CHANGE (R494): asserted from 115 °C until below 105 °C, whatever the state. -/
def execThermNChange (asserted : Bool) (s : State) : Out :=
  if s.therm.asserted = asserted then .next s
  else .next ({ s with therm := { s.therm with asserted := asserted } }.send (.therm asserted))

end Sys2Proof.Machine
end

