-- ==== Sys2Proof/Machine/Passport.lean ====
section
/-! DEFINITION. The Passport: keys, batches, signatures, export, load windows, the seal epoch and interrupted sealing (R419-R443). -/

namespace Sys2Proof.Machine

/-- s with its Passport changed. -/
def State.modPass (s : State) (f : Passport → Passport) : State := { s with pass := f s.pass }

/-! ### Keys and nonces (R419-R422) -/

/-- Pairs in the nonce pool, the reserve included. -/
def State.pool (s : State) : Nat := s.nreg 0xC000 6

/-- Frames between two pairs of a refill at 1,500 pairs per second, rounded up. -/
def refillFrames : Nat := 8334

/-- The key-derivation step done (R419, R420): `seed` holds what PUF and entropy source give, BOOT_NONCE in its low 128 bits and above
them how many attempts failed. The pool starts full. (log 113, DESIGN CHOICE) -/
def State.deriveKeys (s : State) (seed : Nat) : State :=
  let retries := seed / 2 ^ 128 % 3
  let s := s.each (List.range retries) fun s _ => s.raise 1730
  let s := ((s.setNat 0xC000 1 1).setNat 0xC000 2 (retries + 1)).setOct 0xC000 3 (Config.publicKey s.uid)
  let s := (s.setOct 0xC000 4 (beBytes 16 (seed % 2 ^ 128))).setNat 0xC000 6 16
  s.modPass fun p => { p with reserve := true, refill := s.now, prev := zeroBytes 48 }

/-- The key-derivation step failed (R419, R420): the three attempts, or for an odd seed the entropy source. -/
def State.failKeys (s : State) (seed : Nat) : State :=
  if seed % 2 = 1 then s
  else (((s.raise 1730).raise 1730).setNat 0xC000 2 3).setNat 0xC000 1 2

/-- A pair taken from the pool (R422): the reserve only for interrupted sealing. -/
def State.takePair (s : State) (interrupted : Bool) : Bool × State :=
  let useReserve := interrupted && s.pass.reserve
  if useReserve ∨ s.pool > (if s.pass.reserve then 1 else 0) then
    let s := if s.pool = 16 then s.modPass fun p => { p with refill := s.now } else s
    (true, (s.setNat 0xC000 6 (s.pool - 1)).modPass fun p => { p with reserve := p.reserve && !useReserve })
  else (false, s)

/-- The pool refilled as time goes on; the reserve comes first (R422). -/
def State.refillPool (s : State) : State :=
  if s.reg 0xC000 1 = 1 ∧ s.pool < 16 ∧ s.now ≥ s.pass.refill + refillFrames then
    (s.setNat 0xC000 6 (s.pool + 1)).modPass fun p => { p with reserve := true, refill := p.refill + refillFrames }
  else s

/-- DRBG_RESEED (R422): once per second; a failure raises E1733 and sets ENTROPY_STATE, and with it neighbour refresh leaves the entropy
source, E1679 once per failure (R279). (log 134, DEDUCED) -/
def execDrbgReseed (ok : Bool) (s : State) : Out :=
  if s.reg 0xC000 1 ≠ 1 ∨ s.mode = .sleep then .next s
  else if ok then .next (s.setNat 0xC000 7 0)
  else .next (if s.reg 0xC000 7 = 1 then s.raise 1733 else ((s.setNat 0xC000 7 1).raise 1733).raise 1679)

/-! ### Batches (R429-R431) -/

/-- The open batch closed at this tick. -/
def State.closeBatch (s : State) : State :=
  s.modPass fun p => { p with closed := p.closed ++ [{ time := toTime80 s.localTime, quality := s.time.quality.code, leaves := p.batch }],
                              batch := [] }

/-- REPOSTED set in a record whose preparation was reposted (R428). -/
def markReposted (f : Formed) : VerdictRec :=
  if f.reposted then
    let b := f.rcd.bytes
    { f.rcd with bytes := b.take 51 ++ [(b.getD 51 0) ||| 0x40] ++ b.drop 52 }
  else f.rcd

/-- Ledger entries of the preparation of a run that wait for the store. -/
def State.prepEntries (s : State) (run : Nat) : List Nat :=
  s.entriesWhere fun _ e => e.state == .done && (match e.work with | .sealPrep r => r == run | _ => false)

/-- VERDICT_HANDOVER (R429, R430): the first prepared record joins the open batch if the store has room; otherwise it stays in its entry,
with STORE_FULL and E1734 once. A batch of 65,536 leaves closes at once. -/
def execVerdictHandover (s : State) : Out :=
  match s.pass.formed.find? (·.prepared) with
  | none => .next s
  | some f =>
    let run := f.rcd.run
    let others := s.pass.formed.filter fun g => g.rcd.run != run
    if !s.storeRoom f.rcd then
      if f.full then .next s
      else
        let s := s.modPass fun p => { p with formed := p.formed.map fun g => if g.rcd.run = run then { g with full := true } else g }
        .next ((s.bump 0xC002 6).raise 1734)
    else if s.pass.batch.length ≥ 65536 then .next s
    else
      let s := s.modPass fun p => { p with formed := others, batch := p.batch ++ [markReposted f] }
      let s := s.each (s.prepEntries run) State.freeEntry
      if s.pass.batch.length ≥ 65536 ∧ s.pass.closed.length < 16 then .next s.closeBatch else .next s

/-- BATCH_CLOSE (R430, R438): at each closing tick, every SEAL_INTERVAL frames from cold start, the first after 12,500. While 16 batches wait the open one goes on, with
E1737. -/
def execBatchClose (s : State) : Out :=
  let every := s.nInForce 0xC001 1
  let due := if s.pass.nextClose = 0 then 12500 else s.pass.nextClose
  if s.now < due then .next s
  else
    let s := s.modPass fun p => { p with nextClose := due + ((s.now - due) / every + 1) * every }
    if s.pass.batch.isEmpty then .next s
    else if s.pass.closed.length ≥ 16 then .next (s.raise 1737)
    else .next s.closeBatch

/-- The header of a signed batch (R431). -/
def State.batchHeader (s : State) (b : Batch) (seq : Nat) (root : List Byte) : List Byte :=
  beBytes 4 0x56424831 ++ beBytes 2 1 ++ zeroBytes 2 ++ beBytes 8 s.uid ++ s.oct 0xC000 4 ++ beBytes 8 seq ++ beBytes 10 b.time
    ++ beBytes 1 b.quality ++ zeroBytes 1 ++ beBytes 4 b.leaves.length ++ root ++ (s.pass.prev ++ zeroBytes 48).take 48

/-- A batch signed and exported (R431, R432): the signature is a function of the key, the nonce pair and the digest. (log 7, DESIGN CHOICE) -/
def State.signBatch (s : State) (b : Batch) : State :=
  let f := s.free
  let s := f.2
  let seq := (s.nreg 0xC002 1 + 1) % 2 ^ 64
  let hashes := b.leaves.map fun r => leafHash r.bytes
  let root := merkleRoot 17 hashes
  let head := s.batchHeader b seq root
  let bytes := head ++ Config.ecdsaSign s.uid f.1 (sha384 head)
  let items := ((List.range b.leaves.length).zip b.leaves).map fun e =>
    let path := auditPath 17 e.1 hashes
    (e.2.run, e.2.bytes ++ beBytes 4 e.1 ++ beBytes 1 path.length ++ path.flatten)
  let x : SignedBatch := { seq := seq, bytes := bytes, items := items, sentAt := s.now }
  let s := (((s.setNat 0xC002 1 seq).count 0xC002 2 b.leaves.length).setOct 0xC002 7 root).raise 1731
  let s := s.modPass fun p => { p with signed := p.signed ++ [x], prev := sha384 bytes }
  (s.linkBatch x).ringBatch x

/-- BATCH_SIGN (R430): the first closed batch, as soon as a nonce pair is free; a full open batch then closes. -/
def execBatchSign (s : State) : Out :=
  match s.pass.closed with
  | [] => .next s
  | b :: t =>
    let r := s.takePair b.interrupted
    if !r.1 then .next s
    else
      let s := (r.2.modPass fun p => { p with closed := t }).signBatch b
      .next (if s.pass.batch.length ≥ 65536 then s.closeBatch else s)

/-- VERDICT_RESEND (R432): ring fragments not acknowledged are sent again every RESEND_MS. -/
def execVerdictResend (s : State) : Out :=
  let due (b : SignedBatch) : Bool := decide (s.now ≥ b.sentAt + 12500 * s.nInForce 0xC001 4)
  let l := s.pass.signed.filter due
  let s := s.modPass fun p => { p with signed := p.signed.map fun b => if due b then { b with sentAt := s.now } else b }
  .next (s.each l State.ringBatch)

/-- ACK_BATCH written (R432): that batch and every earlier one are exported, if the ring is an enabled route. -/
def State.ackBatch (s : State) (seq : Nat) : State :=
  if natBit (s.nInForce 0xC001 2) 1 then s.modPass fun p => { p with signed := p.signed.filter fun b => decide (b.seq > seq) } else s

/-! ### Interrupted sealing (R436) -/

/-- One open run sealed INTERRUPTED: measurements still ARMED are INCOMPLETE, the capture ends without a commit (R217), the site enters
SEALED. (log 112, DEDUCED; log 132, DEDUCED) -/
def State.interruptSite (s : State) (n : Nat) : State :=
  let s := (s.cancelSiteMeas n).endCapture n
  let r := s.verdictRec n 4 0 false
  let f : Formed := { rcd := r, prepared := true }
  let s := s.modPass fun p => { p with formed := p.formed ++ [f] }
  ((s.enter n .sealed).leave n).modSite n fun x => { x with form := none, haltAsked := true }

/-- Open runs sealed INTERRUPTED (R436): their records and every record not yet in a batch close one batch with the open one, which
is signed with the reserved pair or one of the pool; without a pair it waits ahead of the others. -/
def State.sealInterrupted (s : State) : State :=
  let s := s.modPass fun p => { p with trigger := false }
  let runs := siteNos.filter fun n => (s.site n).st.busy
  let s := s.each (siteNos.filter fun n => (s.site n).form.isSome) State.formPending
  let s := s.each runs State.interruptSite
  let s := s.each (s.entriesWhere fun _ e => e.state == .done && (match e.work with | .sealPrep _ => true | _ => false)) State.freeEntry
  let leaves := s.pass.batch ++ s.pass.formed.map markReposted
  if leaves.isEmpty then s
  else
    let b : Batch := { time := toTime80 s.localTime, quality := s.time.quality.code, leaves := leaves, interrupted := true }
    let s := (s.modPass fun p => { p with batch := [], formed := [] }).raise 1732
    let r := s.takePair true
    if r.1 then r.2.signBatch b else r.2.modPass fun p => { p with closed := b :: p.closed }

/-- INTERRUPTED_SEAL (R436): at the first tick after its trigger. -/
def execInterruptedSeal (s : State) : Out := if s.pass.trigger then .next s.sealInterrupted else .next s

/-- What R436 and R482 push first: unexported batches, newest first, on every enabled route. On Stagelink they go ahead of what waits. -/
def State.pushVerdicts (s : State) : State :=
  let l := s.pass.signed.reverse
  let s := s.each l State.ringBatch
  if natBit (s.nInForce 0xC001 2) 0 then
    let sent (p : SlPacket) : Bool := s.sl.unacked.any fun e => e.2 == p
    let first := (l.flatMap SignedBatch.packets).filter fun p => !sent p
    let rest := s.sl.waiting.filter fun p => p.type != 0x07
    let s := s.modPass fun p => { p with signed := p.signed.map fun b => { b with onLink := true } }
    s.flushFrom (first ++ rest)
  else s

/-- Batches that a warm start leaves unacknowledged on Stagelink handed to it again (R471, R472). -/
def State.relinkBatches (s : State) : State := s.each s.pass.signed State.linkBatch

/-! ### Load windows (R424) -/

/-- Whether a range meets a window that is not FREE. -/
def State.windowMeets (s : State) (w base bytes : Nat) : Bool :=
  (List.range 32).any fun v => v != w && s.reg (winObj v) 4 != 0
    && decide (base < s.nreg (winObj v) 1 + s.nreg (winObj v) 2) && decide (s.nreg (winObj v) 1 < base + bytes)

/-- OPEN. (log 114, DEDUCED) -/
def State.windowOpen (s : State) (w : Nat) : Nat × State :=
  let o := winObj w
  let base := s.nreg o 1
  let bytes := s.nreg o 2
  if s.reg o 4 ≠ 0 ∨ s.windowMeets w base bytes then (0x0108, s)
  else if base % 64 ≠ 0 ∨ bytes = 0 ∨ bytes % 64 ≠ 0 ∨ base + bytes > s.memCapacity then (0x0106, s)
  else (0, ((s.setNat o 4 1).setNat o 5 0).modPass fun p => { p with hashers := Table.insert p.hashers w Hasher.start })

/-- FREE. -/
def State.windowFree (s : State) (w : Nat) : Nat × State :=
  let o := winObj w
  if s.reg o 4 ≠ 2 ∨ s.reg o 7 ≠ 0 then (0x0108, s) else (0, s.setNat o 4 0)

/-- ABANDON. -/
def State.windowAbandon (s : State) (w : Nat) : Nat × State :=
  let o := winObj w
  if s.reg o 4 ≠ 1 then (0x0108, s)
  else (0, (s.setNat o 4 0).modPass fun p => { p with hashers := Table.erase p.hashers w })

/-! ### The seal epoch (R435) -/

/-- ADVANCE. -/
def State.advanceEpoch (s : State) : State := s.setNat 0xC010 1 ((s.nreg 0xC010 1 + 1) % 2 ^ 32)

end Sys2Proof.Machine
end

