-- ==== Sys2Proof/Machine/FaultRows.lean ====
section
/-! DEFINITION. The fault handler: decisions, recoveries and the host's part in them (R453-R461), and the Guestbook's tail (R452). -/

namespace Sys2Proof.Machine

/-- s with its handler changed. -/
def State.modHandler (s : State) (f : Handler → Handler) : State := { s with handler := f s.handler }

/-- A context that the handler puts at RETIRE (R91, R453): retired if it is free; one that is retired or at work stays as it is. (log 50, DESIGN CHOICE) -/
def State.retireCtx (s : State) (c : Nat) : State :=
  if (s.ctx c).st = .free then ((s.setCtx c { st := .retired }).raise 1545).rehome (c / 8) else s

/-- The recovery of a resource started at its level (R453, R454). What the unit has begun at detection it goes on with. -/
def State.startRecovery (s : State) (f : FaultRec) : State :=
  if f.level = 10 then s.critical { f with severity := 3 }
  else match f.resource with
    | 1 => s.recoverMem 0 f.level
    | 2 => s.recoverMem 1 f.level
    | 3 => s.recoverLink 3 f.level
    | 4 => s.recoverLink 4 f.level
    | r => if r ≥ 0x80 ∧ f.level = 6 then s.retireCtx (r - 0x80) else s

/-- A decision ends (R454): E1536 with the level decided, and the recovery starts; a fault at level NONE ends at once with E1537. -/
def State.decided (s : State) (f : FaultRec) : State :=
  let s := s.raiseWith 1536 [f.head]
  if f.level = 0 then s.raiseWith 1537 [f.head]
  else (s.modHandler fun h => { h with active := h.active ++ [f] }).startRecovery f

/-- The current decision ends at a level, and the next fault of the queue is taken. A fault that has ended the handling is not followed. -/
def State.decideCurrent (s : State) (f : FaultRec) (level : Nat) : State :=
  let s := s.modHandler fun h => { h with current := none, offered := none }
  let s := s.decided { f with level := level }
  if s.handler.current.isNone then s.nextFault else s

/-- Whether a fault is a lane degradation that waits for the host's WIDTH_CHOICE (R300). -/
def State.awaitsWidth (s : State) (f : FaultRec) : Bool := f.resource == 3 && f.level == 3 && s.sl.choiceBy.isSome

/-- FAULT_DECISION (R454): hardware finishes the decision in progress, unless it is the host's. -/
def execFaultDecision (s : State) : Out :=
  match s.handler.current with
  | none => .next s
  | some f => if s.handler.offered.isSome ∨ s.awaitsWidth f then .next s else .next (s.decideCurrent f f.level)

/-- FAULT_RECOVERED (R454): the recovery of a control-store entry, a Ledger entry or a context ends, `us` after detection. The recoveries of
memory, links, REFCLK and supplies end by rows of their own. -/
def execFaultRecovered (resource : Nat) (us : Nat) (s : State) : Out :=
  if resource = 9 ∨ resource = 10 ∨ (0x80 ≤ resource ∧ resource ≤ 0xFF) then
    match s.handler.active.find? (·.resource == resource) with
    | some f => .next (s.faultEnds f us)
    | none => .next s
  else .next s

/-! ### Host decisions (R458, R466) -/

/-- ALLOWED (R466): the hardware level of a fault and every higher one of its ladder. -/
def allowedLevels (f : FaultRec) : List Nat := if f.level = 0 then 0 :: ladder f.resource else (ladder f.resource).dropWhile (· ≠ f.level)

/-- The fault offered to the host. -/
def State.offeredFault (s : State) : Option FaultRec := if s.handler.offered.isSome then s.handler.current else none

/-- DECISION written (R458): STATE while none is outstanding, or LATE after one that has expired; a level outside ALLOWED is no valid
answer, RANGE, which R506 ranks before LATE. -/
def State.decideByHost (s : State) (level : Nat) : Nat × State :=
  match s.offeredFault with
  | none => if s.handler.expired then (0x030A, s.bump 0xD201 6) else (0x0108, s)
  | some f =>
    if !(allowedLevels f).contains level then (0x0106, s)
    else if s.now > s.handler.offered.getD 0 then (0x030A, s.bump 0xD201 6)
    else (0, s.decideCurrent f level)

/-- HOST_DEADLINE (R21, R300, R458): no valid answer within the deadline; hardware decides and E1541 is raised. -/
def execHostDeadline (lane : Bool) (s : State) : Out :=
  if lane then
    match s.sl.choiceBy with
    | none => .next s
    | some t =>
      if s.now ≤ t then .next s
      else
        let f : FaultRec := ((s.faultOf 3).getD { resource := 3, level := 3, source := 1681 })
        let s := ({ s with sl := { s.sl with choiceBy := none, chosen := none, late := true } }).raiseWith 1541 [f.head]
        match s.handler.current with
        | some g => if g.resource = 3 ∧ g.level = 3 then .next (s.decideCurrent g 3) else .next s
        | none => .next s
  else
    match s.handler.offered, s.handler.current with
    | some t, some f =>
      if s.now ≤ t then .next s
      else
        let s := (s.raiseWith 1541 [f.head]).modHandler fun h => { h with expired := true }
        .next (s.decideCurrent f f.level)
    | _, _ => .next s

/-- WIDTH_CHOICE written (R299-R301): STATE while none is outstanding, RANGE for an invalid choice (R506), LATE after an expiry; a width that hardware would allow is
adopted, and the degradation is decided. (log 82, DEDUCED) -/
def State.widthByHost (s : State) (w : Nat) : Nat × State :=
  let bad : Bool := ! ([4, 8, 12, 16] : List Nat).contains w || decide (w > hwWidth (s.nreg 0xA000 3) s.rxFailed)
  match s.sl.choiceBy with
  | none => if !s.sl.late then (0x0108, s) else if bad then (0x0106, s) else (0x030A, s.bump 0xD201 6)
  | some t =>
    if bad then (0x0106, s)
    else if s.now > t then (0x030A, s.bump 0xD201 6)
    else
      let s := { s with sl := { s.sl with chosen := some w, choiceBy := none } }
      match s.handler.current with
      | some g => if g.resource = 3 ∧ g.level = 3 then (0, s.decideCurrent g 3) else (0, s)
      | none => (0, s)

/-- Worst-case interruption of a level in µs (R459). -/
def worstCase (resource level : Nat) : Nat :=
  if resource ≥ 0x80 then 50
  else match resource, level with
    | 1, 1 | 2, 1 => 2
    | 1, 2 | 2, 2 => 400
    | 3, 3 | 4, 3 => 150
    | _, _ => 0

/-- Whether the waiting time of a queued fault has reached its limit (R458): 500 µs less its deadline and its worst case. A frame is
80 ns. -/
def State.waitedLong (s : State) (f : FaultRec) : Bool :=
  decide ((s.now - f.frame) * 80 + s.nInForce 0x2101 9 * 80 + worstCase f.resource f.level * 1000 ≥ 500000)

/-- QUEUED_FAULT_TIMEOUT (R458): the first queued fault that has waited that long is decided in hardware, with E1541. -/
def execQueuedFaultTimeout (s : State) : Out :=
  if s.inForce 0x2100 9 ≠ 1 then .next s
  else match s.handler.queue.find? s.waitedLong with
    | none => .next s
    | some f =>
      let s := s.modHandler fun h => { h with queue := h.queue.erase f, tasks := h.tasks + 1 }
      .next ((s.raiseWith 1541 [f.head]).decided f)

/-- SUPPLY_FAULT_TIMEOUT (R461): monitor m has been out for 1,250 frames; the fault escalates to SAFE_HALT. -/
def execSupplyFaultTimeout (m : Fin 9) (s : State) : Out :=
  match s.handler.supply.find? (·.1 = m.val) with
  | none => .next s
  | some (_, t) =>
    if s.now < t + 1250 then .next s
    else
      let f : FaultRec := { ((s.faultOf 11).getD { resource := 11, level := 7, source := 1620 + m.val }) with level := 10, severity := 3 }
      .next ((s.modHandler fun h => { h with supply := [] }).climb f)

/-! ### The host's events -/

/-- Whether a source is one of a site's USER0-USER3 (R56, R449). -/
def userSource (e : Nat) : Bool := 1024 ≤ e && e < 1536 && e % 8 ≥ 4

/-- RAISE of the source window (R449): only a site's USER0-USER3 source may be written, and 1 raises it. -/
def State.raiseByHost (s : State) (e : Nat) (one : Bool) : Nat × State :=
  if !userSource e then (0x0106, s) else if one then (0, s.raise e) else (0, s)

/-- TAIL (R452): the Guestbook entries from a SEQ on leave as EVENT_TAIL packets. -/
def State.tailFrom (s : State) (seq : Nat) : State :=
  s.sendTail (s.ev.book.filter fun g => (g.seq + 2 ^ 32 - seq) % 2 ^ 32 < 2 ^ 31)

end Sys2Proof.Machine
end

