-- ==== Sys2Proof/Machine/Starts.lean ====
section
/-! DEFINITION. Starts, sleep, waking, SAFE_HALT and the loss of power (R468-R484), and the clocks' reference (R11, R460). -/

namespace Sys2Proof.Machine

/-- s with its start changed. -/
def State.modStart (s : State) (f : Start → Start) : State := { s with start := f s.start }

/-- s with its clocks changed. -/
def State.modClk (s : State) (f : Clocks → Clocks) : State := { s with clk := f s.clk }

/-! ### Cold starts (R468-R470, R473, R474) -/

/-- The EVT pins as they stand at their balls, driving nothing. -/
def State.evtBalls (s : State) : Table Evt := Table.map {} (fun _ e => { e with highUntil := 0 }) s.evts

/-- A cold start of a TYPE at step 1 with FAILED_COLD: every object at its default (R345) but for 0x2002 (R362); fuses, the levels at the
balls, THERM_N, which is independent of the logic (R494), and the test port are no objects. (log 96, DEDUCED) -/
def State.coldFrom (s : State) (type failed : Nat) : State :=
  { State.reset with
    start := { step := 1, type := type, failedCold := failed, warningPin := s.start.warningPin, resetLow := s.start.resetLow,
               warmLow := s.start.warmLow, testEn := s.start.testEn, drst := s.start.drst },
    therm := { asserted := s.therm.asserted }, grade := s.grade, step := s.step, uid := s.uid,
    regs := s.regs.filter (·.1 / 256 = 0x2002), evts := s.evtBalls, jtag := s.jtag,
    freeCtr := s.freeCtr, sent := s.sent, pending := s.pending }

/-- CAUSE and FAILED_STEP of a start that fails (R474). -/
def State.noteFailure (s : State) (cause : Nat) : State := (s.setNat 0x2002 2 cause).setNat 0x2002 3 s.start.step

/-- A failed cold start (R474): it starts again with its TYPE, or the third leads to SAFE_HALT. E1554 is raised after objects have
returned to their defaults. -/
def State.failCold (s : State) (cause : Nat) : State :=
  let s := s.noteFailure cause
  let n := s.start.failedCold + 1
  if n ≥ 3 then (s.modStart fun x => { x with failedCold := n, halt := true }).raise 1554
  else (s.coldFrom s.start.type n).raise 1554

/-- A start completed (R362, R470, R474): DURATION is what the frame clock has counted of it, in µs. (log 97, DEDUCED) -/
def State.startDone (s : State) (event : Nat) : State :=
  let s := s.setNat 0x2002 5 (s.start.ran * 80 / 1000 % 2 ^ 32)
  let s := s.modStart fun x => { x with step := 0, failedCold := 0, entries := [], headerFresh := false }
  ({ s with mode := .service }).raise event

/-- The next step of a start. -/
def State.nextStep (s : State) : State := s.modStart fun x => { x with step := x.step + 1 }

/-- The PLLs locked. -/
def State.lockPlls (s : State) : State := s.modClk fun c => { c with beat := .locked, me := .locked, dram := .locked }

/-- Step 6 (R89, R423): the vendor half, its bad copies repaired from the good ones (R91), is verified, or the start fails with AUTH. As step 7
begins DDRc_DRST_N rises, and it stays high while power lasts (R501). (log 183, DEDUCED) -/
def State.verifyStep (s : State) : State :=
  let s := s.mendVendor
  if s.vendorOk then
    let h := s.store.header
    let s := { s with store := { s.store with vendor := .verified } }
    ((((s.setNat 0x4000 2 (field h 4 7)).setOct 0xC000 5 (sha384 h))).nextStep.modStart fun x => { x with drst := true }).startTraining
  else ({ s with store := { s.store with vendor := .rejected } }).failCold 0x0309

/-- Step 7 (R283, R474). -/
def State.dramStep (s : State) (seed : Nat) : State :=
  let s := s.trainAll seed
  if chanNos.any fun c => (s.chan c).mode == .serving then s.nextStep else s.failCold 0x0402

/-- Whether REFCLK has been present for 10 ms, 125,000 frames. -/
def State.refSteady (s : State) : Bool := s.clk.ref == .present && decide (s.clk.presentFor ≥ 125000)

/-- COLD_START_STEP_DONE (R468-R470, R474): the step in progress completes or fails; step 1 lasts while TEST_EN is high (R487). Step 5 ends by its last CS_WRITE only. `seed` is what
PUF and entropy source give in step 4, and what training meets in step 7. (log 98, DEDUCED) -/
def execColdStartStepDone (ok : Bool) (seed : Nat) (s : State) : Out :=
  if s.mode ≠ .coldStart ∨ s.start.resetLow ∨ s.start.halt then .next s
  else match s.start.step with
    | 1 => if s.clk.ref = .present ∧ !s.start.warmLow ∧ !s.start.testEn then .next s.startPorts.nextStep else .next s
    | 2 => if ok then .next s.nextStep.bringUp else .next (s.failCold 0x010A)
    | 3 =>
      if s.clk.ref ≠ .present then .next s
      else if ok then .next s.lockPlls.nextStep
      else if s.refSteady then .next (s.failCold 0x010A)
      else .next s
    | 4 => if ok then .next (s.deriveKeys seed).nextStep else .next ((s.failKeys seed).failCold 0x0309)
    | 6 => .next s.verifyStep
    | 7 => .next (s.dramStep seed)
    | 8 => .next s.coldCalibrate.nextStep
    | 9 => .next (s.startDone 1552)
    | _ => .next s

/-- The test port as RESET_N rises: a boundary-scan instruction goes on as BYPASS (R504). -/
def Jtag.released (j : Jtag) : Jtag := if j.instr = .idcode then j else { j with instr := .bypass }

/-- RESET_N risen: with REFCLK present the ports start (R318). -/
def State.releaseReset (s : State) : State :=
  ({ s with start := { s.start with resetLow := false }, jtag := s.jtag.released } : State).startPorts

/-- RESET_N (R468, R473, R496): power comes up, or RESET_N falls or rises; the engine stays at step 1 while it is low. -/
def execResetN (low : Bool) (powerUp : Bool) (s : State) : Out :=
  if powerUp then
    if s.mode = .off then
      .next { (({ s with regs := [], start := {} }).coldFrom 1 0) with
        start := { step := 1, type := 1, resetLow := low, warmLow := s.start.warmLow, testEn := s.start.testEn, warningPin := s.start.warningPin } }
    else .next s
  else if s.mode = .off ∨ low = s.start.resetLow then .next s
  else if low then .next (({ s with start := { s.start with resetLow := true } }).coldFrom 2 0)
  else .next s.releaseReset

/-! ### Warm starts (R471, R472) -/

/-- A warm start of a TYPE begins at step 1 (R436, R471). -/
def State.beginWarm (s : State) (type : Nat) : State :=
  let s := s.modStart fun x => { x with step := 1, type := type, sleepAsked := none, ran := 0 }
  { s with mode := .warmStart, pass := { s.pass with trigger := true } }

/-- Whether a value of the dictionary stays through a warm start: what R472 keeps, and what counts since the cold start (R95, R127, R243,
R261, R262, R411). -/
def keptWarm (index sub : Nat) : Bool :=
  if 0x3000 ≤ index ∧ index < 0x3400 then [7, 8, 9, 11].contains (index % 16) || (index % 16 == 6 && sub == 1)
  else if [0x2002, 0x1010, 0x8001, 0x8040, 0xB000, 0xC000, 0xC001, 0xC002, 0xC010, 0xD200].contains index then true
  else if 0x2030 ≤ index ∧ index ≤ 0x2038 then sub ≤ 4
  else if index = 0x1011 ∨ index = 0x1012 then sub ≤ 7
  else if 0xC020 ≤ index ∧ index < 0xC040 then sub ≠ 7
  else if index = 0x1020 then [3, 4, 5, 6, 8, 10, 11, 12].contains sub
  else if index = 0x8000 then sub ≤ 12
  else if index = 0x8002 ∨ index = 0x8003 then sub ≤ 3
  else if index = 0x9000 then sub ≤ 9
  else if index = 0x9001 ∨ index = 0x9002 then sub ≤ 8
  else if index = 0xA000 then [3, 4, 5, 6, 16].contains sub
  else if 0xA010 ≤ index ∧ index < 0xA020 then [1, 5].contains sub
  else if index = 0x4000 then sub = 2
  else if 0x4010 ≤ index ∧ index < 0x4020 then sub = 5
  else if 0x5020 ≤ index ∧ index < 0x5030 then sub = 6
  else if 0x7200 ≤ index ∧ index < 0x7240 ∨ index = 0x7402 then sub = 4
  else if index = 0xB010 then sub = 3
  else if index = 0xD100 then sub = 5
  else false

/-- The contexts after a warm start: RETIRED ones stay so (R91). -/
def State.retiredOnly (s : State) : Table Ctx := s.ctxs.filterMap fun e => if e.2.st = .retired then some (e.1, { st := .retired }) else none

/-- The STATE event of every site that a warm start puts at FREE (R29, R56). -/
def State.tellFree (s : State) : State :=
  s.each ((s.sites.filter fun e => e.2.st ≠ .free).map (·.1)) fun s n => s.raiseWith (siteEvent n 0) [beBytes 8 0]

/-- Step 3 of a warm start (R472): what is cleared returns to its default. Batches that Stagelink had not acknowledged are sent again. (log 17, DEDUCED; log 95, DEDUCED) -/
def State.clearWarm (s : State) : State :=
  let s := s.endRun.custEmpty.tellFree
  let keep (k : Nat) : Bool := keptWarm (k / 256) (k % 256)
  let s1 : State := { State.reset with
    mode := .warmStart, start := s.start, clk := s.clk, grade := s.grade, step := s.step, uid := s.uid,
    regs := s.regs.filter (fun e => keep e.1), octs := s.octs.filter (fun e => keep e.1), ctxs := s.retiredOnly, store := s.store,
    evts := s.evtBalls, time := { s.time with counts := [] }, ring := s.ring, pass := s.pass, cal := { s.cal with margin := 0 },
    therm := s.therm, jtag := s.jtag, mem := s.mem, chans := s.chans,
    sl := { s.sl with unacked := [], waiting := [], nakked := false, naks := 0, replays := 0, choiceBy := none, late := false, rx := [],
                      holdOut := s.sl.holdOut },
    rosec := { nextTid := s.rosec.nextTid }, ev := { s.ev with severity := [], lastTime := [] },
    handler := { s.handler with offered := none, expired := false }, freeCtr := s.freeCtr, sent := s.sent, pending := s.pending }
  s1.holdOutNow.relinkBatches

/-- Every pin high-impedance, with no session, slot, strobe or gate (R146, R475). -/
def State.allPinsOff (s : State) : State :=
  { s with pins := Table.map {} (fun _ q => { sets := q.sets, stickyEpoch := q.stickyEpoch, lastCode := q.lastCode,
                                              mon := q.mon, monSince := q.monSince, shown := q.shown, dac := q.dac }) s.pins,
           sites := Table.map {} (fun _ x => { x with queue := [], runs := [], block := [], riders := [], strobes := [], vecs := [], playout := false })
             s.sites,
           reads := [] }

/-- Step 2 of a warm start (R471): pins high-impedance, contexts stopped, DRAM in self-refresh. -/
def State.quiesceWarm (s : State) : State :=
  let s := ({ s with ctxs := s.retiredOnly, ledger := [] }).allPinsOff
  s.enterSelfRefresh

/-- A failed warm start becomes a cold start of TYPE 6 (R474). -/
def State.failWarm (s : State) (cause : Nat) : State :=
  let s := s.noteFailure cause
  (s.coldFrom 6 s.start.failedCold).raise 1554

/-- WARM_START_STEP_DONE (R471, R474): the step in progress completes or fails. -/
def execWarmStartStepDone (ok : Bool) (s : State) : Out :=
  if s.mode ≠ .warmStart ∨ s.start.halt then .next s
  else match s.start.step with
    | 1 => if s.start.warmLow then .next s else .next (if s.pass.trigger then s.sealInterrupted else s).nextStep
    | 2 => if s.clk.ref ≠ .present then .next (s.failWarm 0x010A) else if s.memBusy then .next s else .next s.quiesceWarm.nextStep
    | 3 => .next s.clearWarm.nextStep
    | 4 =>
      if ok ∨ !(chanNos.any fun c => (s.chan c).mode == .selfRefresh) then .next s.leaveSelfRefresh.nextStep else .next (s.failWarm 0x0402)
    | 5 => .next (s.startDone 1553)
    | _ => .next s

/-- WARM_N (R471, R473, R496): taken low it begins a warm start, restarts a start in progress, or is ignored with E1562; the start stays at
step 1 while it is low. -/
def execWarmN (low : Bool) (s : State) : Out :=
  if s.mode = .off ∨ low = s.start.warmLow then .next s
  else if !low then .next (s.modStart fun x => { x with warmLow := false })
  else if s.mode = .coldStart ∧ s.start.step = 1 then .next s
  else match s.mode with
    | .sleep | .safeHalt => .next (s.raise 1562)
    | .coldStart => .next (({ s with start := { s.start with warmLow := true } }).coldFrom s.start.type s.start.failedCold)
    | .warmStart => .next ((s.beginWarm s.start.type).modStart fun x => { x with warmLow := true })
    | _ => .next ((s.beginWarm 4).modStart fun x => { x with warmLow := true })

/-! ### SAFE_HALT (R475, R476, R481, R482) -/

/-- The committed records of the ring, in ring order (R482). -/
def State.committedRecords (s : State) : List Nat :=
  (ascending (fun k => (s.rcd k).no) ((s.recs.filter fun e => e.2.stage == .committed || e.2.stage == .measured || e.2.stage == .packaged).map (·.1)))

/-- What SAFE_HALT pushes (R482): verdicts, the last 256 Guestbook entries and the committed records. -/
def State.pushAll (s : State) : State :=
  let s := s.pushVerdicts
  let s := s.sendTail (s.ev.book.drop (s.ev.book.length - 256))
  s.each s.committedRecords State.sendRecord

/-- Entry into SAFE_HALT (R475): from SLEEP nothing is pushed (R478). (log 99, DEDUCED; log 174, DEDUCED) -/
def State.enterSafeHalt (s : State) : State :=
  let push := s.mode ≠ .sleep
  let s := if s.start.warning then s.raise 1560 else s
  let s := s.sealInterrupted.endRun.allPinsOff
  let s := if push then s.pushAll else s
  let s := s.enterSelfRefresh
  let s := if s.qualityAhead = .locked ∨ s.qualityAhead = .reroute then s.setQuality .holdover else s
  let s := s.modStart fun x => { x with step := 0, halt := false, warning := false, sleepAsked := none, wakeStep := 0 }
  ({ s with mode := .safeHalt }).raise 1556

/-- SAFE_HALT_ENTRY (R475): at the first tick after its cause. -/
def execSafeHaltEntry (s : State) : Out :=
  if s.start.halt ∧ s.mode ≠ .off ∧ s.mode ≠ .safeHalt then .next s.enterSafeHalt else .next s

/-- PWR_WARN_N (R480, R481, R496): the warning counts as asserted; ignored during reset. -/
def execPwrWarnN (s : State) : Out :=
  if s.mode = .off ∨ (s.mode = .coldStart ∧ s.start.step = 1) ∨ s.start.warningPin then .next s
  else
    let s := s.modStart fun x => { x with warningPin := true }
    if s.mode = .safeHalt then .next s
    else .next { s with start := { s.start with warning := true, halt := true }, pass := { s.pass with trigger := true } }

/-- POWER_WARNING_CLEARED (R480): a later deassertion stops no warning counted, and raises E1561. -/
def execPowerWarningCleared (s : State) : Out :=
  if s.start.warningPin then
    let s := s.modStart fun x => { x with warningPin := false }
    .next (if s.mode = .off then s else s.raise 1561)
  else .next s

/-- POWER_LOSS (R484): the device is OFF; everything but the fuses is lost. -/
def execPowerLoss (s : State) : Out :=
  .next { mode := .off, start := { step := 0, warningPin := s.start.warningPin, resetLow := s.start.resetLow, warmLow := s.start.warmLow, testEn := s.start.testEn },
          grade := s.grade, step := s.step, uid := s.uid, evts := s.evtBalls, freeCtr := s.freeCtr, sent := s.sent, pending := s.pending }

/-! ### SLEEP and waking (R477-R479) -/

/-- Whether the drain before SLEEP has completed (R477). -/
def State.drainedForSleep (s : State) : Bool :=
  s.idle && !s.memBusy && s.storeBytes == 0 && s.pass.closed.isEmpty && s.pass.formed.isEmpty && s.cal.domain.isNone
    && s.recs.all fun e => e.2.stage == .exported || e.2.stage == .opened

/-- The copies that the Night porter takes at entry into SLEEP (R326): the station record and what 0xC000 reads. The values of 0x1000 and
0x1001 do not change. -/
def State.nightCopies (s : State) : State :=
  { s with ring := { s.ring with record := some s.stationRec },
           rosec := { s.rosec with copied := s.regs.filter fun e => e.1 / 256 == 0xC000 } }

/-- Whether a SLEEP request drains and has not lasted 100 ms (R477). -/
def State.drainOpen (s : State) : Bool :=
  match s.start.sleepAsked with
  | some t => decide (s.now < t + 1250000)
  | none => false

/-- SLEEP_DRAIN_DONE (R477, R380): quiesced, DRAM in self-refresh, the ring asked for its SLEEP rate, the PLLs off. -/
def execSleepDrainDone (s : State) : Out :=
  if !s.drainOpen ∨ !s.drainedForSleep then .next s
  else
    let s := (s.modStart fun x => { x with sleepAsked := none, wakeStep := 0 }).linkDown
    let s := if s.reg 0xA100 4 = 0 then s else s.convoyDown
    let s := (s.enterSelfRefresh).askRate true
    let s := s.modClk fun c => { c with beat := .off, me := .off, dram := .off }
    let s := if s.qualityAhead = .locked ∨ s.qualityAhead = .reroute then s.setQuality .holdover else s
    .next (({ s with mode := .sleep } : State).nightCopies.raise 1557)

/-- SLEEP_ABANDONED (R477): 100 ms, 1,250,000 frames, after the request. -/
def execSleepAbandoned (s : State) : Out :=
  match s.start.sleepAsked with
  | some t => if s.now ≥ t + 1250000 then .next ((s.modStart fun x => { x with sleepAsked := none }).raise 1559) else .next s
  | none => .next s

/-- The servo resumes at wake as after a master change (R380). -/
def State.resumeServo (s : State) : State := s.recount

/-- WAKE_STEP_DONE (R479): the PLLs lock once REFCLK is present; a channel whose fast retrain fails takes its fault; the links come up at
full width; IDLE. -/
def execWakeStepDone (ok : Bool) (s : State) : Out :=
  if s.mode ≠ .sleep ∨ s.start.halt then .next s
  else
    let next (s : State) : State := s.modStart fun x => { x with wakeStep := x.wakeStep + 1 }
    match s.start.wakeStep with
    | 1 =>
      if s.clk.ref ≠ .present then .next s
      else
        let s := (s.lockPlls).modClk fun c => { c with lostFor := 0, longHoldover := false }
        let s := if (s.faultOf 8).isSome then (s.raise 1544).recovered 8 (s.usSince (((s.faultOf 8).map (·.frame)).getD s.now)) else s
        .next (next s)
    | 2 =>
      let bad : Option Nat := if ok then none else chanNos.find? fun c => (s.chan c).mode == .selfRefresh
      let s := match bad with | some c => s.failRetrain c | none => s
      .next (next ((s.leaveSelfRefresh.restoreLink).askRate false))
    | 3 => .next (next s)
    | 4 =>
      let s := s.modStart fun x => { x with wakeStep := 0 }
      .next (({ s with mode := .service, ring := { s.ring with record := none }, rosec := { s.rosec with copied := [] } } : State).resumeServo.raise 1558)
    | _ => .next s

/-! ### Requests of 0x2001 (R361, R473) -/

/-- REQUEST written: DEVICE_STATE outside the code's states. The caller sends the response before the request takes effect. -/
def State.requestOk (s : State) (code : Nat) : Bool :=
  match code with
  | 1 => s.mode == .service || s.mode == .warmStart || s.mode == .coldStart
  | 2 => true
  | 3 => s.idle
  | 4 => s.mode == .sleep
  | _ => false

/-- A request that takes effect. -/
def State.request (s : State) (code : Nat) : State :=
  match code with
  | 1 =>
    match s.mode with
    | .coldStart => s.coldFrom s.start.type 0
    | .warmStart => s.beginWarm s.start.type
    | _ => s.beginWarm 5
  | 2 => s.coldFrom 3 0
  | 3 => if s.start.sleepAsked.isSome then s else s.modStart fun x => { x with sleepAsked := some s.now }
  | 4 => if s.start.wakeStep = 0 then s.modStart fun x => { x with wakeStep := 1 } else s
  | _ => s

/-! ### REFCLK (R11, R460) -/

/-- REFCLK_LOST (R11, R377, R460): REFCLK leaves its window. The beat PLL, once locked, enters holdover: live sites are flagged, spanning ones
abort, quality leaves LOCKED and a REFCLK fault is raised. Before it locks the start waits. -/
def execRefclkLost (outside : Bool) (s : State) : Out :=
  let st : RefState := if outside then .outside else .absent
  if s.mode = .off ∨ s.clk.ref = st then .next s
  else
    let was := s.clk.ref
    let s := s.modClk fun c => { c with ref := st, presentFor := 0 }
    if was ≠ .present ∨ s.clk.beat = .unlocked then .next s
    else
      let s := s.modClk fun c => { c with beat := if c.beat = .locked then .holdover else c.beat,
                                          lostFor := if c.beat = .locked then 0 else c.lostFor }
      let s := (s.raise 1543).handFault { resource := 8, level := 8, source := 1543 }
      let s := s.loseLock
      let s := s.each siteNos fun s n => if (s.site n).st.live then s.modSite n (·.flag flagRefclk true) else s
      .next (s.each s.spanning fun s n => (s.sendAbort n 2 s.abortTick).convoyFault n 0x0101)

/-- LONG_HOLDOVER (R460): after 100 ms, 1,250,000 frames, live sites are tainted as well. -/
def execLongHoldover (s : State) : Out :=
  if s.clk.beat = .holdover ∧ s.clk.lostFor ≥ 1250000 ∧ !s.clk.longHoldover then
    .next (s.modClk fun c => { c with longHoldover := true }).taintLive
  else .next s

/-- REFCLK_PRESENT (R11, R318): REFCLK is declared present; the ports start in a cold start. -/
def execRefclkPresent (s : State) : Out :=
  if s.mode = .off ∨ s.clk.ref = .present then .next s
  else .next (s.modClk fun c => { c with ref := .present, presentFor := 0 }).startPorts

/-- REFCLK_RELOCKED (R460): the beat PLL relocks once REFCLK has been present for 10 ms and no site holds budget. -/
def execRefclkRelocked (s : State) : Out :=
  if s.clk.beat = .holdover ∧ s.refSteady ∧ !s.anyBusy then
    let us := s.usSince (((s.faultOf 8).map (·.frame)).getD s.now)
    let s := s.modClk fun c => { c with beat := .locked, lostFor := 0, longHoldover := false }
    .next ((s.raise 1544).recovered 8 us)
  else .next s

end Sys2Proof.Machine
end

