-- ==== Sys2Proof/Machine/Reads.lean ====
section
/-! DEFINITION. What a read of the object dictionary returns (R346): stored values as they stand, the others computed from the units. -/

namespace Sys2Proof.Machine

/-! ### Front ends (R200) -/

/-- The value of a positive normal REAL32 from its code (R343). -/
def real32 (code : Nat) : Rat :=
  let m : Int := 2 ^ 23 + code % 2 ^ 23
  let e := code / 2 ^ 23 % 256
  if e ≥ 150 then ((m * 2 ^ (e - 150) : Int) : Rat) else ((m : Int) : Rat) / ((2 ^ (150 - e) : Nat) : Rat)

/-- A number of µV rounded to the nearest (R200). -/
def nearestUv (q : Rat) : Int :=
  let lo := q.floor
  let d := q - lo
  if d < 1 / 2 then lo else if d > 1 / 2 then lo + 1 else if Config.dutTieUp lo then lo + 1 else lo

/-- The DUT-referred read-backs of a pin (R200), subs 06-0A. -/
def State.dutValue (s : State) (p sub : Nat) : Int :=
  let fe := s.reg (pinObj p 3) 1 = 1
  let cmp (v : Int) (off : Int) : Int := if fe then nearestUv (((v - off : Int) : Rat) / real32 (s.nreg (pinObj p 3) 2)) else v
  let drv (v : Int) : Int :=
    if fe then nearestUv (real32 (s.nreg (pinObj p 3) 4) * ((v : Int) : Rat) + ((s.reg (pinObj p 3) 5 : Int) : Rat)) else v
  match sub with
  | 6 => cmp (s.reg (pinObj p 2) 1) (s.reg (pinObj p 3) 3)
  | 7 => cmp (s.reg (pinObj p 2) 2) (s.reg (pinObj p 3) 3)
  | 8 => cmp (s.reg (pinObj p 2) 3) 0
  | 9 => drv (s.reg (pinObj p 0) 1)
  | _ => drv (s.reg (pinObj p 0) 2)

/-! ### Numbers, by part of the index map (R366) -/

/-- A Bool as a number. -/
def ofBool (b : Bool) : Nat := if b then 1 else 0

/-- The mask of the members of a list. -/
def maskOf (l : List Nat) : Nat := l.foldl orBit 0

/-- Codes of 0x2010 (R12). -/
def RefState.code : RefState → Nat
  | .absent => 0 | .present => 1 | .outside => 2

/-- Codes of 0x2010 (R12). -/
def PllState.code : PllState → Nat
  | .unlocked => 0 | .locked => 1 | .holdover => 2 | .off => 3

/-- Device objects: 0x1000-0x20FF (R4, R12, R338, R360-R363). -/
def State.deviceNum (s : State) (index sub : Nat) : Option Nat :=
  match index, sub with
  | 0x1000, 3 => some s.grade
  | 0x1000, 4 => some s.step
  | 0x1001, 1 => some s.uid
  | 0x1020, 7 => some (s.rosec.transfers.length + s.rosec.uploads.length)
  | 0x1020, 9 => some s.rosec.subs.length
  | 0x2000, 1 => some s.deviceState
  | 0x2000, 2 => some (if s.mode = .coldStart ∨ s.mode = .warmStart then s.start.step else 0)
  | 0x2002, 1 => some s.start.type
  | 0x2002, 4 => some s.start.failedCold
  | 0x2010, 1 => some s.clk.ref.code
  | 0x2010, 2 => some s.clk.beat.code
  | 0x2010, 3 => some s.clk.me.code
  | 0x2010, 4 => some s.clk.dram.code
  | 0x2010, 5 => some s.clk.frames
  | 0x2010, 6 => some s.clk.phase
  | _, _ => none

/-- Pin objects: 0x3000 + 16n + k (R169, R182, R200, R201, R262). -/
def State.pinNum (s : State) (p k sub : Nat) : Option Int :=
  match k, sub with
  | 0, 4 => some (s.pin p).shown
  | 1, 1 => some (s.pin p).serialState.1
  | 1, 2 => some (s.pin p).serialState.2
  | 3, 6 | 3, 7 | 3, 8 | 3, 9 | 3, 10 => some (s.dutValue p sub)
  | 5, 3 => some (s.monCode p)
  | 6, 3 => some (s.defs.filter fun e => e.2.st == .gate && e.2.pins.contains p).length
  | _, _ => none

/-- Site objects: 0x3400 + 16s + k (R27, R34). -/
def State.siteNum (s : State) (n k sub : Nat) : Option Nat :=
  let x := s.site n
  let v := if x.st.live then x.shown else ((s.showSite n).site n).shown
  match k, sub with
  | 0, 1 => some x.st.code
  | 3, 1 => some v.idx
  | 3, 2 => some v.vectors
  | 3, 3 => some v.holdTu
  | 3, 4 => some v.flags
  | 3, 7 => some v.matchIter
  | 3, 8 => some v.lateWaits
  | 3, 9 => some v.epoch
  | _, _ => none

/-- The code of VENDOR_STATE (R93). -/
def VendorState.code : VendorState → Nat
  | .absent => 0 | .header => 1 | .verified => 2 | .rejected => 3

/-- The code of CUST_STATE (R93). -/
def CustState.code : CustState → Nat
  | .empty => 0 | .opened => 1 | .closing => 2 | .closed => 3

/-- Contexts of an engine in a state, as a mask. -/
def State.ctxMask (s : State) (e : Nat) (f : Ctx → Bool) : Nat := maskOf ((List.range 8).filter fun c => f (s.ctx (8 * e + c)))

/-- Control-store, engine and Innkeeper objects: 0x4000-0x5FFF (R93, R95, R124-R129). (log 153, DESIGN CHOICE) -/
def State.engineNum (s : State) (index sub : Nat) : Option Nat :=
  if index = 0x4000 then
    match sub with
    | 1 => some s.store.vendor.code
    | 3 => some s.store.cust.code
    | 8 => some s.store.lost.length
    | _ => none
  else if 0x4010 ≤ index ∧ index < 0x4020 then
    match sub with
    | 1 => some (s.ctxMask (index - 0x4010) fun c => c.st ≠ .free)
    | 2 => some (s.ctxMask (index - 0x4010) fun c => c.st = .waiting)
    | 3 => some (s.ctxMask (index - 0x4010) fun c => c.st = .retired)
    | _ => none
  else if index = 0x5001 then
    match sub with
    | 1 => some s.ledger.length
    | 3 => some (129984 - s.generalUsed)
    | 4 => some (1024 - s.serviceUsed)
    | 5 => some s.admittedBudget
    | 6 => some s.admittedSites.length
    | _ => none
  else if index = 0x5002 then (if 1 ≤ sub ∧ sub ≤ 8 then some (s.depth (sub - 1)) else none)
  else if 0x5020 ≤ index ∧ index < 0x5030 then
    match sub with
    | 1 => some (s.homed (index - 0x5020)).length
    | 2 => some (s.homedShare (index - 0x5020))
    | _ => none
  else if 0x5100 ≤ index ∧ index < 0x5140 then (if sub = 9 then some (s.siteEntries (index - 0x5100)) else none)
  else if 0x5400 ≤ index ∧ index < 0x5500 then
    let c := index - 0x5400
    match sub with
    | 1 => if c < 64 then some c else none
    | 2 => some (s.caravan c).next
    | 3 => some (s.caravan c).head
    | 4 => some (s.caravan c).outstanding
    | _ => none
  else none

/-- Vector path, timing and acquisition objects: 0x6000-0x7FFF (R152, R153, R183, R185, R241-R244, R260, R261). (log 60, DESIGN CHOICE) -/
def State.pathNum (s : State) (index sub : Nat) : Option Nat :=
  if index = 0x6001 then (if sub = 1 then some (streamMb (s.streamRate s.admittedSites)) else none)
  else if 0x6100 ≤ index ∧ index < 0x6140 then
    let n := index - 0x6100
    let x := s.site n
    match sub with
    | 2 => some (x.play.lead.getD 0)
    | 4 => some (if x.st.busy ∨ x.playout then s.fetchState n else 0)
    | 5 => some (s.fill n)
    | 6 => some x.runCount
    | 8 => some (ofBool x.play.exposed)
    | _ => none
  else if 0x6200 ≤ index ∧ index < 0x6240 then (if sub = 1 then some (s.pin (index - 0x6200)).slotsHeld else none)
  else if 0x6300 ≤ index ∧ index < 0x6340 then
    match sub with
    | 1 => some (s.setsWith (index - 0x6300) .valid)
    | 2 => some (s.setsWith (index - 0x6300) .rejected)
    | _ => none
  else if index = 0x7000 then
    match sub with
    | 3 => some s.bufferFree
    | 4 => some s.ringUsed
    | 5 => some s.oldestAge
    | _ => none
  else if 0x7200 ≤ index ∧ index < 0x7240 then
    let c := s.cap (index - 0x7200)
    match sub with
    | 1 => some (match c.st with | .idle => 0 | .capturing => 1 | .paused => 2)
    | 2 => some (match c.phase with | .pre => 0 | .post => 1 | .holdoff => 2)
    | 3 => some c.rate
    | _ => none
  else if 0x7300 ≤ index ∧ index < 0x7310 then
    match sub with
    | 16 => some (ofBool (s.tu (index - 0x7300)).armed)
    | 17 => some (s.tu (index - 0x7300)).stage
    | _ => none
  else if index = 0x7400 then
    let x := s.mdef (s.nreg 0x7400 1)
    if 2 ≤ sub ∧ sub ≤ 15 then some (x.val sub)
    else if sub = 16 then some (match x.st with | .armed => 1 | .gate => 2 | _ => 0)
    else none
  else if index = 0x7402 then
    match sub with
    | 1 => some (maskOf s.vernierBusy)
    | 2 => some (maskOf s.counterBusy)
    | 3 => some s.liveDefs.length
    | _ => none
  else none

/-- CAL_AGE_MIN (R411): minutes since the oldest TIMING calibration among the pins. -/
def State.calAge (s : State) : Nat :=
  let l := (pinNos.map fun p => s.nreg (pinObj p 11) 1).filter (· ≠ 0)
  match l with
  | [] => 0xFFFFFFFF
  | t :: r => min 0xFFFFFFFF ((s.localTime - ofTime80 (r.foldl min t)) / (65536 * 60000000000)).toNat

/-- MARGIN_TU (R410): the base of the grade until a reading has set it. -/
def State.marginTu (s : State) : Nat := if s.cal.margin = 0 then (if s.grade = 2 then 40 else 24) else s.cal.margin

/-- STATUS of the forerunner view (R411). -/
def State.viewStatus (s : State) : Nat :=
  let st := s.nreg 0xB000 18
  if s.reg 0xB000 19 = 1 ∨ pinNos.any (fun p => s.reg (pinObj p 11) 6 = 1) ∨ st = 0 ∨ st = 3 then 2
  else if s.marginTu > (if s.grade = 2 then 40 else 24) then 1
  else 0

/-- Whether source e reads PENDING (R48, R449). -/
def State.pendingSource (s : State) (e : Nat) : Bool :=
  if 1024 ≤ e ∧ e < 1536 then (s.site ((e - 1024) / 8)).thread.pending.getLsbD ((e - 1024) % 8) else s.ev.sampled.contains e

/-- Time, memory, calibration, Passport and event objects: 0x8000-0xEFFF. -/
def State.controlNum (s : State) (index sub : Nat) : Option Nat :=
  if 0x8050 ≤ index ∧ index < 0x8058 then (if sub = 2 then some (ofBool (s.evt (index - 0x8050)).shown) else none)
  else if index = 0xA000 then (if sub = 9 then some s.sl.rxUsed else none)
  else if index = 0x9001 ∨ index = 0x9002 then (if sub = 6 then some (s.chan (index - 0x9001)).mode.code else none)
  else if index = 0xB030 then (if sub = 1 then some s.marginTu else none)
  else if index = 0xC002 then
    match sub with
    | 4 => some s.storeBytes
    | 8 => some s.pass.closed.length
    | _ => none
  else if index = 0xD010 then
    let e := s.nreg 0xD010 1
    match sub with
    | 2 => some (s.severity e)
    | 3 => some (Table.get 0 s.ev.counts e)
    | 4 => some (Table.get 0 s.ev.lastTime e)
    | 5 => some (ofBool (s.pendingSource e))
    | _ => none
  else if index = 0xD100 then
    match sub with
    | 1 => some s.ev.nextSeq
    | 2 => some (match s.ev.book with | g :: _ => g.seq | [] => s.ev.nextSeq)
    | _ => none
  else if index = 0xD200 then (if sub = 1 then some s.handler.queue.length else none)
  else if index = 0xD201 then
    let f := s.offeredFault
    match sub with
    | 1 => some ((f.map (·.resource)).getD 0)
    | 2 => some ((f.map (·.level)).getD 0)
    | 3 => some ((f.map fun f => maskOf (allowedLevels f)).getD 0)
    | 5 => some (s.handler.offered.getD 0)
    | _ => none
  else if index = 0xE000 then
    match sub with
    | 1 => some ((s.marginTu + 1) / 2)
    | 2 => some (min 100 (s.reg 0xB020 9 / 100).toNat)
    | 3 => some s.calAge
    | 5 => some s.viewStatus
    | _ => none
  else none

/-- The number that index:sub reads (R346); sub 00 the highest subindex (R342), 0xC000 in SLEEP the Night porter's copy (R326). (log 13, DESIGN CHOICE) -/
def State.readNum (s : State) (index sub : Nat) : Int :=
  let v : Option Int :=
    if sub = 0 then (findSub index 0).map (·.dflt)
    else if index = 0xC000 ∧ s.mode = .sleep then some (({ s with regs := s.rosec.copied } : State).reg index sub)
    else if index < 0x3000 then (s.deviceNum index sub).map (fun v : Nat => (v : Int))
    else if index < 0x3400 then s.pinNum ((index - 0x3000) / 16) (index % 16) sub
    else if index < 0x3800 then (s.siteNum ((index - 0x3400) / 16) (index % 16) sub).map (fun v : Nat => (v : Int))
    else if index < 0x6000 then (s.engineNum index sub).map (fun v : Nat => (v : Int))
    else if index < 0x8000 then (s.pathNum index sub).map (fun v : Nat => (v : Int))
    else (s.controlNum index sub).map (fun v : Nat => (v : Int))
  v.getD (s.reg index sub)

/-! ### Octets -/

/-- The bytes of an ASCII string. -/
def asciiBytes (t : String) : List Byte := t.toList.map fun c => BitVec.ofNat 8 c.toNat

/-- A queued candidate of a capture (R243). -/
def candidateBytes (e : Nat × Nat × Nat) : List Byte := beBytes 8 (e.1 % 256 * 2 ^ 56 + e.2.1 % 2 ^ 40) ++ beBytes 8 e.2.2

/-- ENTRIES of the Guestbook window (R452): up to 128 entries from START_SEQ, or from the oldest. -/
def State.bookEntries (s : State) : List GuestEntry :=
  let oldest : Nat := match s.ev.book with | g :: _ => g.seq | [] => s.ev.nextSeq
  let k := (s.nreg 0xD100 3 + 2 ^ 32 - oldest) % 2 ^ 32
  (if k < 2 ^ 31 then s.ev.book.drop k else s.ev.book).take 128

/-- The bytes that an octet value, string or domain reads (R346). BLOB is built on reading by `exportBlob`. -/
def State.readOct (s : State) (index sub : Nat) : List Byte :=
  if index = 0x1000 then (if sub = 1 then asciiBytes "Gelurno" else asciiBytes "DRX-9064")
  else if 0x7200 ≤ index ∧ index < 0x7240 then (s.cap (index - 0x7200)).candidates.flatMap candidateBytes
  else if index = 0x7400 then
    let x := s.mdef (s.nreg 0x7400 1)
    if x.result.isEmpty then octDefault 0x7400 17 else x.result
  else if index = 0xD100 then s.bookEntries.flatMap GuestEntry.bytes
  else if index = 0xD200 then
    if sub = 7 then s.handler.queue.flatMap FaultRec.bytes
    else match s.handler.current with | some f => f.bytes | none => zeroBytes 16
  else s.oct index sub

/-- The value of index:sub as it travels (R343). -/
def State.valueOf (s : State) (index sub : Nat) : List Byte :=
  match findSub index sub with
  | some r => if r.ty.numeric then encodeInt r.ty.bytes (s.readNum index sub) else s.readOct index sub
  | none => []

/-- How long the value of index:sub is. -/
def State.valueLength (s : State) (index sub : Nat) : Nat :=
  if index = 0xB010 ∧ sub = 1 then blobLength + 176 else (s.valueOf index sub).length

/-- LATE_WAITS cleared by a read: what has come since the last tick is yet to be shown (R34, R344). -/
def State.clearLate (s : State) (n : Nat) : State :=
  let x := s.site n
  if x.st.live then
    (s.setNat (siteObj n 3) 8 (s.nreg (siteObj n 3) 8 - x.shown.lateWaits)).setSite n { x with shown := { x.shown with lateWaits := 0 } }
  else s.setNat (siteObj n 3) 8 0

/-- An RC sub cleared to its default by a read (R344). -/
def State.clearRead (s : State) (index sub : Nat) : State :=
  match findSub index sub with
  | none => s
  | some r =>
    if r.acc ≠ .rc then s
    else if index = 0xD010 then { s with ev := { s.ev with counts := Table.set 0 s.ev.counts (s.nreg 0xD010 1) 0 } }
    else if 0x3400 ≤ index ∧ index < 0x3800 ∧ index % 16 = 3 ∧ sub = 8 then s.clearLate ((index - 0x3400) / 16)
    else if 0x7200 ≤ index ∧ index < 0x7240 ∧ sub = 14 then
      s.setCap (index - 0x7200) { s.cap (index - 0x7200) with candidates := [] }
    else if r.ty.numeric then s.setReg index sub (regDefault index sub)
    else s.setOct index sub (octDefault index sub)

/-- A value taken by a read: its bytes, with what the read does (R344, R407). -/
def State.takeValue (s : State) (index sub : Nat) : List Byte × State :=
  if index = 0xB010 ∧ sub = 1 then s.exportBlob else (s.valueOf index sub, s.clearRead index sub)

end Sys2Proof.Machine
end

