-- ==== Sys2Proof/Machine/HostWrite.lean ====
section
/-! DEFINITION. A value written into the object dictionary: its checks in the order of R506, rows 8 to 14, and its effect. -/

namespace Sys2Proof.Machine

/-! ### Encoding and length (R343, R351, R352) -/

/-- The right to a sub (R344): the OWNER of Caravans 0-63 is read-only (R129). -/
def accessOf (index sub : Nat) : Option Acc :=
  if sub = 1 ∧ 0x5400 ≤ index ∧ index < 0x5440 then some .ro else (findSub index sub).map (·.acc)

/-- Rows 5 and 6 of R506 for a read: NO_OBJECT, NO_SUB, WRITE_ONLY. -/
def readRight (index sub : Nat) : Nat :=
  if (findObj index).isNone then 0x0101
  else match accessOf index sub with
    | none => 0x0102
    | some .wo => 0x0104
    | some _ => 0

/-- Rows 5 and 6 of R506 for a write: NO_OBJECT, NO_SUB, READ_ONLY. -/
def writeRight (index sub : Nat) : Nat :=
  if (findObj index).isNone then 0x0101
  else match accessOf index sub with
    | none => 0x0102
    | some .ro | some .rc => 0x0103
    | some _ => 0

/-- The number that the bytes of a value spell (R343). -/
def decodeNum (signed : Bool) (b : List Byte) : Int :=
  let v := ofBytes b
  if signed ∧ 2 * v ≥ 256 ^ b.length then (v : Int) - (256 ^ b.length : Nat) else v

/-- LENGTH, then TOO_LARGE for a value of n bytes (R89, R343, R404, R506); TOO_LARGE first for SERIAL_CFG (R170). `cap` is the limit of the profile level in use (R357). -/
def lengthStatus (cap index sub n : Nat) : Nat :=
  match findSub index sub with
  | none => 0x0102
  | some r =>
    match r.ty with
    | .dom limit | .vis limit =>
      if index = 0x4001 ∧ n ≠ 160 then 0x0105
      else if index = 0xB040 ∧ n % 16 ≠ 0 then 0x0105
      else if n > min cap limit then 0x0206
      else if 0x3400 ≤ index ∧ index < 0x3800 ∧ n % 48 ≠ 0 then 0x0105
      else 0
    | t => if n ≠ t.bytes then 0x0105 else 0

/-- RANGE for a value that its type cannot hold (R343). -/
def typeHolds (t : Ty) (b : List Byte) : Bool :=
  match t with
  | .bool => decide (ofBytes b ≤ 1)
  | .r32 => ofBytes b / 2 ^ 23 % 256 ≠ 255
  | .time80 => decide (ofBytes b % 2 ^ 32 < 1000000000)
  | .vis _ => b.all fun c => decide (0x20 ≤ c.toNat) && decide (c.toNat ≤ 0x7E)
  | _ => true

/-! ### Write conditions (R344) -/

/-- Whether a site number is none or a site in no budget. -/
def State.notBusy (s : State) (n : Nat) : Bool := decide (n ≥ 64) || !(s.site n).st.busy

/-- Whether a site number is none or a site FREE or LOADED. -/
def State.restful (s : State) (n : Nat) : Bool := decide (n ≥ 64) || (s.site n).st == .free || (s.site n).st == .loaded

/-- The pin that an object belongs to. -/
def pinOf (index : Nat) : Nat := if index < 0x4000 then (index - 0x3000) / 16 else index - 0x6500

/-- The site that an object belongs to. -/
def siteOf (index : Nat) : Nat :=
  if index < 0x4000 then (index - 0x3400) / 16 else if index < 0x7000 then index - 0x6100 else index - 0x7100

/-- Whether step 5 of a cold start runs. -/
def State.inStep5 (s : State) : Bool := s.mode == .coldStart && s.start.step == 5

/-- The write condition of a sub, v being written, or the state of the unit that the one command of an object needs (R344, R506 and the
governing rules). -/
def State.condOk (s : State) (c : Cond) (index sub v : Nat) : Bool :=
  match c with
  | .always => true
  | .idle => s.idle
  | .idleOrTraining => s.idle || s.inStep5
  | .pinIdle => !s.pinBusy (pinOf index)
  | .notReady => (s.site (siteOf index)).st ≠ .ready
  | .siteFree => (s.site (siteOf index)).st == .free
  | .siteFreeLoaded => s.restful (siteOf index)
  | .step5 | .blob => s.inStep5
  | .noBusySite => !s.anyBusy
  | .caravanFree => (s.caravan (index - 0x5400)).outstanding == 0
  | .ringIdle => s.caps.all (fun c => c.2.st == .idle) && s.ringUsed == 0
  | .unitDisarmed =>
    !(s.tu (index - 0x7300)).armed && (sub ≠ 1 || (s.notBusy (s.nreg index 1) && s.notBusy v))
  | .defIdle =>
    let d := s.nreg 0x7400 1
    (s.mdef d).st == .idle && s.notBusy (s.mdef d).owner && (sub ≠ 2 || s.notBusy v)
  | .hostServo => !s.hostServoClosed
  | .captureOff => s.reg index 2 == 0
  | .idleAllFree => s.idle && siteNos.all fun n => (s.site n).st == .free
  | .laneFree => s.restful (s.nreg index sub) && s.restful v
  | .hostCal => s.reg 0x2100 2 ≠ 0
  | .windowFree => s.reg index 4 == 0
  | .convoyHead => s.reg 0xA100 1 == 1
  | .epochRoom => decide (s.nreg 0xC010 1 + 1 - s.nreg 0xC010 2 ≤ 255)
  | .timeHost => s.reg 0x8001 1 == 2

/-! ### Reserved codes, ranges and cross-checks -/

/-- The mask of the reserved bits of a stage word (R223). -/
def stageReserved : Nat := (2 ^ 9 - 1) * 2 ^ 38 + (2 ^ 32 - 1)

/-- Reserved fields and codes that the type table does not tell (R8 and the governing rules). (log 116, DESIGN CHOICE) -/
def badReserved (index sub v : Nat) : Bool :=
  if index = 0x4000 then v = 0 ∨ v > 3
  else if 0x5100 ≤ index ∧ index < 0x5140 ∧ sub = 11 then 15 < v ∧ v ≠ 255
  else if 0x7100 ≤ index ∧ index < 0x7140 ∧ sub ≥ 12 then v / 2 ^ 28 ≥ 9 ∨ v % 2 ^ 19 ≠ 0
  else if 0x7300 ≤ index ∧ index < 0x7310 then
    if sub = 2 then v = 0 ∨ v > 3
    else if 4 ≤ sub ∧ sub ≤ 7 then v / 2 ^ 48 = 0 ∨ v &&& stageReserved ≠ 0
    else false
  else if index = 0x7400 then
    if sub = 3 then v > 5
    else if sub = 6 ∨ sub = 8 then v > 7 ∨ v % 4 = 0
    else if sub = 10 then v > 2
    else false
  else if index = 0x8001 ∧ sub = 3 then v = 0
  else if 0x8030 ≤ index ∧ index < 0x8038 ∧ sub = 1 then v / 8192 = 0 ∨ v / 8192 > 3 ∨ (v / 8192 = 2 ∧ natBit v 12)
  else if (index = 0xA100 ∧ sub = 3) ∨ (index = 0xA000 ∧ sub = 17) ∨ (index = 0xC010 ∧ sub = 3) then v ≠ 1
  else if index = 0xB002 ∧ sub = 1 then v = 0 ∨ v > 2
  else if 0xC020 ≤ index ∧ index < 0xC040 ∧ sub = 3 then v = 0 ∨ v > 3
  else if index = 0xD010 ∧ sub = 2 then v > 3
  else false

/-- The nominal voltage of a supply monitor in µV (R206). -/
def supplyNominal (m : Nat) : Int := [750000, 800000, 850000, 1100000, 1200000, 1500000, 1800000, 1000000].getD m 0

/-- A number of a site, or 0xFF for none. -/
def siteOrNone (v : Int) : Bool := decide (0 ≤ v) && decide (v < 64) || v == 255

/-- A number of an EVT pin, or 0xFF for none. -/
def evtOrNone (v : Int) : Bool := decide (0 ≤ v) && decide (v < 8) || v == 255

/-- Ranges that the type table does not tell. (log 90, DEDUCED) -/
def State.inRange (s : State) (index sub : Nat) (v : Int) : Bool :=
  if 0x2030 ≤ index ∧ index ≤ 0x2038 ∧ sub ≤ 2 then
    let n := supplyNominal (index - 0x2030)
    let d := if index = 0x2038 then 10000 else n / 10
    n - d ≤ v ∧ v ≤ n + d
  else if 0x3400 ≤ index ∧ index < 0x3800 then
    if index % 16 = 1 ∧ (sub = 2 ∨ sub = 4) then v % 64 = 0 else true
  else if index = 0x5000 ∧ sub = 1 then v % 16 = 0
  else if 0x5400 ≤ index ∧ index < 0x5500 then siteOrNone v
  else if index = 0x7000 then
    if sub = 1 then v % 64 = 0 else v = 0 ∨ (2 ^ 20 ≤ v ∧ v ≤ 2 ^ 36 ∧ v % 64 = 0)
  else if 0x7300 ≤ index ∧ index < 0x7310 then
    if sub = 1 then siteOrNone v
    else if 4 ≤ sub ∧ sub ≤ 7 then v / 2 ^ 32 % 64 ≠ 0
    else if sub = 14 then v < index - 0x7300 ∨ v = 255
    else if sub = 15 then evtOrNone v
    else true
  else if index = 0x7400 then
    if sub = 2 then siteOrNone v else if sub = 15 then v = 1 ∨ v = 8 else true
  else if index = 0x8001 ∧ sub = 16 then evtOrNone v
  else if 0x8030 ≤ index ∧ index < 0x8038 ∧ sub = 1 then
    let number := v % 4096
    match (v / 8192).toNat with
    | 1 => number < 8
    | 2 => number < 2048
    | _ => number < 128
  else if index = 0x9000 ∧ sub = 7 then v = 4800 ∨ v = 5200 ∨ v = 5600 ∨ v = 6000 ∨ v = 6400
  else if (index = 0x9001 ∨ index = 0x9002) ∧ sub = 4 then v = 4 ∨ v = 8
  else if (index = 0x9001 ∨ index = 0x9002) ∧ sub = 5 then v = 16 ∨ v = 32
  else if index = 0xA101 then siteOrNone v
  else if index = 0xC010 ∧ sub = 2 then s.reg 0xC010 2 ≤ v ∧ v ≤ s.reg 0xC010 1
  else if index = 0xD010 ∧ sub = 2 then defaultSeverity (s.nreg 0xD010 1) ≤ 1 ∧ v ≤ 1
  else true

/-- Whether a per-record measurement definition is valid for its capture (R237). -/
def State.measDefOk (s : State) (n v : Nat) : Bool :=
  v / 2 ^ 28 = 0 || (s.nreg (capObj n) 1 ≠ 1 && (s.capSlots n).contains (v / 2 ^ 22 % 64))

/-- The cross-checks between fields and objects that s, holding the new value, must pass (row 12 of R506). -/
def State.consistent (s : State) (index sub : Nat) : Bool :=
  if 0x2030 ≤ index ∧ index ≤ 0x2038 then s.reg index 2 - s.reg index 1 ≥ s.reg index 3
  else if 0x3000 ≤ index ∧ index < 0x3400 then
    let d := s.reg index 1 - s.reg index 2
    match index % 16 with
    | 0 => 200000 ≤ d ∧ d ≤ 1200000
    | 2 => d ≥ s.reg index 3
    | _ => true
  else if index = 0x6000 then s.reg index 3 ≥ s.reg index 2 + 10 ∧ s.reg index 5 ≥ s.reg index 4 + 8
  else if 0x7100 ≤ index ∧ index < 0x7140 then
    let n := index - 0x7100
    if sub = 4 ∨ sub = 5 then s.reg index 4 + s.reg index 5 ≤ 1048576
    else if sub ≤ 2 then (List.range 8).all fun k => s.measDefOk n (s.nreg index (12 + k))
    else if sub ≥ 12 then s.measDefOk n (s.nreg index sub)
    else true
  else if index = 0x9000 ∧ sub = 2 then s.reg index 2 = 0 ∨ chanNos.all fun c => s.reg (0x9001 + c) 1 = 1
  else if index = 0x9001 ∨ index = 0x9002 then s.capacityOk
  else if index = 0xA000 ∧ sub ≤ 8 then s.reg index 1 ≤ s.reg index 2 ∧ s.reg index 7 ≥ s.reg index 8 + 10
  else if index = 0xA101 then
    s.nreg index sub ≥ 64 || (List.range 8).all fun k => k + 1 = sub || s.nreg index (k + 1) ≠ s.nreg index sub
  else true

/-! ### Effects -/

/-- A write under R190 or R200: held decisions cleared, LAST_CODE 0b11, a running monitor in UNDECIDED (R191, R198, R201). -/
def State.compareWritten (s : State) (p : Nat) : State :=
  let s := s.setNat (pinObj p 4) 4 3
  if (s.pin p).mon = .off then s.clearHeld p else s.monRestart p

/-- The DAC code of a level in µV: nearest step, ties upwards, clamped (R169). -/
def levelCode (v : Int) : Nat := min 4095 ((v * 4096 + 600000) / 1200000).toNat

/-- The levels of a pin realised by its DACs (R169). -/
def State.setLevels (s : State) (p : Nat) : State :=
  s.modPin p fun q => { q with dac := [1, 2, 3].map fun k => levelCode (s.reg (pinObj p 0) k) }

/-- The number of LINK_STATE that a role gives an engine whose link is OFF or no longer used (R303, R313). -/
def State.roleWritten (s : State) : State :=
  if s.reg 0xA100 1 = 0 then s.setNat 0xA100 4 0
  else if s.reg 0xA100 4 = 0 then s.setNat 0xA100 4 1 else s

/-- COMMAND of a trigger unit (R221, R226). -/
def State.unitCommand (s : State) (u code : Nat) : State :=
  match code with
  | 1 => s.armUnit u
  | 2 => s.fireUnit u none
  | _ => s.disarmUnit u

/-- COMMAND of a load window (R424). -/
def State.windowCommand (s : State) (w code : Nat) : Nat × State :=
  match code with
  | 1 => s.windowOpen w
  | 2 => s.windowFree w
  | _ => s.windowAbandon w

/-- CUST_COMMAND (R90). -/
def State.custCommand (s : State) (code : Nat) : Nat × State :=
  match code with
  | 1 => s.custOpen
  | 2 => s.custClose
  | _ => s.custClear

/-- A number that has passed rows 8 to 12: stored, or carried out (rows 9 and 14). `t` is s with the number stored. -/
def State.putNum (s t : State) (index sub : Nat) (v : Int) : Nat × State :=
  let n := v.toNat
  if index < 0x3000 then
    if 0x2030 ≤ index ∧ index ≤ 0x2038 then (0, t.supplyRestart (index - 0x2030)) else (0, t)
  else if index < 0x3400 then
    let p := (index - 0x3000) / 16
    match index % 16 with
    | 0 => (0, t.setLevels p)
    | 2 | 3 => (0, t.compareWritten p)
    | 5 => (0, if sub = 1 then t.monEnable p (v = 1) else t)
    | 10 => if s.extFits p sub v then (0, s.setExt p sub v) else (0x0109, s)
    | _ => (0, t)
  else if index < 0x3800 then
    if index % 16 = 0 ∧ sub = 2 then s.siteCommand ((index - 0x3400) / 16) n else (0, t)
  else if index = 0x4000 then s.custCommand n
  else if 0x7200 ≤ index ∧ index < 0x7240 then s.hostTrigger (index - 0x7200) n
  else if 0x7300 ≤ index ∧ index < 0x7310 ∧ sub = 2 then (0, s.unitCommand (index - 0x7300) n)
  else if index = 0x7400 ∧ sub ≠ 1 then
    let d := s.nreg 0x7400 1
    let x := s.mdef d
    (0, s.setDef d { x with vals := Table.set (regDefault 0x7400 sub) x.vals sub v })
  else if index = 0x8001 ∧ sub = 14 then (0, s.timeSet n)
  else if index = 0x8010 ∧ sub = 2 then (0, s.offsetAdj v)
  else if index = 0x8010 ∧ sub = 3 then (0, s.rateSet v)
  else if index = 0x9000 ∧ sub ≤ 2 then (0, if s.reg index sub = v then s else t.scatter)
  else if index = 0xA000 ∧ (sub = 7 ∨ sub = 8) then (0, t.holdOutNow)
  else if index = 0xA000 ∧ sub = 15 then s.widthByHost n
  else if index = 0xA000 ∧ sub = 17 then (0, s.restoreLink)
  else if index = 0xA100 ∧ sub = 1 then (0, t.roleWritten)
  else if index = 0xA100 ∧ sub = 3 then (0, s.startAlign)
  else if index = 0xB002 ∧ sub = 1 then (if n = 1 then s.calStart else (0, s.calCancel))
  else if index = 0xC002 then (0, s.ackBatch n)
  else if index = 0xC010 ∧ sub = 3 then (0, s.advanceEpoch)
  else if 0xC020 ≤ index ∧ index < 0xC040 ∧ sub = 3 then s.windowCommand (index - 0xC020) n
  else if index = 0xD010 ∧ sub = 2 then
    let e := s.nreg 0xD010 1
    (0, { s with ev := { s.ev with severity := Table.set (defaultSeverity e) s.ev.severity e n } })
  else if index = 0xD010 ∧ sub = 6 then s.raiseByHost (s.nreg 0xD010 1) (v = 1)
  else if index = 0xD100 ∧ sub = 6 then (0, s.tailFrom n)
  else if index = 0xD201 then s.decideByHost n
  else (0, t)

/-- Records of COEFFS (R404). -/
def calRecords : Nat → List Byte → List CalRec
  | 0, _ => []
  | k + 1, b =>
    if b.length < 16 then []
    else
      { domain := field b 0 0, unitNo := field b 1 1, quantity := field b 2 3, run := field b 4 4, retry := field b 5 5,
        reserved := field b 6 7, value := decodeNum true ((b.drop 8).take 8) } :: calRecords k (b.drop 16)

/-- An octet value, string or domain that has passed row 9: stored, or carried out. -/
def State.putOct (s : State) (index sub : Nat) (b : List Byte) : Nat × State :=
  if index = 0x4001 then s.writeHeader b
  else if 0x3400 ≤ index ∧ index < 0x3800 ∧ sub = 3 then
    let st := serialCfgStatus s.grade b
    (st, if st = 0 then s.setOct index sub b else s)
  else if index = 0xB010 then s.importBlob b
  else if index = 0xB040 then s.coeffs (calRecords (b.length / 16) b)
  else (0, s.setOct index sub b)

/-- A whole value written (R344): rows 8 to 14 of R506 in their order, the status and what follows. A refused write changes nothing
but what the governing rule counts. (log 148, DESIGN CHOICE) -/
def State.writeValue (s : State) (cap index sub : Nat) (b : List Byte) : Nat × State :=
  match findSub index sub with
  | none => (0x0102, s)
  | some r =>
    let len := lengthStatus cap index sub b.length
    if len ≠ 0 then (len, s)
    else if !typeHolds r.ty b then (0x0106, s)
    else
      let v := if r.ty.numeric then decodeNum r.ty.signed b else 0
      let high : Bool := match r.top with | some m => v > m | none => false
      let out : Bool := match r.range with | some (a, z) => v < a ∨ v > z | none => false
      if !s.condOk r.cond index sub v.toNat then (0x0108, s)
      else if !r.ty.numeric then s.putOct index sub b
      else if high ∨ v.toNat &&& r.reserved ≠ 0 ∨ badReserved index sub v.toNat then (0x0107, s)
      else if out ∨ !s.inRange index sub v then (0x0106, s)
      else
        let t := (s.setReg index sub v).keepForce index sub (s.reg index sub)
        if !t.consistent index sub then (0x0109, s) else s.putNum t index sub v

end Sys2Proof.Machine
end

