-- ==== Sys2Proof/Machine/Rosec.lean ====
section
/-! DEFINITION. The Rosec responder (R346-R358, R506, R508) and every host request. -/

namespace Sys2Proof.Machine

/-! ### Levels and device states -/

/-- The level the engine applies to a station (R356, R364); 0 is none. -/
def State.levelOf (s : State) (src : Nat) : Nat :=
  if src = 0 ∨ src > 254 then 3
  else match s.nreg 0x1021 src with
    | 0 => 3
    | 255 => 0
    | l => l

/-- The DOMAIN limit of a level (R357). -/
def domainLimit (level : Nat) : Nat := if level = 5 then 16777216 else 1048576

/-- The shortest SUBSCRIBE period of a level (R357). -/
def shortestPeriod (level : Nat) : Nat := if level = 5 then 125 else 1250

/-- Whether level 3 offers an object (R357). -/
def levelThree (index : Nat) : Bool :=
  (0x1000 ≤ index && index < 0x2000) || (0x2000 ≤ index && index ≤ 0x2002) || (0xD000 ≤ index && index < 0xF000)

/-- What a request asks for: its service, object and OFFSET, and UPLOAD (R347). -/
structure Ask where
  service : Nat
  index : Nat := 0
  sub : Nat := 0
  offset : Nat := 0
  upload : Bool := false
  deriving DecidableEq, Repr

/-- The ring frame of a request (R320). -/
def reqFrame (r : Req) : RingFrame :=
  { good := r.good, overflow := r.overflow, type := 1, sa := r.sa, src := r.src, dst := r.dst, hops := r.hops, dual := r.dual, seq := r.seq,
    length := r.payload.length, payload := r.payload }

/-- A request taken from the ring under R322-R324: whether this station consumes it, and the state once it has been filtered and sent on. -/
def State.arrives (s : State) (r : Req) : Bool × State := s.receiveFrame r.port (reqFrame r) r.room

/-- Whether a request is a read (R508). -/
def Ask.reads (q : Ask) : Bool := q.service == 1 || (q.service == 3 && q.upload)

/-- Whether a request writes (R508). -/
def Ask.writes (q : Ask) : Bool := q.service == 2 || (q.service == 3 && !q.upload)

/-- Row 3 of R506: the level agreed, the header's LEVEL, and the service and object within it (R356, R357). -/
def State.levelOk (s : State) (r : Req) (q : Ask) : Bool :=
  let l := s.levelOf r.src
  q.service == 6 || q.service == 7
    || (l ≠ 0 && r.level = l && (l ≠ 3 || (q.service ≠ 4 && levelThree q.index)))

/-- The writes of step 5 (R469). -/
def stepFiveWrite (index sub : Nat) : Bool :=
  (index = 0x9000 && sub = 7) || ((index = 0x9001 || index = 0x9002) && ((1 ≤ sub && sub ≤ 5) || sub = 8))
    || (index = 0x2100 && sub = 1) || (index = 0xB010 && sub = 1) || (index = 0x4001 && sub = 1)

/-- Row 4 of R506: whether a request is served in the present device state (R325, R469, R471, R508). -/
def State.served (s : State) (q : Ask) : Bool :=
  let asked := q.writes && q.index == 0x2001 && q.sub == 1
  let few := q.reads && [0x1000, 0x1001, 0x2000, 0x2010, 0xC000].contains q.index
  q.service == 6 || q.service == 7 || asked
    || match s.mode with
      | .off => false
      | .service => true
      | .sleep => few
      | .safeHalt => few || (q.reads && (q.index == 0x2002 || q.index == 0xD100))
      | .warmStart => q.reads
      | .coldStart =>
        if s.start.step < 5 then few || (q.reads && q.index == 0x2002)
        else q.reads || (s.start.step = 5 && q.writes && stepFiveWrite q.index q.sub)

/-- Rows 2 to 4 of R506: SERVICE, LEVEL, DEVICE_STATE, or 0. -/
def State.gate (s : State) (r : Req) (q : Ask) : Nat :=
  if r.badHeader then 0x0201
  else if !s.levelOk r q then 0x0202
  else if !s.served q then 0x010A
  else 0

/-! ### Responses (R347, R349, R350) -/

/-- What a request is answered: status, data, TOTAL and LAST, and the code of 0x2001 that takes effect after the response (R361). -/
structure Answer where
  status : Nat := 0
  data : List Byte := []
  total : Nat := 0
  last : Bool := false
  after : Nat := 0
  deriving DecidableEq, Repr

/-- A response sent, by both ports while the ring is WRAPPED (R333, R349); one with a status other than OK is counted (R363). -/
def State.sendReply (s : State) (m : Reply) : State :=
  let s := if m.status ≠ 0 then s.bump 0x1020 4 else s
  s.originate 1 m.dst (32 + m.data.length) fun ps h => .response ps h m

/-- The response to a request. -/
def State.replyTo (s : State) (r : Req) (q : Ask) (a : Answer) : Reply :=
  { dst := if r.src = 0 then 255 else r.src, service := q.service, tid := r.tid, index := q.index, sub := q.sub,
    level := s.levelOf r.src, status := a.status, offset := q.offset, total := a.total, last := a.last, data := a.data }

/-- Whether a kept response has the key of a request (R350). -/
def Kept.matches (k : Kept) (sa tid offset : Nat) : Bool := k.sa == sa && k.reply.tid == tid && k.reply.offset == offset

/-- The kept response of a request, for 10 ms, 125,000 frames (R350). -/
def State.keptFor (s : State) (r : Req) (q : Ask) : Option Kept :=
  s.rosec.kept.find? fun k => k.matches r.sa r.tid q.offset && decide (s.now < k.stamp + 125000)

/-- A response kept: up to 64 keys for each sender, the oldest dropped first (R350). -/
def State.keep (s : State) (sa : Nat) (m : Reply) : State :=
  let l := s.rosec.kept.filter fun k => decide (s.now < k.stamp + 125000) && !k.matches sa m.tid m.offset
  let l := if (l.filter (·.sa == sa)).length ≥ 64 then l.eraseP (·.sa == sa) else l
  { s with rosec := { s.rosec with kept := l ++ [{ sa := sa, stamp := s.now, reply := m }] } }

/-- Requests that wait: 64, or 16 with the Night porter (R326, R349). -/
def State.queueLimit (s : State) : Nat := if s.mode = .sleep then 16 else 64

/-- Whether the responder runs: power is up and RESET_N is not low. -/
def State.responds (s : State) : Bool := s.mode ≠ .off && !s.start.resetLow

/-- A consumed request answered (R346, R349, R350, R506): `body` carries out rows 5 to 14. (log 86, DEDUCED) -/
def State.answer (s : State) (r : Req) (q : Ask) (body : State → Answer × State) : State :=
  if r.ahead ≥ s.queueLimit then s.sendReply (s.replyTo r q { status := 0x0209 })
  else
    let s := s.peak 0x1020 6 (r.ahead + 1)
    match s.keptFor r q with
    | some k => (s.bump 0x1020 5).sendReply k.reply
    | none =>
      let g := s.gate r q
      let e : Answer × State := if g ≠ 0 then ({ status := g }, s) else body (s.bump 0x1020 3)
      let m := e.2.replyTo r q e.1
      let s := (e.2.sendReply m).keep r.sa m
      if e.1.after = 0 then s else s.request e.1.after

/-- One request: its frame passes the rules of the ring (R322-R324), and is answered where this station consumes it. -/
def State.serve (s : State) (r : Req) (q : Ask) (body : State → Answer × State) : State :=
  if !s.responds then s
  else
    let t := s.arrives r
    if t.1 then t.2.answer r q body else t.2

/-- Whether another requester holds a snapshot of an object (R353). -/
def State.snapshotOf (s : State) (sa index sub : Nat) : Bool :=
  s.rosec.uploads.any fun t => t.index == index && t.sub == sub && t.sa != sa

/-! ### READ and WRITE (R351) -/

/-- READ: the whole value of one sub, up to 4,096 bytes. -/
def State.readBody (r : Req) (index sub : Nat) (s : State) : Answer × State :=
  let st := readRight index sub
  if st ≠ 0 then ({ status := st }, s)
  else if s.snapshotOf r.sa index sub then ({ status := 0x0203 }, s)
  else if s.valueLength index sub > 4096 then ({ status := 0x0206 }, s)
  else
    let v := s.takeValue index sub
    ({ data := v.1 }, v.2)

/-- REQUEST of 0x2001 (R361): the response precedes the effect. -/
def State.requestBody (b : List Byte) (s : State) : Answer × State :=
  let code := ofBytes b
  if b.length ≠ 1 then ({ status := 0x0105 }, s)
  else if code = 0 ∨ code > 4 then ({ status := 0x0107 }, s)
  else if !s.requestOk code then ({ status := 0x010A }, s)
  else ({ after := code }, s)

/-- A whole value written by a requester at a level. (log 89, DEDUCED) -/
def State.putBody (level index sub : Nat) (b : List Byte) (s : State) : Answer × State :=
  if index = 0x2001 then s.requestBody b
  else
    let r := s.writeValue (domainLimit level) index sub b
    ({ status := r.1 }, r.2)

/-- WRITE: a value of up to 8 bytes. -/
def State.writeBody (r : Req) (index sub : Nat) (b : List Byte) (s : State) : Answer × State :=
  let st := writeRight index sub
  if st ≠ 0 then ({ status := st }, s)
  else if s.snapshotOf r.sa index sub then ({ status := 0x0203 }, s)
  else if b.length > 8 then ({ status := 0x0105 }, s)
  else s.putBody (s.levelOf r.src) index sub b

/-! ### SEGMENT (R352, R353) -/

/-- Transfers and snapshots open: at most 8 together (R352, R353). -/
def State.openCount (s : State) : Nat := s.rosec.transfers.length + s.rosec.uploads.length

/-- s with the Rosec responder changed. -/
def State.modRosec (s : State) (f : Rosec → Rosec) : State := { s with rosec := f s.rosec }

/-- The transfer open on an object. -/
def State.transferOn (s : State) (index sub : Nat) : Option Transfer :=
  s.rosec.transfers.find? fun t => t.index == index && t.sub == sub

/-- The snapshot held of an object. -/
def State.uploadOn (s : State) (index sub : Nat) : Option Upload :=
  s.rosec.uploads.find? fun t => t.index == index && t.sub == sub

/-- The transfer on an object closed. -/
def State.closeTransfer (s : State) (index sub : Nat) : State :=
  s.modRosec fun x => { x with transfers := x.transfers.filter fun t => !(t.index == index && t.sub == sub) }

/-- The snapshot of an object released. -/
def State.closeUpload (s : State) (index sub : Nat) : State :=
  s.modRosec fun x => { x with uploads := x.uploads.filter fun t => !(t.index == index && t.sub == sub) }

/-- Whether a segment breaks the order within its transfer of `done` bytes (R352). -/
def segmentOrder (done offset total n : Nat) (last : Bool) : Bool :=
  offset ≠ done || decide (offset + n > total) || last ≠ decide (offset + n = total)

/-- A segment taken into the transfer it continues; the last one writes the value (R352). (log 87, DEDUCED) -/
def State.takeSegment (s : State) (level : Nat) (t : Transfer) (b : List Byte) (last : Bool) : Answer × State :=
  let t := { t with data := t.data ++ b, touched := s.now }
  let s := s.closeTransfer t.index t.sub
  if last then s.putBody level t.index t.sub t.data
  else ({}, s.modRosec fun x => { x with transfers := x.transfers ++ [t] })

/-- A remembered abandoned transfer forgotten, of one requester or of all. -/
def State.forget (s : State) (index sub : Nat) (sa : Option Nat) : State :=
  s.modRosec fun x => { x with abandoned := x.abandoned.filter fun a =>
    !(a.1 == index && a.2.1 == sub && (sa.isNone || sa == some a.2.2)) }

/-- SEGMENT of a segmented write (R352), in the order of R506. -/
def State.segmentBody (r : Req) (index sub offset total : Nat) (last : Bool) (b : List Byte) (s : State) : Answer × State :=
  let st := writeRight index sub
  let level := s.levelOf r.src
  if st ≠ 0 then ({ status := st }, s)
  else match s.transferOn index sub with
    | some t =>
      if t.sa ≠ r.sa then ({ status := 0x0203 }, s)
      else if segmentOrder t.data.length offset t.total b.length last then ({ status := 0x0204 }, s)
      else
        let len := lengthStatus (domainLimit level) index sub total
        if len ≠ 0 then ({ status := len }, s) else s.takeSegment level t b last
    | none =>
      let known := s.rosec.abandoned.contains (index, sub, r.sa)
      let s := s.forget index sub (some r.sa)
      if (s.uploadOn index sub).isSome then ({ status := 0x0203 }, s)
      else if offset > 0 ∧ known then ({ status := 0x0205 }, s)
      else if segmentOrder 0 offset total b.length last then ({ status := 0x0204 }, s)
      else if s.openCount ≥ 8 then ({ status := 0x0208 }, s)
      else
        let len := lengthStatus (domainLimit level) index sub total
        if len ≠ 0 then ({ status := len }, s)
        else (s.forget index sub none).takeSegment level { index := index, sub := sub, sa := r.sa, total := total } b last

/-- A piece of a snapshot, at most the 4,096 data bytes of one message (R347, R353). (log 180, DEDUCED) -/
def State.piece (s : State) (u : Upload) (offset length : Nat) : Answer × State :=
  if offset > u.data.length then
    ({ status := 0x0204 }, (s.closeUpload u.index u.sub).modRosec fun x => { x with uploads := x.uploads ++ [{ u with touched := s.now }] })
  else
    let b := (u.data.drop offset).take (min length 4096)
    let last := decide (offset + b.length = u.data.length)
    let s := s.closeUpload u.index u.sub
    let s := if last then s else s.modRosec fun x => { x with uploads := x.uploads ++ [{ u with touched := s.now }] }
    ({ data := b, total := u.data.length, last := last }, s)

/-- SEGMENT with UPLOAD set (R353). -/
def State.uploadBody (r : Req) (index sub offset length : Nat) (s : State) : Answer × State :=
  let st := readRight index sub
  if st ≠ 0 then ({ status := st }, s)
  else match s.uploadOn index sub with
    | some u => if u.sa ≠ r.sa then ({ status := 0x0203 }, s) else s.piece u offset length
    | none =>
      if (s.transferOn index sub).isSome then ({ status := 0x0203 }, s)
      else if offset > 0 then
        ({ status := if s.rosec.timedOut.contains (index, sub, r.sa) then 0x0205 else 0x0204 }, s)
      else if s.openCount ≥ 8 then ({ status := 0x0208 }, s)
      else
        let v := s.takeValue index sub
        let s := (v.2.forget index sub none).modRosec fun x => { x with timedOut := x.timedOut.filter (· ≠ (index, sub, r.sa)) }
        s.piece { index := index, sub := sub, sa := r.sa, data := v.1, touched := s.now } 0 length

/-- SEGMENT with ABORT set (R352, R353). -/
def State.abortBody (r : Req) (index sub : Nat) (upload : Bool) (s : State) : Answer × State :=
  let st := if upload then readRight index sub else writeRight index sub
  if st ≠ 0 then ({ status := st }, s)
  else
    let held := ((s.transferOn index sub).map (·.sa)).or ((s.uploadOn index sub).map (·.sa))
    match held with
    | some sa =>
      if sa ≠ r.sa then ({ status := 0x0203 }, s)
      else ({ status := 0x0207 }, if upload then s.closeUpload index sub else s.closeTransfer index sub)
    | none => ({ status := 0x0207 }, if upload then s else s.forget index sub (some r.sa))

/-! ### SUBSCRIBE (R354) -/

/-- SUBSCRIBE with a period, which starts or renews a subscription. -/
def State.subscribeBody (r : Req) (index sub period : Nat) (s : State) : Answer × State :=
  let st := readRight index sub
  let mine (x : Subscription) : Bool := x.src == r.src && x.index == index && x.sub == sub
  let new : Subscription := { src := r.src, index := index, sub := sub, period := period, due := s.now + 1 }
  if st ≠ 0 then ({ status := st }, s)
  else if s.snapshotOf r.sa index sub then ({ status := 0x0203 }, s)
  else if !s.rosec.subs.any mine ∧ s.rosec.subs.length ≥ 64 then ({ status := 0x0208 }, s)
  else if s.valueLength index sub > 4096 then ({ status := 0x0206 }, s)
  else if period < shortestPeriod (s.levelOf r.src) ∨ period > 16777215 then ({ status := 0x0106 }, s)
  else if s.rosec.subs.any mine then ({}, s.modRosec fun x => { x with subs := x.subs.map fun y => if mine y then new else y })
  else ({}, s.modRosec fun x => { x with subs := x.subs ++ [new] })

/-- SUBSCRIBE with TOTAL 0. -/
def State.unsubscribeBody (r : Req) (index sub : Nat) (s : State) : Answer × State :=
  let st := readRight index sub
  if st ≠ 0 then ({ status := st }, s)
  else if s.snapshotOf r.sa index sub then ({ status := 0x0203 }, s)
  else ({}, s.modRosec fun x => { x with subs := x.subs.filter fun y => !(y.src == r.src && y.index == index && y.sub == sub) })

/-- PUBLICATION (R354): the i-th subscription publishes what stood at its tick, those due at one tick in order of number. With no port to carry
it, it stays unsent (R327). -/
def execPublication (i : Nat) (s : State) : Out :=
  match s.rosec.subs[i]? with
  | some { src := src, index := index, sub := sub, ready := some (t, b), .. } =>
    let earlier := (s.rosec.subs.take i).any fun y => match y.ready with | some (u, _) => decide (u ≤ t) | none => false
    if earlier ∨ s.outPorts.isEmpty then .next s
    else
      let s := s.modRosec fun x => { x with subs := x.subs.modify i fun y => { y with ready := none } }
      .next (s.originate 1 src (32 + b.length) fun ps h => .publication ps h index sub (t % 2 ^ 32) b)
  | _ => .next s

/-! ### NEGOTIATE and DISCOVER (R356, R358) -/

/-- NEGOTIATE (R356). Subscriptions that run go on after a station has come down to level 3, where SUBSCRIBE is not offered: the spec does
not end them. (log 115, DESIGN CHOICE) -/
def State.negotiateBody (r : Req) (b : List Byte) (s : State) : Answer × State :=
  let lo := ofBytes (b.take 1)
  let hi := ofBytes (b.drop 1)
  let out (status level : Nat) : Answer := { status := status, data := beBytes 1 3 ++ beBytes 1 5 ++ beBytes 1 level }
  if b.length ≠ 2 then ({ status := 0x0105 }, s)
  else if lo > hi then ({ status := 0x0106 }, s)
  else if r.src = 0 ∨ r.src > 254 then (if lo ≤ 3 ∧ 3 ≤ hi then out 0 3 else out 0x0202 0, s)
  else if lo ≤ 5 ∧ 3 ≤ hi then (out 0 (min hi 5), s.setNat 0x1021 r.src (min hi 5))
  else (out 0x0202 0, (s.setNat 0x1021 r.src 255).raiseRanges 1698 3 5 lo hi)

/-- A station record as it travels (R336). -/
def walkRecBytes (w : WalkRec) : List Byte :=
  beBytes 8 w.uid ++ beBytes 1 w.station ++ beBytes 1 w.part ++ beBytes 1 w.grade ++ beBytes 1 w.range ++ beBytes 1 w.state
    ++ beBytes 1 w.flags ++ zeroBytes 2

/-- DISCOVER. -/
def State.discoverBody (r : Req) (s : State) : Answer × State :=
  ({ data := walkRecBytes (s.walkRec r.port { id := 0, next := 0 }) }, s)

/-! ### Requests -/

/-- A READ of index:sub. -/
def State.hostRead (s : State) (r : Req) (index sub : Nat) : State :=
  s.serve r { service := 1, index := index, sub := sub } (State.readBody r index sub)

/-- A WRITE of bytes to index:sub. -/
def State.hostWrite (s : State) (r : Req) (index sub : Nat) (b : List Byte) : State :=
  s.serve r { service := 2, index := index, sub := sub } (State.writeBody r index sub b)

/-- A SEGMENT to index:sub. -/
def State.hostSegment (s : State) (r : Req) (index sub offset total : Nat) (last : Bool) (b : List Byte) : State :=
  s.serve r { service := 3, index := index, sub := sub, offset := offset } (State.segmentBody r index sub offset total last b)

/-- A value written in one segment. -/
def State.hostWhole (s : State) (r : Req) (index sub : Nat) (b : List Byte) : State :=
  s.hostSegment r index sub 0 b.length true b

/-- READ (R351). -/
def execRead (r : Req) (index sub : Nat) (s : State) : Out := .next (s.hostRead r index sub)
/-- WRITE (R351). -/
def execWrite (r : Req) (index sub : Nat) (bytes : List Byte) (s : State) : Out := .next (s.hostWrite r index sub bytes)
/-- SEGMENT (R352). -/
def execSegment (r : Req) (index sub offset total : Nat) (last : Bool) (bytes : List Byte) (s : State) : Out :=
  .next (s.hostSegment r index sub offset total last bytes)
/-- SEGMENT_UPLOAD (R353). -/
def execSegmentUpload (r : Req) (index sub offset length : Nat) (s : State) : Out :=
  .next (s.serve r { service := 3, index := index, sub := sub, offset := offset, upload := true } (State.uploadBody r index sub offset length))
/-- ABORT (R352, R353). -/
def execAbort (r : Req) (index sub : Nat) (upload : Bool) (s : State) : Out :=
  .next (s.serve r { service := 3, index := index, sub := sub, offset := r.offset, upload := upload }
    (State.abortBody r index sub upload))
/-- SUBSCRIBE (R354). A period of 0 ends the subscription. -/
def execSubscribe (r : Req) (index sub period : Nat) (s : State) : Out :=
  .next (s.serve r { service := 4, index := index, sub := sub }
    (if period = 0 then State.unsubscribeBody r index sub else State.subscribeBody r index sub period))
/-- UNSUBSCRIBE (R354). -/
def execUnsubscribe (r : Req) (index sub : Nat) (s : State) : Out :=
  .next (s.serve r { service := 4, index := index, sub := sub } (State.unsubscribeBody r index sub))
/-- NEGOTIATE (R356). -/
def execNegotiate (r : Req) (bytes : List Byte) (s : State) : Out :=
  .next (s.serve r { service := 6 } (State.negotiateBody r bytes))
/-- DISCOVER (R358). -/
def execDiscover (r : Req) (s : State) : Out := .next (s.serve r { service := 7 } (State.discoverBody r))

/-- SEGMENT_ABANDON (R352): 100 ms, 1,250,000 frames, without an accepted segment; the last 8 abandoned are remembered. -/
def execSegmentAbandon (index sub : Nat) (s : State) : Out :=
  match s.transferOn index sub with
  | some t =>
    if s.now ≥ t.touched + 1250000 then
      let s := ((s.closeTransfer index sub).forget index sub (some t.sa)).bump 0x1020 8
      .next (s.modRosec fun x => { x with abandoned := (x.abandoned ++ [(index, sub, t.sa)]).drop (x.abandoned.length - 7) })
    else .next s
  | none => .next s

/-- UPLOAD_RELEASE (R353): 100 ms after the last request of a snapshot. (log 88, DEDUCED) -/
def execUploadRelease (index sub : Nat) (s : State) : Out :=
  match s.uploadOn index sub with
  | some u =>
    if s.now ≥ u.touched + 1250000 then
      .next ((s.closeUpload index sub).modRosec fun x =>
        { x with timedOut := x.timedOut.filter (· ≠ (index, sub, u.sa)) ++ [(index, sub, u.sa)] })
    else .next s
  | none => .next s

/-! ### NOTIFY (R348, R355) -/

/-- NOTIFY_CONFIRM: a message with RESPONSE set confirms the NOTIFY of its TID, or is a stray. -/
def execNotifyConfirm (_src : Nat) (tid : Nat) (s : State) : Out :=
  if !s.responds then .next s
  else if s.rosec.notifies.any (·.tid == tid) then
    .next (s.modRosec fun x => { x with notifies := x.notifies.filter (·.tid ≠ tid) })
  else .next (s.bump 0x1020 12)

/-- NOTIFY_RETRY: 1 ms, 12,500 frames, unconfirmed: sent again, or lost after the retries that stood when it was first sent (R363). -/
def execNotifyRetry (tid : Nat) (s : State) : Out :=
  match s.rosec.notifies.find? (·.tid == tid) with
  | some y =>
    if s.now < y.sentAt + 12500 then .next s
    else if y.tries < y.retries then
      let s := s.modRosec fun x => { x with notifies := x.notifies.map fun z =>
        if z.tid = tid then { z with tries := z.tries + 1, sentAt := s.now } else z }
      .next (s.sendNotify y)
    else .next (((s.modRosec fun x => { x with notifies := x.notifies.filter (·.tid ≠ tid) }).bump 0x1020 11).raise 1699)
  | none => .next s

/-! ### Requests with a row of their own -/

/-- A site command written (R27, R29). -/
def State.commandSite (s : State) (r : Req) (n code : Nat) : State := s.hostWrite r (siteObj n 0) 2 (beBytes 1 code)

/-- LOAD (R30). -/
def execLoad (r : Req) (n : SiteId) (s : State) : Out := .next (s.commandSite r n 1)
/-- ARM (R31, R107, R181). -/
def execArm (r : Req) (n : SiteId) (s : State) : Out := .next (s.commandSite r n 2)
/-- START (R9, R25). -/
def execStart (r : Req) (n : SiteId) (s : State) : Out := .next (s.commandSite r n 3)
/-- HALT written by the host (R36). -/
def execHaltCommand (r : Req) (n : SiteId) (s : State) : Out := .next (s.commandSite r n 4)
/-- RESET (R29). -/
def execReset (r : Req) (n : SiteId) (s : State) : Out := .next (s.commandSite r n 5)
/-- RELEASE (R29). -/
def execRelease (r : Req) (n : SiteId) (s : State) : Out := .next (s.commandSite r n 6)
/-- SEAL_HALTED (R36). -/
def execSealHalted (r : Req) (n : SiteId) (s : State) : Out := .next (s.commandSite r n 7)
/-- DISARM (R29). -/
def execDisarm (r : Req) (n : SiteId) (s : State) : Out := .next (s.commandSite r n 8)

/-- HEADER (R89, R94). -/
def execHeader (r : Req) (bytes : List Byte) (s : State) : Out := .next (s.hostWhole r 0x4001 1 bytes)
/-- CUST_OPEN (R90). -/
def execCustOpen (r : Req) (s : State) : Out := .next (s.hostWrite r 0x4000 4 [1])
/-- CUST_CLOSE (R90). -/
def execCustClose (r : Req) (s : State) : Out := .next (s.hostWrite r 0x4000 4 [2])
/-- CUST_CLEAR (R90). -/
def execCustClear (r : Req) (s : State) : Out := .next (s.hostWrite r 0x4000 4 [3])
/-- MON_ENABLE (R201). -/
def execMonEnable (r : Req) (n : PinId) (s : State) : Out := .next (s.hostWrite r (pinObj n 5) 1 [1])
/-- TU_ARM (R221). -/
def execTuArm (r : Req) (u : UnitId) (s : State) : Out := .next (s.hostWrite r (tuObj u) 2 [1])
/-- TU_FIRE (R226). -/
def execTuFire (r : Req) (u : UnitId) (s : State) : Out := .next (s.hostWrite r (tuObj u) 2 [2])
/-- TU_DISARM (R221). -/
def execTuDisarm (r : Req) (u : UnitId) (s : State) : Out := .next (s.hostWrite r (tuObj u) 2 [3])
/-- HOST_TRIGGER (R240). -/
def execHostTrigger (r : Req) (n : SiteId) (k : Nat) (s : State) : Out := .next (s.hostWrite r (capStat n) 11 (beBytes 8 k))
/-- TRAINING (R283). -/
def execTraining (r : Req) (ch : ChanId) (bytes : List Byte) (s : State) : Out := .next (s.hostWhole r (0x9001 + ch) 8 bytes)
/-- RESTORE (R301). -/
def execRestore (r : Req) (v : Nat) (s : State) : Out := .next (s.hostWrite r 0xA000 17 (beBytes 1 v))
/-- WIDTH_CHOICE (R300). -/
def execWidthChoice (r : Req) (w : Nat) (s : State) : Out := .next (s.hostWrite r 0xA000 15 (beBytes 1 w))
/-- ALIGN (R312). -/
def execAlign (r : Req) (s : State) : Out := .next (s.hostWrite r 0xA100 3 [1])
/-- COLD_START (R361, R473). -/
def execColdStart (r : Req) (s : State) : Out := .next (s.hostWrite r 0x2001 1 [2])
/-- WARM_START (R361, R471). -/
def execWarmStart (r : Req) (s : State) : Out := .next (s.hostWrite r 0x2001 1 [1])
/-- SLEEP (R361, R477). -/
def execSleep (r : Req) (s : State) : Out := .next (s.hostWrite r 0x2001 1 [3])
/-- WAKE (R361, R479). -/
def execWake (r : Req) (s : State) : Out := .next (s.hostWrite r 0x2001 1 [4])
/-- OFFSET_ADJ (R376). -/
def execOffsetAdj (r : Req) (d : Int) (s : State) : Out := .next (s.hostWrite r 0x8010 2 (encodeInt 8 d))
/-- RATE_SET (R376). -/
def execRateSet (r : Req) (v : Int) (s : State) : Out := .next (s.hostWrite r 0x8010 3 (encodeInt 8 v))
/-- TIME_SET (R379). -/
def execTimeSet (r : Req) (t : Nat) (s : State) : Out := .next (s.hostWhole r 0x8001 14 (beBytes 10 t))
/-- CAL_START (R395). -/
def execCalStart (r : Req) (s : State) : Out := .next (s.hostWrite r 0xB002 1 [1])
/-- CAL_CANCEL (R398). -/
def execCalCancel (r : Req) (s : State) : Out := .next (s.hostWrite r 0xB002 1 [2])
/-- BLOB_EXPORT (R407): an upload of BLOB from its start, 4,096 bytes asked for. -/
def execBlobExport (r : Req) (s : State) : Out :=
  .next (s.serve r { service := 3, index := 0xB010, sub := 1, upload := true } (State.uploadBody r 0xB010 1 0 4096))
/-- BLOB_IMPORT (R408). -/
def execBlobImport (r : Req) (bytes : List Byte) (s : State) : Out := .next (s.hostWhole r 0xB010 1 bytes)

/-- A coefficient record as it travels (R404). -/
def coeffBytes (c : CalRec) : List Byte :=
  beBytes 1 c.domain ++ beBytes 1 c.unitNo ++ beBytes 2 c.quantity ++ beBytes 1 c.run ++ beBytes 1 c.retry ++ beBytes 2 c.reserved
    ++ encodeInt 8 c.value

/-- COEFFS (R404). -/
def execCoeffs (r : Req) (records : List CalRec) (s : State) : Out := .next (s.hostWhole r 0xB040 2 (records.flatMap coeffBytes))
/-- ACK_BATCH (R432). -/
def execAckBatch (r : Req) (seq : Nat) (s : State) : Out := .next (s.hostWrite r 0xC002 5 (beBytes 8 seq))
/-- WINDOW_OPEN (R424). -/
def execWindowOpen (r : Req) (w : Fin 32) (s : State) : Out := .next (s.hostWrite r (0xC020 + w) 3 [1])
/-- WINDOW_FREE (R424). -/
def execWindowFree (r : Req) (w : Fin 32) (s : State) : Out := .next (s.hostWrite r (0xC020 + w) 3 [2])
/-- WINDOW_ABANDON (R424). -/
def execWindowAbandon (r : Req) (w : Fin 32) (s : State) : Out := .next (s.hostWrite r (0xC020 + w) 3 [3])
/-- ADVANCE (R435). -/
def execAdvance (r : Req) (s : State) : Out := .next (s.hostWrite r 0xC010 3 [1])
/-- DECISION (R458). -/
def execDecision (r : Req) (level : Nat) (s : State) : Out := .next (s.hostWrite r 0xD201 4 (beBytes 1 level))

/-- RAISE (R56, R449): a 1 written to RAISE while SELECT names the source. -/
def execRaise (r : Req) (source : Nat) (s : State) : Out :=
  if s.nreg 0xD010 1 = source then .next (s.hostWrite r 0xD010 6 [1]) else .next s
/-- TAIL (R452). -/
def execTail (r : Req) (seq : Nat) (s : State) : Out := .next (s.hostWrite r 0xD100 6 (beBytes 4 seq))

end Sys2Proof.Machine
end

