-- ==== Sys2Proof/Machine/TestAccess.lean ====
section
/-! DEFINITION. The test access port (R504). -/

namespace Sys2Proof.Machine

/-- A scan instruction loaded: boundary scan runs only while RESET_N is asserted, and acts as BYPASS otherwise. BYPASS gives one 0. -/
def State.scan (s : State) (i : JtagInstr) : State :=
  if s.start.resetLow ∧ s.mode ≠ .off then { s with jtag := { s.jtag with instr := i } }
  else ({ s with jtag := { s.jtag with instr := .bypass } }).send (.tdo [false])

/-- IDCODE of the stepping: the low 4 bits of its major number, 0x9064, the manufacturer's code and 1. -/
def State.idcodeWord (s : State) : BitVec 32 :=
  BitVec.ofNat 4 (s.step / 256) ++ (0x9064 : BitVec 16) ++ Config.manufacturer ++ (1 : BitVec 1)

/-- BYPASS. -/
def execBypass (s : State) : Out := .next (({ s with jtag := { s.jtag with instr := .bypass } }).send (.tdo [false]))

/-- IDCODE: 32 bits, the lowest first. -/
def execIdcode (s : State) : Out :=
  let w := s.idcodeWord
  .next (({ s with jtag := { s.jtag with instr := .idcode } }).send (.tdo ((List.range 32).map fun i => w.getLsbD i)))

/-- SAMPLE/PRELOAD: the values at the balls, free values here, leave as the new ones enter the cells. (log 100, DESIGN CHOICE) -/
def execSamplePreload (cells : List Bool) (s : State) : Out :=
  if s.start.resetLow ∧ s.mode ≠ .off then
    let seen := (List.range cells.length).map fun i => natBit (Config.freeValue (s.freeCtr + i)) 0
    .next (({ s with jtag := { instr := .sample, cells := cells }, freeCtr := s.freeCtr + cells.length }).send (.tdo seen))
  else .next (s.scan .sample)

/-- EXTEST. -/
def execExtest (s : State) : Out := .next (s.scan .extest)

/-- HIGHZ. -/
def execHighz (s : State) : Out := .next (s.scan .highz)

/-- CLAMP. -/
def execClamp (s : State) : Out := .next (s.scan .clamp)

/-- EXTEST_PULSE. -/
def execExtestPulse (s : State) : Out := .next (s.scan .extestPulse)

/-- EXTEST_TRAIN. -/
def execExtestTrain (s : State) : Out := .next (s.scan .extestTrain)

end Sys2Proof.Machine
end

