-- ==== Sys2Proof/Machine/Frame.lean ====
section
/-! DEFINITION. The frame tick (R15): what the closing frame owes, the clocks, and the commits in their fixed order. -/

namespace Sys2Proof.Machine

/-! ### The closing frame -/

/-- Numbers of the sites that hold anything. -/
def State.siteKeys (s : State) : List Nat := s.sites.map (·.1)

/-- How many entries and vectors of one frame are taken at its end: 128 vectors of the shortest period, and entries of no length. (log 25, DESIGN CHOICE) -/
def frameFuel : Nat := 1024

/-- The serial session of a pin of site n up to the end of the frame: it starts, sends and ends where no step has said so (R171-R175). -/
def State.serialFrame (s : State) (n p : Nat) : State :=
  let q := s.pin p
  let s := match q.awaiting, q.sessionAt with
    | some c, some t => s.serialStart n p c t
    | _, _ => s
  match (s.pin p).serial with
  | none => s
  | some x =>
    match x.exitAt with
    | some t => if t < s.frameEnd n then s.serialEnd n p t else s.serialAdvance n p (s.frameEnd n)
    | none => s.serialAdvance n p (s.frameEnd n)

/-- Everything of a site that lies in the frame now closing and that no step has taken: vectors, strobes, bits, drive events and MONITOR
samples (R17, R158, R194, R211). -/
def State.endFrame (s : State) (n : Nat) : State :=
  let x := s.site n
  if x.st.live ∨ x.playout ∨ x.haltAsked then
    let s := s.catchUp n frameFuel
    let t := s.frameEnd n
    let s := s.judgeUntil n t
    let s := s.each (s.sitePins n) fun s p => (s.serialFrame n p).settlePin p t
    s.takeBeats n t
  else s

/-! ### The clocks (R13, R14) -/

/-- Whether a new frame phase may be applied: no site is READY, RUNNING, WAITING or in play-out. -/
def State.phaseFree (s : State) : Bool := !s.sites.any fun e => e.2.st.busy || e.2.playout

/-- The clocks one frame of `beats` beats on. -/
def Clocks.tick (x : Clocks) (beats : Nat) : Clocks := { x with
  c := x.c + beats, frames := x.frames + 1,
  presentFor := if x.ref = .present then x.presentFor + 1 else 0,
  lostFor := if x.beat = .holdover then x.lostFor + 1 else 0 }

/-- A frame of a start counted for DURATION (R362, R470): of a cold start all but step 5 and the time without REFCLK. (log 97, DEDUCED) -/
def State.timeStart (s : State) : State :=
  if s.mode = .warmStart ∨ (s.mode = .coldStart ∧ s.start.step ≠ 5 ∧ s.clk.ref = .present) then
    { s with start := { s.start with ran := s.start.ran + 1 } }
  else s

/-- The clocks at the next tick (R13): 64 beats on. A new phase waiting lengthens this one frame, never by 64 beats and never shortening
it, to where R13 puts the tick, (C + P) mod 64 = 0, and ALIGN ends DONE; the change is not held for a later frame (R14). (log 26, DEDUCED) -/
def State.moveClocks (s : State) : State :=
  match s.convoy.newPhase with
  | some p =>
    let s := { s with convoy := { s.convoy with newPhase := none } }
    if s.phaseFree then
      ({ s with clk := { s.clk.tick (64 + (64 + s.clk.phase % 64 - p) % 64) with phase := p } }).alignEnds 2
    else ({ s with clk := s.clk.tick 64 }).alignEnds 4
  | none => { s with clk := s.clk.tick 64 }

/-- What ends with a frame: numbers held back from the units (R346), and the contribution built for the Convoy word. -/
def State.frameEnds (s : State) : State := { s with held := [], convoy := { s.convoy with built := false } }

/-- The next tick: the clocks move, and what the closing frame has written is in force (R346). -/
def State.nextTick (s : State) : State := s.frameEnds.moveClocks.timeStart

/-! ### Order 1: samples and triggers (R211-R214, R228) -/

/-- The nibble of a slot in a STROBE sample (R213), from the strobes of the vector on its pin in time order. -/
def strobeNibble (l : List Judged) : Nat :=
  match l.getLast? with
  | none => 12
  | some j => 4 * j.code + (if l.any (·.fail) then 2 else 0) + 1

/-- The STROBE sample of a vector. -/
def State.strobeSample (s : State) (n : Nat) (m : VecMark) : Sample :=
  let x := s.site n
  let slots := s.capSlots n
  let nib (i : Nat) : Nat :=
    let p := (s.sitePins n).getD (slots.getD i 0) 64
    strobeNibble (x.recent.filter fun j => j.vector == m.vector && j.pin == some p && j.strobe)
  { n := 0, time := m.time, content := (List.range slots.length).foldl (fun a i => a + 16 ^ i * nib i) 0, frame := m.due - 1,
    period := m.period, epoch := m.epoch }

/-- The STROBE samples whose content is final at this tick (R214). -/
def State.takeStrobes (s : State) (n : Nat) : State :=
  let x := s.site n
  let due := x.vecs.filter (·.due ≤ s.now)
  let rest := x.vecs.filter fun m => !decide (m.due ≤ s.now)
  let c := s.cap n
  let s := if due.isEmpty then s else s.setCap n { c with taken := c.taken ++ due.map (s.strobeSample n) }
  s.modSite n fun x => { x with vecs := rest, recent := x.recent.filter fun j => rest.any fun m => m.vector == j.vector }

/-- Fails, samples and trigger decisions of a site committed (R15, R41). -/
def State.commitFrame (s : State) (n : Nat) : State := ((s.commitSite n s.now).takeStrobes n).captureTick n

/-! ### Order 3: the event vector (R445-R451) -/

/-- Whether a bit of a bitmap of 2,048 sources is set. -/
def State.sourceBit (s : State) (index e : Nat) : Bool := natBit (s.nreg index (e / 64 + 1)) (e % 64)

/-- The sources that report single faults (R445). -/
def reportsFaults (e : Nat) : Bool := (decide (1536 ≤ e) && decide (e ≤ 1542)) || (decide (1546 ≤ e) && decide (e ≤ 1549))

/-- Whether R446 logs a source. -/
def State.logged (s : State) (e : Nat) : Bool := s.severity e != 0 || s.sourceBit 0xD001 e || s.sourceBit 0xD000 e

/-- One Guestbook entry written with a severity (R450, R451), and its NOTIFY where the source is enabled (R355, R445). -/
def State.writeBook (s : State) (e severity raises : Nat) (detail : List Byte) : State :=
  let g : GuestEntry := { seq := s.ev.nextSeq, source := e, severity := severity, quality := s.time.quality.code,
                          time := toTime80 s.localTime, raises := min raises 65535, frame := s.now % 2 ^ 32, detail := detail }
  let full := decide (s.ev.book.length ≥ 4096)
  let s := if full then s.bump 0xD100 5 else s
  let s := { s with ev := { s.ev with book := (if full then s.ev.book.drop 1 else s.ev.book) ++ [g],
                                      nextSeq := (s.ev.nextSeq + 1) % 2 ^ 32 } }
  let dst := s.nreg 0x1020 1
  if s.sourceBit 0xD000 e ∧ dst ≠ 0 then
    let tid := s.rosec.nextTid
    let y : Notify := { tid := tid, dst := dst, data := g.bytes, sentAt := s.now, retries := s.nreg 0x1020 2 }
    (s.modRosec fun x => { x with notifies := x.notifies ++ [y], nextTid := (tid + 1) % 65536 }).sendNotify y
  else s

/-- The detail of a source that reports no single faults: the new state of a site (R451), both ranges of a refused partner (R5, R292,
R330, R356), the segmented flag of a wrap (R334), the re-home flag of E1606 (R108), otherwise 0. A source raised more than once
in a frame for different partners has one entry, which names the last of them. (log 85, DEDUCED; log 165, DESIGN CHOICE) -/
def eventDetail (e : Nat) (r : Raised) : List Byte :=
  if (1024 ≤ e ∧ e < 1536 ∧ e % 8 = 0) ∨ e = 1606 ∨ e = 1684 ∨ e = 1692 ∨ e = 1694 ∨ e = 1698 then r.details.getLast?.getD (zeroBytes 8) else zeroBytes 8

/-- One source sampled into the event vector: logging, notification, pending state, captures and EVENT terms (R48, R222, R383, R445). -/
def State.sampleSource (s : State) (e : Nat) (r : Raised) : State :=
  let s := { s with ev := { s.ev with sampled := s.ev.sampled ++ [e], lastTime := Table.set 0 s.ev.lastTime e (toTime80 s.localTime) } }
  let severity := max (s.severity e) r.severity
  let s := if !s.logged e && r.severity == 0 then s
    else if reportsFaults e then s.each r.details fun s d => s.writeBook e severity 1 d
    else s.writeBook e severity r.count (eventDetail e r)
  let s := if 1024 ≤ e ∧ e < 1536 then
    s.modThread ((e - 1024) / 8) fun t => { t with pending := t.pending ||| BitVec.ofNat 8 (2 ^ ((e - 1024) % 8)) } else s
  let s := s.captureAll (edgeSource 2 e true) s.localTime
  s.each (s.units.map (·.1)) fun s u =>
    if (s.tu u).armed ∧ s.nreg (tuObj u) 11 = e then s.setTu u { s.tu u with event := true } else s

/-- The event vector sampled, in ascending source number. -/
def State.sampleEvents (s : State) : State :=
  let l := s.ev.raised
  let s := { s with ev := { s.ev with raised := [], sampled := [] } }
  s.each l fun s e => s.sampleSource e.1 e.2

/-! ### What acts at the tick on a site (R36, R61, R136-R139) -/

/-- A HALT command, or the pins of a site that a fault has ended, at the tick (R36, R62, R83): the pins park; the thread stops at its
boundary, where it is already unless it is within a customer run. -/
def State.haltTick (s : State) (n : Nat) : State :=
  if (s.site n).haltAsked then
    let s := (s.cutSite n (s.tickTu n)).modSite n fun x => { x with haltAsked := false }
    if (s.site n).st.live then
      if s.inRun n then
        let c := (s.entry n).context
        (s.modSite n fun x => { x with halted := true }).cutWait c
      else s.haltSite n
    else s
  else s

/-- A RESET or RELEASE that waited for its tick in play-out (R61). -/
def State.deferredTick (s : State) (n : Nat) : State :=
  match (s.site n).deferred with
  | some release =>
    let s := (s.cutSite n (s.tickTu n)).modSite n fun x => { x with deferred := none, playout := false }
    if release then s.releaseNow n else s.resetNow n
  | none => s

/-- Whether the run FIFO or the pin FIFOs of a site are full, stream codewords included (R139, R172). -/
def State.fifosFull (s : State) (n : Nat) : Bool :=
  decide ((s.site n).runCount ≥ 256) || (s.sitePins n).any fun p => decide ((s.pin p).slotsHeld ≥ 512)

/-- Lead, fetch state and EXPOSED of a site at the tick (R136, R137, R139). -/
def State.leadTick (s : State) (n : Nat) : State :=
  let x := s.site n
  if x.st.busy ∨ x.playout then
    let l := s.leadShown n
    let s := s.modSite n fun x => { x with play := { x.play with lead := some l } }
    let s := if l < s.nreg (0x6100 + n) 3 then s.setNat (0x6100 + n) 3 l else s
    let s := s.each (s.sitePins n) fun s p =>
      if (s.pin p).feeds.isEmpty then s else s.modPin p fun q => { q with feeds := q.feeds.map fun f => { f with lead := some (s.streamLead n f) } }
    let s := s.noteFetch n
    if l < s.nInForce 0x6000 1 ∧ s.fifosFull n ∧ !(s.site n).play.exposed then
      (s.modSite n fun x => { x with play := { x.play with exposed := true } }).raise 1612
    else s
  else s

/-- The log of parks from a time on. -/
def Playback.trim (x : Playback) (t : Nat) : Playback :=
  { x with parkLog := x.parkLog.takeWhile (fun e => decide (e.1 > t)) ++ (x.parkLog.dropWhile fun e => decide (e.1 > t)).take 1 }

/-- What a site shows until the next tick, with the worst quality of its run (R34, R428). -/
def State.showTick (s : State) (n : Nat) : State :=
  let q := s.time.quality.rank
  (s.modSite n fun x => { x with worst := if x.st.live then max x.worst q else x.worst, play := x.play.trim (s.tickTu n) }).showSite n

/-- Halts, resets and starvation of a site at the tick. -/
def State.actTick (s : State) (n : Nat) : State :=
  let s := (s.haltTick n).deferredTick n
  s.judgeLead n (s.site n).issued

/-! ### Pins and the device at the tick -/

/-- DRIVE_STATE (R169). -/
def Pin.driveCode (q : Pin) : Nat :=
  if q.serial.isSome then 3 else match q.drive with | .off => 0 | .low => 1 | .high => 2 | .serial => 3

/-- What a pin shows until the next tick, off while it is CALIBRATING (R394); what its monitor and its held decisions were within the frame is over. -/
def State.pinTick (s : State) (p : Nat) : State :=
  s.modPin p fun q => { q with shown := if natBit s.cal.busyPins p then 0 else q.driveCode, monWas := [], heldWas := [], runWas := [], parks := q.parks.take 1 }

/-- The number of pins in serial mode, SERIAL_PINS (R183). -/
def State.serialPins (s : State) : Nat := (s.pins.filter fun e => e.2.serial.isSome).length

/-- An EVT pin at the tick (R497): a pulse that has ended falls, and LEVEL. -/
def State.evtTick (s : State) (i : Nat) : State :=
  let s := s.evtFall i s.clk.c
  let e := s.evt i
  let level := match s.nInForce (0x8050 + i) 1 with
    | 0 => false
    | 3 => decide (e.highUntil > s.clk.c)
    | _ => e.level
  s.setEvt i { e with shown := level }

/-- The fault handler's tasks posted, one for each fault (R103). -/
def State.postFaults (s : State) : State :=
  let k := min s.handler.tasks (33 - (s.entriesWhere fun i _ => decide (64 ≤ i) && decide (i < 97)).length)
  let post (s : State) (_ : Nat) : State :=
    let a := s.free
    a.2.postFault (a.1 % 64)
  (s.each (List.range k) post).modHandler fun h => { h with tasks := h.tasks - k }

/-- The publications that fall due at the tick, with the values as they stand (R354). (log 93, DEDUCED) -/
def State.publishDue (s : State) : State :=
  let due (y : Subscription) : Bool := decide (y.due ≤ s.now)
  let skipped := (s.rosec.subs.filter fun y => due y && y.ready.isSome).length
  let s := if 0 < skipped then s.count 0x1020 10 skipped else s
  let next (y : Subscription) : Subscription :=
    if due y then
      let b := s.valueOf y.index y.sub
      { y with due := s.now + y.period, ready := if b.length ≤ 4096 then some (s.now, b) else none }
    else y
  s.modRosec fun x => { x with subs := x.subs.map next }

/-- HOLD_IN_BEATS of the closing frame (R301): where SL_HOLD_IN has moved in it the beats are a free value. (log 135, DESIGN CHOICE) -/
def State.holdInBeats (s : State) : State :=
  if s.sl.holdMoved then
    let f := s.free
    { f.2.count 0xA000 11 (f.1 % 65) with sl := { s.sl with holdMoved := false } }
  else if s.sl.holdIn then s.count 0xA000 11 64
  else s

/-- What crosses a ring port's FIFOs all the time, idle code groups included: X5 once a port is synchronised, X6 once the ports have started
(R141, R143, R318, R327). (log 130, DESIGN CHOICE) -/
def State.idleGroups (s : State) : State :=
  let s := if portNos.any fun p => s.portState p != 0 then s.crossed 5 1 false else s
  if s.ring.started then s.crossed 6 1 false else s

/-- What else a tick counts: SERIAL_PINS, HOLD_IN_BEATS, the scrubber and the nonce pool (R92, R183, R302, R422). -/
def State.deviceTick (s : State) : State :=
  let s := s.setNat 0x6001 3 s.serialPins
  let s := s.holdInBeats.idleGroups
  let s := s.pump.sendWaiting
  if s.mode = .sleep then s else s.scrub.refillPool

/-! ### FRAME_TICK -/

/-- The commits of a tick in the order of R15. -/
def State.commitTick (s : State) : State :=
  let l := s.siteKeys
  let s := s.each l State.commitFrame
  let s := s.publishAll
  let s := s.each (l.filter fun n => match (s.site n).form with | some f => decide (f.1 ≤ s.now) | none => false) State.formPending
  let s := s.timeTick.sampleEvents
  let s := s.each l State.actTick
  let s := s.postFaults.innkeeperTick
  let s := s.calTick
  s.convoyTick

/-- What the tick leaves to be read until the next one. -/
def State.openFrame (s : State) : State :=
  let s := s.each s.siteKeys fun s n => (s.leadTick n).showTick n
  let s := s.each (s.pins.map (·.1)) State.pinTick
  let s := s.each (s.evts.map (·.1)) State.evtTick
  s.publishTime.deviceTick.publishDue

/-- FRAME_TICK (R13, R15): the tick that closes the frame and opens the next one. Nothing ticks without power or while RESET_N is low. (log 23, DEDUCED; log 24, DEDUCED) -/
def execFrameTick (s : State) : Out :=
  if s.mode = .off ∨ s.start.resetLow then .next s
  else .next ((s.each s.siteKeys State.endFrame).nextTick.commitTick.openFrame)

end Sys2Proof.Machine
end

