-- ==== Sys2Proof/Machine/Dispatch.lean ====
section
/-! DEFINITION. The command's effect on the state: one arm per row of the table. -/

namespace Sys2Proof.Machine

def exec (i : Instr) (s : State) : Host.Outcome State Fault Refusal :=
  match i with
  | .frameTick => Sys2Proof.Machine.execFrameTick s
  | .startTakesEffect n => Sys2Proof.Machine.execStartTakesEffect n s
  | .refclkLost outside => Sys2Proof.Machine.execRefclkLost outside s
  | .longHoldover => Sys2Proof.Machine.execLongHoldover s
  | .refclkRelocked => Sys2Proof.Machine.execRefclkRelocked s
  | .hostDeadline lane => Sys2Proof.Machine.execHostDeadline lane s
  | .load r n => Sys2Proof.Machine.execLoad r n s
  | .arm r n => Sys2Proof.Machine.execArm r n s
  | .start r n => Sys2Proof.Machine.execStart r n s
  | .haltCommand r n => Sys2Proof.Machine.execHaltCommand r n s
  | .reset r n => Sys2Proof.Machine.execReset r n s
  | .release r n => Sys2Proof.Machine.execRelease r n s
  | .sealHalted r n => Sys2Proof.Machine.execSealHalted r n s
  | .disarm r n => Sys2Proof.Machine.execDisarm r n s
  | .vec n w => Sys2Proof.Machine.execVec n w s
  | .rpt n w => Sys2Proof.Machine.execRpt n w s
  | .loop n w => Sys2Proof.Machine.execLoop n w s
  | .endl n w => Sys2Proof.Machine.execEndl n w s
  | .call n w => Sys2Proof.Machine.execCall n w s
  | .ret n w => Sys2Proof.Machine.execRet n w s
  | .jmp n w => Sys2Proof.Machine.execJmp n w s
  | .jfail n w => Sys2Proof.Machine.execJfail n w s
  | .jevt n w => Sys2Proof.Machine.execJevt n w s
  | .matchI n w => Sys2Proof.Machine.execMatchI n w s
  | .waitHold n w => Sys2Proof.Machine.execWaitHold n w s
  | .waitTime n w => Sys2Proof.Machine.execWaitTime n w s
  | .tset n w => Sys2Proof.Machine.execTset n w s
  | .period n w => Sys2Proof.Machine.execPeriod n w s
  | .capStop n w => Sys2Proof.Machine.execCapStop n w s
  | .capStart n w => Sys2Proof.Machine.execCapStart n w s
  | .capPause n w => Sys2Proof.Machine.execCapPause n w s
  | .capResume n w => Sys2Proof.Machine.execCapResume n w s
  | .capCommit n w => Sys2Proof.Machine.execCapCommit n w s
  | .meas n w => Sys2Proof.Machine.execMeas n w s
  | .trigArm n w => Sys2Proof.Machine.execTrigArm n w s
  | .trigFire n w => Sys2Proof.Machine.execTrigFire n w s
  | .trigDisarm n w => Sys2Proof.Machine.execTrigDisarm n w s
  | .sync n w => Sys2Proof.Machine.execSync n w s
  | .event n w => Sys2Proof.Machine.execEvent n w s
  | .serialEnter n w => Sys2Proof.Machine.execSerialEnter n w s
  | .serialLeave n w => Sys2Proof.Machine.execSerialLeave n w s
  | .sealI n w => Sys2Proof.Machine.execSealI n w s
  | .halt n w => Sys2Proof.Machine.execHalt n w s
  | .yield n w => Sys2Proof.Machine.execYield n w s
  | .cust n w => Sys2Proof.Machine.execCust n w s
  | .drainDecision n => Sys2Proof.Machine.execDrainDecision n s
  | .matched n => Sys2Proof.Machine.execMatched n s
  | .matchTimeout n => Sys2Proof.Machine.execMatchTimeout n s
  | .syncPost n => Sys2Proof.Machine.execSyncPost n s
  | .syncAgreement n => Sys2Proof.Machine.execSyncAgreement n s
  | .syncTimeout n => Sys2Proof.Machine.execSyncTimeout n s
  | .resumeTick n => Sys2Proof.Machine.execResumeTick n s
  | .verdictRecord n => Sys2Proof.Machine.execVerdictRecord n s
  | .playoutEnd n => Sys2Proof.Machine.execPlayoutEnd n s
  | .nop c w => Sys2Proof.Machine.execNop c w s
  | .mov c f => Sys2Proof.Machine.execMov c f s
  | .movh c f => Sys2Proof.Machine.execMovh c f s
  | .add c f => Sys2Proof.Machine.execAdd c f s
  | .sub c f => Sys2Proof.Machine.execSub c f s
  | .and c f => Sys2Proof.Machine.execAnd c f s
  | .or c f => Sys2Proof.Machine.execOr c f s
  | .xor c f => Sys2Proof.Machine.execXor c f s
  | .shf c f => Sys2Proof.Machine.execShf c f s
  | .cmp c f => Sys2Proof.Machine.execCmp c f s
  | .crc c f => Sys2Proof.Machine.execCrc c f s
  | .br c f => Sys2Proof.Machine.execBr c f s
  | .callu c f => Sys2Proof.Machine.execCallu c f s
  | .retu c f => Sys2Proof.Machine.execRetu c f s
  | .fetch c f => Sys2Proof.Machine.execFetch c f s
  | .fetchData c flips => Sys2Proof.Machine.execFetchData c flips s
  | .ldt c f => Sys2Proof.Machine.execLdt c f s
  | .stt c f => Sys2Proof.Machine.execStt c f s
  | .emitStream c f => Sys2Proof.Machine.execEmitStream c f s
  | .emitRepeat c f => Sys2Proof.Machine.execEmitRepeat c f s
  | .emitLiteral c f => Sys2Proof.Machine.execEmitLiteral c f s
  | .emitHold c f => Sys2Proof.Machine.execEmitHold c f s
  | .emitPeriod c f => Sys2Proof.Machine.execEmitPeriod c f s
  | .emitTset c f => Sys2Proof.Machine.execEmitTset c f s
  | .waitc c f => Sys2Proof.Machine.execWaitc c f s
  | .waitcWake c => Sys2Proof.Machine.execWaitcWake c s
  | .waitcTimeout c => Sys2Proof.Machine.execWaitcTimeout c s
  | .evt c f => Sys2Proof.Machine.execEvt c f s
  | .capcStop c f => Sys2Proof.Machine.execCapcStop c f s
  | .capcStart c f => Sys2Proof.Machine.execCapcStart c f s
  | .capcPause c f => Sys2Proof.Machine.execCapcPause c f s
  | .capcResume c f => Sys2Proof.Machine.execCapcResume c f s
  | .capcCommit c f => Sys2Proof.Machine.execCapcCommit c f s
  | .capcMark c f => Sys2Proof.Machine.execCapcMark c f s
  | .post c f => Sys2Proof.Machine.execPost c f s
  | .endI c f => Sys2Proof.Machine.execEndI c f s
  | .watchdog c => Sys2Proof.Machine.execWatchdog c s
  | .savingDone c => Sys2Proof.Machine.execSavingDone c s
  | .csRestart c selfTest => Sys2Proof.Machine.execCsRestart c selfTest s
  | .header r bytes => Sys2Proof.Machine.execHeader r bytes s
  | .custOpen r => Sys2Proof.Machine.execCustOpen r s
  | .custClose r => Sys2Proof.Machine.execCustClose r s
  | .custCloseDone => Sys2Proof.Machine.execCustCloseDone s
  | .custClear r => Sys2Proof.Machine.execCustClear r s
  | .dispatch => Sys2Proof.Machine.execDispatch s
  | .caravanRelease cv => Sys2Proof.Machine.execCaravanRelease cv s
  | .caravanStall cv => Sys2Proof.Machine.execCaravanStall cv s
  | .descriptorTake n => Sys2Proof.Machine.execDescriptorTake n s
  | .lineReadIssue => Sys2Proof.Machine.execLineReadIssue s
  | .lineReadReturn j flips => Sys2Proof.Machine.execLineReadReturn j flips s
  | .vectorStart n inputs => Sys2Proof.Machine.execVectorStart n inputs s
  | .starveResume n => Sys2Proof.Machine.execStarveResume n s
  | .tsetWrite p => Sys2Proof.Machine.execTsetWrite p s
  | .serialSessionStart n => Sys2Proof.Machine.execSerialSessionStart n s
  | .serialSessionEnd n => Sys2Proof.Machine.execSerialSessionEnd n s
  | .serialLock n => Sys2Proof.Machine.execSerialLock n s
  | .serialLockLost n beat => Sys2Proof.Machine.execSerialLockLost n beat s
  | .serialLockTimeout n => Sys2Proof.Machine.execSerialLockTimeout n s
  | .cdrSlip n beat => Sys2Proof.Machine.execCdrSlip n beat s
  | .serialUnderrun n => Sys2Proof.Machine.execSerialUnderrun n s
  | .comparatorEdge n vtl above beat tap => Sys2Proof.Machine.execComparatorEdge n vtl above beat tap s
  | .monEnable r n => Sys2Proof.Machine.execMonEnable r n s
  | .monStateChange n st beat => Sys2Proof.Machine.execMonStateChange n st beat s
  | .monForced n => Sys2Proof.Machine.execMonForced n s
  | .supplyMonChange m st => Sys2Proof.Machine.execSupplyMonChange m st s
  | .supplyMonForced m => Sys2Proof.Machine.execSupplyMonForced m s
  | .tuArm r u => Sys2Proof.Machine.execTuArm r u s
  | .tuFire r u => Sys2Proof.Machine.execTuFire r u s
  | .tuDisarm r u => Sys2Proof.Machine.execTuDisarm r u s
  | .holdoffEnd n => Sys2Proof.Machine.execHoldoffEnd n s
  | .autoTrigger n => Sys2Proof.Machine.execAutoTrigger n s
  | .hostTrigger r k n => Sys2Proof.Machine.execHostTrigger r k n s
  | .recordExported n => Sys2Proof.Machine.execRecordExported n s
  | .gateOpen d t => Sys2Proof.Machine.execGateOpen d t s
  | .gateClose d t => Sys2Proof.Machine.execGateClose d t s
  | .vernierDone v => Sys2Proof.Machine.execVernierDone v s
  | .dramAlert ch crc => Sys2Proof.Machine.execDramAlert ch crc s
  | .replayDone ch => Sys2Proof.Machine.execReplayDone ch s
  | .retrainDone ch => Sys2Proof.Machine.execRetrainDone ch s
  | .retrainTimeout ch => Sys2Proof.Machine.execRetrainTimeout ch s
  | .escalateWindowEnd ch => Sys2Proof.Machine.execEscalateWindowEnd ch s
  | .refreshDue sc rank held => Sys2Proof.Machine.execRefreshDue sc rank held s
  | .mr4Read hot => Sys2Proof.Machine.execMr4Read hot s
  | .powerDown sc rank => Sys2Proof.Machine.execPowerDown sc rank s
  | .training r ch bytes => Sys2Proof.Machine.execTraining r ch bytes s
  | .memWrite p => Sys2Proof.Machine.execMemWrite p s
  | .memReadReq p flips => Sys2Proof.Machine.execMemReadReq p flips s
  | .csWrite p => Sys2Proof.Machine.execCsWrite p s
  | .slAck seq => Sys2Proof.Machine.execSlAck seq s
  | .slNak seq => Sys2Proof.Machine.execSlNak seq s
  | .slAckTimeout => Sys2Proof.Machine.execSlAckTimeout s
  | .slBringupDone lo hi => Sys2Proof.Machine.execSlBringupDone lo hi s
  | .laneFail lane cause => Sys2Proof.Machine.execLaneFail lane cause s
  | .slDegradeDone => Sys2Proof.Machine.execSlDegradeDone s
  | .slHoldIn level => Sys2Proof.Machine.execSlHoldIn level s
  | .restore r v => Sys2Proof.Machine.execRestore r v s
  | .widthChoice r w => Sys2Proof.Machine.execWidthChoice r w s
  | .convoyWord w => Sys2Proof.Machine.execConvoyWord w s
  | .align r => Sys2Proof.Machine.execAlign r s
  | .supervision p f m => Sys2Proof.Machine.execSupervision p f m s
  | .supervisionSend p => Sys2Proof.Machine.execSupervisionSend p s
  | .linkLost p => Sys2Proof.Machine.execLinkLost p s
  | .closeTimer p => Sys2Proof.Machine.execCloseTimer p s
  | .rateChangeTimeout p => Sys2Proof.Machine.execRateChangeTimeout p s
  | .walk p f m => Sys2Proof.Machine.execWalk p f m s
  | .noticeBreak p f reporter => Sys2Proof.Machine.execNoticeBreak p f reporter s
  | .noticeClose p f reporter => Sys2Proof.Machine.execNoticeClose p f reporter s
  | .assign p f uid number => Sys2Proof.Machine.execAssign p f uid number s
  | .ringFrameForward p f room => Sys2Proof.Machine.execRingFrameForward p f room s
  | .read r index sub => Sys2Proof.Machine.execRead r index sub s
  | .write r index sub bytes => Sys2Proof.Machine.execWrite r index sub bytes s
  | .segment r index sub offset total last bytes => Sys2Proof.Machine.execSegment r index sub offset total last bytes s
  | .segmentUpload r index sub offset length => Sys2Proof.Machine.execSegmentUpload r index sub offset length s
  | .abort r index sub upload => Sys2Proof.Machine.execAbort r index sub upload s
  | .segmentAbandon index sub => Sys2Proof.Machine.execSegmentAbandon index sub s
  | .uploadRelease index sub => Sys2Proof.Machine.execUploadRelease index sub s
  | .subscribe r index sub period => Sys2Proof.Machine.execSubscribe r index sub period s
  | .unsubscribe r index sub => Sys2Proof.Machine.execUnsubscribe r index sub s
  | .publication j => Sys2Proof.Machine.execPublication j s
  | .notifyConfirm src tid => Sys2Proof.Machine.execNotifyConfirm src tid s
  | .notifyRetry tid => Sys2Proof.Machine.execNotifyRetry tid s
  | .negotiate r bytes => Sys2Proof.Machine.execNegotiate r bytes s
  | .discover r => Sys2Proof.Machine.execDiscover r s
  | .coldStart r => Sys2Proof.Machine.execColdStart r s
  | .warmStart r => Sys2Proof.Machine.execWarmStart r s
  | .sleep r => Sys2Proof.Machine.execSleep r s
  | .wake r => Sys2Proof.Machine.execWake r s
  | .ptpSync p m => Sys2Proof.Machine.execPtpSync p m s
  | .followUp p m => Sys2Proof.Machine.execFollowUp p m s
  | .delayReq p m => Sys2Proof.Machine.execDelayReq p m s
  | .delayResp p m => Sys2Proof.Machine.execDelayResp p m s
  | .pdelayReq p m => Sys2Proof.Machine.execPdelayReq p m s
  | .pdelayResp p m => Sys2Proof.Machine.execPdelayResp p m s
  | .pdelayRespFollowUp p m => Sys2Proof.Machine.execPdelayRespFollowUp p m s
  | .announce p m => Sys2Proof.Machine.execAnnounce p m s
  | .ptpSyncSend => Sys2Proof.Machine.execPtpSyncSend s
  | .announceSend => Sys2Proof.Machine.execAnnounceSend s
  | .pdelayReqSend p egress => Sys2Proof.Machine.execPdelayReqSend p egress s
  | .delayReqSend egress => Sys2Proof.Machine.execDelayReqSend egress s
  | .announceReceiptTimeout => Sys2Proof.Machine.execAnnounceReceiptTimeout s
  | .ptpSyncTimeout => Sys2Proof.Machine.execPtpSyncTimeout s
  | .holdoverLimit => Sys2Proof.Machine.execHoldoverLimit s
  | .pdelayFail p => Sys2Proof.Machine.execPdelayFail p s
  | .hostLockTimeout => Sys2Proof.Machine.execHostLockTimeout s
  | .slewEnd => Sys2Proof.Machine.execSlewEnd s
  | .stepApply => Sys2Proof.Machine.execStepApply s
  | .offsetAdj r d => Sys2Proof.Machine.execOffsetAdj r d s
  | .rateSet r v => Sys2Proof.Machine.execRateSet r v s
  | .timeSet r t => Sys2Proof.Machine.execTimeSet r t s
  | .timeTrigger j => Sys2Proof.Machine.execTimeTrigger j s
  | .ppsPulse => Sys2Proof.Machine.execPpsPulse s
  | .evtEdge j rising beat => Sys2Proof.Machine.execEvtEdge j rising beat s
  | .calStart r => Sys2Proof.Machine.execCalStart r s
  | .calCancel r => Sys2Proof.Machine.execCalCancel r s
  | .calStepDone first second => Sys2Proof.Machine.execCalStepDone first second s
  | .calDomainCommit => Sys2Proof.Machine.execCalDomainCommit s
  | .driftMeasurement n first second => Sys2Proof.Machine.execDriftMeasurement n first second s
  | .blobExport r => Sys2Proof.Machine.execBlobExport r s
  | .blobImport r bytes => Sys2Proof.Machine.execBlobImport r bytes s
  | .coeffs r records => Sys2Proof.Machine.execCoeffs r records s
  | .calHostTimeout => Sys2Proof.Machine.execCalHostTimeout s
  | .ageingRead slowdown => Sys2Proof.Machine.execAgeingRead slowdown s
  | .tempRead sensors => Sys2Proof.Machine.execTempRead sensors s
  | .verdictHandover => Sys2Proof.Machine.execVerdictHandover s
  | .batchClose => Sys2Proof.Machine.execBatchClose s
  | .batchSign => Sys2Proof.Machine.execBatchSign s
  | .verdictResend => Sys2Proof.Machine.execVerdictResend s
  | .ackBatch r seq => Sys2Proof.Machine.execAckBatch r seq s
  | .drbgReseed ok => Sys2Proof.Machine.execDrbgReseed ok s
  | .windowOpen r w => Sys2Proof.Machine.execWindowOpen r w s
  | .windowFree r w => Sys2Proof.Machine.execWindowFree r w s
  | .windowAbandon r w => Sys2Proof.Machine.execWindowAbandon r w s
  | .advance r => Sys2Proof.Machine.execAdvance r s
  | .interruptedSeal => Sys2Proof.Machine.execInterruptedSeal s
  | .faultDecision => Sys2Proof.Machine.execFaultDecision s
  | .faultRecovered resource us => Sys2Proof.Machine.execFaultRecovered resource us s
  | .decision r level => Sys2Proof.Machine.execDecision r level s
  | .queuedFaultTimeout => Sys2Proof.Machine.execQueuedFaultTimeout s
  | .supplyFaultTimeout m => Sys2Proof.Machine.execSupplyFaultTimeout m s
  | .raise r source => Sys2Proof.Machine.execRaise r source s
  | .tail r seq => Sys2Proof.Machine.execTail r seq s
  | .resetN low powerUp => Sys2Proof.Machine.execResetN low powerUp s
  | .warmN low => Sys2Proof.Machine.execWarmN low s
  | .pwrWarnN => Sys2Proof.Machine.execPwrWarnN s
  | .powerWarningCleared => Sys2Proof.Machine.execPowerWarningCleared s
  | .coldStartStepDone ok seed => Sys2Proof.Machine.execColdStartStepDone ok seed s
  | .warmStartStepDone ok => Sys2Proof.Machine.execWarmStartStepDone ok s
  | .safeHaltEntry => Sys2Proof.Machine.execSafeHaltEntry s
  | .sleepDrainDone => Sys2Proof.Machine.execSleepDrainDone s
  | .sleepAbandoned => Sys2Proof.Machine.execSleepAbandoned s
  | .wakeStepDone ok => Sys2Proof.Machine.execWakeStepDone ok s
  | .bypass => Sys2Proof.Machine.execBypass s
  | .idcode => Sys2Proof.Machine.execIdcode s
  | .samplePreload cells => Sys2Proof.Machine.execSamplePreload cells s
  | .extest => Sys2Proof.Machine.execExtest s
  | .highz => Sys2Proof.Machine.execHighz s
  | .clamp => Sys2Proof.Machine.execClamp s
  | .extestPulse => Sys2Proof.Machine.execExtestPulse s
  | .extestTrain => Sys2Proof.Machine.execExtestTrain s
  | .refclkPresent => Sys2Proof.Machine.execRefclkPresent s
  | .powerLoss => Sys2Proof.Machine.execPowerLoss s
  | .pcsSynchronised p => Sys2Proof.Machine.execPcsSynchronised p s
  | .packetCrcError => Sys2Proof.Machine.execPacketCrcError s
  | .reservedPacket type p => Sys2Proof.Machine.execReservedPacket type p s
  | .widthControlBlock block => Sys2Proof.Machine.execWidthControlBlock block s
  | .serialBitReceived n value beat => Sys2Proof.Machine.execSerialBitReceived n value beat s
  | .wordSlot n => Sys2Proof.Machine.execWordSlot n s
  | .thermNChange asserted => Sys2Proof.Machine.execThermNChange asserted s

end Sys2Proof.Machine
end

