-- ==== Sys2Proof/WellFormed.lean ====
section
/-! DEFINITION. The ranges that the spec gives the operands of a command. -/

namespace Sys2Proof

/-- A request's header fields within their widths (R347). -/
def reqOk (r : Req) : Bool :=
  decide (r.sa < 2 ^ 48) && decide (r.src < 256) && decide (r.tid < 65536) && decide (r.level < 256) && decide (r.port < 2)
    && decide (r.dst < 256) && decide (r.hops < 256) && decide (r.seq < 65536) && decide (r.offset < 2 ^ 32)

/-- A packet within the widths of its fields, with at most 32 payload lines of eight codewords (R293). -/
def packetOk (p : Packet) : Bool :=
  decide (p.seq < 4096) && decide (p.addr < 2 ^ 64) && decide (p.count < 256) && decide (p.lines.length ≤ 32)
    && (p.lines.all fun l => decide (l.length = 8)) && decide (p.reserved < 16) && decide (p.poisonLines < 2 ^ 32)
    && p.crc.all (fun c => decide (c < 2 ^ 32)) && p.blockErrors.all fun i => decide (i < 16)

/-- A ring frame within the widths of its fields (R320). -/
def frameOk (f : RingFrame) : Bool :=
  decide (f.etherType < 65536) && decide (f.type < 256) && decide (f.sa < 2 ^ 48) && decide (f.src < 256) && decide (f.dst < 256)
    && decide (f.hops < 256) && decide (f.seq < 65536) && decide (f.version < 256) && decide (f.length < 65536) && decide (f.about < 256)

/-- A SUPERVISION payload within the widths of its fields (R328). -/
def supOk (m : SupMsg) : Bool :=
  decide (m.uid < 2 ^ 64) && decide (m.station < 256) && decide (m.port < 256) && decide (m.lo < 16) && decide (m.hi < 16)
    && decide (m.ringState < 256) && decide (m.caps < 65536)

/-- A WALK payload within the widths of its fields (R335, R336). -/
def walkOk (m : WalkMsg) : Bool :=
  decide (m.id < 65536) && decide (m.next < 256) && m.records.all fun w =>
    decide (w.uid < 2 ^ 64) && decide (w.station < 256) && decide (w.part < 256) && decide (w.grade < 256) && decide (w.range < 256)
      && decide (w.state < 256) && decide (w.flags < 256)

/-- A PTP message within the widths of the fields that rules use (R370). -/
def ptpOk (m : PtpMsg) : Bool :=
  decide (m.domain < 256) && decide (m.clock < 2 ^ 64) && decide (m.portNo < 65536) && decide (m.seqId < 65536)
    && decide (m.reqClock < 2 ^ 64) && decide (m.reqPort < 65536) && decide (m.gmIdentity < 2 ^ 64)

/-- Whether every operand of a command lies in the range that the spec gives it. Operands whose type is their range need no check. (log 11, DESIGN CHOICE) -/
def WellFormed : Instr → Bool
  | .frameTick | .startTakesEffect _ | .refclkLost _ | .longHoldover | .refclkRelocked | .hostDeadline _ | .vec _ _
  | .rpt _ _ | .loop _ _ | .endl _ _ | .call _ _ | .ret _ _ | .jmp _ _ | .jfail _ _ | .jevt _ _ | .matchI _ _
  | .waitHold _ _ | .waitTime _ _ | .tset _ _ | .period _ _ | .capStop _ _ | .capStart _ _ | .capPause _ _
  | .capResume _ _ | .capCommit _ _ | .meas _ _ | .trigArm _ _ | .trigFire _ _ | .trigDisarm _ _ | .sync _ _
  | .event _ _ | .serialEnter _ _ | .serialLeave _ _ | .sealI _ _ | .halt _ _ | .yield _ _ | .cust _ _
  | .drainDecision _ | .matched _ | .matchTimeout _ | .syncPost _ | .syncAgreement _ | .syncTimeout _ | .resumeTick _
  | .verdictRecord _ | .playoutEnd _ | .nop _ _ | .mov _ _ | .movh _ _ | .add _ _ | .sub _ _ | .and _ _ | .or _ _
  | .xor _ _ | .shf _ _ | .cmp _ _ | .crc _ _ | .br _ _ | .callu _ _ | .retu _ _ | .fetch _ _ | .fetchData _ _
  | .ldt _ _ | .stt _ _ | .emitStream _ _ | .emitRepeat _ _ | .emitLiteral _ _ | .emitHold _ _ | .emitPeriod _ _
  | .emitTset _ _ | .waitc _ _ | .waitcWake _ | .waitcTimeout _ | .evt _ _ | .capcStop _ _ | .capcStart _ _
  | .capcPause _ _ | .capcResume _ _ | .capcCommit _ _ | .capcMark _ _ | .post _ _ | .endI _ _ | .watchdog _
  | .savingDone _ | .csRestart _ _ | .custCloseDone | .dispatch | .caravanRelease _ | .caravanStall _
  | .descriptorTake _ | .lineReadIssue | .lineReadReturn _ _ | .vectorStart _ _ | .starveResume _
  | .serialSessionStart _ | .serialSessionEnd _ | .serialLock _ | .serialLockTimeout _ | .serialUnderrun _
  | .monForced _ | .supplyMonForced _ | .holdoffEnd _ | .autoTrigger _ | .gateOpen _ _ | .gateClose _ _ | .vernierDone _
  | .dramAlert _ _ | .replayDone _ | .retrainDone _ | .retrainTimeout _ | .escalateWindowEnd _ | .refreshDue _ _ _
  | .mr4Read _ | .powerDown _ _ | .slAckTimeout | .slDegradeDone | .slHoldIn _ | .convoyWord _ | .supervisionSend _
  | .linkLost _ | .closeTimer _ | .rateChangeTimeout _ | .publication _ | .ptpSyncSend | .announceSend
  | .pdelayReqSend _ _ | .delayReqSend _ | .announceReceiptTimeout | .ptpSyncTimeout | .holdoverLimit | .pdelayFail _
  | .hostLockTimeout | .slewEnd | .stepApply | .timeTrigger _ | .ppsPulse | .calStepDone _ _ | .calDomainCommit
  | .driftMeasurement _ _ _ | .calHostTimeout | .verdictHandover | .batchClose | .batchSign | .verdictResend
  | .drbgReseed _ | .interruptedSeal | .faultDecision | .queuedFaultTimeout | .supplyFaultTimeout _ | .resetN _ _
  | .warmN _ | .pwrWarnN | .powerWarningCleared | .coldStartStepDone _ _ | .warmStartStepDone _ | .safeHaltEntry
  | .sleepDrainDone | .sleepAbandoned | .wakeStepDone _ | .bypass | .idcode | .samplePreload _ | .extest | .highz
  | .clamp | .extestPulse | .extestTrain | .refclkPresent | .powerLoss | .pcsSynchronised _ | .packetCrcError
  | .wordSlot _ | .thermNChange _ => true
  | .widthControlBlock b => [4, 8, 12, 16].contains b.width
  | .load r _ => reqOk r
  | .arm r _ => reqOk r
  | .start r _ => reqOk r
  | .haltCommand r _ => reqOk r
  | .reset r _ => reqOk r
  | .release r _ => reqOk r
  | .sealHalted r _ => reqOk r
  | .disarm r _ => reqOk r
  | .header r bytes => reqOk r && decide (bytes.length < 2 ^ 24)
  | .custOpen r => reqOk r
  | .custClose r => reqOk r
  | .custClear r => reqOk r
  | .tsetWrite p => packetOk p
  | .serialLockLost _ beat => decide (beat < 64)
  | .cdrSlip _ beat => decide (beat < 64)
  | .comparatorEdge _ _ _ beat tap => decide (beat < 64) && decide (tap < 500)
  | .monEnable r _ => reqOk r
  | .monStateChange _ st beat => decide (2 ≤ st) && decide (st ≤ 4) && decide (beat < 64)
  | .supplyMonChange _ st => decide (2 ≤ st) && decide (st ≤ 4)
  | .tuArm r _ => reqOk r
  | .tuFire r _ => reqOk r
  | .tuDisarm r _ => reqOk r
  | .hostTrigger r _ n => reqOk r && decide (n < 2 ^ 64)
  | .recordExported n => decide (n < 2 ^ 32)
  | .training r _ bytes => reqOk r && decide (bytes.length < 2 ^ 24)
  | .memWrite p => packetOk p
  | .memReadReq p _ => packetOk p
  | .csWrite p => packetOk p
  | .slAck seq => decide (seq < 4096)
  | .slNak seq => decide (seq < 4096)
  | .slBringupDone lo hi => decide (lo < 256) && decide (hi < 256)
  | .laneFail _ cause => decide (cause < 256)
  | .restore r v => reqOk r && decide (v < 256)
  | .widthChoice r w => reqOk r && decide (w < 256)
  | .align r => reqOk r
  | .supervision _ f m => frameOk f && supOk m
  | .walk _ f m => frameOk f && walkOk m
  | .noticeBreak _ f reporter => frameOk f && decide (reporter < 2 ^ 64)
  | .noticeClose _ f reporter => frameOk f && decide (reporter < 2 ^ 64)
  | .assign _ f uid number => frameOk f && decide (uid < 2 ^ 64) && decide (number < 256)
  | .ringFrameForward _ f _ => frameOk f
  | .read r index sub => reqOk r && decide (index < 65536) && decide (sub < 256)
  | .write r index sub bytes => reqOk r && decide (index < 65536) && decide (sub < 256) && decide (bytes.length ≤ 4096)
  | .segment r index sub offset total _ bytes => reqOk r && decide (index < 65536) && decide (sub < 256) && decide (offset < 2 ^ 32) && decide (total < 2 ^ 32) && decide (bytes.length ≤ 4096)
  | .segmentUpload r index sub offset length => reqOk r && decide (index < 65536) && decide (sub < 256) && decide (offset < 2 ^ 32) && decide (length < 65536)
  | .abort r index sub _ => reqOk r && decide (index < 65536) && decide (sub < 256)
  | .segmentAbandon index sub => decide (index < 65536) && decide (sub < 256)
  | .uploadRelease index sub => decide (index < 65536) && decide (sub < 256)
  | .subscribe r index sub period => reqOk r && decide (index < 65536) && decide (sub < 256) && decide (period < 2 ^ 32)
  | .unsubscribe r index sub => reqOk r && decide (index < 65536) && decide (sub < 256)
  | .notifyConfirm src tid => decide (src < 256) && decide (tid < 65536)
  | .notifyRetry tid => decide (tid < 65536)
  | .negotiate r bytes => reqOk r && decide (bytes.length < 2 ^ 24)
  | .discover r => reqOk r
  | .coldStart r => reqOk r
  | .warmStart r => reqOk r
  | .sleep r => reqOk r
  | .wake r => reqOk r
  | .ptpSync _ m => ptpOk m
  | .followUp _ m => ptpOk m
  | .delayReq _ m => ptpOk m
  | .delayResp _ m => ptpOk m
  | .pdelayReq _ m => ptpOk m
  | .pdelayResp _ m => ptpOk m
  | .pdelayRespFollowUp _ m => ptpOk m
  | .announce _ m => ptpOk m
  | .offsetAdj r d => reqOk r && decide (-(2 ^ 63) ≤ d) && decide (d < 2 ^ 63)
  | .rateSet r v => reqOk r && decide (-(2 ^ 63) ≤ v) && decide (v < 2 ^ 63)
  | .timeSet r t => reqOk r && decide (t < 2 ^ 80)
  | .evtEdge _ _ beat => decide (beat < 64)
  | .calStart r => reqOk r
  | .calCancel r => reqOk r
  | .blobExport r => reqOk r
  | .blobImport r bytes => reqOk r && decide (bytes.length < 2 ^ 24)
  | .coeffs r _ => reqOk r
  | .ageingRead slowdown => decide (slowdown.length = 8)
  | .tempRead sensors => decide (sensors.length = 4)
  | .ackBatch r seq => reqOk r && decide (seq < 2 ^ 64)
  | .windowOpen r _ => reqOk r
  | .windowFree r _ => reqOk r
  | .windowAbandon r _ => reqOk r
  | .advance r => reqOk r
  | .faultRecovered resource _ => decide (resource < 256)
  | .decision r level => reqOk r && decide (level < 256)
  | .raise r source => reqOk r && decide (source < 65536)
  | .tail r seq => reqOk r && decide (seq < 2 ^ 32)
  | .reservedPacket _ p => packetOk p
  | .serialBitReceived _ _ b => decide (b.beat < 64) && decide (b.ends ≤ 10000)

end Sys2Proof
end

