-- ==== Sys2Proof/Safety.lean ====
section
/-! DEFINITION. What counts as a safe run of the block, in the terms that statements use. -/

namespace Sys2Proof.Machine

/-- A step that goes on: no fault and no refusal. -/
def goesOn (o : Out) : Prop := ∃ t, o = .next t

/-- Whether the keys of a table rise strictly. -/
def risingKeys {α : Type} : Table α → Bool
  | [] => true
  | [_] => true
  | a :: b :: t => decide (a.1 < b.1) && risingKeys (b :: t)

/-- Whether memory and every table of the state stand in their one canonical form, so that equal contents are equal data: addresses and
keys strictly rising, and no entry equal to what an unlisted one reads as. -/
def State.canonical (s : State) : Bool :=
  Memory.wf s.mem && risingKeys s.regs && risingKeys s.octs && Table.wf {} s.sites && Table.wf {} s.pins && Table.wf {} s.ctxs
    && Table.wf {} s.ledger && Table.wf {} s.caravans && Table.wf {} s.caps && Table.wf {} s.recs && Table.wf {} s.units
    && Table.wf {} s.defs && Table.wf {} s.evts && Table.wf {} s.chans && Table.wf none s.held

/-! ### An instruction and a microword that execute -/

/-- The thread of site n executes the word w of opcode op: it may run (R66), its place lies within LENGTH (R75), COND is known, and has
been found to hold or holds (R40), and the reserved bits are 0 (R39). -/
structure State.Executes (s : State) (n : Nat) (w : Word64) (op : Nat) : Prop where
  runs : s.mayRun n = true
  opcode : opcodeOf w = op
  inside : (s.site n).thread.idx < (s.site n).length
  known : condOf w ≠ 7
  holds : (s.site n).thread.reached = true ∨ (s.site n).thread.vecLeft.isSome = true ∨ siteCond (s.site n).flags (condOf w) = true
  clear : reservedClear w = true

/-- The context that the thread of a site is placed in. -/
def State.seat (s : State) (n : Nat) : Nat := (s.entry n).context

/-- The state an instruction acts on: its context ISSUING, its cycles counted, and the new fail epoch of CLRF begun where `clrf` says that
it begins before the effect (R42). -/
def State.begun (s : State) (n : Nat) (w : Word64) (cost : Nat) (clrf : Bool) : State :=
  let t := ((s.modCtx (s.seat n) fun y => { y with st := .issuing }).charge (s.seat n) cost).modThread n (·.pass (opcodeOf w))
  if clrfOf w ∧ clrf then t.newEpoch n else t

/-- The state in which an instruction that faults or meets a full descriptor queue ends: its cycles counted, its condition evaluated once
and for all (R40, R43), nothing else done. -/
def State.met (s : State) (n cost : Nat) : State :=
  ((s.modCtx (s.seat n) fun y => { y with st := .issuing }).charge (s.seat n) cost).modThread n fun t => { t with reached := true }

/-- Nothing stops the thread of site n at the boundary of an instruction of `cost` cycles (R82, R114): no fault is pending, no Convoy abort and no
HALT has come, and the budget that pays for the context has the cycles left. -/
structure State.Unstopped (s : State) (n cost : Nat) : Prop where
  noFault : (s.ctx (s.seat n)).fault = none
  noAbort : (s.site n).abort = none
  noHalt : (s.site n).halted = false
  paid : ∀ i, (s.ctx (s.seat n)).owner = some i →
    (s.site (s.entry i).site).overran = false ∧ (s.site (s.entry i).site).cycles + cost ≤ s.budget (s.entry i).site

/-- Context c executes the microword of opcode op with fields f, which takes `cost` cycles: its turn (R66), in a micro-run of its own,
within its limit (R86); where the model knows the words it runs, its entry needs no repair (R91) and holds this word; no FETCH data missing
(R75), and no WAITC in progress. -/
structure State.Issues (s : State) (c : Nat) (op : Nat) (f : BitVec 26) (cost : Nat) : Prop where
  turn : s.mayIssue c = true
  micro : s.inMicro c = true
  within : (s.ctx c).run + cost ≤ (s.ctx c).limit
  whole : s.knownPc c = true → s.store.needsRepair ((s.ctx c).ms.pc.toNat / 2) = false
  stored : s.knownPc c = true → s.store.micro (s.ctx c).ms.pc.toNat = some (BitVec.ofNat 32 (op * 2 ^ 26 + f.toNat))
  ready : (s.ctx c).stallsOn op f = false
  idle : (s.ctx c).wait = none

/-- The state a microword acts on: its entry read from the store (R91), its context ISSUING, its cycles counted. -/
def State.issued (s : State) (c cost : Nat) : State :=
  let t := if s.knownPc c then s.readStore ((s.ctx c).ms.pc.toNat / 2) else s
  (t.modCtx c fun y => { y with st := .issuing, run := y.run + cost }).charge c cost

/-- The registers of a context after a microword whose result v goes to mD, with the four flags, at the next address. -/
def MicroState.result (m : MicroState) (d : Nat) (x : Word32) (z n c v : Bool) : MicroState :=
  { m.put d x with z := z, n := n, c := c, v := v, pc := m.pc + 1 }

/-- A thread with nothing to stop it at its boundary: no pending fault, no Convoy abort, no HALT that has taken effect, no recall, and
fewer descriptors waiting than CONTINUE_THR (R68, R82). -/
structure State.Calm (s : State) (n c : Nat) : Prop where
  noFault : (s.ctx c).fault = none
  noAbort : (s.site n).abort = none
  noHalt : (s.site n).halted = false
  noRecall : (s.site n).recalled = false
  room : (s.site n).queued < s.nInForce 0x6000 5

/-! ### A request that is carried out -/

/-- What a WRITE of index:sub asks. -/
def writeAsk (index sub : Nat) : Ask := { service := 2, index := index, sub := sub }

/-- A state once a request stands at the front: its frame has been taken from the ring (R322, R323), QUEUE_PEAK covers it (R349). -/
def State.queuedOne (s : State) (r : Req) : State := (s.arrives r).2.peak 0x1020 6 (r.ahead + 1)

/-- A state in which a number has been stored; where it acts from the next tick on, the old one is in force until then (R346). -/
def State.stored (s : State) (i j : Nat) (v : Int) : State := (s.setReg i j v).keepForce i j (s.reg i j)

/-- The engine carries a request out: the responder runs, the station consumes the frame (R322, R323), the queue has room (R349), no response
to the same request is kept (R350), and it passes SERVICE, LEVEL and DEVICE_STATE (R506, rows 2 to 4). -/
structure State.Carries (s : State) (r : Req) (q : Ask) : Prop where
  runs : s.responds = true
  consumed : (s.arrives r).1 = true
  room : r.ahead < (s.arrives r).2.queueLimit
  fresh : (s.queuedOne r).keptFor r q = none
  passes : (s.queuedOne r).gate r q = 0

/-- The state that a request carried out acts on: QUEUE_PEAK and REQUESTS have counted it (R363). -/
def State.taken (s : State) (r : Req) : State := (s.queuedOne r).bump 0x1020 3

/-- The engine carries out a WRITE of index:sub: no other requester holds a snapshot of the object (R353). -/
structure State.Writes (s : State) (r : Req) (index sub : Nat) : Prop where
  carries : s.Carries r (writeAsk index sub)
  free : (s.taken r).snapshotOf r.sa index sub = false

/-- The response to a request sent and kept for repetitions (R349, R350). -/
def State.answered (s : State) (r : Req) (q : Ask) (a : Answer) : State :=
  let m := s.replyTo r q a
  (s.sendReply m).keep r.sa m

/-- The kinds of state that a command may or may not change. Not among them: the dictionary's stored values (`regs`, `octs`), the events
raised, the log of what was sent and the counter of free values, which a command of any kind may touch; the fuses and the queue, which none
touches. -/
inductive Part where
  | device | clocks | sites | pins | contexts | store | ledger | acquisition | measure | time | ring | passport | calibration | thermal | jtag
  | memory | channels | link | convoy | rosec | faults
  deriving DecidableEq, Repr

/-- Whether two states agree on a part. -/
def Part.same : Part → State → State → Prop
  | .device, s, t => t.mode = s.mode ∧ t.start = s.start
  | .clocks, s, t => t.clk = s.clk
  | .sites, s, t => t.sites = s.sites
  | .pins, s, t => t.pins = s.pins ∧ t.evts = s.evts
  | .contexts, s, t => t.ctxs = s.ctxs
  | .store, s, t => t.store = s.store
  | .ledger, s, t => t.ledger = s.ledger ∧ t.inn = s.inn ∧ t.caravans = s.caravans
  | .acquisition, s, t => t.caps = s.caps ∧ t.recs = s.recs ∧ t.units = s.units
  | .measure, s, t => t.defs = s.defs
  | .time, s, t => t.time = s.time
  | .ring, s, t => t.ring = s.ring
  | .passport, s, t => t.pass = s.pass
  | .calibration, s, t => t.cal = s.cal
  | .thermal, s, t => t.therm = s.therm
  | .jtag, s, t => t.jtag = s.jtag
  | .memory, s, t => t.mem = s.mem
  | .channels, s, t => t.chans = s.chans ∧ t.reads = s.reads
  | .link, s, t => t.sl = s.sl
  | .convoy, s, t => t.convoy = s.convoy
  | .rosec, s, t => t.rosec = s.rosec
  | .faults, s, t => t.handler = s.handler

/-- Every part. -/
def Part.all : List Part :=
  [.device, .clocks, .sites, .pins, .contexts, .store, .ledger, .acquisition, .measure, .time, .ring, .passport, .calibration, .thermal, .jtag, .memory, .channels, .link, .convoy, .rosec, .faults]

/-- Every part but some. -/
def Part.others (l : List Part) : List Part := Part.all.filter fun p => !l.contains p

/-- The parts that a command may change. A thread's instruction may end at a boundary that halts or faults its site and frees what the site
held; a tick acts on nearly everything; a host request may be any write, a start among them. -/
def mayChange : Instr → List Part
  | .frameTick .. => Part.others [.thermal, .jtag]
  | .startTakesEffect .. | .descriptorTake .. | .serialSessionStart .. | .serialSessionEnd .. | .serialLockLost .. | .serialLockTimeout ..
    | .serialUnderrun .. | .monStateChange .. | .wordSlot .. => [.sites, .pins]
  | .refclkLost .. => Part.others [.store, .ring, .passport, .calibration, .thermal, .jtag, .rosec]
  | .longHoldover .. => [.clocks, .sites]
  | .refclkRelocked .. => [.clocks, .faults]
  | .hostDeadline .. | .faultDecision .. | .queuedFaultTimeout .. => [.device, .sites, .contexts, .channels, .link, .faults]
  | .load .. | .arm .. | .start .. | .haltCommand .. | .reset .. | .release .. | .sealHalted .. | .disarm .. | .header .. | .custOpen ..
    | .custClose .. | .custClear .. | .monEnable .. | .tuArm .. | .tuFire .. | .tuDisarm .. | .hostTrigger .. | .training .. | .restore ..
    | .widthChoice .. | .align .. | .read .. | .write .. | .segment .. | .segmentUpload .. | .abort .. | .subscribe .. | .unsubscribe ..
    | .negotiate .. | .discover .. | .coldStart .. | .warmStart .. | .sleep .. | .wake .. | .offsetAdj .. | .rateSet .. | .timeSet ..
    | .calStart .. | .calCancel .. | .blobExport .. | .blobImport .. | .coeffs .. | .ackBatch .. | .windowOpen .. | .windowFree ..
    | .windowAbandon .. | .advance .. | .decision .. | .raise .. | .tail .. | .warmN .. | .coldStartStepDone .. | .warmStartStepDone ..
    => Part.others [.jtag]
  | .vec .. | .rpt .. | .loop .. | .endl .. | .call .. | .ret .. | .jmp .. | .jfail .. | .jevt .. | .matchI .. | .waitHold ..
    | .waitTime .. | .tset .. | .period .. | .capStop .. | .capStart .. | .capPause .. | .capResume .. | .capCommit .. | .meas ..
    | .trigArm .. | .trigFire .. | .trigDisarm .. | .sync .. | .event .. | .serialEnter .. | .serialLeave .. | .sealI .. | .halt ..
    | .yield .. | .syncTimeout .. | .resumeTick .. | .convoyWord ..
    => Part.others [.clocks, .store, .time, .ring, .passport, .calibration, .thermal, .jtag, .rosec]
  | .cust .. => Part.others [.clocks, .time, .ring, .passport, .calibration, .thermal, .jtag, .rosec]
  | .drainDecision .. => Part.others [.clocks, .store, .time, .ring, .passport, .calibration, .thermal, .jtag, .convoy, .rosec]
  | .matched .. | .matchTimeout .. => [.sites, .pins, .contexts, .ledger]
  | .syncPost .. => [.sites]
  | .syncAgreement .. => [.sites, .pins, .contexts, .ledger, .convoy]
  | .verdictRecord .. => [.sites, .pins, .contexts, .ledger, .acquisition, .measure, .passport]
  | .playoutEnd .. => [.sites, .pins, .measure]
  | .nop .. | .mov .. | .movh .. | .add .. | .sub .. | .and .. | .or .. | .xor .. | .shf .. | .cmp .. | .crc .. | .br .. | .callu ..
    | .retu .. | .fetch .. | .ldt .. | .stt .. | .emitStream .. | .emitRepeat .. | .emitLiteral .. | .emitHold .. | .emitPeriod ..
    | .emitTset .. | .waitc .. | .evt .. | .post .. => [.device, .sites, .contexts, .store, .ledger, .convoy, .faults]
  | .fetchData .. => [.device, .sites, .contexts, .ledger, .channels, .faults]
  | .waitcWake .. | .waitcTimeout .. => [.contexts, .ledger]
  | .capcStop .. | .capcStart .. | .capcPause .. | .capcResume .. | .capcCommit .. | .capcMark ..
    => [.device, .sites, .contexts, .store, .ledger, .acquisition, .convoy, .faults]
  | .endI .. => Part.others [.clocks, .time, .ring, .calibration, .thermal, .jtag, .rosec]
  | .watchdog .. => Part.others [.clocks, .store, .time, .ring, .calibration, .thermal, .jtag, .convoy, .rosec]
  | .savingDone .. => [.contexts]
  | .csRestart .. => Part.others [.clocks, .time, .ring, .passport, .calibration, .thermal, .jtag, .convoy, .rosec]
  | .custCloseDone .. => [.device, .store, .faults]
  | .dispatch .. => Part.others [.clocks, .store, .time, .ring, .calibration, .thermal, .jtag, .rosec]
  | .caravanRelease .. => [.device, .ledger, .acquisition, .memory, .channels, .link, .faults]
  | .caravanStall .. => [.ledger]
  | .lineReadIssue .. => [.sites, .pins, .channels]
  | .lineReadReturn .. => [.device, .sites, .pins, .contexts, .channels, .faults]
  | .vectorStart .. => [.device, .sites, .pins, .ledger, .acquisition, .measure, .memory, .channels, .link, .faults]
  | .starveResume .. => [.sites, .acquisition]
  | .tsetWrite .. | .memWrite .. | .memReadReq .. | .csWrite .. | .reservedPacket ..
    => [.device, .pins, .store, .passport, .memory, .channels, .link, .faults]
  | .serialLock .. | .monForced .. => [.pins]
  | .cdrSlip .. | .serialBitReceived .. => [.sites, .pins, .acquisition]
  | .comparatorEdge .. => [.pins, .measure, .time]
  | .supplyMonChange .. => [.device, .sites, .faults]
  | .supplyMonForced .. | .faultRecovered .. => [.faults]
  | .holdoffEnd .. => [.ledger, .acquisition]
  | .autoTrigger .. | .recordExported .. => [.acquisition]
  | .gateOpen .. | .gateClose .. | .vernierDone .. => [.pins, .measure]
  | .dramAlert .. | .retrainTimeout .. => [.device, .channels, .faults]
  | .replayDone .. | .retrainDone .. => [.device, .acquisition, .channels, .link, .faults]
  | .escalateWindowEnd .. | .refreshDue .. | .mr4Read .. | .powerDown .. => [.channels]
  | .slAck .. => [.passport, .link, .faults]
  | .slNak .. | .slAckTimeout .. | .laneFail .. | .packetCrcError .. | .widthControlBlock .. => [.device, .link, .faults]
  | .slBringupDone .. | .slDegradeDone .. => [.link, .faults]
  | .slHoldIn .. => [.link]
  | .supervision .. => [.time, .ring, .faults]
  | .supervisionSend .. | .closeTimer .. | .pcsSynchronised .. => [.ring]
  | .linkLost .. | .rateChangeTimeout .. => [.device, .time, .ring, .faults]
  | .walk .. | .noticeBreak .. | .noticeClose .. | .assign .. | .ringFrameForward .. => [.time, .ring]
  | .segmentAbandon .. | .uploadRelease .. | .notifyConfirm .. => [.rosec]
  | .publication .. | .notifyRetry .. => [.ring, .rosec]
  | .ptpSync .. | .followUp .. | .delayReq .. | .delayResp .. | .pdelayResp .. | .pdelayRespFollowUp .. | .announce .. | .ptpSyncSend ..
    | .announceSend .. | .pdelayReqSend .. | .delayReqSend .. | .announceReceiptTimeout .. | .ptpSyncTimeout .. | .holdoverLimit ..
    | .pdelayFail .. | .hostLockTimeout .. | .slewEnd .. | .stepApply .. | .ppsPulse .. => [.time]
  | .pdelayReq .. | .drbgReseed .. => []
  | .timeTrigger .. => [.pins, .time]
  | .evtEdge .. => [.pins, .acquisition, .time]
  | .calStepDone .. | .calDomainCommit .. | .driftMeasurement .. | .calHostTimeout .. | .ageingRead .. => [.calibration]
  | .tempRead .. => [.device, .sites, .thermal, .faults]
  | .verdictHandover .. => [.ledger, .passport]
  | .batchClose .. => [.passport]
  | .batchSign .. => [.ring, .passport, .link]
  | .verdictResend .. => [.ring, .passport]
  | .interruptedSeal .. => Part.others [.clocks, .store, .time, .calibration, .thermal, .jtag, .convoy, .rosec]
  | .supplyFaultTimeout .. => [.device, .faults]
  | .resetN .. | .powerLoss .. => Part.all
  | .pwrWarnN .. => [.device, .passport]
  | .powerWarningCleared .. | .sleepAbandoned .. => [.device]
  | .safeHaltEntry .. => Part.others [.clocks, .store, .thermal, .jtag, .convoy, .rosec]
  | .sleepDrainDone .. => Part.others [.store, .passport, .calibration, .thermal, .jtag]
  | .wakeStepDone .. => [.device, .clocks, .acquisition, .time, .ring, .channels, .link, .rosec, .faults]
  | .bypass .. | .idcode .. | .samplePreload .. | .extest .. | .highz .. | .clamp .. | .extestPulse .. | .extestTrain .. => [.jtag]
  | .refclkPresent .. => [.clocks, .ring]
  | .thermNChange .. => [.thermal]

end Sys2Proof.Machine
end

