-- ==== Sys2Proof/Certificates/Slice0/Obligations.lean ====
section
/-! DEFINITION. The statements for the provers: every command's effect, what each kind of state keeps, and what every step keeps. -/

section Statements
open Sys2Proof Sys2Proof.Machine

/-! ### Steps, reset and what every command keeps -/

/-- A step takes the command at the front of the queue and runs it on the state with the queue's rest (the model's queue, log entry 1). -/
def Obligations.StepRunsFront : Prop :=
  ∀ (s : State) (c : Instr) (q : List Instr), s.pending = c :: q → step s = exec c { s with pending := q }

/-- What reset leaves: the cold start at step 1 with power just up, every site FREE and every pin OFF, every context FREE, both halves of the control
store empty, no reference and no PLL locked, network time FREERUN, every channel absent, no event raised, every object of the dictionary at its
default, nothing written in memory and nothing sent. The values that the spec does not give are the model's (log entry 3). -/
def Obligations.ResetState : Prop :=
  State.reset.mode = .coldStart ∧ State.reset.start.step = 1 ∧ State.reset.deviceState = 1
    ∧ (∀ n, (State.reset.site n).st = .free) ∧ (∀ n, (State.reset.pin n).drive = .off ∧ (State.reset.pin n).mon = .off)
    ∧ (∀ c, (State.reset.ctx c).st = .free) ∧ (∀ i, (State.reset.entry i).state = .free)
    ∧ State.reset.store.vendor = .absent ∧ State.reset.store.cust = .empty
    ∧ State.reset.clk.ref = .absent ∧ State.reset.clk.beat = .unlocked ∧ State.reset.time.quality = .freerun
    ∧ (∀ c, (State.reset.chan c).mode = .absent) ∧ State.reset.ev.raised = [] ∧ State.reset.ev.book = []
    ∧ (∀ i j, State.reset.reg i j = regDefault i j) ∧ (∀ i j, State.reset.oct i j = octDefault i j)
    ∧ (∀ a, memByte State.reset.mem a = none) ∧ State.reset.sent = [] ∧ State.reset.pending = []

/-- After reset memory and every table stand in their canonical form. -/
def Obligations.ResetCanonical : Prop :=
 State.reset.canonical = true

/-- Every step keeps the canonical form of memory and of every table of the state: addresses and keys strictly rising, nothing listed that equals what
an unlisted one reads as. -/
def Obligations.EveryStepKeepsCanonical : Prop :=
  ∀ s t : State, s.canonical = true → step s = .next t → t.canonical = true

/-- No command writes the fuses (grade, stepping, UID) or touches the queue of commands. -/
def Obligations.EveryCommandKeepsFusesAndQueue : Prop :=
  ∀ (c : Instr) (s t : State), exec c s = .next t → t.grade = s.grade ∧ t.step = s.step ∧ t.uid = s.uid ∧ t.pending = s.pending

/-- Every command leaves every part of the state as it was but those that `mayChange` lists for it: vector memory is written only by commands that may
store to it, the clocks only by ticks, the reference and starts, the control store, network time, the ring, the Passport, the calibration, the test
port and every other part only by their own commands. -/
def Obligations.OnlyItsPartsChange : Prop :=
  ∀ (c : Instr) (s t : State), exec c s = .next t → ∀ p : Part, p ∉ mayChange c → p.same s t

/-- No command stops: in every state exec answers a next state, never a fault and never a refusal. -/
def Obligations.EveryCommandGoesOn : Prop :=
 ∀ (c : Instr) (s : State), ∃ t, exec c s = .next t

/-! ### Itinerary instructions -/

/-- LOOP, ENDL, CALL and RET (R47). Each acts on the thread alone and goes on at its boundary; LOOP reads the line of the ENDL that it names and with
K = 0 skips its body; an ENDL that closes a loop opened before the last CALL leaves that call as many loops fewer. -/
def Obligations.LoopsAndCalls : Prop :=
  ∀ (s : State) (n : SiteId) (w : Word64),
    (s.Executes n w 0x03 →
      let u := s.begun n w 7 true
      let t := (u.site n).thread
      let r := u.readWord (u.itinAddr n (bits w 47 24))
      t.idx < bits w 47 24 → bits w 47 24 < (u.site n).length → (checkWord r.1).ok = true → opcodeOf (checkWord r.1).data = 0x04 →
        (bits w 23 0 = 0 → exec (.loop n w) s
          = .next ((r.2.modThread n fun t => { t with idx := bits w 47 24 + 1 }).boundary n (s.seat n) (s.site n).thread.idx none false false))
        ∧ (bits w 23 0 ≠ 0 → t.loops.length < 8 → exec (.loop n w) s
          = .next (((r.2.modThread n fun t => { t with loops := (t.idx + 1, bits w 23 0) :: t.loops }).modThread n
              fun t => { t with idx := t.idx + 1 }).boundary n (s.seat n) (s.site n).thread.idx none false false)))
    ∧ (s.Executes n w 0x04 →
      let u := s.begun n w 5 true
      ∀ i k rest, (u.site n).thread.loops = (i, k) :: rest →
        (1 < k → exec (.endl n w) s
          = .next ((u.modThread n fun t => { t with idx := i, loops := (i, k - 1) :: rest }).boundary n (s.seat n) (s.site n).thread.idx none false false))
        ∧ (k ≤ 1 → exec (.endl n w) s
          = .next (((u.modThread n (·.closeLoop rest)).modThread n
              fun t => { t with idx := t.idx + 1 }).boundary n (s.seat n) (s.site n).thread.idx none false false)))
    ∧ (s.Executes n w 0x05 →
      let u := s.begun n w 7 true
      let t := (u.site n).thread
      1 ≤ bits w 23 0 → bits w 23 0 < (u.site n).length → t.calls.length < 16 →
        exec (.call n w) s
          = .next (((u.modThread n fun t => { t with calls := (t.idx + 1, t.loops.length) :: t.calls }).modThread n
              fun t => { t with idx := bits w 23 0 }).boundary n (s.seat n) (s.site n).thread.idx none false false))
    ∧ (s.Executes n w 0x06 →
      let u := s.begun n w 6 true
      ∀ i k rest, (u.site n).thread.calls = (i, k) :: rest → (u.site n).thread.loops.length ≤ k →
        exec (.ret n w) s
          = .next ((u.modThread n fun t => { t with idx := i, calls := rest }).boundary n (s.seat n) (s.site n).thread.idx none false false))

/-- JMP, JFAIL with DRAIN = 0 and JEVT (R47, R48): POP loops are closed whether the jump is taken or not; JFAIL is taken when FAIL differs from SENSE,
and CLRF acts after its test; JEVT is taken when a pending bit of MASK is set and clears them with CLR. -/
def Obligations.Jumps : Prop :=
  ∀ (s : State) (n : SiteId) (w : Word64),
    let target := bits w 23 0
    let pop := bits w 47 44
    let fits (u : State) : Prop := 1 ≤ target ∧ target < (u.site n).length ∧ pop ≤ (u.site n).thread.ownLoops ∧ pop ≤ 8
    let jumped (u : State) (taken : Bool) : State :=
      (u.modThread n fun t => { t with loops := t.loops.drop pop }).modThread n
        fun t => { t with idx := if taken then target else t.idx + 1 }
    (s.Executes n w 0x07 → fits (s.begun n w 5 true) →
        exec (.jmp n w) s = .next ((jumped (s.begun n w 5 true) true).boundary n (s.seat n) (s.site n).thread.idx none false false))
    ∧ (s.Executes n w 0x08 → fits (s.begun n w 8 false) → bit w 43 = false →
        let u := s.begun n w 8 false
        exec (.jfail n w) s
          = .next ((jumped (if clrfOf w then u.newEpoch n else u) ((u.site n).has flagFail != bit w 42)).boundary n (s.seat n) (s.site n).thread.idx none false false))
    ∧ (s.Executes n w 0x09 → fits (s.begun n w 7 true) →
        let u := s.begun n w 7 true
        let mask := BitVec.ofNat 8 (bits w 39 32)
        let p := (u.site n).thread.pending
        exec (.jevt n w) s
          = .next ((jumped (if bit w 31 then u.modThread n fun t => { t with pending := p &&& ~~~mask } else u)
              ((p &&& mask) != 0)).boundary n (s.seat n) (s.site n).thread.idx none false false))

/-- EVENT raises event 4 + E of the named site or of its own, and directly after a drain point keeps it for the frame in which the site resumes, YIELD
parks the thread at the next instruction (R43, R55, R68). -/
def Obligations.EventAndYield : Prop :=
  ∀ (s : State) (n : SiteId) (w : Word64),
    (s.Executes n w 0x12 →
      let u := s.begun n w 6 true
      let e := 1024 + 8 * (if bit w 14 then bits w 13 8 else n.val) + (4 + bits w 1 0)
      exec (.event n w) s
        = .next (((match (u.site n).thread.fresh with
            | some t => if (u.site n).st = SiteState.waiting then u.modSite n fun x => { x with atResume := x.atResume ++ [(t, e)] } else u.raise e
            | none => u.raise e).modThread n fun t => { t with idx := t.idx + 1 }).boundary n (s.seat n) (s.site n).thread.idx none false false))
    ∧ (s.Executes n w 0x16 →
      exec (.yield n w) s
        = .next (((s.begun n w 3 true).modThread n fun t => { t with idx := t.idx + 1 }).boundary n (s.seat n) (s.site n).thread.idx none true false))

/-- CUSTn reads entry n of the table, as any word of the control store is read, and enters its routine: m0 and m1 take the operand, m2 to m15 are free
values, the run begins at ENTRY under RUN_LIMIT, and the thread stands within a customer run (R81, R97). -/
def Obligations.CustEntersItsRoutine : Prop :=
  ∀ (s : State) (n : SiteId) (w : Word64) (entry limit : Nat), 0x20 ≤ opcodeOf w → opcodeOf w ≤ 0x3F → s.Executes n w (opcodeOf w) →
    let k := custKey (opcodeOf w - 0x20)
    let u := (s.begun n w 5 true).readStore k
    s.store.needsRepair k = false → (u.store.word k).isSome = true → u.store.custEntry (opcodeOf w - 0x20) = some (entry, limit) →
    ∃ t, exec (.cust n w) s = .next t
      ∧ (t.ctx (s.seat n)).ms.reg 0 = BitVec.ofNat 32 (bits w 31 0) ∧ (t.ctx (s.seat n)).ms.reg 1 = BitVec.ofNat 32 (bits w 47 32)
      ∧ (∀ i, 2 ≤ i → i < 16 → (t.ctx (s.seat n)).ms.reg i = BitVec.ofNat 32 (Config.freeValue (u.freeCtr + (i - 2))))
      ∧ (t.ctx (s.seat n)).ms.pc = BitVec.ofNat 16 entry ∧ (t.ctx (s.seat n)).limit = limit ∧ (t.ctx (s.seat n)).run = 0
      ∧ (t.ctx (s.seat n)).ms.stack = []
      ∧ t = { u with freeCtr := u.freeCtr + 14, ctxs := t.ctxs, sites := t.sites }
      ∧ t.sites = (u.modThread n fun y => { y with custom := true }).sites
      ∧ ∀ c, c ≠ s.seat n → t.ctx c = u.ctx c

/-- What VEC, RPT, WAIT, TSET, PERIOD and MATCH stage for the vector path, where the descriptor queue has room and the check of R164 passes (R45, R46,
R52, R54, R55). VEC streams from VP, or from START with ABS = 1, at most 4,096 vectors to a descriptor, and goes on in a further run where the queue
fills; MATCH is a drain point. -/
def Obligations.PatternInstructions : Prop :=
  ∀ (s : State) (n : SiteId) (w : Word64),
    let c := s.seat n
    let next (u : State) : State := (u.modThread n fun t => { t with idx := t.idx + 1 }).boundary n c (s.site n).thread.idx none false false
    (s.Executes n w 0x01 →
      let u := s.begun n w 6 (s.site n).thread.vecLeft.isNone
      let start := if bit w 47 then bits w 46 16 else (u.site n).thread.vp
      let count := if bit w 47 then (if bits w 15 0 = 0 then 65536 else bits w 15 0) else bits w 31 0
      (u.site n).thread.vecLeft = none → start + count ≤ u.nreg (siteObj n 1) 5 →
        let v := u.modThread n fun t => { t with vp := start }
        (count = 0 → exec (.vec n w) s = .next (next (v.modThread n fun t => { t with vecLeft := none })))
        ∧ (count ≠ 0 → v.queueRoom n = true → v.stagingOk n = true →
          let r := v.emitRun n c 64 (v.site n).thread.vp count
          let x := r.2.modThread n fun t => { t with vp := (v.site n).thread.vp + (count - r.1) }
          (r.1 = 0 → exec (.vec n w) s = .next (next (x.modThread n fun t => { t with vecLeft := none })))
          ∧ (r.1 ≠ 0 → exec (.vec n w) s = .next ((x.modThread n fun t => { t with vecLeft := some r.1 }).boundary n c (s.site n).thread.idx none true true))))
    ∧ (s.Executes n w 0x02 →
      let u := s.begun n w 6 true
      (u.site n).thread.anyPattern = true →
        (bits w 31 0 = 0 → exec (.rpt n w) s = .next (next u))
        ∧ (bits w 31 0 ≠ 0 → u.queueRoom n = true → u.stagingOk n = true →
            exec (.rpt n w) s = .next (next (u.emitVectors n c (.repeat (bits w 31 0))))))
    ∧ (s.Executes n w 0x0B →
      let u := s.begun n w 8 true
      (bit w 47 = false → bits w 46 0 = 0 → exec (.waitHold n w) s = .next (next u))
      ∧ (bit w 47 = false → bits w 46 0 ≠ 0 → u.queueRoom n = true →
          exec (.waitHold n w) s
            = .next (next ((u.emit n c (.hold (5000 * bits w 46 0))).modThread n (·.addHold (some (5000 * bits w 46 0))))))
      ∧ (bit w 47 = true → u.queueRoom n = true →
          exec (.waitTime n w) s
            = .next (next ((u.emit n c (.until (u.waitTarget (bits w 46 0)).toNat)).modThread n (·.addHold none)))))
    ∧ (s.Executes n w 0x0C →
      let u := s.begun n w 6 true
      u.setValid n (bits w 5 0) = true → u.queueRoom n = true →
        exec (.tset n w) s = .next (next ((u.emit n c (.tset (bits w 5 0))).modThread n fun t => { t with tset := bits w 5 0 })))
    ∧ (s.Executes n w 0x0D →
      let u := s.begun n w 6 true
      2500 ≤ bits w 31 0 → u.queueRoom n = true →
        exec (.period n w) s
          = .next (next ((u.emit n c (.period (bits w 31 0))).modThread n fun t => { t with period := some (bits w 31 0) })))
    ∧ (s.Executes n w 0x0A →
      let u := s.begun n w 14 true
      let len := bits w 13 9 + 1
      let vp := (u.site n).thread.vp
      ∀ pins, u.matchPins n (bits w 47 46) (bits w 45 30) (bits w 29 14) = some pins → bits w 45 30 ≠ 0 →
        vp + len ≤ u.nreg (siteObj n 1) 5 → u.queueRoom n = true → u.stagingOk n = true →
        let v := (u.emitVectors n c (.block vp len)).modSite n fun x =>
          ({ x with mtch := some { first := vp, len := len, masked := pins, timeout := bits w 4 0 * 4 ^ bits w 8 5 } }.flag flagMatched
            false).flag flagTimeout false
        (v.ctx c).fault = none → (v.site n).abort = none → (v.site n).halted = false →
        exec (.matchI n w) s = .next (v.enterDrain n c .match))

/-- CAP, MEAS, TRIG and SERIAL (R44, R55): what the acquisition and measurement units accept rides to the start of the next vector; SERIAL puts the
pins of its configuration into serial mode or takes them out in emission order. -/
def Obligations.RidingInstructions : Prop :=
  ∀ (s : State) (n : SiteId) (w : Word64),
    let c := s.seat n
    let next (u : State) : State := (u.modThread n fun t => { t with idx := t.idx + 1 }).boundary n c (s.site n).thread.idx none false false
    (s.Executes n w 0x0E →
      let u := s.begun n w 9 true
      let done (a : Nat) : State :=
        next (if (u.capIssue n a).1 then (u.capIssue n a).2.emit n c (.rider (.cap a (bits w 15 8))) else (u.capIssue n a).2)
      (bits w 2 0 = 0 → exec (.capStop n w) s = .next (done 0)) ∧ (bits w 2 0 = 1 → exec (.capStart n w) s = .next (done 1))
      ∧ (bits w 2 0 = 2 → exec (.capPause n w) s = .next (done 2)) ∧ (bits w 2 0 = 3 → exec (.capResume n w) s = .next (done 3))
      ∧ (bits w 2 0 = 4 → exec (.capCommit n w) s = .next (done 4)))
    ∧ (s.Executes n w 0x0F →
      let u := s.begun n w 11 true
      let d := bits w 11 0
      u.ownsDef n d = true → (u.mdef d).mode ≠ 0 →
        let v := u.armMeas n d (bit w 12)
        exec (.meas n w) s
          = .next (next (if (v.mdef d).st = .armed ∧ (u.mdef d).st ≠ .armed ∧ (u.mdef d).st ≠ .gate then
              v.emit n c (.rider (.meas d (bit w 12))) else v)))
    ∧ (s.Executes n w 0x10 →
      let u := s.begun n w 8 true
      u.nreg (tuObj (bits w 3 0)) 1 = n →
        (bits w 5 4 = 0 → exec (.trigArm n w) s = .next (next (u.emit n c (.rider (.trig (bits w 3 0) 0)))))
        ∧ (bits w 5 4 = 1 → exec (.trigFire n w) s = .next (next (u.emit n c (.rider (.trig (bits w 3 0) 1)))))
        ∧ (bits w 5 4 = 2 → exec (.trigDisarm n w) s = .next (next (u.emit n c (.rider (.trig (bits w 3 0) 2))))))
    ∧ (s.Executes n w 0x13 →
      let u := s.begun n w 16 true
      let k := bits w 11 8
      ∀ g, u.serialCfg n k = some g →
        (bit w 0 = true → ((u.site n).thread.inSerial.any fun e => (u.cfgPins n g).contains e.1 && e.2 != k) = false →
          exec (.serialEnter n w) s
            = .next (next ((u.emit n c (.rider (.serialEnter k))).modThread n (·.serialMode (u.cfgPins n g) k true))))
        ∧ (bit w 0 = false →
          exec (.serialLeave n w) s
            = .next (next ((u.emit n c (.rider (.serialLeave k))).modThread n
                (·.serialMode ((u.cfgPins n g).filter fun p => (u.site n).thread.inSerial.contains (p, k)) k false)))))

/-- SYNC, SEAL, HALT, MATCH and JFAIL with DRAIN = 1 are drain points (R50, R52, R57, R59, R60, R82). Where nothing stops the thread at its boundary,
each completes in every state: the drain point is entered in this frame, at the instruction's index, with the operands that its decision will use; the
context waits with its run over; a site that was RUNNING is WAITING; no pin, no memory and no other context is touched. -/
def Obligations.DrainPoints : Prop :=
  ∀ (s : State) (n : SiteId) (w : Word64),
    let c := s.seat n
    let x := s.site n
    let held (o : Out) (k : DrainKind) (y : Option SyncRun) : Prop :=
      ∃ t, o = .next t ∧ (t.site n).drain = some { kind := k, entered := s.clk.frames, index := x.thread.idx } ∧ (t.site n).sync = y
        ∧ (t.site n).st = (if x.st = .running then .waiting else x.st) ∧ (t.site n).thread.idx = x.thread.idx
        ∧ (t.site n).queue = x.queue ∧ (t.site n).runs = x.runs ∧ (t.site n).play = x.play
        ∧ (t.ctx c).st = .waiting ∧ (t.ctx c).run = 0 ∧ (t.ctx c).ms = (s.ctx c).ms ∧ (∀ d, d ≠ c → t.ctx d = s.ctx d)
        ∧ t.pins = s.pins ∧ t.mem = s.mem ∧ t.clk = s.clk
    (s.Executes n w 0x11 → s.Unstopped n 12 → bits w 18 16 ≤ 3 → bits w 47 32 ≠ 0 →
      held (exec (.sync n w) s) .sync
        (some { id := bits w 15 0, comb := bit w 19, vote := bits w 18 16, timeout := bits w 47 32, clrf := clrfOf w }))
    ∧ (s.Executes n w 0x14 → s.Unstopped n 28 → held (exec (.sealI n w) s) (.seal (bits w 15 0) (bit w 16)) x.sync)
    ∧ (s.Executes n w 0x15 → s.Unstopped n 9 → held (exec (.halt n w) s) .halt x.sync)
    ∧ (s.Executes n w 0x08 → s.Unstopped n 8 → bit w 43 = true →
        1 ≤ bits w 23 0 → bits w 23 0 < x.length → bits w 47 44 ≤ x.thread.ownLoops → bits w 47 44 ≤ 8 →
        held (exec (.jfail n w) s) (.jfail (bit w 42) (bits w 23 0) (bits w 47 44) (clrfOf w)) x.sync)
    ∧ (s.Executes n w 0x0A → s.Unstopped n 14 →
      let len := bits w 13 9 + 1
      ∀ pins, s.matchPins n (bits w 47 46) (bits w 45 30) (bits w 29 14) = some pins → bits w 45 30 ≠ 0 →
        x.thread.vp + len ≤ s.nreg (siteObj n 1) 5 → s.queueRoom n = true → s.stagingOk n = true →
        ∃ t, exec (.matchI n w) s = .next t ∧ (t.site n).drain = some { kind := .match, entered := s.clk.frames, index := x.thread.idx }
          ∧ (t.site n).mtch = some { first := x.thread.vp, len := len, masked := pins, timeout := bits w 4 0 * 4 ^ bits w 8 5 }
          ∧ (t.site n).st = (if x.st = .running then .waiting else x.st) ∧ (t.ctx c).st = .waiting ∧ (t.ctx c).ms = (s.ctx c).ms
          ∧ (∀ d, d ≠ c → t.ctx d = s.ctx d) ∧ t.mem = s.mem ∧ t.clk = s.clk)

/-- A thread with nothing to stop it goes on at its boundary (R82): only its context changes, which is READY from now, its run at 0, its snapshot
taken and its taint cleared. -/
def Obligations.CalmBoundaryGoesOn : Prop :=
  ∀ (s : State) (n c : Nat), s.Calm n c →
    s.boundary n c (s.site n).thread.idx none false false
      = s.setCtx c { s.ctx c with
          st := .ready, readySince := s.inn.clock, run := 0, snap := (s.ctx c).ms, restarted := false
          taint := false, tainted := 0, effects := false }

/-- An instruction that meets none of its conditions takes its fault with none of its effect (R62, R63): an index beyond LENGTH is ADDRESS, an
unlisted opcode ILLEGAL, COND = 7 and a reserved bit RESERVED_FIELD; the instruction whose COND does not hold is skipped. -/
def Obligations.InstructionChecks : Prop :=
  ∀ (s : State) (n : SiteId) (w : Word64) (i : Instr),
    (i = .rpt n w ∧ opcodeOf w = 0x02 ∨ i = .jmp n w ∧ opcodeOf w = 0x07 ∨ i = .event n w ∧ opcodeOf w = 0x12) → s.mayRun n = true →
    let c := s.seat n
    let cost := if opcodeOf w = 0x07 then 5 else 6
    let u := (s.modCtx c fun y => { y with st := .issuing }).charge c cost
    let skip := (s.modCtx c fun y => { y with st := .issuing }).charge c 4
    let idx := (s.site n).thread.idx
    ((s.site n).length ≤ idx → exec i s = .next (u.instrFault n c fAddress idx))
    ∧ (idx < (s.site n).length → condOf w = 7 → exec i s = .next (u.instrFault n c fReserved idx))
    ∧ (idx < (s.site n).length → condOf w ≠ 7 → (s.site n).thread.vecLeft = none → (s.site n).thread.reached = false →
        siteCond (s.site n).flags (condOf w) = false → exec i s = .next (((skip.modThread n (·.pass (opcodeOf w))).modThread n
          fun t => { t with idx := t.idx + 1 }).boundary n c (s.site n).thread.idx none false false))
    ∧ (idx < (s.site n).length → condOf w ≠ 7 → siteCond (s.site n).flags (condOf w) = true → reservedClear w = false →
        exec i s = .next (u.instrFault n c fReserved idx))

/-! ### Microwords -/

/-- Arithmetic and logic (R72, R74). ADD, SUB, AND, OR, XOR, MOV and MOVH write mD with Z and N; ADD and SUB give C and V as well, the others keep
what they do not name; CMP sets the flags of a subtraction and writes no register; CRC writes Z alone. Every one goes on at the next address and
changes nothing else but the count of cycles. A microword with reserved operand bits, and any word of an opcode that is not listed, executes as NOP
and holds ILLEGAL_MICROWORD (R70, R72). -/
def Obligations.MicroArithmetic : Prop :=
    (∀ (s : State) (c : CtxId) (f : BitVec 26),
       let m := (s.ctx c).ms
       let a := m.reg (fA f)
       let put (v : Word32) (cf vf : Bool) : Out :=
         .next ((s.issued c 1).modMs c fun _ => m.result (fD f) v (v == 0) (v.getLsbD 31) cf vf)
       (∀ b, sourceB m f = some b →
         (s.Issues c 0x03 f 1 → exec (.add c f) s = put (a + b) (decide (2 ^ 32 ≤ a.toNat + b.toNat)) (a.saddOverflow b))
         ∧ (s.Issues c 0x04 f 1 → exec (.sub c f) s = put (a - b) (decide (b.toNat ≤ a.toNat)) (a.ssubOverflow b))
         ∧ (s.Issues c 0x05 f 1 → exec (.and c f) s = put (a &&& b) m.c m.v)
         ∧ (s.Issues c 0x06 f 1 → exec (.or c f) s = put (a ||| b) m.c m.v)
         ∧ (s.Issues c 0x07 f 1 → exec (.xor c f) s = put (a ^^^ b) m.c m.v)
         ∧ (s.Issues c 0x01 f 1 → fA f = 0 → exec (.mov c f) s = put b m.c m.v)
         ∧ (s.Issues c 0x09 f 1 → fD f = 0 → exec (.cmp c f) s
             = .next ((s.issued c 1).modMs c fun _ => { m with
                 z := a - b == 0, n := (a - b).getLsbD 31, c := decide (b.toNat ≤ a.toNat), v := a.ssubOverflow b, pc := m.pc + 1 })))
       ∧ (s.Issues c 0x02 f 1 → fImm f = true → bits f 16 15 = 0 → fA f = 0 → exec (.movh c f) s
           = put (BitVec.ofNat 32 (bits f 14 0 * 2 ^ 17 + (m.reg (fD f)).toNat % 2 ^ 17)) m.c m.v)
       ∧ (s.Issues c 0x0A f 1 → ∀ p w k, crcForm m f = some (p, w, k) →
           let x := BitVec.ofNat 32 (crcSteps w p.toNat a.toNat k (m.reg (fD f)).toNat)
           exec (.crc c f) s = .next ((s.issued c 1).modMs c fun _ => { m.put (fD f) x with z := x == 0, pc := m.pc + 1 }))
       ∧ (s.Issues c 0x00 0 1 → exec (.nop c 0) s = .next ((s.issued c 1).modMs c fun _ => { m with pc := m.pc + 1 })))
    ∧ (∀ (s : State) (c : CtxId) (f : BitVec 26),
         let m := (s.ctx c).ms
         let illegal : Out := .next (((s.issued c 1).holdFault c 0x0010 m.pc).modMs c fun m => { m with pc := m.pc + 1 })
         (fImm f = false → bits f 16 4 ≠ 0 →
           (s.Issues c 0x03 f 1 → exec (.add c f) s = illegal) ∧ (s.Issues c 0x04 f 1 → exec (.sub c f) s = illegal)
           ∧ (s.Issues c 0x05 f 1 → exec (.and c f) s = illegal) ∧ (s.Issues c 0x06 f 1 → exec (.or c f) s = illegal)
           ∧ (s.Issues c 0x07 f 1 → exec (.xor c f) s = illegal) ∧ (s.Issues c 0x01 f 1 → exec (.mov c f) s = illegal)
           ∧ (s.Issues c 0x09 f 1 → exec (.cmp c f) s = illegal))
         ∧ (s.Issues c 0x01 f 1 → fA f ≠ 0 → exec (.mov c f) s = illegal)
         ∧ (s.Issues c 0x09 f 1 → fD f ≠ 0 → exec (.cmp c f) s = illegal)
         ∧ (s.Issues c 0x02 f 1 → fImm f = false ∨ bits f 16 15 ≠ 0 ∨ fA f ≠ 0 → exec (.movh c f) s = illegal)
         ∧ (s.Issues c 0x08 f 1 → bits f 16 7 ≠ 0 → exec (.shf c f) s = illegal)
         ∧ (s.Issues c 0x0A f 1 → crcForm m f = none → exec (.crc c f) s = illegal)
         ∧ (s.Issues c 0x0B f 1 → branchTarget m f = none ∨ fA f ≠ 0 ∨ fD f = 15 → exec (.br c f) s = illegal)
         ∧ (s.Issues c 0x0C f 1 → branchTarget m f = none ∨ fA f ≠ 0 ∨ fD f ≠ 0 → exec (.callu c f) s = illegal)
         ∧ (s.Issues c 0x0D f 1 → f ≠ 0 → exec (.retu c f) s = illegal)
         ∧ (s.Issues c 0x0E f 1 → fImm f = false ∨ bits f 16 15 ≠ 0 ∨ fD f % 2 = 1 → exec (.fetch c f) s = illegal)
         ∧ (s.Issues c 0x0F f 1 → fImm f = false ∨ 4 < bits f 16 14 → exec (.ldt c f) s = illegal)
         ∧ (s.Issues c 0x10 f 1 → fImm f = false ∨ 4 < bits f 16 14 → exec (.stt c f) s = illegal)
         ∧ (s.Issues c 0x11 f 1 →
           (5 < fD f → exec (.emitStream c f) s = illegal)
           ∧ (fImm f = true ∨ bits f 16 4 ≠ 0 → (fD f = 0 → exec (.emitStream c f) s = illegal) ∧ (fD f = 2 → exec (.emitLiteral c f) s = illegal))
           ∧ (bits f 17 0 ≠ 0 → (fD f = 1 → exec (.emitRepeat c f) s = illegal) ∧ (fD f = 3 → exec (.emitHold c f) s = illegal)
             ∧ (fD f = 4 → exec (.emitPeriod c f) s = illegal) ∧ (fD f = 5 → exec (.emitTset c f) s = illegal)))
         ∧ (s.Issues c 0x12 f 1 → fImm f = false ∨ 8 < fD f → exec (.waitc c f) s = illegal)
         ∧ (s.Issues c 0x13 f 1 → fImm f = false ∨ fD f ≠ 0 ∨ fA f ≠ 0 ∨ bits f 16 12 ≠ 0 ∨ (bit f 11 = false ∧ bits f 10 2 ≠ 0) →
           exec (.evt c f) s = illegal)
         ∧ (s.Issues c 0x14 f 1 → 4 < fD f → fD f ≠ 8 → exec (.capcStop c f) s = illegal)
         ∧ (s.Issues c 0x15 f 1 → fImm f = false ∨ bits f 16 12 ≠ 0 → exec (.post c f) s = illegal)
         ∧ (∀ w : Word32, let op := bits w 31 26
           w ≠ 0 → op = 0 ∨ 0x16 ≤ op ∧ op ≤ 0x3E → s.Issues c op (BitVec.ofNat 26 w.toNat) 1 → exec (.nop c w) s = illegal))

/-- BR, CALLU and RETU (R71, R72, R87): a branch not taken costs 1 cycle and goes on, every transfer costs 2; CALLU pushes the next address on the
micro-stack of 8, RETU pops it. A full stack and an empty one hold MICRO_STACK, and a transfer from customer code into the vendor half holds
PROTECTION; both go on at the next address. -/
def Obligations.MicroBranches : Prop :=
  ∀ (s : State) (c : CtxId) (f : BitVec 26),
    let m := (s.ctx c).ms
    let barred (t : BitVec 16) : Prop := 0x8000 ≤ m.pc.toNat ∧ t.toNat < 0x8000
    (∀ t, branchTarget m f = some t → fA f = 0 → fD f ≠ 15 →
      (condHolds m (fD f) = true → ¬barred t → s.Issues c 0x0B f 2 →
        exec (.br c f) s = .next ((s.issued c 2).modMs c fun _ => { m with pc := t }))
      ∧ (condHolds m (fD f) = false → s.Issues c 0x0B f 1 →
        exec (.br c f) s = .next ((s.issued c 1).modMs c fun _ => { m with pc := m.pc + 1 })))
    ∧ (s.Issues c 0x0C f 2 → ∀ t, branchTarget m f = some t → fA f = 0 → fD f = 0 → m.stack.length < 8 → ¬barred t →
        exec (.callu c f) s = .next ((s.issued c 2).modMs c fun _ => { m with pc := t, stack := (m.pc + 1) :: m.stack }))
    ∧ (s.Issues c 0x0D 0 2 → ∀ t rest, m.stack = t :: rest → ¬barred t →
        exec (.retu c 0) s = .next ((s.issued c 2).modMs c fun _ => { m with pc := t, stack := rest }))
    ∧ (let held (k code : Nat) : Out := .next (((s.issued c k).holdFault c code m.pc).modMs c fun m => { m with pc := m.pc + 1 })
      (∀ t, branchTarget m f = some t → fA f = 0 →
        (fD f ≠ 15 → condHolds m (fD f) = true → barred t → s.Issues c 0x0B f 1 → exec (.br c f) s = held 1 0x0011)
        ∧ (fD f = 0 → 8 ≤ m.stack.length → s.Issues c 0x0C f 1 → exec (.callu c f) s = held 1 0x0012)
        ∧ (fD f = 0 → m.stack.length < 8 → barred t → s.Issues c 0x0C f 2 → exec (.callu c f) s = held 2 0x0011))
      ∧ (m.stack = [] → s.Issues c 0x0D 0 1 → exec (.retu c 0) s = held 1 0x0012)
      ∧ (∀ t rest, m.stack = t :: rest → barred t → s.Issues c 0x0D 0 2 → exec (.retu c 0) s = held 2 0x0011))

/-- FETCH, LDT and STT (R75, R76): FETCH leaves a read of the itinerary running into the pair mD, mD+1; LDT reads a word of a table space into mD, STT
stores mD into SCRATCH, IDENTITY or THREAD, whose layout is free (log entry 44); a word beyond the space gives 0, or is not stored, and holds ADDRESS;
SITEINFO and CS are not stored to, and customer code reaches no THREAD and no vendor half, which holds PROTECTION; a word of the store that is
uncorrectable is a free value and holds DATA_POISON (R85). -/
def Obligations.MicroTables : Prop :=
  ∀ (s : State) (c : CtxId) (f : BitVec 26),
    let m := (s.ctx c).ms
    let u := s.issued c 1
    let n := u.owningSite c
    let addr := bits f 13 0 + (m.reg (fA f)).toNat % 65536
    let load (v : Word32) : Out := .next (u.modMs c fun _ => { m.put (fD f) v with pc := m.pc + 1 })
    (s.Issues c 0x0E f 1 → fImm f = true → bits f 16 15 = 0 → fD f % 2 = 0 →
      let i := (m.reg (fA f)).toNat + bits f 14 0
      (i < (u.site n).length → exec (.fetch c f) s
        = .next (u.modCtx c fun x => { x with
            fetch := x.fetch ++ [{ pair := fD f, addr := u.nreg (siteObj n 1) 2 + 8 * i, pc := m.pc, since := u.clk.frames }]
            ms := { m with pc := m.pc + 1 } }))
      ∧ ((u.site n).length ≤ i → exec (.fetch c f) s
        = .next ((u.holdFault c 0x0015 m.pc).modMs c fun m => { (m.put (fD f) 0).put (fD f + 1) 0 with pc := m.pc + 1 })))
    ∧ (s.Issues c 0x0F f 1 → fImm f = true →
      (bits f 16 14 = 0 → addr < 64 → exec (.ldt c f) s = load (Table.get 0 (u.site n).scratch addr))
      ∧ (bits f 16 14 = 1 → addr < 8 → exec (.ldt c f) s = load (Table.get 0 (u.site n).identity addr))
      ∧ (bits f 16 14 = 2 → addr < 7 → exec (.ldt c f) s = load (u.siteInfo n addr))
      ∧ (bits f 16 14 = 3 → addr < 256 → m.pc.toNat < 0x8000 →
          let th := (u.site n).thread
          (∀ v, th.item (Config.threadItem addr) = some v → exec (.ldt c f) s = load (BitVec.ofNat 32 v))
          ∧ (th.item (Config.threadItem addr) = none → th.aux.any (·.1 = addr) = true → exec (.ldt c f) s = load (Table.get 0 th.aux addr))
          ∧ (th.item (Config.threadItem addr) = none → th.aux.any (·.1 = addr) = false →
              exec (.ldt c f) s = load (BitVec.ofNat 32 (Config.threadWord n addr))))
      ∧ (bits f 16 14 = 4 → addr < 65536 → (m.pc.toNat < 0x8000 ∨ 0x8000 ≤ addr) → s.store.needsRepair (addr / 2) = false →
          let r := u.readStore (addr / 2)
          (∀ v, r.store.micro addr = some v → exec (.ldt c f) s = .next (r.modMs c fun _ => { m.put (fD f) v with pc := m.pc + 1 }))
          ∧ (r.store.micro addr = none → exec (.ldt c f) s
              = .next (({ r with freeCtr := r.freeCtr + 1 }.holdFault c fPoison m.pc).modMs c fun m =>
                  { m.put (fD f) (BitVec.ofNat 32 (Config.freeValue r.freeCtr)) with pc := m.pc + 1 })))
      ∧ (let zero (code : Nat) : Out := .next ((u.holdFault c code m.pc).modMs c fun m => { m.put (fD f) 0 with pc := m.pc + 1 })
        (bits f 16 14 ≤ 4 → spaceSize (bits f 16 14) ≤ addr → exec (.ldt c f) s = zero 0x0015)
        ∧ (bits f 16 14 = 3 → addr < 256 → 0x8000 ≤ m.pc.toNat → exec (.ldt c f) s = zero 0x0011)
        ∧ (bits f 16 14 = 4 → addr < 0x8000 → 0x8000 ≤ m.pc.toNat → exec (.ldt c f) s = zero 0x0011)))
    ∧ (s.Issues c 0x10 f 1 → fImm f = true →
      let stored (g : Site → Site) : Out :=
        .next (((u.modSite n g).modCtx c fun y => { y with effects := true }).modMs c fun m => { m with pc := m.pc + 1 })
      (bits f 16 14 = 0 → addr < 64 → exec (.stt c f) s = stored fun y => { y with scratch := Table.set 0 y.scratch addr (m.reg (fD f)) })
      ∧ (bits f 16 14 = 1 → addr < 8 → exec (.stt c f) s
          = stored fun y => { y with identity := Table.set 0 y.identity addr (m.reg (fD f)) })
      ∧ (bits f 16 14 = 3 → addr < 256 → m.pc.toNat < 0x8000 → exec (.stt c f) s
          = stored fun y => { y with thread := y.thread.setWord addr (m.reg (fD f)) })
      ∧ (let held (code : Nat) : Out := .next ((u.holdFault c code m.pc).modMs c fun m => { m with pc := m.pc + 1 })
        (bits f 16 14 = 2 ∨ bits f 16 14 = 4 ∨ bits f 16 14 = 3 ∧ 0x8000 ≤ m.pc.toNat → exec (.stt c f) s = held 0x0011)
        ∧ (bits f 16 14 < 2 ∨ bits f 16 14 = 3 ∧ m.pc.toNat < 0x8000 → spaceSize (bits f 16 14) ≤ addr → exec (.stt c f) s = held 0x0015)))

/-- EMIT (R77, R78, R164): a descriptor within its limits is staged, provisional, where the queue has room, and Z says that there was; one beyond them
is not staged and holds EMIT_INVALID. -/
def Obligations.MicroEmit : Prop :=
  ∀ (s : State) (c : CtxId) (f : BitVec 26), s.Issues c 0x11 f 1 →
    let m := (s.ctx c).ms
    let u := s.issued c 1
    let n := u.owningSite c
    let t := (u.site n).thread
    let a := m.reg (fA f)
    let b := m.reg (bits f 3 0)
    let staged (d : DescKind) (g : Thread → Thread) : Out :=
      let v := u.modCtx c fun x => { x with tainted := if x.taint then x.tainted + 1 else x.tainted, before := x.before.or (some t) }
      .next (((v.stageBy n c d).modThread n g).modMs c fun m => { m with z := true, pc := m.pc + 1 })
    fImm f = false →
    (u.queueRoom n = true → (fD f = 0 → bits f 16 4 = 0 → 1 ≤ a.toNat → a.toNat ≤ 4096 → b.toNat + a.toNat ≤ u.nreg (siteObj n 1) 5 → u.stagingOk n = true →
          exec (.emitStream c f) s = staged (.stream b.toNat a.toNat) Thread.staged)
      ∧ (fD f = 1 → bits f 17 0 = 0 → 1 ≤ a.toNat → t.anyPattern = true → u.stagingOk n = true →
          exec (.emitRepeat c f) s = staged (.repeat a.toNat) Thread.staged)
      ∧ (fD f = 2 → bits f 16 4 = 0 → bits b 31 20 = 0 → bit b 11 = false → t.anyPattern = true → u.stagingOk n = true →
          (∃ p, (u.sitePins n)[bits b 5 0]? = some p ∧ (bits b 10 6 = 31 ∨
              ∀ e, t.inSerial.find? (·.1 = p) = some e → ∀ g, u.serialCfg n e.2 = some g → g.src ≠ 4)) →
          exec (.emitLiteral c f) s
            = staged (.literal a (bits b 19 16) (bits b 15 12) (bits b 10 6 + 1) (bits b 5 0)) Thread.staged)
      ∧ (fD f = 3 → bits f 17 0 = 0 → 1 ≤ a.toNat → exec (.emitHold c f) s = staged (.hold a.toNat) (·.addHold (some a.toNat)))
      ∧ (fD f = 4 → bits f 17 0 = 0 → 2500 ≤ a.toNat →
          exec (.emitPeriod c f) s = staged (.period a.toNat) fun t => { t with period := some a.toNat })
      ∧ (fD f = 5 → bits f 17 0 = 0 → a.toNat < 64 → u.setValid n a.toNat = true →
          exec (.emitTset c f) s = staged (.tset a.toNat) fun t => { t with tset := a.toNat }))
    ∧ (u.queueRoom n = false →
      let full : Out := .next (u.modMs c fun m => { m with z := false, pc := m.pc + 1 })
      (fD f = 0 → bits f 16 4 = 0 → 1 ≤ a.toNat → a.toNat ≤ 4096 → b.toNat + a.toNat ≤ u.nreg (siteObj n 1) 5 → u.stagingOk n = true →
        exec (.emitStream c f) s = full)
      ∧ (fD f = 1 → bits f 17 0 = 0 → 1 ≤ a.toNat → t.anyPattern = true → u.stagingOk n = true → exec (.emitRepeat c f) s = full)
      ∧ (fD f = 3 → bits f 17 0 = 0 → 1 ≤ a.toNat → exec (.emitHold c f) s = full)
      ∧ (fD f = 4 → bits f 17 0 = 0 → 2500 ≤ a.toNat → exec (.emitPeriod c f) s = full)
      ∧ (fD f = 5 → bits f 17 0 = 0 → a.toNat < 64 → u.setValid n a.toNat = true → exec (.emitTset c f) s = full))
    ∧ (let invalid : Out := .next ((u.holdFault c 0x0016 m.pc).modMs c fun m => { m with z := u.queueRoom n, pc := m.pc + 1 })
      (fD f = 0 → bits f 16 4 = 0 → a.toNat = 0 ∨ 4096 < a.toNat ∨ u.nreg (siteObj n 1) 5 < b.toNat + a.toNat ∨ u.stagingOk n = false →
        exec (.emitStream c f) s = invalid)
      ∧ (fD f = 1 → bits f 17 0 = 0 → a.toNat = 0 ∨ t.anyPattern = false ∨ u.stagingOk n = false → exec (.emitRepeat c f) s = invalid)
      ∧ (fD f = 2 → bits f 16 4 = 0 → bits b 31 20 ≠ 0 ∨ bit b 11 = true ∨ t.anyPattern = false ∨ u.stagingOk n = false →
        exec (.emitLiteral c f) s = invalid)
      ∧ (fD f = 3 → bits f 17 0 = 0 → a.toNat = 0 → exec (.emitHold c f) s = invalid)
      ∧ (fD f = 4 → bits f 17 0 = 0 → a.toNat < 2500 → exec (.emitPeriod c f) s = invalid)
      ∧ (fD f = 5 → bits f 17 0 = 0 → 64 ≤ a.toNat ∨ u.setValid n a.toNat = false → exec (.emitTset c f) s = invalid))

/-- WAITC (R79): a condition that is true ends it with Z = 1, otherwise the context waits, to the deadline of a timeout that is not 0; the wait ends
with Z = 1 when the condition comes true, a wait for TIME also within a frame, and with Z = 0 at its deadline. It waits not at all, and Z is 0, where
the resource is not its site's, which holds PROTECTION, or the thread is already stopped. EVT, CAPC and POST (R80): EVT raises a source, at once or,
within a Caravan item, at its release; CAPC asks the acquisition engine, what it accepts rides to the next vector and Z says so; POST asks the
Innkeeper for an entry and Z says that it was granted. Customer code raises its site's sources alone, and posts customer entries at customer
priorities; otherwise it holds PROTECTION. -/
def Obligations.MicroWaitsAndRequests : Prop :=
    ((∀ (s : State) (c : CtxId) (f : BitVec 26), s.Issues c 0x12 f 1 → fImm f = true → fD f ≤ 8 →
       let m := (s.ctx c).ms
       let u := s.issued c 1
       let n := u.owningSite c
       let arg := m.reg (fA f)
       (u.waitOwned n (fD f) arg (u.ctx c).customer = false →
         exec (.waitc c f) s = .next ((u.holdFault c 0x0011 m.pc).modMs c fun m => { m with z := false, pc := m.pc + 1 }))
       ∧ (u.waitOwned n (fD f) arg (u.ctx c).customer = true →
         (u.ctx c).fault.isSome = true ∨ (u.ctx c).orphan.isSome = true
           ∨ (u.ctx c).task = false ∧ ((u.site n).abort.isSome = true ∨ (u.site n).halted = true) →
         exec (.waitc c f) s = .next (u.modMs c fun _ => { m with z := false, pc := m.pc + 1 }))
       ∧ (u.waitOwned n (fD f) arg (u.ctx c).customer = true → (u.ctx c).fault = none → (u.ctx c).orphan = none →
       ((u.ctx c).task = true ∨ (u.site n).abort = none ∧ (u.site n).halted = false) →
         (u.waitTrue n (fD f) arg u.clk.frames false = true →
           exec (.waitc c f) s = .next (u.modMs c fun _ => { m with z := true, pc := m.pc + 1 }))
         ∧ (u.waitTrue n (fD f) arg u.clk.frames false = false →
           exec (.waitc c f) s = .next ((u.modMs c fun _ => { m with pc := m.pc + 1 }).modCtx c fun y => { y with
             st := .waiting, wait := some { cond := fD f, arg := arg, since := u.clk.frames,
                                            deadline := if bits f 16 0 = 0 then none else some (u.clk.frames + bits f 16 0) } }))))
     ∧ (∀ (s : State) (c : CtxId) (w : Wait), (s.ctx c).wait = some w →
       let woken (z : Bool) : Out := .next ((s.passCycles 1).modCtx c fun y => { y with
         wait := none, st := .ready, readySince := s.inn.clock + 1, ms := { y.ms with z := z } })
       (s.waitTrue (s.owningSite c) w.cond w.arg w.since true = true → exec (.waitcWake c) s = woken true)
       ∧ (∀ d, w.deadline = some d → d ≤ s.clk.frames → s.waitTrue (s.owningSite c) w.cond w.arg w.since false = false →
           exec (.waitcTimeout c) s = woken false)))
    ∧ (∀ (s : State) (c : CtxId) (f : BitVec 26),
         let m := (s.ctx c).ms
         let u := s.issued c 1
         let n := u.owningSite c
         (s.Issues c 0x13 f 1 → fImm f = true → fD f = 0 → fA f = 0 → bits f 16 12 = 0 →
           (bit f 11 = true → m.pc.toNat < 0x8000 →
             exec (.evt c f) s = .next ((u.raiseBy c (bits f 10 0)).modMs c fun m => { m with pc := m.pc + 1 }))
           ∧ (bit f 11 = false → bits f 10 2 = 0 →
             exec (.evt c f) s = .next ((u.raiseBy c (1024 + 8 * n + (4 + bits f 1 0))).modMs c fun m => { m with pc := m.pc + 1 }))
           ∧ (bit f 11 = true → 0x8000 ≤ m.pc.toNat →
             exec (.evt c f) s = .next ((u.holdFault c 0x0011 m.pc).modMs c fun m => { m with pc := m.pc + 1 })))
         ∧ (s.Issues c 0x14 f 1 → fImm f = true →
           let asked (k : Nat) (r : Rider) : Out :=
             let v := (u.capIssue n k).2
             if (u.capIssue n k).1 then
               .next (((v.stageBy n c (.rider r)).modCtx c fun y => { y with effects := true }).modMs c
                 fun m => { m with z := true, pc := m.pc + 1 })
             else .next (v.modMs c fun m => { m with z := false, pc := m.pc + 1 })
           (fD f = 0 → exec (.capcStop c f) s = asked 0 (.cap 0 (bits f 7 0)))
           ∧ (fD f = 1 → exec (.capcStart c f) s = asked 1 (.cap 1 (bits f 7 0)))
           ∧ (fD f = 2 → exec (.capcPause c f) s = asked 2 (.cap 2 (bits f 7 0)))
           ∧ (fD f = 3 → exec (.capcResume c f) s = asked 3 (.cap 3 (bits f 7 0)))
           ∧ (fD f = 4 → exec (.capcCommit c f) s = asked 4 (.cap 4 (bits f 7 0)))
           ∧ (fD f = 8 → exec (.capcMark c f) s = asked 8 (.mark (m.reg (fA f)))))
         ∧ (s.Issues c 0x15 f 1 → fImm f = true → bits f 16 12 = 0 →
           let entry := (m.reg (fA f)).toNat % 65536
           let customer := (u.ctx c).customer
           (customer = true → bits f 2 0 ≤ 2 ∨ entry < 0x8000 →
             exec (.post c f) s = .next ((u.holdFault c 0x0011 m.pc).modMs c fun m => { m with pc := m.pc + 1 }))
           ∧ ((customer = false ∨ 2 < bits f 2 0 ∧ 0x8000 ≤ entry) →
             let r := u.postTask n entry (bits f 2 0) (m.reg (fD f)) (if bit f 3 then some (bits f 11 4) else none) customer
             exec (.post c f) s
               = if r.1 then .next ((r.2.modCtx c fun y => { y with effects := true }).modMs c fun m => { m with z := true, pc := m.pc + 1 })
                 else .next (r.2.modMs c fun m => { m with z := false, pc := m.pc + 1 }))))

/-! ### The tick and the reference -/

/-- FRAME_TICK (R13, R15) opens the next frame: the count of frames rises by one and the beat counter by 64, more only where a new phase is applied,
and then by less than 64; ticks stay where the count of beats and the phase sum to a multiple of 64. What a tick does at its sites, pins, units and
links leaves the clocks as they stand. -/
def Obligations.TickAdvancesTheClocks : Prop :=
  ∀ s : State, s.mode ≠ .off → s.start.resetLow = false →
    ∃ t, exec .frameTick s = .next t ∧ t.clk.frames = s.clk.frames + 1 ∧ t.clk.ref = s.clk.ref ∧ t.clk.beat = s.clk.beat
      ∧ (s.convoy.newPhase = none → t.clk.c = s.clk.c + 64 ∧ t.clk.phase = s.clk.phase)
      ∧ ((∀ p, s.convoy.newPhase = some p → p < 64) → (s.clk.c + s.clk.phase) % 64 = 0 → (t.clk.c + t.clk.phase) % 64 = 0)
      ∧ s.clk.c + 64 ≤ t.clk.c ∧ t.clk.c < s.clk.c + 128
      ∧ (s.clk.beat = .holdover → t.clk.lostFor = s.clk.lostFor + 1)
      ∧ (s.clk.ref = .present → t.clk.presentFor = s.clk.presentFor + 1)

/-- The reference (R11, R460). REFCLK declared present counts its ticks from 0 and starts the ports; lost while the beat PLL is locked, it leaves the
PLL in holdover with the count of its ticks at 0, a REFCLK fault handed to the fault handler and every spanning site aborted; lost before, it only
stops the count; after 1,250,000 ticks of holdover live sites are tainted; and the PLL relocks once REFCLK has been steady for 10 ms and no site holds
a budget. -/
def Obligations.ReferenceLostAndFound : Prop :=
  ∀ (s : State),
    (s.mode ≠ .off → s.clk.ref ≠ .present →
      exec .refclkPresent s = .next { s with clk := { s.clk with ref := .present, presentFor := 0 } }.startPorts)
    ∧ (∀ o, s.mode ≠ .off → s.clk.ref = .present →
      let ref : RefState := if o then .outside else .absent
      let lost : Clocks := { s.clk with ref := ref, presentFor := 0, beat := .holdover, lostFor := 0 }
      let u := ({ s with clk := lost }.raise 1543).handFault { resource := 8, level := 8, source := 1543 }
      let w := u.loseLock.each siteNos fun x n => if (x.site n).st.live then x.modSite n (·.flag flagRefclk true) else x
      let t := w.each w.spanning fun x n => (x.sendAbort n 2 x.abortTick).convoyFault n 0x0101
      (s.clk.beat = .locked → exec (.refclkLost o) s = .next t ∧ t.clk = lost)
      ∧ (s.clk.beat = .unlocked → exec (.refclkLost o) s = .next { s with clk := { s.clk with ref := ref, presentFor := 0 } }))
    ∧ (s.clk.beat = .holdover → 1250000 ≤ s.clk.lostFor → s.clk.longHoldover = false →
      exec .longHoldover s = .next { s with clk := { s.clk with longHoldover := true } }.taintLive)
    ∧ (s.clk.beat = .holdover → s.refSteady = true → s.anyBusy = false →
      exec .refclkRelocked s
        = .next (({ s with clk := { s.clk with beat := .locked, lostFor := 0, longHoldover := false } }.raise 1544).recovered 8
            (s.usSince (((s.faultOf 8).map fun (f : FaultRec) => f.frame).getD s.clk.frames))))

/-- Runs (R65, R75, R82, R86, R274): the data of the oldest FETCH whose turn it is comes into its pair and ends the stall it caused; END goes on
through its boundary, ends the task, or frees the context of a thread that had ended in mid-run; a run over its limit is stopped before its microword,
with WATCHDOG held and its provisional descriptors discarded; a context saved is free. -/
def Obligations.RunsEndAndGoOn : Prop :=
  ∀ (s : State) (c : CtxId),
    (∀ p i flips, ((s.ctx c).fetch.zipIdx.find? fun e => s.serves 4 (256 * c.val + e.2) e.1.addr) = some (p, i) →
      let u := (s.passOlder 4 (256 * c.val + i) p.addr).passCycles 1
      let r := u.takeLine (64 * (p.addr / 64)) flips
      let d := checkWord (r.1.getD (p.addr / 8 % 8) {})
      let t := r.2.modCtx c fun y => { y with
        fetch := y.fetch.eraseIdx i, stalled := false, st := if y.stalled then .ready else y.st
        readySince := if y.stalled then u.inn.clock else y.readySince
        ms := (y.ms.put p.pair (BitVec.ofNat 32 (bits d.data 63 32))).put (p.pair + 1) (BitVec.ofNat 32 (bits d.data 31 0)) }
      exec (.fetchData c flips) s = .next (if d.ok = true then t else t.holdFault c fPoison p.pc))
    ∧ (∀ f, s.Issues c 0x3F f 1 → bits f 23 18 = 0 → bit f 16 = false →
      let u := s.issued c 1
      let n := u.owningSite c
      (bit f 25 = false → bit f 17 = false → bits f 15 0 = 0 →
        ((u.ctx c).orphan.isSome = true → exec (.endI c f) s = .next (u.endOrphan n c))
        ∧ ((u.ctx c).orphan = none → (u.ctx c).task = true → exec (.endI c f) s
          = .next (((u.release n c).modCtx c fun y => { y with snap := y.ms }).endTask c))
        ∧ ((u.ctx c).orphan = none → (u.ctx c).task = false → exec (.endI c f) s = .next (u.endThread n c false (bit f 24) 0)))
      ∧ (bit f 25 = true → bit f 17 = true → (u.ctx c).orphan = none → (u.ctx c).task = false → (u.ctx c).barred (BitVec.ofNat 16 (bits f 15 0)) = false →
        exec (.endI c f) s = .next (u.endThread n c true (bit f 24) (BitVec.ofNat 16 (bits f 15 0)))))
    ∧ (s.mayIssue c = true → s.inMicro c = true → s.overLimit c = true →
      let n := s.owningSite c
      let u := ((s.hold c fWatchdog).bump (0x4010 + c / 8) 6).discard n c
      exec (.watchdog c) s = .next (if (s.ctx c).orphan.isSome = true then u.endOrphan n c else if (s.ctx c).task = true then u.endTask c else u.boundary n c (u.site n).thread.idx (some (s.ctx c).ms.pc) false false))
    ∧ ((s.ctx c).st = .saving → exec (.savingDone c) s = .next (s.freeCtx c))

/-- CS_RESTART (R91): the primary copy of the entry read, its own or the one that its LDT reads, is rewritten from the mirror and the run repeats from
its last snapshot in a spare context of the engine, its thread's table pointing there; the context that met the error is free after a self-test that
passes. -/
def Obligations.RestartRepairsAndRepeats : Prop :=
  ∀ (s : State) (c : CtxId) (k d : Nat), s.mayIssue c = true → s.inMicro c = true → s.repairs c = some k →
    let n := s.owningSite c
    let e := c.val / 8
    let t := ((((s.correctCopy true k).repairCopy false k).bump (0x4010 + e) 7).passCycles 1).reportFault
      { resource := 0x80 + c, level := 5, site := n, source := 1547 }
    let u := t.discard n c
    let x := u.ctx c
    u.spareCtx c = some d →
    let v := u.setCtx d { x with st := .ready, ms := x.snap, run := 0, fetch := [], wait := none, stalled := false, readySince := u.inn.clock,
                                  effects := false, restarted := true }
    let w := match x.owner with | some i => v.setEntry i { v.entry i with context := d } | none => v
    let y := if x.effects = true then (w.modCtx d fun z => { z with taint := true }).taint n else w
    exec (.csRestart c true) s = .next (y.setCtx c {}) ∧ exec (.csRestart c false) s = .next (y.retire c n)

/-! ### Host commands -/

/-- The commands of a site (R29-R31, R36, R60, R107): each, in the state it needs, has its effect, LAST_STATUS reads OK, and the response says OK.
LOAD reads the header's line, keeps BUDGET and LENGTH of a valid header, hashes the itinerary, turns the pins off and forgets their held decisions;
ARM admits the site and makes its thread READY on the engine that admission names; START lets it wait for its tick; HALT acts at once from READY and
at the next tick otherwise; RESET returns it to LOADED, RELEASE to FREE, both at the next tick during play-out; SEAL_HALTED seals it, its trigger
units disarmed, with an ABORTED record to come; DISARM returns the budget. A site command in a state where it does not apply changes nothing but
LAST_STATUS, which reads COMMAND, as does the response (R29, R506); LOAD that fails a check of R30 is refused with LOAD_CHECK, ARM with DEVICE_STATE
while a sleep is asked for, GRADE, ARM_CHECK, STORE_OPEN or ADMISSION, whose reason is kept with E1603, and START of a spanning site whose chain is
not aligned with SPAN (R25, R30, R31, R107). -/
def Obligations.SiteCommands : Prop :=
    (∀ (s : State) (r : Req) (n : SiteId),
       let q := writeAsk (siteObj n 0) 2
       let u := s.taken r
       let done (t : State) : Out := .next ((t.setNat (siteObj n 0) 4 0).answered r q {})
       s.Writes r (siteObj n 0) 2 →
       (∀ budget len, (u.site n).st = .free →
           let w := u.readWord (u.nreg (siteObj n 1) 2)
           let x := w.2
           x.header n w.1 = some (budget, len) → x.pinMap n ≠ 0 → x.mapFree n = true →
           x.nreg (siteObj n 1) 5 ≠ 0 → (x.spans n = false ∨ x.nreg (siteObj n 1) 6 = x.nreg 0xA100 7) →
           let v := ((((x.setNat (siteObj n 1) 7 budget).hashLoad n len).enter n .loaded).modSite n fun x => { x with length := len }).pinsOff n
           exec (.load r n) s = done (v.each (v.sitePins n) State.clearDecisions))
       ∧ (∀ e, (u.site n).st = .loaded → u.start.sleepAsked = none → u.serialArm n u.admittedSites = 0 → u.calibrating n = false →
           u.reg 0xA100 5 ≠ 1 →
           (u.spans n = false ∨ (u.laneOf n).isSome = true ∧ u.reg 0xA100 1 ≠ 0 ∧ u.nreg (siteObj n 1) 6 = u.nreg 0xA100 7) →
           u.store.cust ≠ .opened → u.store.cust ≠ .closing → u.admission n = .inl e →
           let hint := Table.get 255 u.inn.engines n
           let v := if u.reg 0x2100 6 = 1 ∧ hint < 16 ∧ e ≠ hint then u.bump 0x5001 15 else u
           exec (.arm r n) s = done (v.armOn n e))
       ∧ ((u.site n).st = .ready → (u.spans n = false ∨ u.reg 0xA100 5 = 2) →
           let t := u.nreg (siteObj n 0) 3
           let v := if t ≠ 0 ∧ ofTime80 t ≤ u.localTime then u.bump 0x8000 15 else u
           exec (.start r n) s = done (v.modSite n fun x => { x with startAsked := true }))
       ∧ ((u.site n).st = .ready → exec (.haltCommand r n) s = done ((u.haltSite n).dropPath n))
       ∧ ((u.site n).st.live = true → (u.site n).sealing = false →
           exec (.haltCommand r n) s = done (u.modSite n fun x => { x with haltAsked := true }))
       ∧ ((u.site n).st = .halted ∨ (u.site n).st = .faulted ∨ (u.site n).st = .sealed →
           ((u.site n).playout = false → exec (.reset r n) s = done (u.resetNow n))
           ∧ ((u.site n).playout = true → exec (.reset r n) s = done (u.modSite n fun x => { x with deferred := some false })))
       ∧ ((u.site n).st = .loaded ∨ (u.site n).st = .halted ∨ (u.site n).st = .faulted ∨ (u.site n).st = .sealed →
           ((u.site n).playout = false → exec (.release r n) s = done (u.releaseNow n))
           ∧ ((u.site n).playout = true → exec (.release r n) s = done (u.modSite n fun x => { x with deferred := some true })))
       ∧ ((u.site n).st = .halted →
           exec (.sealHalted r n) s = done (((u.enter n .sealed).disarmUnits n).modSite n fun x =>
             { x with form := some (u.clk.frames + 1, 3) }))
       ∧ ((u.site n).st = .ready →
           exec (.disarm r n) s
             = done ((((((u.releaseBudget n).cancelTasks n).cancelSiteMeas n).endCapture n).dropPath n).enter n .loaded |>.modSite n
                 fun x => { x with startAsked := false, drain := none, sync := none, mtch := none, atResume := [] })))
    ∧ (∀ (s : State) (r : Req) (n : SiteId),
         let q := writeAsk (siteObj n 0) 2
         let u := s.taken r
         let with_ (t : State) (code : Nat) : Out := .next ((t.setNat (siteObj n 0) 4 code).answered r q { status := code })
         let refused : Out := with_ u 0x0302
         s.Writes r (siteObj n 0) 2 →
         ((u.site n).st ≠ .free → exec (.load r n) s = refused)
         ∧ ((u.site n).st = .free →
             let w := u.readWord (u.nreg (siteObj n 1) 2)
             let x := w.2
             (x.header n w.1 = none → exec (.load r n) s = with_ x 0x0303)
             ∧ (∀ h, x.header n w.1 = some h → x.pinMap n = 0 ∨ x.mapFree n = false ∨ x.nreg (siteObj n 1) 5 = 0
                 ∨ (x.spans n = true ∧ x.nreg (siteObj n 1) 6 ≠ x.nreg 0xA100 7) → exec (.load r n) s = with_ x 0x0303))
         ∧ ((u.site n).st ≠ .loaded → exec (.arm r n) s = refused)
         ∧ ((u.site n).st = .loaded →
           (∀ t, u.start.sleepAsked = some t → exec (.arm r n) s = with_ u 0x010A)
           ∧ (u.start.sleepAsked = none →
             let serial := u.serialArm n u.admittedSites
             let clash : Prop := serial ≠ 0 ∨ u.calibrating n = true ∨ u.reg 0xA100 5 = 1
               ∨ (u.spans n = true ∧ ((u.laneOf n).isNone = true ∨ u.reg 0xA100 1 = 0 ∨ u.nreg (siteObj n 1) 6 ≠ u.nreg 0xA100 7))
             (serial = 0x0301 → exec (.arm r n) s = with_ u 0x0301)
             ∧ (serial ≠ 0x0301 → clash → exec (.arm r n) s = with_ u 0x0305)
             ∧ (¬clash → u.store.cust = .opened ∨ u.store.cust = .closing → exec (.arm r n) s = with_ u 0x0307)
             ∧ (¬clash → u.store.cust ≠ .opened → u.store.cust ≠ .closing → ∀ reason, u.admission n = .inr reason →
               exec (.arm r n) s = with_ ((u.setNat 0x5001 7 reason).raise 1603) 0x0304)))
         ∧ ((u.site n).st ≠ .ready → exec (.start r n) s = refused ∧ exec (.disarm r n) s = refused)
         ∧ ((u.site n).st = .ready → u.spans n = true → u.reg 0xA100 5 ≠ 2 → exec (.start r n) s = with_ u 0x0306)
         ∧ ((u.site n).st ≠ .ready → (u.site n).st.live = false ∨ (u.site n).sealing = true → exec (.haltCommand r n) s = refused)
         ∧ ((u.site n).st ≠ .halted → exec (.sealHalted r n) s = refused)
         ∧ ((u.site n).st ≠ .halted → (u.site n).st ≠ .faulted → (u.site n).st ≠ .sealed → exec (.reset r n) s = refused)
         ∧ ((u.site n).st = .free ∨ (u.site n).st = .ready ∨ (u.site n).st.live = true → exec (.release r n) s = refused))

/-- The commands of the customer half, of a monitor and of a trigger unit (R90, R201, R221, R226): CUST_OPEN, CUST_CLOSE (which reads and mends the
table first) and CUST_CLEAR move the half between its states, MON_ENABLE restarts a monitor in UNDECIDED for the strobes of the next frame on, TU_ARM,
TU_FIRE and TU_DISARM act on the unit, HOST_TRIGGER marks a sample. -/
def Obligations.UnitCommands : Prop :=
  ∀ (s : State) (r : Req), let u := s.taken r
    (s.Writes r 0x4000 4 →
      let done (t : State) : Out := .next (t.answered r (writeAsk 0x4000 4) {})
      (u.store.cust = .empty ∨ u.store.cust = .closed → u.anyBusy = false →
          exec (.custOpen r) s = done { u with store := { u.store with cust := .opened } })
      ∧ (u.store.cust = .opened →
          let v := u.each (List.range 32) fun v n => v.scrubEntry (custKey n)
          (List.range 32).all v.store.entryOk = true → exec (.custClose r) s = done { v with store := { v.store with cust := .closing } })
      ∧ (u.store.cust = .opened ∨ u.store.cust = .closed → u.anyBusy = false → exec (.custClear r) s = done u.custEmpty))
    ∧ (∀ n : PinId, s.Writes r (pinObj n 5) 1 →
        let v := u.stored (pinObj n 5) 1 1
        exec (.monEnable r n) s = .next (((v.noteRuns n (5000 * (v.clk.c + 64))).monRestart n).answered r (writeAsk (pinObj n 5) 1) {}))
    ∧ (∀ k : UnitId, s.Writes r (tuObj k) 2 →
      let done (t : State) : Out := .next (t.answered r (writeAsk (tuObj k) 2) {})
      exec (.tuArm r k) s = done (u.armUnit k) ∧ exec (.tuFire r k) s = done (u.fireUnit k none)
        ∧ exec (.tuDisarm r k) s = done (u.disarmUnit k))
    ∧ (∀ (n : SiteId) (k : Nat), k < 2 ^ 64 → s.Writes r (capStat n) 11 → u.reg 0x2100 4 = 1 →
      let c := u.cap n
      c.st ≠ .idle → c.phase = .pre → c.preFrom ≤ k → k < c.next → c.next - 1 - k ≤ u.nreg (capObj n) 11 →
        exec (.hostTrigger r n k) s = .next ((u.setCap n { c with hostAt := some k }).answered r (writeAsk (capStat n) 11) {}))

/-- The commands of the link and of the chain (R299-R301, R312): RESTORE retrains at full width, WIDTH_CHOICE within its deadline is adopted and
decides the degradation, ALIGN begins enumeration. -/
def Obligations.LinkCommands : Prop :=
  ∀ (s : State) (r : Req), let u := s.taken r
    (s.Writes r 0xA000 17 → u.anyBusy = false →
      exec (.restore r 1) s = .next (u.restoreLink.answered r (writeAsk 0xA000 17) {}))
    ∧ (∀ w d f, s.Writes r 0xA000 15 → u.sl.choiceBy = some d → u.clk.frames ≤ d →
      w = 4 ∨ w = 8 ∨ w = 12 ∨ w = 16 → w ≤ hwWidth (u.nreg 0xA000 3) u.rxFailed →
      u.handler.current = some f → f.resource = 3 → f.level = 3 →
      exec (.widthChoice r w) s
        = .next ((({ u with sl := { u.sl with chosen := some w, choiceBy := none } }.decideCurrent f 3)).answered r (writeAsk 0xA000 15) {}))
    ∧ (s.Writes r 0xA100 3 → u.reg 0xA100 1 = 1 → u.alignBusy = false →
      exec (.align r) s
        = .next ((({ (u.setNat 0xA100 5 1).setNat 0xA100 6 0 with convoy :=
            { u.convoy with cmd := some (cmdWord 1 false 1) } })).answered r (writeAsk 0xA100 3) {}))

/-- The codes of REQUEST (R361, R471, R473, R477, R479): a cold start of TYPE 3 always, a warm start of TYPE 5 from SERVICE or of the TYPE of the
start in progress, the drain for SLEEP once nothing is busy, and WAKE; each takes effect once its response has left. -/
def Obligations.StartRequests : Prop :=
  ∀ (s : State) (r : Req), s.Writes r 0x2001 1 →
    let done (code : Nat) : State := (s.taken r).answered r (writeAsk 0x2001 1) { after := code }
    (exec (.coldStart r) s = .next ((done 2).coldFrom 3 0))
    ∧ ((s.taken r).mode = .service → exec (.warmStart r) s = .next ((done 1).beginWarm 5))
    ∧ ((s.taken r).mode = .warmStart → exec (.warmStart r) s = .next ((done 1).beginWarm (done 1).start.type))
    ∧ ((s.taken r).mode = .coldStart → exec (.warmStart r) s = .next ((done 1).coldFrom (done 1).start.type 0))
    ∧ ((s.taken r).idle = true → (done 3).start.sleepAsked = none →
        exec (.sleep r) s = .next ((done 3).modStart fun x => { x with sleepAsked := some (done 3).clk.frames }))
    ∧ ((s.taken r).mode = .sleep → (done 4).start.wakeStep = 0 →
        exec (.wake r) s = .next ((done 4).modStart fun x => { x with wakeStep := 1 }))

/-- The commands of network time and of calibration (R368, R376, R379, R395, R398): OFFSET_ADJ and RATE_SET act at the next tick and mark the host as
heard, a rate word kept within its range; TIME_SET asks for a slew or a step to its time; CAL_START lets the first domain of DOMAIN_MASK begin;
CAL_CANCEL ends the run at the next tick. -/
def Obligations.TimeAndCalibrationCommands : Prop :=
  ∀ (s : State) (r : Req), let u := s.taken r
    (∀ d : Int, -(2 ^ 63) ≤ d → d < 2 ^ 63 → s.Writes r 0x8010 2 → u.reg 0x2100 3 ≠ 0 → u.hostServoClosed = false →
      exec (.offsetAdj r d) s = .next (((u.askPhase d).modTime fun x => { x with hostAt := u.clk.frames }).answered r (writeAsk 0x8010 2) {}))
    ∧ (∀ v : Int, -(2 ^ 63) ≤ v → v < 2 ^ 63 → s.Writes r 0x8010 3 → u.reg 0x2100 3 ≠ 0 → u.hostServoClosed = false →
      let t := if v > rateMax ∨ v < -rateMax then u.bump 0x8000 14 else u
      exec (.rateSet r v) s
        = .next ((t.modTime fun x => { x with nextRate := some (max (-rateMax) (min rateMax v)), hostAt := u.clk.frames }).answered r
            (writeAsk 0x8010 3) {}))
    ∧ (∀ t, t < 2 ^ 80 → t % 2 ^ 32 < 1000000000 →
      let q : Ask := { service := 3, index := 0x8001, sub := 14 }
      s.Carries r q → u.transferOn 0x8001 14 = none → u.uploadOn 0x8001 14 = none → u.openCount < 8 → u.reg 0x8001 1 = 2 →
      let v := ((u.forget 0x8001 14 (some r.sa)).forget 0x8001 14 none).closeTransfer 0x8001 14
      exec (.timeSet r t) s
        = .next (((v.modTime fun x => { x with timeSet := true }).askPhase (ofTime80 t - v.localTime)).answered r q {}))
    ∧ (s.Writes r 0xB002 1 →
      (u.cal.domain = none → u.inService = true → u.nreg 0xB002 2 ≠ 0 → (setBits 64 (u.nreg 0xB002 3)).any u.pinBusy = false →
        exec (.calStart r) s = .next (u.calStart.2.answered r (writeAsk 0xB002 1) {}) ∧ u.calStart.1 = 0)
      ∧ (u.cal.domain ≠ none → exec (.calCancel r) s
        = .next ((u.modCal fun c => { c with cancel := true, waitFrom := none, got := [] }).answered r (writeAsk 0xB002 1) {}))
      ∧ (u.cal.domain = none → exec (.calCancel r) s = .next (u.answered r (writeAsk 0xB002 1) {})))

/-- The commands of the Passport (R424, R432, R435): ACK_BATCH exports a batch and every earlier one where the ring is an enabled route; WINDOW_OPEN
starts the hash of a window that is FREE and lies apart from the others, WINDOW_FREE and WINDOW_ABANDON free it; ADVANCE raises the epoch. The
commands of faults and events (R56, R449, R452, R458): DECISION within its deadline decides the fault at a level offered, RAISE raises a user source
while SELECT names it, TAIL sends the entries of the Guestbook from a SEQ on. -/
def Obligations.PassportFaultAndEventCommands : Prop :=
    (∀ (s : State) (r : Req), let u := s.taken r
       (∀ n, n < 2 ^ 64 → s.Writes r 0xC002 5 →
         exec (.ackBatch r n) s = .next ((if natBit (u.nInForce 0xC001 2) 1 = true then
           u.modPass fun p => { p with signed := p.signed.filter fun b => decide (b.seq > n) } else u).answered r (writeAsk 0xC002 5) {}))
       ∧ (∀ w : Fin 32, let o := 0xC020 + w.val
         s.Writes r o 3 →
         let done (t : State) : Out := .next (t.answered r (writeAsk o 3) {})
         (u.reg o 4 = 0 → u.windowMeets w (u.nreg o 1) (u.nreg o 2) = false → u.nreg o 1 % 64 = 0 → u.nreg o 2 ≠ 0 → u.nreg o 2 % 64 = 0 →
           u.nreg o 1 + u.nreg o 2 ≤ u.memCapacity →
           exec (.windowOpen r w) s
             = done (((u.setNat o 4 1).setNat o 5 0).modPass fun p => { p with hashers := Table.insert p.hashers w Hasher.start }))
         ∧ (u.reg o 4 = 2 → u.reg o 7 = 0 → exec (.windowFree r w) s = done (u.setNat o 4 0))
         ∧ (u.reg o 4 = 1 → exec (.windowAbandon r w) s
             = done ((u.setNat o 4 0).modPass fun p => { p with hashers := Table.erase p.hashers w })))
       ∧ (s.Writes r 0xC010 3 → u.nreg 0xC010 1 + 1 - u.nreg 0xC010 2 ≤ 255 →
         exec (.advance r) s = .next ((u.setNat 0xC010 1 ((u.nreg 0xC010 1 + 1) % 2 ^ 32)).answered r (writeAsk 0xC010 3) {})))
    ∧ (∀ (s : State) (r : Req), let u := s.taken r
         (∀ l f d, l < 256 → s.Writes r 0xD201 4 → u.offeredFault = some f → u.handler.offered = some d → u.clk.frames ≤ d →
           (allowedLevels f).contains l = true →
           exec (.decision r l) s = .next ((u.decideCurrent f l).answered r (writeAsk 0xD201 4) {}))
         ∧ (∀ e, s.Writes r 0xD010 6 → s.nreg 0xD010 1 = e → u.nreg 0xD010 1 = e → userSource e = true →
           exec (.raise r e) s = .next ((u.raise e).answered r (writeAsk 0xD010 6) {}))
         ∧ (∀ n, n < 2 ^ 32 → s.Writes r 0xD100 6 →
           exec (.tail r n) s
             = .next ((u.sendTail (u.ev.book.filter fun g => (g.seq + 2 ^ 32 - n) % 2 ^ 32 < 2 ^ 31)).answered r (writeAsk 0xD100 6) {})))

/-! ### Rosec services -/

/-- READ and WRITE (R343, R344, R351, R506): a READ answers the whole value and clears what a read clears; a WRITE writes the value or answers the
first check that fails and changes nothing else; a SELECT written reads as written. Unassigned objects answer NO_OBJECT, and what may not be read or
written WRITE_ONLY or READ_ONLY, and an object of which another requester holds a snapshot BUSY (R353). -/
def Obligations.ReadsAndWrites : Prop :=
  ∀ (s : State) (r : Req) (i j : Nat) (b : List Byte), let u := s.taken r
    let rq : Ask := { service := 1, index := i, sub := j }
    (s.Carries r rq →
      (readRight i j = 0 → u.snapshotOf r.sa i j = false → u.valueLength i j ≤ 4096 →
        exec (.read r i j) s = .next ((u.takeValue i j).2.answered r rq { data := (u.takeValue i j).1 }))
      ∧ (readRight i j = 0 → u.snapshotOf r.sa i j = true → exec (.read r i j) s = .next (u.answered r rq { status := 0x0203 }))
      ∧ (readRight i j ≠ 0 → exec (.read r i j) s = .next (u.answered r rq { status := readRight i j })))
    ∧ (∀ k, k < 4096 → s.Writes r 0x7400 1 →
      exec (.write r 0x7400 1 (beBytes 2 k)) s = .next ((u.setReg 0x7400 1 k).answered r (writeAsk 0x7400 1) {}))
    ∧ (s.Carries r (writeAsk i j) → writeRight i j = 0 → u.snapshotOf r.sa i j = true →
        exec (.write r i j b) s = .next (u.answered r (writeAsk i j) { status := 0x0203 }))
    ∧ (s.Writes r i j →
      (writeRight i j = 0 → b.length ≤ 8 → i ≠ 0x2001 →
        let w := u.writeValue (domainLimit (u.levelOf r.src)) i j b
        exec (.write r i j b) s = .next (w.2.answered r (writeAsk i j) { status := w.1 }))
      ∧ (writeRight i j ≠ 0 → exec (.write r i j b) s = .next (u.answered r (writeAsk i j) { status := writeRight i j }))
      ∧ (writeRight i j = 0 → 8 < b.length → exec (.write r i j b) s = .next (u.answered r (writeAsk i j) { status := 0x0105 })))

/-- Segmented writes (R352): the first of several segments opens a transfer, the next ones join it, the last writes the whole value; a segment of
another requester is BUSY, one out of order SEGMENT_ORDER, one of a total too long is refused, and ABORT closes the transfer with the object as it
was. Segmented reads (R353): OFFSET 0 takes a snapshot and answers its first piece, with TOTAL and, where it ends there, LAST; a later OFFSET answers
a piece of it; an ABORT releases the snapshot. BLOB_EXPORT is such a read of BLOB from its start (R407). -/
def Obligations.SegmentedTransfers : Prop :=
    (∀ (s : State) (r : Req) (i j off total : Nat) (last : Bool) (b : List Byte), let u := s.taken r
       let q : Ask := { service := 3, index := i, sub := j, offset := off }
       writeRight i j = 0 → s.Carries r q →
       (u.transferOn i j = none → u.uploadOn i j = none → off = 0 → b.length < total → last = false → u.openCount < 8 →
         lengthStatus (domainLimit (u.levelOf r.src)) i j total = 0 →
         let v := ((u.forget i j (some r.sa)).forget i j none).closeTransfer i j
         exec (.segment r i j off total last b) s
           = .next ((v.modRosec fun x => { x with transfers := x.transfers ++
               [{ index := i, sub := j, sa := r.sa, total := total, data := b, touched := u.clk.frames }] }).answered r q {}))
       ∧ (∀ t, u.transferOn i j = some t → t.index = i → t.sub = j →
         (t.sa ≠ r.sa → exec (.segment r i j off total last b) s = .next (u.answered r q { status := 0x0203 }))
         ∧ (t.sa = r.sa → off ≠ t.data.length →
           exec (.segment r i j off total last b) s = .next (u.answered r q { status := 0x0204 }))
         ∧ (t.sa = r.sa → segmentOrder t.data.length off t.total b.length last = false →
             lengthStatus (domainLimit (u.levelOf r.src)) i j total ≠ 0 →
           exec (.segment r i j off total last b) s
             = .next (u.answered r q { status := lengthStatus (domainLimit (u.levelOf r.src)) i j total }))
         ∧ (t.sa = r.sa → off = t.data.length → off + b.length < t.total → last = false →
             lengthStatus (domainLimit (u.levelOf r.src)) i j total = 0 →
           exec (.segment r i j off total last b) s
             = .next (((u.closeTransfer i j).modRosec fun x => { x with transfers := x.transfers ++
                 [{ t with data := t.data ++ b, touched := u.clk.frames }] }).answered r q {}))
         ∧ (t.sa = r.sa → off = t.data.length → off + b.length = t.total → last = true → i ≠ 0x2001 →
             lengthStatus (domainLimit (u.levelOf r.src)) i j total = 0 →
           let w := (u.closeTransfer i j).writeValue (domainLimit (u.levelOf r.src)) i j (t.data ++ b)
           exec (.segment r i j off total last b) s = .next (w.2.answered r q { status := w.1 }))
         ∧ (t.sa = r.sa → off = r.offset → exec (.abort r i j false) s = .next ((u.closeTransfer i j).answered r q { status := 0x0207 }))))
    ∧ (∀ (s : State) (r : Req), let u := s.taken r
         (∀ i j n off, let q : Ask := { service := 3, index := i, sub := j, offset := off, upload := true }
           readRight i j = 0 → s.Carries r q →
           let v := ((u.takeValue i j).2.forget i j none).modRosec fun x => { x with timedOut := x.timedOut.filter (· ≠ (i, j, r.sa)) }
           (off = 0 → u.transferOn i j = none → u.uploadOn i j = none → u.openCount < 8 →
             let up : Upload := { index := i, sub := j, sa := r.sa, data := (u.takeValue i j).1, touched := v.clk.frames }
             exec (.segmentUpload r i j 0 n) s = .next ((v.piece up 0 n).2.answered r q (v.piece up 0 n).1))
           ∧ (∀ up, u.transferOn i j = none → u.uploadOn i j = some up →
             (up.sa = r.sa → (off = r.offset → exec (.abort r i j true) s = .next ((u.closeUpload i j).answered r q { status := 0x0207 }))
               ∧ exec (.segmentUpload r i j off n) s = .next ((u.piece up off n).2.answered r q (u.piece up off n).1))
             ∧ (up.sa ≠ r.sa → exec (.segmentUpload r i j off n) s = .next (u.answered r q { status := 0x0203 }))))
         ∧ (let q : Ask := { service := 3, index := 0xB010, sub := 1, upload := true }
           s.Carries r q → u.transferOn 0xB010 1 = none → u.uploadOn 0xB010 1 = none → u.openCount < 8 →
           let v := (u.exportBlob.2.forget 0xB010 1 none).modRosec fun x => { x with timedOut := x.timedOut.filter (· ≠ (0xB010, 1, r.sa)) }
           let up : Upload := { index := 0xB010, sub := 1, sa := r.sa, data := u.exportBlob.1, touched := v.clk.frames }
           exec (.blobExport r) s = .next ((v.piece up 0 4096).2.answered r q (v.piece up 0 4096).1)))

/-- SUBSCRIBE, UNSUBSCRIBE, NEGOTIATE and DISCOVER (R354, R356, R358): a subscription is made or renewed and ended; the level in use is the highest
both sides have; DISCOVER answers the record of this engine. -/
def Obligations.SubscriptionsAndLevels : Prop :=
  ∀ (s : State) (r : Req), let u := s.taken r
    (∀ i j p, let q : Ask := { service := 4, index := i, sub := j }
      readRight i j = 0 → s.Carries r q → u.snapshotOf r.sa i j = false →
      let mine (x : Subscription) : Bool := x.src == r.src && x.index == i && x.sub == j
      let new : Subscription := { src := r.src, index := i, sub := j, period := p, due := u.clk.frames + 1 }
      (p ≠ 0 → shortestPeriod (u.levelOf r.src) ≤ p → p ≤ 16777215 → u.valueLength i j ≤ 4096 →
        (u.rosec.subs.any mine = false → u.rosec.subs.length < 64 →
          exec (.subscribe r i j p) s = .next ((u.modRosec fun x => { x with subs := x.subs ++ [new] }).answered r q {}))
        ∧ (u.rosec.subs.any mine = true →
          exec (.subscribe r i j p) s
            = .next ((u.modRosec fun x => { x with subs := x.subs.map fun y => if mine y then new else y }).answered r q {})))
      ∧ exec (.unsubscribe r i j) s = .next ((u.modRosec fun x => { x with subs := x.subs.filter fun y => !mine y }).answered r q {})
      ∧ (p = 0 → exec (.subscribe r i j p) s = exec (.unsubscribe r i j) s))
    ∧ (s.Carries r { service := 6 } → ∀ lo hi, lo < 256 → hi < 256 → lo ≤ hi → lo ≤ 5 → 3 ≤ hi → r.src ≠ 0 → r.src ≤ 254 →
      exec (.negotiate r (beBytes 1 lo ++ beBytes 1 hi)) s
        = .next ((u.setNat 0x1021 r.src (min hi 5)).answered r { service := 6 }
            { data := beBytes 1 3 ++ beBytes 1 5 ++ beBytes 1 (min hi 5) }))
    ∧ (s.Carries r { service := 7 } →
      exec (.discover r) s = .next (u.answered r { service := 7 } { data := walkRecBytes (u.walkRec r.port { id := 0, next := 0 }) }))

/-- Values written whole (R89, R94, R283, R404, R408): the header of the vendor image in step 5 of a cold start, the trained settings of a channel
there, a calibration blob, which is kept where it authenticates and is AUTH otherwise, and coefficient records for the step that waits. -/
def Obligations.WholeValuesWritten : Prop :=
  ∀ (s : State) (r : Req) (b : List Byte), let u := s.taken r
    let quiet (i j : Nat) : Prop := s.Carries r { service := 3, index := i, sub := j } ∧ u.transferOn i j = none ∧ u.uploadOn i j = none ∧ u.openCount < 8
    let v (i j : Nat) : State := ((u.forget i j (some r.sa)).forget i j none).closeTransfer i j
    let done (i j : Nat) (t : State) : Out := .next (t.answered r { service := 3, index := i, sub := j } {})
    (quiet 0x4001 1 → b.length = 160 → u.mode = .coldStart → u.start.step = 5 → field b 10 11 = 0 → field b 0 3 = 0x564D4331 →
      field b 12 15 = 32768 →
      exec (.header r b) s = done 0x4001 1 { v 0x4001 1 with
        store := { u.store with header := b, vendor := .header }, start := { u.start with headerFresh := true, entries := [] } })
    ∧ (∀ c : ChanId, quiet (0x9001 + c) 8 → b.length ≤ 4096 → u.mode = .coldStart → u.start.step = 5 →
      exec (.training r c b) s = done (0x9001 + c) 8 ((v (0x9001 + c) 8).setOct (0x9001 + c) 8 b))
    ∧ (quiet 0xB010 1 → b.length ≤ domainLimit (u.levelOf r.src) → b.length ≤ 16777216 → u.mode = .coldStart → u.start.step = 5 →
      exec (.blobImport r b) s = match u.openBlob b with
        | none => .next ((v 0xB010 1).answered r { service := 3, index := 0xB010, sub := 1 } { status := 0x0309 })
        | some plain => done 0xB010 1 ((((v 0xB010 1).each (List.range 5) fun s d =>
            (s.setNat 0xB000 (d + 1) (field plain (30 + 4 * d) (33 + 4 * d))).setNat 0xB000 (d + 6)
              (field plain (50 + 10 * d) (59 + 10 * d))).modCal fun c => { c with blob := some plain }).rehash))
    ∧ (∀ l : List CalRec, quiet 0xB040 2 → 16 * l.length ≤ 1048576 → u.reg 0x2100 2 ≠ 0 →
      let records := calRecords l.length (l.flatMap coeffBytes)
      let w := (v 0xB040 2).coeffs records
      exec (.coeffs r l) s = .next (w.2.answered r { service := 3, index := 0xB040, sub := 2 } { status := w.1 })
        ∧ (∀ d k qs f, u.openStep = some (d, k, qs) → u.cal.waitFrom = some f →
            (∀ x ∈ records, x.domain = d ∧ x.unitNo = k ∧ qs.contains x.quantity = true ∧ x.run ≤ 1 ∧ x.retry = u.cal.retry ∧ x.reserved = 0) →
            w.1 = 0))

/-- What stops a request before its object is looked at (R322, R323, R346, R349, R350, R506): a responder that does not run is silent; a frame that
this station does not consume only goes its way on the ring; a full queue answers QUEUE_FULL and keeps nothing; a repeated request is answered by the
response that was kept; and SERVICE, LEVEL or DEVICE_STATE is answered, with nothing else changed. -/
def Obligations.RequestsTurnedAway : Prop :=
  ∀ (s : State) (r : Req) (i j : Nat),
    let q : Ask := { service := 1, index := i, sub := j }
    let v := (s.arrives r).2
    (s.responds = false → exec (.read r i j) s = .next s)
    ∧ (s.responds = true → (s.arrives r).1 = false → exec (.read r i j) s = .next v)
    ∧ (s.responds = true → (s.arrives r).1 = true → v.queueLimit ≤ r.ahead →
      exec (.read r i j) s = .next (v.sendReply (v.replyTo r q { status := 0x0209 })))
    ∧ (s.responds = true → (s.arrives r).1 = true → r.ahead < v.queueLimit →
      (∀ k, (s.queuedOne r).keptFor r q = some k → exec (.read r i j) s = .next (((s.queuedOne r).bump 0x1020 5).sendReply k.reply))
      ∧ ((s.queuedOne r).keptFor r q = none → (s.queuedOne r).gate r q ≠ 0 →
        exec (.read r i j) s = .next ((s.queuedOne r).answered r q { status := (s.queuedOne r).gate r q })))

/-! ### Waiting sites, play-out, tasks and Caravans -/

/-- What ends the wait of a site (R9, R25, R50, R51, R53, R57-R61, R308, R381): a START takes effect once its time is reached and its first frame is
held, a spanning site's once its chain is aligned; a drain is decided at a tick after it was reached, with everything emitted before it committed;
MATCH ends MATCHED, or with TIMEOUT and one fail; a SYNC posts its vote, and ends at its agreement or, first, at its timeout with SYNC_TIMEOUT; the
resume tick starts the continuation; a verdict forms at the tick after SEAL's decision; play-out ends with the pins parked. -/
def Obligations.WaitsEnd : Prop :=
  ∀ (s : State) (n : SiteId), let x := s.site n
    (x.st = .ready → x.startAsked = true → (s.nreg (siteObj n 0) 3 = 0 ∨ ofTime80 (s.nreg (siteObj n 0) 3) ≤ s.localTime) →
      s.frameHeld n 0 = true → (s.spans n = true → s.reg 0xA100 5 = 2) → exec (.startTakesEffect n) s = .next (s.enterRunning n))
    ∧ (∀ d, x.drain = some d → x.st = .waiting → d.entered < s.clk.frames → d.decided = none → s.drained n = true →
      (∀ sense target pop clrf, d.kind = .jfail sense target pop clrf →
        exec (.drainDecision n) s = .next (s.decideJfail n sense target pop clrf))
      ∧ (∀ bin src, d.kind = .seal bin src → exec (.drainDecision n) s = .next (s.decideSeal n))
      ∧ (d.kind = .halt → exec (.drainDecision n) s = .next (s.decideHalt n)))
    ∧ (x.matching = true →
      (s.matchFound n = true → exec (.matched n) s = .next ((s.modSite n (·.flag flagMatched true)).endMatch n))
      ∧ (s.matchFound n = false → s.matchExpired n = true →
        let u := s.modSite n fun x => (x.flag flagTimeout true).flag flagFail true
        exec (.matchTimeout n) s = .next (((u.bareFail n (u.site n).thread.epoch).raise (siteEvent n 2)).endMatch n)))
    ∧ (∀ y d, x.syncing = some y → x.drain = some d →
      (y.posted = none → d.entered < s.clk.frames → s.drained n = true →
        let t := s.modSite n fun z => { z with sync := some { y with
          posted := some s.clk.frames, value := x.voteOf y.vote,
          latest := if s.spans n = true then none else some (s.clk.frames, x.voteOf y.vote) } }
        exec (.syncPost n) s = .next (if y.clrf = true then t.newEpoch n else t))
      ∧ (∀ t v, s.agreement n = some (t, v) → t ≤ s.clk.frames →
        let u := (if s.spans n = true then s.bump 0xA100 12 else s).modSite n fun z => { z.flag flagSync v with
          sync := none, lastSync := z.sync.map (t, ·), agreed := z.agreed.filter (fun k => !([y.id] : List Nat).contains k) ++ [y.id] }
        let w := u.leaveDrain n ((u.site n).thread.idx + 1)
        exec (.syncAgreement n) s = .next (if (w.entry n).state = .placed then w.charge (w.entry n).context 4 else w))
      ∧ (∀ p, y.posted = some p → p + y.timeout ≤ s.clk.frames → s.agreed n = false →
        exec (.syncTimeout n) s = .next ((s.sendAbort n 0 s.clk.frames).threadFault n 0x0008)))
    ∧ (∀ r rest k, x.runs = r :: rest → r.kind = .barrier k → x.st = .waiting → k ≤ s.clk.frames →
      x.f0 + (x.play.tu + 319999) / 320000 ≤ s.clk.frames →
      let u := s.resumeSite n (max k (x.f0 + (x.play.tu + 319999) / 320000))
      exec (.resumeTick n) s = .next (u.judgeLead n (u.site n).issuedLast))
    ∧ (∀ d bin src t, x.drain = some d → d.kind = .seal bin src → d.decided = some t → x.st = .waiting → t + 1 ≤ s.clk.frames →
      exec (.verdictRecord n) s = .next ((s.sealSite n (s.sealOutcome n) bin src).playOut n))
    ∧ (x.playout = true → x.runs = [] → x.queue = [] → x.play.lastEnd ≤ s.frameEnd n →
      exec (.playoutEnd n) s = .next ((s.park n x.play.lastEnd).modSite n fun y => { y.flag flagPlayout false with playout := false }))

/-- The vector path (R134, R135, R138, R147, R165, R270, R273-R275): the fetch unit takes the descriptor at the head of a site's queue into a free run
entry; it issues the next line read of the source that comes first; the read that its subchannel serves returns its line to whoever waits for it; the
vector or the hold at the head of the run FIFO starts in the frame now open; a starved site whose next frame is held resumes at the tick, the wait
counted as starvation. -/
def Obligations.VectorPathMoves : Prop :=
  ∀ (s : State) (n : SiteId), let x := s.site n
    (∀ d rest, x.queue = d :: rest → d.released = true → d.counts = true → x.runCount < 256 → s.wordsFull n d.kind = false →
      (∀ e more, rest = e :: more → e.released = false ∨ e.counts = true) →
      exec (.descriptorTake n) s = .next ((s.setSite n { x with
        queue := rest, runSerial := x.runSerial + 1,
        runs := x.runs ++ [{ kind := d.kind, epoch := d.epoch, taint := d.taint, serial := x.runSerial, flip := d.flip, skip := s.streamingPins n }]
        }).takePins n x.runSerial d.kind))
    ∧ (∀ o, firstSource s.sources = some o →
      (∀ r, o.feed = none → s.runReady o.site = some r →
        ∃ t, exec .lineReadIssue s = .next t
          ∧ t.reads = s.reads ++ [{ who := .run o.site r.serial, line := r.issued, addr := o.addr, urgent := o.state == 2 }])
      ∧ (∀ p no f, o.feed = some (p, no) → (s.pin p).feedOf no = some f →
        ∃ t, exec .lineReadIssue s = .next t
          ∧ t.reads = s.reads ++ [{ who := .stream p no, line := f.issued, addr := o.addr, urgent := o.state == 2 }]))
    ∧ (∀ i flips o, s.reads[i]? = some o → s.serves o.cls i o.addr = true →
      let v := s.passOlder o.cls i o.addr
      let w := ({ v with reads := v.reads.eraseIdx i } : State).takeLine o.addr flips
      let k := ({ v with reads := v.reads.eraseIdx i } : State).readSite o
      exec (.lineReadReturn i flips) s = .next (((w.2.noteFetch k).giveLine o w.1).noteFetch k))
    ∧ (∀ inputs r rest, x.playing = true → x.play.tu < s.frameEnd n → x.runs = r :: rest → flipResult r.flip ≠ 2 →
      let last (s : State) (_ p : Nat) : Nat × State := ((s.pin p).lastCode, s)
      (∀ span, r.kind = .hold span → span ≠ 0 → exec (.vectorStart n inputs) s = .next (s.playHold n span))
      ∧ (∀ c, r.kind = .repeat c →
        exec (.vectorStart n inputs) s = .next ((s.playVec n r none inputs last).setHead n (Run.stepped c)))
      ∧ (∀ f c, r.kind = .stream f c → r.done < r.held (s.pinCount n) f c →
        exec (.vectorStart n inputs) s = .next ((s.playVec n r none inputs fun s k p =>
          if r.skip.contains p = true then last s k p else s.popCode n p).setHead n (Run.stepped c)))
      ∧ (∀ d a1 a0 c slot, r.kind = .literal d a1 a0 c slot →
        let v : State := if r.done = 0 then match (s.sitePins n)[slot]? with
          | some p => s.modPin p fun q => { q with words := stampWord r.serial x.play.tu q.words }
          | none => s
          else s
        exec (.vectorStart n inputs) s = .next ((v.playVec n r none inputs fun s k p =>
          if k = slot ∧ !s.microPin n p x.play.tu then (literalCode d a1 a0 c r.done, s) else last s k p).setHead n (Run.stepped c))))
    ∧ (∀ e, x.play.starvedFrom = some e → e ≤ s.tickTu n → s.frameHeld n (s.tickTu n) = true → x.st.live = true →
      let t := s.tickTu n
      exec (.starveResume n) s = .next (((s.holdMarker n (t - e) t).count (0x6100 + n) 7 (t - e)).modSite n fun x => { x with play := { x.play with
        starvedFrom := none, tu := t, holdTu := x.play.holdTu + (t - e), starveTu := x.play.starveTu + (t - e) } }))

/-- The Innkeeper and the control store (R90, R104, R111, R120, R121): DISPATCH reads and places the first READY entry that an engine may take; a
Caravan releases up to 4 items from its head, and a stall is raised once; the customer half ends its closing CLOSED, every entry read as any read of
the store is (R91) and its hash written. -/
def Obligations.TasksArePlaced : Prop :=
  ∀ s : State,
    (∀ i e, s.mode ≠ .sleep → s.mode ≠ .safeHalt → s.mode ≠ .off →
      (s.readyList.findSome? fun i => (s.engineFor i).map fun e => (i, e)) = some (i, e) →
      ((s.readEntry i).entry i).state = .ready → exec .dispatch s = .next ((s.readEntry i).place i e))
    ∧ (∀ c : Fin 256, exec (.caravanRelease c) s = .next (s.releaseHead c 4))
    ∧ (∀ c : Fin 256, 1024 ≤ (s.caravan c).stalled → (s.caravan c).stallRaised = false →
      exec (.caravanStall c) s = .next ((s.setCaravan c { s.caravan c with stallRaised := true }).raise 1605))
    ∧ (s.store.cust = .closing →
      let t := s.each (s.store.keysIn 16384 storeEnd) State.scrubEntry
      exec .custCloseDone s
        = .next ({ t with store := { t.store with cust := .closed } }.setOct 0x4000 5 (sha384 (t.store.halfBytes 1))))

/-! ### Serial pins, comparators, acquisition and measurement -/

/-- Serial sessions (R173-R180): a session starts at its vector and ends at its exit; the CDR locks with a free FREQ_OFFSET, loses lock with one fail,
and fails once at its timeout; a slip is one fail and resynchronises; a stream without its next word is an underrun, a MICRO source takes its word at
its slot; a bit recovered joins the captured word or is checked, and a wrong one is a bit error and a fail. -/
def Obligations.SerialSessions : Prop :=
  ∀ (s : State) (n : PinId), let q := s.pin n
    (∀ k c t, s.pinSite n = some k → q.awaiting = some c → q.sessionAt = some t → exec (.serialSessionStart n) s = .next (s.serialStart k n c t))
    ∧ (∀ x, q.serial = some x →
      (∀ k t, s.pinSite n = some k → x.exitAt = some t → t < s.frameEnd k → exec (.serialSessionEnd n) s = .next (s.serialEnd k n t))
      ∧ (x.rx = .acquiring →
        exec (.serialLock n) s = .next (((({ s with freeCtr := s.freeCtr + 1 }.modPin n fun q =>
          { q with serial := some { x.resync with rx := .locked, lockBy := none } })).setReg (pinObj n 1) 8
            ((Config.freeValue s.freeCtr % 60001 : Nat) - 30000)).raise 1614))
      ∧ (∀ beat, x.rx = .locked → beat < 64 →
        exec (.serialLockLost n beat) s = .next ((((s.modPin n fun q => { q with serial := some { x.resync with rx := .acquiring } }).bump
          (pinObj n 1) 6).raise 1615).failNow n beat))
      ∧ (∀ k t, s.pinSite n = some k → x.lockBy = some t → x.rx = .acquiring → t < s.frameEnd k →
        exec (.serialLockTimeout n) s = .next (((s.modPin n fun q => { q with serial := some { x with lockBy := none } }).raise 1615).failNow n
          ((t - (s.clk.frames - (s.site k).f0) * 320000) / 5000)))
      ∧ (∀ beat, x.rx = .locked → beat < 64 →
        let u := (((s.modPin n fun q => { q with serial := some x.resync }).bump 0x6018 4).raise 1613).failNow n beat
        (∀ k, u.pinSite n = some k → (u.cap k).st ≠ .idle → u.reg (capObj k) 1 = 1 →
          (u.sitePins k)[u.nreg (capObj k) 3]? = some n.val →
          exec (.cdrSlip n beat) s = .next (u.setCap k { u.cap k with gap := true }))
        ∧ (∀ k, u.pinSite n = some k →
          (u.cap k).st = .idle ∨ u.reg (capObj k) 1 ≠ 1 ∨ (u.sitePins k)[u.nreg (capObj k) 3]? ≠ some n.val → exec (.cdrSlip n beat) s = .next u))
      ∧ (∀ k g, s.pinSite n = some k → s.serialCfg k x.cfg = some g →
        (let t := bitStart x.resumed g.ui (max (x.sentAt + (if x.streamed % 64 = 0 then 0 else 64 - x.streamed % 64)) x.holdUntil) + 1;
          g.src = 3 → (∀ f, q.feedOf x.no = some f → f.fifo = []) → t ≤ s.frameEnd k → s.parkedPin n (t - 1) = false → exec (.serialUnderrun n) s = .next (s.serialAdvance k n t))
        ∧ (let t := bitStart x.resumed g.ui (x.rest + 32 * x.slots) + 1;
          g.src = 4 → t ≤ s.frameEnd k → s.parkedPin n (t - 1) = false → exec (.wordSlot n) s = .next (s.serialAdvance k n t))
        ∧ (∀ value beat ends, x.rx = .locked → beat < 64 →
          let start := (s.clk.frames - (s.site k).f0) * 320000 + beat * 5000
          s.parkedPin n (bitInstant start ends g.ui) = false → (∀ e, x.exitAt = some e → start + ends ≤ e) →
          let v := s.rxBit n x
          let z := { x with rxBits := x.rxBits + 1 }
          (g.rx = 3 →
            let j := x.capBit.getD (z.bitAt g.ui (start + ends))
            let y := { z with capture := x.capture ++ [value], capBit := some j }
            (y.capture.length ≠ 64 → exec (.serialBitReceived n value { beat := beat, ends := ends }) s = .next (v.modPin n fun q => { q with serial := some y }))
            ∧ (y.capture.length = 64 → exec (.serialBitReceived n value { beat := beat, ends := ends }) s
                = .next ((v.serialWord k n y g.ui j).modPin n fun q => { q with serial := some { y with capture := [], capBit := some (j + 64) } })))
          ∧ (g.rx = 4 → exec (.serialBitReceived n value { beat := beat, ends := ends }) s = .next v)
          ∧ (g.rx = 1 ∨ g.rx = 2 → ∀ y d, (if g.rx = 1 then z.rxPrbs g value else z.rxLoop g (v.oct (0x6500 + n) 1) value) = (y, d) →
            let u := v.modPin n fun q => { q with serial := some y }
            let w := (u.bump (pinObj n 1) 4).modSite k fun y => { y with bitsDue := max y.bitsDue (u.clk.frames + 1 + (if beat ≤ 47 then 0 else 1)) }
            (d = none → exec (.serialBitReceived n value { beat := beat, ends := ends }) s = .next u)
            ∧ (d = some false → exec (.serialBitReceived n value { beat := beat, ends := ends }) s = .next w)
            ∧ (d = some true → exec (.serialBitReceived n value { beat := beat, ends := ends }) s = .next ((w.bump (pinObj n 1) 5).failNow n beat))))))

/-- Comparators and monitors (R191, R203-R207, R246, R461, R475): in every mode but SLEEP and SAFE_HALT (log 99) an edge of a comparator that runs
changes its held decision and is stamped where one was held and the pin is not parked; a monitor takes the state that the decisions have indicated for
MON_FILTER beats, and UNDECIDED too long is forced to IN; in every mode but OFF a supply out of its band raises its event, hands its fault or taints
live sites, ends when IN again, and escalates to SAFE_HALT after 1,250 frames. In SAFE_HALT comparators and monitors stop. -/
def Obligations.ComparatorsAndMonitors : Prop :=
  ∀ (s : State),
    (∀ (n : PinId) vtl above beat tap, s.beatsStop = false → (s.pin n).runs vtl = true → beat < 64 → tap < 500 → s.reg (pinObj n 11) 7 ≠ 1 →
      let q := s.pin n
      let held := if vtl = true then q.heldTl else q.heldTh
      let u := if vtl = true then s.setHeld n q.heldTh (some above) beat tap else s.setHeld n (some above) q.heldTl beat tap
      (held = none → exec (.comparatorEdge n vtl above beat tap) s = .next u)
      ∧ (held = some (!above) →
        u.parkedPin n ((u.clk.frames - (u.site ((u.pinSite n).getD 64)).f0) * 320000 + beat * 5000 + tap * 10) = false →
        exec (.comparatorEdge n vtl above beat tap) s = .next (u.stamp n vtl above beat tap)))
    ∧ (s.mode = .safeHalt → (∀ n vtl above beat tap, exec (.comparatorEdge n vtl above beat tap) s = .next s)
      ∧ (∀ n st beat, exec (.monStateChange n st beat) s = .next s) ∧ (∀ n, exec (.monForced n) s = .next s))
    ∧ (∀ (n : PinId) beat t, s.beatsStop = false → (s.pin n).mon ≠ .off → (s.pin n).suspended = false → beat < 64 → (s.pin n).mon ≠ t →
      (s.pin n).indicates = some t → (s.pin n).monSeen + s.nInForce (pinObj n 5) 2 ≤ s.clk.c + beat →
      (t = .inside → exec (.monStateChange n 2 beat) s = .next (s.monTake n t beat))
      ∧ (t = .below → exec (.monStateChange n 3 beat) s = .next (s.monTake n t beat))
      ∧ (t = .above → exec (.monStateChange n 4 beat) s = .next (s.monTake n t beat)))
    ∧ (∀ (n : PinId), s.beatsStop = false → (s.pin n).mon = .undecided → (s.pin n).suspended = false → (s.pin n).monSince + 125000 ≤ s.clk.frames →
      let u := (s.monChanges n 64).setHeld n (some ((s.pin n).heldTh.getD false)) (some ((s.pin n).heldTl.getD true)) 64 0
      exec (.monForced n) s = .next (((u.modPin n fun q => { q with mon := .inside, monSince := s.clk.frames }).bump (pinObj n 5) 6).raise (pinEvent n 3)))
    ∧ (∀ (m : Fin 9), s.mode ≠ .off →
      (∀ old, s.nreg (supplyObj m) 4 = old → old < 2 →
        exec (.supplyMonChange m 2) s = .next ((s.setNat (supplyObj m) 4 2).supplyEnds m))
      ∧ (∀ old, s.nreg (supplyObj m) 4 = old → 3 ≤ old →
        exec (.supplyMonChange m 2) s = .next (((s.setNat (supplyObj m) 4 2).raise 1630).supplyEnds m))
      ∧ (∀ st, st = 3 ∨ st = 4 → s.nreg (supplyObj m) 4 < 3 →
        let u := ((s.setNat (supplyObj m) 4 st).bump (supplyObj m) 5).raise (1620 + m)
        u.handler.supply.any (·.1 = m.val) = false →
          exec (.supplyMonChange m st) s = .next (if supplyCore m = true then u.supplyFault m else u.taintLive))
      ∧ (s.nreg (supplyObj m) 4 = 1 → Table.get 0 s.handler.undecided m + 125000 ≤ s.clk.frames →
        exec (.supplyMonForced m) s = .next ((((s.setNat (supplyObj m) 4 2).bump (supplyObj m) 6).raise 1629).supplyEnds m))
      ∧ (∀ t, s.handler.supply.find? (·.1 = m.val) = some (m.val, t) → t + 1250 ≤ s.clk.frames →
        exec (.supplyFaultTimeout m) s = .next ((s.modHandler fun h => { h with supply := [] }).climb
          { ((s.faultOf 11).getD { resource := 11, level := 7, source := 1620 + m.val }) with level := 10, severity := 3 })))

/-- Acquisition (R219, R224, R225, R232): at the end of the holdoff the rate may change and a new record opens in PRE; an automatic trigger is forced
once its timer has passed; a record whose last packet is acknowledged is exported and ring space is freed in ring order. Measurements (R247, R251,
R254): the gate of an armed measurement opens at its arming, at the active edge of its gate input or at the first beat of its target time, and under
EXT the next gate of FREQ at the next active edge; it closes after GATE_BEATS or at the inactive edge, where a conversion in progress ends first, and
FREQ after twice that; a vernier conversion ends with a result whose fine part is a free value within the taps of its edges, OVERRANGE where they lie
more than 4,000,000 tu apart. -/
def Obligations.AcquisitionAndMeasurements : Prop :=
    (∀ (s : State),
       (∀ n : SiteId, (s.cap n).st ≠ .idle → (s.cap n).phase = .holdoff → (s.cap n).holdoffEnd ≤ s.clk.frames →
         exec (.holdoffEnd n) s = .next (((s.retune n).openEntry n).enterPre n))
       ∧ (∀ (n : SiteId) f, (s.cap n).autoFrom = some f → (s.cap n).st = .capturing → (s.cap n).phase = .pre →
         25 * s.nreg (capObj n) 7 ≤ 2 * (s.clk.frames + 1 - f) →
         exec (.autoTrigger n) s = .next (s.setCap n { s.cap n with forced := true, autoFrom := none }))
       ∧ (∀ k, (s.rcd k).stage = .packaged → (s.rcd k).unsent = false → (s.inFlight fun p => p.type == 0x06 && p.tag == k) = false →
         exec (.recordExported k) s = .next (s.setRec k { s.rcd k with stage := .exported }).freeRing))
    ∧ (∀ (s : State) (d : DefId) (t : Nat), let x := s.mdef d
         (∀ a, x.st = .armed → x.armAt = some a → a ≤ t → (s.site x.site).f0 + t / 320000 ≤ s.clk.frames →
           (x.val 10 = 0 → t = a → exec (.gateOpen d t) s = .next (s.openGate d t false))
           ∧ (x.val 10 = 1 → s.extOpens x (s.site x.site).f0 a t = true → exec (.gateOpen d t) s = .next (s.openGate d t false))
           ∧ (x.val 10 = 2 → t = a → ofTime80 (x.val 12) < s.ptpOf (s.site x.site).f0 a → exec (.gateOpen d t) s = .next (s.openGate d t true))
           ∧ (x.val 10 = 2 → t % 5000 = 0 → a < t → ofTime80 (x.val 12) ≤ s.ptpOf (s.site x.site).f0 t →
             s.ptpOf (s.site x.site).f0 (t - 5000) < ofTime80 (x.val 12) → ¬ofTime80 (x.val 12) < s.ptpOf (s.site x.site).f0 a →
             exec (.gateOpen d t) s = .next (s.openGate d t false)))
         ∧ (x.st = .gate → x.armAt.isSome = true → x.mode = 5 → x.val 10 = 1 → x.counting = false → x.after < t →
           s.extOpens x (s.site x.site).f0 x.after t = true →
           exec (.gateOpen d t) s = .next (s.setDef d { x with counting := true, openAt := t }))
         ∧ (x.st = .gate → x.counting = true → x.openAt ≤ t → (s.site x.site).f0 + t / 320000 ≤ s.clk.frames →
           let inactive : Prop := x.val 10 = 1 ∧ s.gateActive (x.val 11) = false ∧ (t : Int) = s.evtTime (s.site x.site).f0 (x.val 11 % 8)
           (x.mode ≠ 5 → t = x.openAt + 5000 * x.val 13 ∨ inactive →
             (x.pair = none → exec (.gateClose d t) s = .next ((s.setDef d (x.stale t)).completeMeas d t t))
             ∧ (∀ y, x.pair = some y → exec (.gateClose d t) s = .next (s.setDef d { x with closeAt := some t })))
           ∧ (x.mode = 5 → ¬inactive →
             (t = x.openAt + 2 * (5000 * x.val 13) →
               exec (.gateClose d t) s = .next ((s.setDef d (if x.val 13 < 800 then x.orFlags 64 else x)).completeMeas d t t))
             ∧ (x.val 13 < 800 → t = x.openAt + 5000 * x.val 13 →
               exec (.gateClose d t) s = .next ((s.setDef d (x.orFlags 64)).completeMeas d t t)))
           ∧ (x.mode = 5 → inactive → 800 ≤ x.val 13 → x.openAt + 4000000 ≤ t →
             exec (.gateClose d t) s = .next ((s.setDef d x).completeMeas d t t))
           ∧ (x.mode = 5 → inactive → x.val 13 < 800 ∨ t < x.openAt + 4000000 →
             exec (.gateClose d t) s = .next ((s.setDef d (x.orFlags 64)).completeMeas d t t)))
         ∧ (∀ (v : Fin 4) e a b, s.defs.find? (fun e => e.2.vernier && e.2.conv == some v.val && e.2.pair.isSome) = some e →
           let y := s.mdef e.1
           y.pair = some (a, b) →
             let u := { s with freeCtr := s.freeCtr + 1 }
             let ended := (s.clk.frames - (s.site y.site).f0) * 320000
             let off : Int := 2 * ((Config.freeValue s.freeCtr % 9 : Nat) - 4)
             let total : Rat := tuBetween a b + ((if y.coinc = true then 0 else if a = b ∧ ¬(y.mode = 1 ∧ y.val 9 = 0) then (off.natAbs : Int) else off : Int) : Rat)
             let x := { y with pair := none, after := ended, coinc := false }
             let x := if y.mode = 1 ∧ total = 0 then x.orFlags 1 else if y.mode = 1 ∧ total < 0 then x.orFlags 2 else x
             let z := if 4000000 < max a b - min a b then x.orFlags 8 else x.convert total (min a b)
             let w := u.setDef e.1 z
             exec (.vernierDone v) s
               = .next (if z.closeAt.isSome = true ∨ z.openAt + 5000 * z.val 13 ≤ ended then w.completeMeas e.1 ended (z.closeAt.getD ended) else w.checkRepeat e.1 ended)))

/-! ### Vector memory, Stagelink and Convoy -/

/-- The channels of vector memory (R276, R277, R280-R282): an alert is counted and handled as an error of its channel; a replay or retrain that has
ended puts the channel back in service, one that has not converged after 5,000 frames climbs to FENCE; the escalation window ends; a refresh that
falls due is owed, units are opened and closed by REFsb to every bank index that no burst holds, and four owed split the burst; MR4 is read every
12,500 frames; a rank without a command for PD_TIMER frames powers down. -/
def Obligations.ChannelsAreServed : Prop :=
  ∀ (s : State),
    (∀ (c : ChanId), let x := s.chan c
      (∀ crc, x.mode = .serving ∨ x.mode = .replay ∨ x.mode = .retrain →
        exec (.dramAlert c crc) s = .next ((s.bump (0x9001 + c) (if crc = true then 10 else 9)).memError c true))
      ∧ (x.mode = .replay → x.level = 1 → s.memEnds c 1 = true →
        let u := (s.bump (0x9001 + c) 11).raise 1673
        exec (.replayDone c) s = .next ((u.recovered (c + 1) (u.usSince x.since)).serveAgain c))
      ∧ (x.mode = .retrain → x.level = 2 → s.memEnds c 2 = true →
        exec (.retrainDone c) s = .next (((s.recovered (c + 1) (s.usSince x.since)).storeTraining c).serveAgain c))
      ∧ (x.mode = .retrain → x.level = 2 → x.since + 5000 ≤ s.clk.frames → exec (.retrainTimeout c) s = .next (s.memClimb c 4))
      ∧ (∀ t, x.endedAt = some t → t + s.nInForce 0x9000 6 ≤ s.clk.frames →
        exec (.escalateWindowEnd c) s = .next (s.setChan c { x with level := 0, endedAt := none, bad := 0 })))
    ∧ (∀ (sc rank : Fin 4), let c := sc.val / 2
      let x := s.chan c
      let key := 4 * (sc.val % 2) + rank.val
      let r := Table.get {} x.ranks key
      (x.mode = .serving ∨ x.mode = .replay ∨ x.mode = .retrain ∨ x.mode = .fenced → rank.val < s.rankCount c →
        r.lastDue + (if r.hot then 24 else 48) ≤ s.clk.frames →
        let owed := min 4 (r.owed + 1)
        let u := s.peak (0x9010 + sc.val) 7 owed
        let v := u.modRank c key fun r => { r with owed := owed, lastDue := u.clk.frames }
        ∀ held : Bool, let w := v.refreshUnits c key (if held = true then [v.heldIndex sc.val key] else []) 5
        (x.mode = .replay → exec (.refreshDue sc rank held) s = .next v)
        ∧ (x.mode ≠ .replay → exec (.refreshDue sc rank held) s
            = .next (if (Table.get {} (w.chan c).ranks key).owed = 4 then w.splitBurst sc.val key else w)))
      ∧ (s.nInForce 0x9000 4 ≠ 0 → x.mode = .serving → rank.val < s.rankCount c → r.down = false → r.lastUse + s.nInForce 0x9000 4 ≤ s.clk.frames →
        exec (.powerDown sc rank) s
          = .next ((s.setChan c { x with ranks := Table.set {} x.ranks key { r with down := true } }).bump (0x9010 + sc.val) 9)))
    ∧ (∀ hot : List Bool, s.clk.frames % 12500 = 0 →
      exec (.mr4Read hot) s = .next (s.each (List.range 16) fun u i =>
        let x := u.chan (i / 8)
        if (x.mode = .serving ∨ x.mode = .replay ∨ x.mode = .retrain) ∧ i % 4 < u.rankCount (i / 8) then
          (u.command (i / 8) (i % 8) (.modeRead (i % 8))).modRank (i / 8) (i % 8) fun r => { r with hot := hot.getD i r.hot }
        else u))

/-- Packets from the host (R144, R273, R290, R293-R296): a packet that fails its CRC draws a NAK; the packet whose SEQ is due enters the receive
buffer and is acknowledged, with the status that its type, the device state or its reserved fields give it; one taken before is only acknowledged
again; a gap, or a packet that finds the buffer full, draws a NAK. The buffer serves its head: a refused one is reported; CS_WRITE and TSET_WRITE act;
MEM_WRITE writes its lines where X2 has room; MEM_READ_REQ answers its lines when class 7 has its turn. -/
def Obligations.PacketsInOrder : Prop :=
  ∀ (z : State) (p : Packet), let s := z.blockErrors p.blockErrors
    s.linkState = 2 →
    (p.seq = s.sl.expect → s.faultOf 3 = none → s.sl.rxUsed + (24 + 72 * p.lines.length) ≤ 262144 →
      let u := { s with sl := { s.sl with expect := (p.seq + 1) % 4096, nakked := false, naks := 0 } }
      let taken (type : Nat) (flips : List Flips) : Out :=
        let v := ({ u with sl := { u.sl with rx := u.sl.rx ++
          [{ type := type, pkt := p, flips := flips, status := u.arrivalStatus type p }] } } : State).send (.ack p.seq)
        .next ((v.crossed 3 v.sl.rxUsed true).holdOutNow).pump
      (crcMatches p 1 = true → exec (.memWrite p) z = taken 1 []) ∧ (crcMatches p 2 = true → ∀ flips, exec (.memReadReq p flips) z = taken 2 flips)
      ∧ (crcMatches p 4 = true → exec (.csWrite p) z = taken 4 []) ∧ (crcMatches p 5 = true → exec (.tsetWrite p) z = taken 5 [])
      ∧ (∀ type : Byte, [1, 2, 4, 5].contains type.toNat = false → crcMatches p type.toNat = true →
          exec (.reservedPacket type p) z = taken type.toNat []))
    ∧ (∀ type, ([1, 2, 4, 5].contains type = false → s.arrivalStatus type p = 0x0403)
      ∧ ([1, 2, 4, 5].contains type = true →
        (s.packetAllowed (type == 4) = false → s.arrivalStatus type p = 0x010A)
        ∧ (s.packetAllowed (type == 4) = true → p.reserved ≠ 0 ∨ p.poisonLines ≠ 0 → s.arrivalStatus type p = 0x0107)
        ∧ (s.packetAllowed (type == 4) = true → p.reserved = 0 → p.poisonLines = 0 → s.arrivalStatus type p = 0)))
    ∧ (crcMatches p 1 = false → exec (.memWrite p) z = .next s.badCrc) ∧ (crcMatches p 4 = false → exec (.csWrite p) z = .next s.badCrc)
    ∧ (crcMatches p 2 = false → ∀ flips, exec (.memReadReq p flips) z = .next s.badCrc)
    ∧ (crcMatches p 5 = false → exec (.tsetWrite p) z = .next s.badCrc)
    ∧ (p.seq ≠ s.sl.expect → p.seq < 4096 → crcMatches p 1 = true →
      ((s.sl.expect + 4096 - p.seq) % 4096 ≤ 2048 → exec (.memWrite p) z = .next (s.send (.ack ((s.sl.expect + 4095) % 4096))))
      ∧ (2048 < (s.sl.expect + 4096 - p.seq) % 4096 → exec (.memWrite p) z = .next s.rejectPacket))
    ∧ (262144 < s.sl.rxUsed + (24 + 72 * p.lines.length) → p.seq = s.sl.expect → crcMatches p 1 = true →
      exec (.memWrite p) z = .next ({ s with sl := { s.sl with nakked := false } } : State).rejectPacket)
    ∧ (∀ x : RxPacket, s.sl.rx = [x] → x.pkt = p → x.served = 0 → x.got = [] →
      (x.status ≠ 0 → s.pump = (s.popRx x.status p.tag).holdOutNow)
      ∧ (x.status = 0 → x.type = 4 → s.pump = ((s.csWrite p).2.popRx (s.csWrite p).1 p.tag).holdOutNow)
      ∧ (x.status = 0 → x.type = 5 → s.pump = ((s.tsetWrite p).2.popRx (s.tsetWrite p).1 p.tag).holdOutNow)
      ∧ (∀ l, x.status = 0 → x.type = 1 → p.lines = [l] → s.memWriteCheck p = 0 → s.x2Room p.addr = true →
        s.pump = ((s.hostLine p.addr l).popRx 0 p.tag).holdOutNow)
      ∧ (x.status = 0 → x.type = 2 → p.addr % 64 = 0 → p.count = 1 → s.bulkTurn p.addr = true →
        let r := (s.bulkSlot p.addr).readLine p.addr (x.flips.getD 0 [])
        let v := r.2.crossed 1 1 false
        s.pump = (({ v with sl := { v.sl with rx := v.sl.rx.drop 1 } }).slSend { type := 0x03, tag := p.tag.toNat, addr := p.addr, lines := [r.1] }).holdOutNow))

/-- The link itself (R143, R292, R295-R299, R304): an ACK takes packets out of the replay buffer, a NAK or an ACK that has not come for 125 frames
replays; bring-up adopts the highest version both sides have; a failed lane is marked and hands its fault, or loses the link; a width change
completes; SL_HOLD_IN stops packets; a packet in error is rejected; the partner's failed lanes and its choice set the transmit width. In SAFE_HALT a
Convoy word goes on unchanged; in service the HEAD or the member takes it, after a slip of X7 where there is one. -/
def Obligations.LinkEvents : Prop :=
  ∀ (s : State),
    (∀ seq, let keep := s.sl.unacked.dropWhile fun e => decide ((seq + 4096 - e.1) % 4096 < 2048)
      2 ≤ s.linkState → keep.length ≠ s.sl.unacked.length → s.faultOf 4 = none →
      exec (.slAck seq) s = .next ({ s with sl := { s.sl with unacked := keep, ackAt := s.clk.frames, replays := 0 } }.settleExports.flush))
    ∧ (∀ seq, s.linkState = 2 → s.sl.unacked ≠ [] → exec (.slNak seq) s = .next (s.replayOnce seq))
    ∧ (∀ e rest, s.sl.unacked = e :: rest → s.linkState = 2 → s.sl.ackAt + 125 ≤ s.clk.frames →
      exec .slAckTimeout s = .next (s.replayOnce e.1))
    ∧ (∀ lo hi, s.linkState < 2 → s.sl.retrain = false → s.linkRuns = true →
      let v := min hi (s.nreg 0xA000 2)
      (v < max lo (s.nreg 0xA000 1) → exec (.slBringupDone lo hi) s = .next
        ((s.send (.versionBlock (s.nreg 0xA000 1) (s.nreg 0xA000 2))).linkDown.raiseRanges 1684 (s.nreg 0xA000 1) (s.nreg 0xA000 2) lo hi))
      ∧ (max lo (s.nreg 0xA000 1) ≤ v → hwWidth v s.rxFailed ≠ 0 → hwWidth v s.txFailed ≠ 0 →
        let o := s.send (.versionBlock (s.nreg 0xA000 1) (s.nreg 0xA000 2))
        let u := ((((o.setNat 0xA000 3 v).setNat 0xA000 4 2).setNat 0xA000 5 (hwWidth v s.rxFailed)).setNat 0xA000 6
          (hwWidth v s.txFailed)).setLanes (widthLanes v s.rxFailed (hwWidth v s.rxFailed)) 2
        let took (r : Nat) : Nat := u.usSince (((u.faultOf r).map fun (f : FaultRec) => f.frame).getD u.clk.frames)
        let up := (u.recovered 3 (took 3)).recovered 4 (took 4)
        exec (.slBringupDone lo hi) s = .next (((up.deskew (widthLanes v up.rxFailed (hwWidth v s.rxFailed))).raise 1680).resume)))
    ∧ (∀ cause, cause ≤ 3 → s.linkState ≠ 0 →
      exec (.laneFail 16 cause) s = .next (((s.setFailed 65535 s.txFailed).raise 1681).loseLink 3))
    ∧ (∀ (lane : Fin 17) cause, cause ≤ 3 → s.linkState ≠ 0 → lane.val < 16 → (s.nreg (0xA010 + lane.val) 1 = 1 ∨ s.nreg (0xA010 + lane.val) 1 = 2) →
      let v := if cause = 0 then s.bump (0xA010 + lane.val) 2 else if cause = 1 then s.bump (0xA010 + lane.val) 3
        else if cause = 2 then s.count (0xA010 + lane.val) 4 16
        else { s with freeCtr := s.freeCtr + 1 }.setReg (0xA010 + lane.val) 5 ((49 + Config.freeValue s.freeCtr % 79 : Nat) : Int)
      let u := ((v.setFailed (orBit v.rxFailed lane.val) v.txFailed).setNat (0xA010 + lane.val) 1 3).raise 1681
      (hwWidth u.linkVersion u.rxFailed = 0 → exec (.laneFail lane cause) s = .next (u.loseLink 3))
      ∧ (hwWidth u.linkVersion u.rxFailed ≠ 0 → u.linkState = 1 → u.sl.retrain = false → exec (.laneFail lane cause) s = .next u)
      ∧ (hwWidth u.linkVersion u.rxFailed ≠ 0 → u.linkState ≠ 1 ∨ u.sl.retrain = true →
        u.sl.rxTarget = none → u.faultOf 3 = none → u.inForce 0x2100 8 ≠ 1 →
        exec (.laneFail lane cause) s = .next (u.handFault { resource := 3, level := 3, source := 1681 })))
    ∧ (∀ w, s.linkState = 3 → s.sl.rxTarget = some w → s.sl.txTarget = none →
      let u := ((((s.setNat 0xA000 5 w).setLanes (widthLanes (s.nreg 0xA000 3) s.rxFailed w) 2).bump 0xA000 14).raise 1682).recovered 3
        (s.usSince (((s.faultOf 3).map fun (f : FaultRec) => f.frame).getD s.clk.frames))
      exec .slDegradeDone s = .next ((({ u with sl := { u.sl with rxTarget := none, txTarget := none } }).setNat 0xA000 4 2)).resume)
    ∧ (s.mode ≠ .off → s.mode ≠ .coldStart ∨ s.start.step ≠ 1 → ∀ level,
      let u := { s with sl := { s.sl with holdIn := level, holdMoved := s.sl.holdMoved || level != s.sl.holdIn } }
      exec (.slHoldIn level) s = .next (if level = true then u else u.flush))
    ∧ (s.linkState = 2 → exec .packetCrcError s = .next (({ s with sl := { s.sl with nakked := false } }).bump 0xA000 13).rejectPacket)
    ∧ (∀ b : WidthBlock, 2 ≤ s.linkState →
      let u := s.setFailed s.rxFailed (s.txFailed ||| b.failed.toNat)
      let w := min (hwWidth (u.nreg 0xA000 3) u.txFailed) b.width
      (w = 0 → exec (.widthControlBlock b) s = .next (u.loseLink 4))
      ∧ (w ≠ 0 → u.faultOf 4 = none →
        let v := ({ u with sl := { u.sl with txTarget := some w } }).setNat 0xA000 4 3
        (v.faultOf 4).isSome = false → exec (.widthControlBlock b) s = .next (v.handFault { resource := 4, level := 3, source := 1682 })))
    ∧ (∀ w : ConvoyIn, let u := (if w.slip = true then s.slipChain else s).crossed 7 1 false
      (s.mode = .safeHalt → exec (.convoyWord w) s = .next (s.sendWord w.word))
      ∧ (s.mode = .service → (s.nreg 0xA100 1 = 1 → exec (.convoyWord w) s = .next (u.headWord w.word.toNat))
        ∧ (s.nreg 0xA100 1 = 2 → exec (.convoyWord w) s = .next (u.memberWord w.word.toNat w.beat w.fails))))

/-! ### The ring and what runs out in Rosec -/

/-- The ports of the ring (R143, R318, R322, R327-R329, R332, R334): a port that has started leaves DOWN for SYNC once its PCS is synchronised; a good
SUPERVISION of the far port counts, one in error breaks the run, one that overflows X5 is dropped; a SUPERVISION goes out every 1,250 frames; a link
is lost when silent, or when a change of rate takes 1 ms; a lost link that has been UP for 300 µs is reported by CLOSE on every port that is UP. -/
def Obligations.RingPorts : Prop :=
  ∀ (s : State) (p : PortId), let x := s.port p
    (s.ring.started = true → s.portState p = 0 →
      exec (.pcsSynchronised p) s = .next ((s.modPort p fun x => { x with valid := 0, lastValid := s.clk.frames }).setPort p 1))
    ∧ (s.portState p ≠ 0 → ∀ (f : RingFrame) (m : SupMsg),
      (f.overflow = true → exec (.supervision p f m) s = .next (((s.crossed 5 64 true).bump 0x6015 3).raise 1613))
      ∧ (f.overflow = false → f.good = true → f.etherType = 0x88B5 → m.port = 1 - p.val → exec (.supervision p f m) s = .next (s.supervised p m))
      ∧ (f.overflow = false → f.good = true → f.etherType = 0x88B5 → m.port ≠ 1 - p.val →
        exec (.supervision p f m) s = .next (s.modPort p fun x => { x with valid := 0 }))
      ∧ (f.overflow = false → f.good = true → f.etherType ≠ 0x88B5 → exec (.supervision p f m) s = .next (s.bump 0x1010 9))
      ∧ (f.overflow = false → f.good = false → exec (.supervision p f m) s = .next ((s.bump (portObj p) 8).modPort p fun x => { x with valid := 0 })))
    ∧ (s.ring.started = true → (x.sentAt = none ∨ ∃ t, x.sentAt = some t ∧ t + 1250 ≤ s.clk.frames) →
      let u := s.changeRate p
      let y := u.port p
      let want := y.want.filter (u.mayChangeRate p)
      let m : SupMsg := { uid := u.uid, station := u.station, port := p, ringState := u.ringState, caps := 15,
                          rateDown := want == some true, rateUp := want == some false,
                          rateDownAck := y.request == some true, rateUpAck := y.request == some false }
      let v := u.modPort p fun x => { x with sentAt := some u.clk.frames, asked := x.asked || want.isSome,
                                             answered := x.answered || x.request.isSome }
      exec (.supervisionSend p) s
        = .next ((v.sendUrgent p 64).ownFrame.send (.supervision p { v.ownHeader 2 255 16 with dual := false } m)))
    ∧ (s.portState p = 1 ∨ s.portState p = 2 ∨ s.portState p = 3 → exec (.linkLost p) s = .next (s.loseRingLink p))
    ∧ (s.portState p = 2 → x.lost = true → x.upSince + 3750 ≤ s.clk.frames →
      let u := s.modPort p fun x => { x with lost := false }
      exec (.closeTimer p) s = .next (u.notice (portNos.filter u.portUp) p true))
    ∧ (s.portState p = 4 → x.changeAt + 12500 ≤ s.clk.frames → exec (.rateChangeTimeout p) s = .next (s.loseRingLink p))

/-- The frames of the ring (R322-R324, R333-R337): each is first taken by the rules of forwarding, and goes on through a port that is UP whose buffer
has room for it, counted as dropped where it has none; a WALK is answered once for its WALK_ID, leaves RING_SIZE and WALK_ID, and goes back at the end
of a wrapped ring; a BREAK wraps the ring, a CLOSE closes it; an ASSIGN that names this engine gives it its number where numbers are assigned and
nothing is busy. -/
def Obligations.RingFrames : Prop :=
  ∀ (s : State) (p : PortId) (f : RingFrame), let q := 1 - p.val
    (∀ room, let r := s.takeFrame p f
      let size := max 64 (34 + f.payload.length)
      (r.1.forward = true → r.2.portUp q = true → room = true → f.room = true → (r.2.egress q).fwd + size ≤ 32768 →
        exec (.ringFrameForward p f room) s
          = .next ((r.2.modPort q fun _ => { r.2.egress q with fwd := (r.2.egress q).fwd + size }).send (.frame q (hopped f))))
      ∧ (r.1.forward = true → r.2.portUp q = true → room = false ∨ f.room = false ∨ 32768 < (r.2.egress q).fwd + size →
        exec (.ringFrameForward p f room) s = .next (r.2.bump (portObj q) 9))
      ∧ (r.1.forward = true → r.2.portUp q = false → exec (.ringFrameForward p f room) s = .next r.2)
      ∧ (r.1.forward = false → exec (.ringFrameForward p f room) s = .next r.2))
    ∧ (∀ m : WalkMsg, let r := s.takeFrame p { f with type := 3 }
      r.1.consume = true →
        let u := (r.2.setNat 0x1010 4 m.id).setNat 0x1010 3 m.records.length
        (u.ring.walks.contains m.id = false →
          let w := u.walked p m
          let size := 16 + 16 * w.2.records.length
          (r.1.forward = true → w.1.portUp q = true → exec (.walk p f m) s
            = .next (w.1.sendOn q (max 64 (34 + size)) f.room (.walk q { hopped f with length := size } w.2)))
          ∧ (w.1.portUp q = false → w.1.ringState = 2 → exec (.walk p f m) s = .next (w.1.returnWalk f w.2)))
        ∧ (r.2.ring.walks.contains m.id = true → u.ring.walks.contains m.id = true →
          (r.1.forward = true → u.portUp q = true → exec (.walk p f m) s
            = .next (u.sendOn q (max 64 (34 + (16 + 16 * m.records.length))) f.room (.walk q { hopped f with length := 16 + 16 * m.records.length } m)))
          ∧ (r.1.forward = false → exec (.walk p f m) s = .next u)))
    ∧ (∀ m : WalkMsg, let r := s.takeFrame p { f with type := 3 }
      r.1.consume = false →
        (r.1.forward = true → r.2.portUp q = true → exec (.walk p f m) s
          = .next (r.2.sendOn q (max 64 (34 + (16 + 16 * m.records.length))) f.room (.walk q { hopped f with length := 16 + 16 * m.records.length } m)))
        ∧ (r.1.forward = false → exec (.walk p f m) s = .next r.2))
    ∧ (∀ reporter, let r := s.takeFrame p { f with type := 4 }
      (r.1.consume = true →
        let n := ((r.2.bump 0x1010 5).raiseWith 1692 [beBytes 8 (if r.2.ring.broken = true then 1 else 0)]).wrap
        exec (.noticeBreak p f reporter) s = .next (({ n with ring := { n.ring with broken := true } } : State).passNotice p f false reporter r.1)
        ∧ ((r.2.portUp 0 = true ∧ r.2.portUp 1 = true) ∨ r.2.ring.reported = false →
          let b := { r.2 with ring := { r.2.ring with broken := false } }
          let u := ((b.bump 0x1010 6).raise 1693).setNat 0x1010 2 1
          let v := { u with ring := { u.ring with reported := false } }
          exec (.noticeClose p f reporter) s = .next ((if r.2.ringState = 2 then v.reroute else v).passNotice p f true reporter r.1))
        ∧ (r.2.portUp 0 = false ∨ r.2.portUp 1 = false → r.2.ring.reported = true →
          exec (.noticeClose p f reporter) s
            = .next (({ r.2 with ring := { r.2.ring with broken := false } } : State).passNotice p f true reporter r.1)))
      ∧ (r.1.consume = false → exec (.noticeBreak p f reporter) s = .next (r.2.passNotice p f false reporter r.1)
        ∧ exec (.noticeClose p f reporter) s = .next (r.2.passNotice p f true reporter r.1)))
    ∧ (∀ uid number, let g : RingFrame := { f with type := 5, payload := beBytes 8 uid ++ beBytes 1 number }
      let r := s.receiveFrame p g f.room
      (r.1 = true → uid = r.2.uid → r.2.inForce 0x2100 7 = 1 → r.2.anyBusy = false → 1 ≤ number → number ≤ 254 →
        exec (.assign p f uid number) s = .next (r.2.takeNumber number))
      ∧ (r.1 = true → uid = r.2.uid → r.2.inForce 0x2100 7 ≠ 1 ∨ r.2.anyBusy = true ∨ number = 0 ∨ 254 < number →
        exec (.assign p f uid number) s = .next (r.2.bump 0x1010 10))
      ∧ (uid ≠ r.2.uid → exec (.assign p f uid number) s = .next r.2))

/-- What Rosec sends and gives up (R352-R355): a transfer or a snapshot left alone for 1,250,000 frames is abandoned or released, and remembered; a
value due is published; a NOTIFY is confirmed, sent again after 12,500 frames while it has tries left, and lost with E1699 after them. -/
def Obligations.RosecRunsOut : Prop :=
  ∀ s : State,
    (∀ i j t, s.transferOn i j = some t → t.touched + 1250000 ≤ s.clk.frames →
      exec (.segmentAbandon i j) s
        = .next ((((s.closeTransfer i j).forget i j (some t.sa)).bump 0x1020 8).modRosec fun x =>
            { x with abandoned := (x.abandoned ++ [(i, j, t.sa)]).drop (x.abandoned.length - 7) }))
    ∧ (∀ i j u, s.uploadOn i j = some u → u.touched + 1250000 ≤ s.clk.frames →
      exec (.uploadRelease i j) s
        = .next ((s.closeUpload i j).modRosec fun x => { x with timedOut := x.timedOut.filter (· ≠ (i, j, u.sa)) ++ [(i, j, u.sa)] }))
    ∧ (∀ i y t b, s.rosec.subs[i]? = some y → y.ready = some (t, b) → (∀ z ∈ s.rosec.subs.take i, ∀ u, z.ready = some u → t < u.1) →
      (s.outPorts = [] → exec (.publication i) s = .next s)
      ∧ (s.outPorts ≠ [] → exec (.publication i) s
        = .next ((s.modRosec fun x => { x with subs := x.subs.modify i fun y => { y with ready := none } }).originate 1 y.src (32 + b.length) fun ps h =>
            .publication ps h y.index y.sub (t % 2 ^ 32) b)))
    ∧ (∀ src tid, s.responds = true →
      (s.rosec.notifies.any (·.tid == tid) = true →
        exec (.notifyConfirm src tid) s = .next (s.modRosec fun x => { x with notifies := x.notifies.filter (·.tid ≠ tid) }))
      ∧ (s.rosec.notifies.any (·.tid == tid) = false → exec (.notifyConfirm src tid) s = .next (s.bump 0x1020 12)))
    ∧ (∀ tid y, s.rosec.notifies.find? (·.tid == tid) = some y → y.sentAt + 12500 ≤ s.clk.frames →
      (y.tries < y.retries →
        exec (.notifyRetry tid) s
          = .next ((s.modRosec fun x => { x with notifies := x.notifies.map fun z =>
              if z.tid = tid then { z with tries := z.tries + 1, sentAt := s.clk.frames } else z }).originate 1 y.dst (32 + y.data.length) fun ps h => .notify ps h y.tid y.data))
      ∧ (y.retries ≤ y.tries →
        exec (.notifyRetry tid) s
          = .next (((s.modRosec fun x => { x with notifies := x.notifies.filter (·.tid ≠ tid) }).bump 0x1020 11).raise 1699)))

/-! ### Starts, sleep and power -/

/-- Power and the pins of a start (R468, R471, R473, R475, R480, R481, R484, R496): power coming up begins a cold start of TYPE 1, RESET_N falling one
of TYPE 2 that stays at step 1 while it is low; WARM_N begins a warm start of TYPE 4 in service and is ignored with E1562 asleep and in SAFE_HALT; a
power warning asks for SAFE_HALT, which is entered at the next tick, and its end raises E1561 and stops nothing; power lost leaves the device OFF with
its fuses. -/
def Obligations.PowerAndPins : Prop :=
  ∀ (s : State),
    (∀ low, s.mode = .off → exec (.resetN low true) s
      = .next { (({ s with regs := [], start := {} }).coldFrom 1 0) with
          start := { step := 1, type := 1, resetLow := low, warmLow := s.start.warmLow, testEn := s.start.testEn, warningPin := s.start.warningPin } })
    ∧ (s.mode ≠ .off → s.start.resetLow = false →
      exec (.resetN true false) s = .next (({ s with start := { s.start with resetLow := true } }).coldFrom 2 0))
    ∧ (s.mode ≠ .off → s.start.resetLow = true → exec (.resetN false false) s
      = .next ({ s with start := { s.start with resetLow := false }, jtag := s.jtag.released } : State).startPorts)
    ∧ (s.start.warmLow = false →
      (s.mode = .service → exec (.warmN true) s = .next ((s.beginWarm 4).modStart fun x => { x with warmLow := true }))
      ∧ (s.mode = .warmStart → exec (.warmN true) s = .next ((s.beginWarm s.start.type).modStart fun x => { x with warmLow := true }))
      ∧ (s.mode = .coldStart → s.start.step ≠ 1 →
        exec (.warmN true) s = .next (({ s with start := { s.start with warmLow := true } }).coldFrom s.start.type s.start.failedCold))
      ∧ (s.mode = .coldStart → s.start.step = 1 → exec (.warmN true) s = .next s)
      ∧ (s.mode = .sleep ∨ s.mode = .safeHalt → exec (.warmN true) s = .next (s.raise 1562)))
    ∧ (s.mode ≠ .off → s.start.warmLow = true → exec (.warmN false) s = .next { s with start := { s.start with warmLow := false } })
    ∧ (s.start.warningPin = false →
      (s.mode = .service ∨ s.mode = .warmStart ∨ s.mode = .sleep ∨ (s.mode = .coldStart ∧ s.start.step ≠ 1) →
        exec .pwrWarnN s = .next { s with start := { s.start with warningPin := true, warning := true, halt := true },
                                          pass := { s.pass with trigger := true } })
      ∧ (s.mode = .coldStart → s.start.step = 1 → exec .pwrWarnN s = .next s)
      ∧ (s.mode = .safeHalt → exec .pwrWarnN s = .next { s with start := { s.start with warningPin := true } }))
    ∧ (s.start.warningPin = true → s.mode ≠ .off →
      exec .powerWarningCleared s = .next ({ s with start := { s.start with warningPin := false } }.raise 1561))
    ∧ (s.start.halt = true → s.mode ≠ .off → s.mode ≠ .safeHalt → exec .safeHaltEntry s = .next s.enterSafeHalt)
    ∧ (∃ t, exec .powerLoss s = .next t ∧ t.mode = .off ∧ t.grade = s.grade ∧ t.step = s.step ∧ t.uid = s.uid ∧ t.mem = [] ∧ t.regs = [] ∧ t.octs = []
        ∧ t.sites = [] ∧ t.ctxs = [] ∧ t.ledger = [] ∧ t.ev.book = [] ∧ t.pass = {} ∧ t.store = {})

/-- The steps of a cold start, of a warm start and of a wake (R468-R471, R474, R479): each goes on to the next when it is done, in its order, and has
the effect of its step (step 1 of a cold start lasts while TEST_EN is high, R487); one that fails begins the start again, and the third failure in a
row, or a warm start that fails, goes on as R474 says. SLEEP is entered once everything is drained and abandoned after 1,250,000 frames. -/
def Obligations.StepsOfStarts : Prop :=
  ∀ (s : State),
    (∀ seed, s.mode = .coldStart → s.start.resetLow = false → s.start.halt = false →
      (s.start.step = 1 → s.clk.ref = .present → s.start.warmLow = false → s.start.testEn = false →
          exec (.coldStartStepDone true seed) s = .next s.startPorts.nextStep)
      ∧ (s.start.step = 1 → s.start.testEn = true → exec (.coldStartStepDone true seed) s = .next s)
      ∧ (s.start.step = 2 → exec (.coldStartStepDone true seed) s = .next s.nextStep.bringUp
        ∧ exec (.coldStartStepDone false seed) s = .next (s.failCold 0x010A))
      ∧ (s.start.step = 3 → s.clk.ref = .present → exec (.coldStartStepDone true seed) s
          = .next { s with clk := { s.clk with beat := .locked, me := .locked, dram := .locked } }.nextStep)
      ∧ (s.start.step = 3 → (s.clk.ref ≠ .present ∨ s.clk.presentFor < 125000) → exec (.coldStartStepDone false seed) s = .next s)
      ∧ (s.start.step = 3 → s.clk.ref = .present → 125000 ≤ s.clk.presentFor →
          exec (.coldStartStepDone false seed) s = .next (s.failCold 0x010A))
      ∧ (s.start.step = 4 → exec (.coldStartStepDone true seed) s = .next (s.deriveKeys seed).nextStep
        ∧ exec (.coldStartStepDone false seed) s = .next ((s.failKeys seed).failCold 0x0309))
      ∧ (s.start.step = 6 → exec (.coldStartStepDone true seed) s
          = (let m := s.mendVendor
            .next (if m.vendorOk = true then
                ((({ m with store := { m.store with vendor := .verified } }.setNat 0x4000 2 (field m.store.header 4 7)).setOct 0xC000 5
                  (sha384 m.store.header)).nextStep.modStart fun x => { x with drst := true }).startTraining
              else ({ m with store := { m.store with vendor := .rejected } }).failCold 0x0309)))
      ∧ (s.start.step = 7 → (chanNos.any fun c => ((s.trainAll seed).chan c).mode == .serving) = true →
          exec (.coldStartStepDone true seed) s = .next (s.trainAll seed).nextStep)
      ∧ (s.start.step = 7 → (chanNos.any fun c => ((s.trainAll seed).chan c).mode == .serving) = false →
          exec (.coldStartStepDone true seed) s = .next ((s.trainAll seed).failCold 0x0402))
      ∧ (s.start.step = 8 → exec (.coldStartStepDone true seed) s = .next s.coldCalibrate.nextStep)
      ∧ (s.start.step = 9 → exec (.coldStartStepDone true seed) s = .next (s.startDone 1552)))
    ∧ (∀ cause, let t := s.failCold cause
      (s.canonical = true → t.reg 0x2002 2 = cause ∧ t.reg 0x2002 3 = s.start.step) ∧ t.start.failedCold = s.start.failedCold + 1 ∧ t.start.type = s.start.type
        ∧ (2 ≤ s.start.failedCold → t.start.halt = true)
        ∧ (s.start.failedCold < 2 → t.mode = .coldStart ∧ t.start.step = 1 ∧ t.start.halt = false ∧ t.mem = []))
    ∧ (s.mode = .warmStart → s.start.halt = false →
      (s.start.step = 1 → s.start.warmLow = false → exec (.warmStartStepDone true) s
          = .next (if s.pass.trigger = true then s.sealInterrupted else s).nextStep)
      ∧ (s.start.step = 2 → s.clk.ref = .present → s.memBusy = false → exec (.warmStartStepDone true) s = .next s.quiesceWarm.nextStep)
      ∧ (s.start.step = 2 → s.clk.ref ≠ .present → exec (.warmStartStepDone true) s = .next (s.failWarm 0x010A))
      ∧ (s.start.step = 3 → exec (.warmStartStepDone true) s = .next s.clearWarm.nextStep)
      ∧ (s.start.step = 4 → exec (.warmStartStepDone true) s = .next s.leaveSelfRefresh.nextStep
        ∧ ((∃ c ∈ chanNos, (s.chan c).mode = .selfRefresh) → exec (.warmStartStepDone false) s = .next (s.failWarm 0x0402)))
      ∧ (s.start.step = 5 → exec (.warmStartStepDone true) s = .next (s.startDone 1553)))
    ∧ (s.mode = .sleep → s.start.halt = false →
      let on (t : State) : Out := .next { t with start := { t.start with wakeStep := t.start.wakeStep + 1 } }
      (s.start.wakeStep = 1 → s.clk.ref = .present → s.faultOf 8 = none → exec (.wakeStepDone true) s
          = on { s with clk := { s.clk with beat := .locked, me := .locked, dram := .locked, lostFor := 0, longHoldover := false } })
      ∧ (∀ f, s.start.wakeStep = 1 → s.clk.ref = .present → s.faultOf 8 = some f →
          let u := ({ s with clk := { s.clk with beat := .locked, me := .locked, dram := .locked, lostFor := 0, longHoldover := false } }).raise 1544
          exec (.wakeStepDone true) s = on (u.recovered 8 (u.usSince f.frame)))
      ∧ (s.start.wakeStep = 1 → s.clk.ref ≠ .present → exec (.wakeStepDone true) s = .next s)
      ∧ (∀ c, s.start.wakeStep = 2 → (chanNos.find? fun c => (s.chan c).mode == .selfRefresh) = some c →
          exec (.wakeStepDone false) s = on (((s.failRetrain c).leaveSelfRefresh.restoreLink).askRate false))
      ∧ (s.start.wakeStep = 2 → exec (.wakeStepDone true) s = on ((s.leaveSelfRefresh.restoreLink).askRate false))
      ∧ (s.start.wakeStep = 3 → exec (.wakeStepDone true) s = on s)
      ∧ (s.start.wakeStep = 4 → exec (.wakeStepDone true) s
          = .next (({ s with mode := .service, start := { s.start with wakeStep := 0 }, ring := { s.ring with record := none }, rosec := { s.rosec with copied := [] } } : State).resumeServo.raise 1558)))
    ∧ (∀ t, s.start.sleepAsked = some t → s.clk.frames < t + 1250000 → s.drainedForSleep = true →
      let u := ({ s with start := { s.start with sleepAsked := none, wakeStep := 0 } }).linkDown
      let v := ((if u.reg 0xA100 4 = 0 then u else u.convoyDown).enterSelfRefresh).askRate true
      let w := v.modClk fun c => { c with beat := .off, me := .off, dram := .off }
      let t := if w.qualityAhead = .locked ∨ w.qualityAhead = .reroute then w.setQuality .holdover else w
      exec .sleepDrainDone s = .next (({ t with mode := .sleep } : State).nightCopies.raise 1557))
    ∧ (∀ t, s.start.sleepAsked = some t → t + 1250000 ≤ s.clk.frames →
      exec .sleepAbandoned s = .next ({ s with start := { s.start with sleepAsked := none } }.raise 1559))

/-! ### Network time, calibration, the Passport, faults and the test port -/

/-- PTP messages in (R370-R375): each is first taken by the rules of its port; a one-step Sync of the selected master is used and a two-step one waits
for its Follow_Up; Announce of a receiver joins the masters and selects; a Delay_Req is answered by an E2E transmitter; a Delay_Resp to the engine's
own request gives one mean path delay; a Pdelay_Req is answered in two steps; a Pdelay_Resp ends or continues its exchange. All but peer delay are
forwarded. -/
def Obligations.PtpMessagesIn : Prop :=
  ∀ (s : State) (p : PortId) (m : PtpMsg),
    (let r := s.ptpTake p 0 m;
      (r.1 = false → exec (.ptpSync p m) s = .next r.2)
      ∧ (r.1 = true →
        let u := r.2.bump (ptpObj p) 5
        (u.plays 1 = false → exec (.ptpSync p m) s = .next (u.ptpForward p 0 m))
        ∧ (u.plays 1 = true → u.time.master = some (m.clock, m.portNo) →
          let first := u.firstCopy 0 m
          (first.1 = false → exec (.ptpSync p m) s = .next (u.ptpForward p 0 m))
          ∧ (first.1 = true →
          let y : SyncIn := { clock := m.clock, portNo := m.portNo, seqId := m.seqId, via := p, ingress := m.ingress,
                              correction := m.correction, origin := m.origin }
          let v := first.2.modTime fun x => { x with syncEvery := max 1 (logFrames m.logInterval) }
          exec (.ptpSync p m) s = .next (State.ptpForward
            (if m.twoStep = true then v.modTime fun x => { x with awaiting := some y, syncAt := v.clk.frames } else v.useSync y) p 0 m)))))
    ∧ (let r := s.ptpTake p 8 m
      r.1 = true → ∀ y, r.2.time.awaiting = some y →
        (y.clock = m.clock → y.portNo = m.portNo → y.seqId = m.seqId →
          exec (.followUp p m) s
            = .next ((r.2.useSync { y with origin := m.origin, correction := y.correction + m.correction }).ptpForward p 8 m))
        ∧ (y.seqId ≠ m.seqId → exec (.followUp p m) s = .next (r.2.ptpForward p 8 m)))
    ∧ (let r := s.ptpTake p 1 m
      r.1 = true →
        (r.2.plays 2 = true → r.2.inForce 0x8001 3 = 1 →
          exec (.delayReq p m) s = .next ((r.2.each r.2.ptpPorts fun t q =>
            t.send (.ptp 9 q { domain := m.domain, clock := t.uid, portNo := q + 1, seqId := m.seqId, origin := m.ingress,
                               correction := m.correction, reqClock := m.clock, reqPort := m.portNo })).ptpForward p 1 m))
        ∧ (r.2.plays 2 = false → exec (.delayReq p m) s = .next (r.2.ptpForward p 1 m)))
    ∧ (let r := s.ptpTake p 9 m
      r.1 = true → ∀ t3 y, r.2.time.delayT3 = some t3 → r.2.time.lastSync = some y →
        (m.reqClock = r.2.uid → m.seqId = r.2.time.delaySeq → r.2.time.master = some (m.clock, m.portNo) →
          let d := ((y.ingress - y.origin - y.correction) + (m.origin - t3 - m.correction)) / 2;
          exec (.delayResp p m) s = .next ((r.2.modTime fun x =>
            { x with means := (x.means ++ [d]).drop ((x.means.length + 1) - 4), delayT3 := none }).ptpForward p 9 m))
        ∧ (m.seqId ≠ r.2.time.delaySeq ∨ r.2.time.master ≠ some (m.clock, m.portNo) → exec (.delayResp p m) s = .next (r.2.ptpForward p 9 m)))
    ∧ (s.portUp p = true → m.domain = s.nInForce 0x8001 2 →
      let base : PtpMsg := { domain := m.domain, clock := s.uid, portNo := p + 1, seqId := m.seqId, reqClock := m.clock, reqPort := m.portNo }
      exec (.pdelayReq p m) s = .next ((s.send (.ptp 3 p { base with twoStep := true, origin := m.ingress, egress := m.egress })).send
        (.ptp 10 p { base with origin := m.egress, correction := m.correction })))
    ∧ (∀ t1, (s.pdelay p).t1 = some t1 → s.portUp p = true → m.domain = s.nInForce 0x8001 2 → m.reqClock = s.uid → m.reqPort = p.val + 1 → m.seqId = (s.pdelay p).seq →
      let y := { s.pdelay p with t2 := some m.origin, t4 := m.ingress, corr := m.correction }
      (m.twoStep = true → exec (.pdelayResp p m) s = .next (s.modPdelay p fun _ => y))
      ∧ (m.twoStep = false → exec (.pdelayResp p m) s = .next (s.pdelayDone p y 0 t1))
      ∧ (∀ t2, (s.pdelay p).t2 = some t2 →
        exec (.pdelayRespFollowUp p m) s
          = .next (s.pdelayDone p { s.pdelay p with corr := (s.pdelay p).corr + m.correction } (m.origin - t2) t1)))
    ∧ (let r := s.ptpTake p 11 m
      r.1 = true →
        (r.2.plays 1 = true → (r.2.firstCopy 11 m).1 = true →
          let u := (r.2.firstCopy 11 m).2
          let one : Master := { clock := m.clock, portNo := m.portNo, rank := ptpRank m, gm := m.gmIdentity, heard := u.clk.frames,
                                every := max 1 (logFrames m.logInterval) }
          exec (.announce p m) s = .next (((u.modTime fun x => { x with
            masters := (x.masters.filter fun k => !(k.clock == m.clock && k.portNo == m.portNo)) ++ [one],
            heard := if x.master = some (m.clock, m.portNo) then u.clk.frames else x.heard }).selectMaster).ptpForward p 11 m))
        ∧ (r.2.plays 1 = false ∨ (r.2.firstCopy 11 m).1 = false → exec (.announce p m) s = .next (r.2.ptpForward p 11 m)))

/-- What network time does in time (R368, R370, R373, R374, R376, R377, R381, R384, R389, R497): messages go out at their intervals; quality falls at
the time-outs of Announce, Sync, host corrections and holdover, and a port whose peer delay fails; a slew ends and a step is applied once nothing is
busy; a time trigger acts where its target lies in the frame; PPS_OUT pulses at its second; an edge at an EVT pin in an input mode is captured. -/
def Obligations.NetworkTimePasses : Prop :=
  ∀ (s : State),
    (s.plays 2 = true → (s.time.syncSentAt = 0 ∨ s.time.syncSentAt + s.syncFrames ≤ s.clk.frames) →
      let n := (s.time.sendSeq + 1) % 65536
      let u := ({ s with freeCtr := s.freeCtr + 1 } : State).modTime fun x => { x with sendSeq := n, syncSentAt := s.clk.frames }
      exec .ptpSyncSend s
        = .next (u.each u.ptpPorts fun t p =>
            t.send (.ptp 0 p { domain := t.nInForce 0x8001 2, clock := t.uid, portNo := p + 1, seqId := n,
                               origin := s.localTime + (Config.freeValue s.freeCtr % (64 * 81920) : Nat), logInterval := t.inForce 0x8001 7 })))
    ∧ (s.plays 2 = true → (s.time.announceSentAt = 0 ∨ s.time.announceSentAt + 12500000 ≤ s.clk.frames) →
      let n := (s.time.announceSeq + 1) % 65536
      let u := s.modTime fun x => { x with announceSeq := n, announceSentAt := s.clk.frames }
      exec .announceSend s
        = .next (u.each u.ptpPorts fun t p =>
            t.send (.ptp 11 p { domain := u.nInForce 0x8001 2, clock := u.uid, portNo := p + 1, seqId := n,
                                gmPrio1 := u.nInForce 0x8001 4, gmClass := u.nInForce 0x8001 6, gmPrio2 := u.nInForce 0x8001 5,
                                gmIdentity := u.uid })))
    ∧ (∀ (p : PortId) egress, s.portUp p = true →
      let x := s.pdelay p
      (x.sentAt = 0 ∨ x.sentAt + (if x.burst > 0 then 12500 else logFrames (s.inForce 0x8001 8)) ≤ s.clk.frames) →
      let n := (x.seq + 1) % 65536
      let u := s.modPdelay p fun y => { y with seq := n, t1 := some egress, t2 := none, sentAt := s.clk.frames }
      exec (.pdelayReqSend p egress) s
        = .next (u.send (.ptp 2 p { domain := u.nInForce 0x8001 2, clock := u.uid, portNo := p + 1, seqId := n, egress := egress })))
    ∧ (∀ egress y, s.time.lastSync = some y → s.plays 1 = true → s.inForce 0x8001 3 = 1 → s.portUp y.via = true →
      let n := (s.time.delaySeq + 1) % 65536
      let u := s.modTime fun x => { x with delaySeq := n, delayT3 := some egress }
      exec (.delayReqSend egress) s
        = .next (u.send (.ptp 1 y.via { domain := u.nInForce 0x8001 2, clock := u.uid, portNo := y.via + 1, seqId := n, egress := egress })))
    ∧ (let lose (t : State) : Out := .next (if t.qualityAhead = .locked then t.setQuality .holdover else t.recount)
      (s.plays 1 = true → s.time.heard + 3 * s.time.announceEvery ≤ s.clk.frames → exec .announceReceiptTimeout s = lose s.selectMaster)
      ∧ (s.inForce 0x8001 1 ≠ 2 → s.time.syncAt + 3 * s.time.syncEvery ≤ s.clk.frames → exec .ptpSyncTimeout s = lose s))
    ∧ (s.inForce 0x2100 3 = 1 → s.inForce 0x8001 1 = 1 → s.qualityAhead = .locked →
      (∀ t, s.time.hostAt = some t → t + s.nInForce 0x8010 5 * s.time.syncEvery ≤ s.clk.frames) →
      exec .hostLockTimeout s = .next (s.setQuality .holdover))
    ∧ (∀ t, s.time.leftLocked = some t → s.time.nextQuality ≠ some .reroute → s.qualityAhead ≠ .locked → s.qualityAhead ≠ .freerun →
      t + 12500000 * s.nInForce 0x8001 9 ≤ s.clk.frames → exec .holdoverLimit s = .next (s.setQuality .freerun))
    ∧ (∀ p : PortId, s.reg (ptpObj p) 2 = 1 ∨ s.portUp p = true → (s.pdelay p).failed = false →
      (s.pdelay p).validAt + 3 * logFrames (s.inForce 0x8001 8) ≤ s.clk.frames →
      exec (.pdelayFail p) s = .next (((s.modPdelay p fun x => { x with failed := true }).setNat (ptpObj p) 2 0).raise 1709))
    ∧ (∀ e, s.time.slewEnd = some e → e ≤ s.clk.frames → exec .slewEnd s = .next s.endSlew.beginSlew)
    ∧ (s.time.stepWaits = true → s.anyBusy = false → exec .stepApply s = .next s.applyStep)
    ∧ (∀ i : Fin 8, let o := ttObj i
      let target := ofTime80 (s.nInForce o 1)
      s.inForce o 4 = 1 → target ≤ s.timeAtBeat 63 →
        let w := if target ≤ timeAt s.time ((s.clk.c : Int) - 1) then s.bump o 6 else s
        let u := w.count o 5 1
        let act := w.nInForce o 3
        let beat := ((List.range 64).find? fun b => decide (target ≤ w.timeAtBeat b)).getD 0
        let p := if natBit act 4 = true then u.evtPulse (act % 16) (u.clk.c + u.placeBeat beat) else u
        let v := if natBit act 5 = true then p.raise (1710 + i) else p
        exec (.timeTrigger i) s
          = .next (if v.nInForce o 2 = 0 then v.setForce o 4 0 else v.setForce o 1 (toTime80 (target + v.nInForce o 2 * nsUnit))))
    ∧ (let off := s.inForce 0x8040 3 * nsUnit
      let next := -((-(s.localTime - off)) / (1000000000 * nsUnit)) * (1000000000 * nsUnit) + off
      let rise := if s.mode = .sleep then
          (((List.range 9).map fun k => s.timeAtBeat (8 * k)).find? fun t => decide (next ≤ t)).getD next
        else next
      s.inForce 0x8040 1 = 2 ∨ (s.inForce 0x8040 1 = 1 ∧ s.time.quality = .locked) → next < s.timeAtBeat 64 →
        (s.time.ppsFrame ≠ some s.clk.frames → exec .ppsPulse s
          = .next ((s.modTime fun x => { x with ppsFrame := some s.clk.frames }).send (.pps rise.toNat (s.nInForce 0x8040 2))))
        ∧ (s.time.ppsFrame = some s.clk.frames → exec .ppsPulse s = .next s))
    ∧ (∀ (i : Fin 8) rising beat, (s.evt i).level ≠ rising → beat < 64 →
      let u := s.setEvt i { s.evt i with level := rising, changed := s.clk.c + beat }
      let v := if s.evtMode i = 2 then u.evtExt i rising beat else u
      let w := if rising = true then v.ppsEdge i beat else v
      (s.evtMode i = 0 → exec (.evtEdge i rising beat) s = .next u)
      ∧ (s.evtMode i = 1 ∨ s.evtMode i = 2 → exec (.evtEdge i rising beat) s
          = .next (w.captureAll (edgeSource 1 i rising) (w.timeAtBeat (w.placeBeat beat)))))

/-- Calibration and heat (R396, R397, R401, R402, R404, R405, R410, R493, R494): a step's two runs are judged at once, or kept for the host, whose
time runs out with RESULT 5; a domain whose steps have all finished commits its values; a drift pair that differs by more than 800 is dropped; eight
ageing readings are kept with their maximum; THERM_N goes out as it changes. -/
def Obligations.CalibrationAndHeat : Prop :=
  ∀ (s : State),
    (∀ d k q first second, s.openStep = some (d, k, q) → s.cal.waitFrom = none → first.length = q.length → second.length = q.length →
      (s.inForce 0x2100 2 ≠ 1 → exec (.calStepDone first second) s = .next (s.judgePair q first second))
      ∧ (s.inForce 0x2100 2 = 1 →
        let rows (run : Nat) (l : List Int) : List Byte := (q.zip l).flatMap fun e => calRecord d k e.1 run s.cal.retry e.2
        let u := s.setOct 0xB040 1 (s.oct 0xB040 1 ++ rows 0 first ++ rows 1 second)
        exec (.calStepDone first second) s = .next ((u.modCal fun c => { c with waitFrom := some u.clk.frames, got := [] }).setNat 0xB002 4 2)))
    ∧ (∀ d, s.cal.domain = some d → s.cal.cancel = false → (calSteps d s.cal.pins).length ≤ s.cal.step →
      let c := s.cal
      let total := (calSteps d c.pins).length
      let units := calUnits d c.pins
      let r := units.foldl (fun (a : State × Nat) e => ((a.1.commitUnit d e.1 e.2).1, a.2 + (a.1.commitUnit d e.1 e.2).2)) (s, 0)
      let result := if c.kept = total then 3 else if c.kept > 0 then 2 else if r.2 > 0 then 4 else 1;
      let u := ((r.1.bump 0xB000 (d + 1)).setNat 0xB000 (d + 6) (toTime80 r.1.localTime)).setNat 0xB000 (d + 11) result
      let v := (u.rehash.bump 0xB000 17).raise 1720
      let w := if d = 3 then v else v.each units fun t e => t.raise (pinEvent e.2 6)
      exec .calDomainCommit s = .next (((w.timingWhole d c.pins).judgeTemp).nextDomain))
    ∧ (∀ (p : PinId) (a b : Int), s.inForce 0xB001 3 ≠ 0 → s.mode ≠ .sleep ∧ s.mode ≠ .safeHalt ∧ s.mode ≠ .off →
      natBit s.cal.busyPins p = false → ([0, 1, 2, 3].any fun v => !(s.vernierBusy ++ s.calVerniers).contains v) = true → s.driftDue p = true →
      (800 < (a - b).natAbs → exec (.driftMeasurement p [a] [b]) s = .next ((s.driftTaken p).bump 0xB001 7))
      ∧ ((a - b).natAbs ≤ 800 →
        let r := (s.driftTaken p).meanOf a b
        let limit : Int := s.inForce 0xB001 5 * 250
        let d := max (-limit) (min limit r.1)
        let u := r.2.setReg (pinObj p 11) 5 d
        (d = r.1 ∨ u.reg (pinObj p 11) 6 ≠ 0 → exec (.driftMeasurement p [a] [b]) s = .next ((u.retarget p d).bump 0xB001 6))
        ∧ (d ≠ r.1 → u.reg (pinObj p 11) 6 = 0 → exec (.driftMeasurement p [a] [b]) s
            = .next (((((u.setNat (pinObj p 11) 6 1).raise (pinEvent p 9)).raise 1727).retarget p d).bump 0xB001 6))))
    ∧ (∀ d t, s.cal.domain = some d → s.cal.waitFrom = some t → t + 12500 * s.nInForce 0xB040 3 ≤ s.clk.frames →
      exec .calHostTimeout s = .next (((s.setNat 0xB000 (11 + d) 5).endRun).raise 1729))
    ∧ (∀ l : List Int, l.length = 8 → s.mode ≠ .off →
      exec (.ageingRead l) s = .next (((s.each ((List.range 8).zip l) fun t e => t.setReg 0xB020 (e.1 + 1) e.2).setReg 0xB020 9
        (l.foldl max (l.headD 0))).judgeMargin))
    ∧ (∀ a b c d : Int, s.mode ≠ .off →
      let hot := max (max (max a b) c) d
      let cold := min (min (min a b) c) d
      let u := s.takeMean [a, b, c, d]
      (hot < 9500 → 0 ≤ cold → hot - cold ≤ 800 →
        exec (.tempRead [a, b, c, d]) s
          = .next { u with therm := { u.therm with high := false, range := false, spread := false } }.judgeTemp)
      ∧ (10000 ≤ hot → u.therm.high = false → hot ≤ 10500 → 0 ≤ cold → hot - cold ≤ 800 →
        exec (.tempRead [a, b, c, d]) s
          = .next ({ u.raise 1568 with therm := { u.therm with high := true, range := false, spread := false } } : State).judgeTemp)
      ∧ (9500 ≤ hot → hot < 10000 → 0 ≤ cold → hot - cold ≤ 800 →
        exec (.tempRead [a, b, c, d]) s
          = .next { u with therm := { u.therm with range := false, spread := false } }.judgeTemp)
      ∧ (hot < 9500 → cold < 0 → hot - cold ≤ 800 → u.therm.range = false →
        let v := (u.raise 1569).taintLive
        exec (.tempRead [a, b, c, d]) s
          = .next ({ v with therm := { v.therm with high := false, range := true, spread := false } } : State).judgeTemp)
      ∧ (hot < 9500 → 0 ≤ cold → 800 < hot - cold → u.therm.spread = false →
        exec (.tempRead [a, b, c, d]) s
          = .next ({ u.raise 1571 with therm := { u.therm with high := false, range := false, spread := true } } : State).judgeTemp)
      ∧ (11500 ≤ hot → u.therm.high = true → u.therm.range = true → u.therm.spread = true → 800 < hot - cold → s.mode ≠ .safeHalt →
        let v := u.taintLive
        let w : State := { v with therm := { v.therm with high := true, range := true, spread := true } }
        exec (.tempRead [a, b, c, d]) s
          = .next ((w.raise 1570).handFault { resource := 0, level := 10, severity := 3, source := 1570 }).judgeTemp))
    ∧ (∀ b : Bool, s.therm.asserted ≠ b →
      exec (.thermNChange b) s = .next ({ s with therm := { s.therm with asserted := b } }.send (.therm b)))

/-- The Passport and the fault handler (R279, R422, R429-R432, R436, R454, R458): a prepared record joins the open batch; a batch closes at its tick
and is signed once a nonce pair is free; fragments not acknowledged go out again; entropy is judged; records of sites interrupted by a start are
sealed; hardware decides at the fault's level, as it does with E1541 where the host's answer or its choice of a width has not come in time or a fault
has waited too long in the queue; a recovery ends its fault. -/
def Obligations.PassportAndFaults : Prop :=
  ∀ (s : State),
    (∀ f, s.pass.formed.find? (·.prepared) = some f →
      (s.storeRoom f.rcd = true → s.pass.batch.length < 65536 →
        let u := s.modPass fun p => { p with formed := s.pass.formed.filter fun g => g.rcd.run != f.rcd.run, batch := p.batch ++ [markReposted f] }
        let v := u.each (u.prepEntries f.rcd.run) State.freeEntry
        exec .verdictHandover s = .next (if 65536 ≤ v.pass.batch.length ∧ v.pass.closed.length < 16 then v.closeBatch else v))
      ∧ (s.storeRoom f.rcd = false → f.full = false → exec .verdictHandover s
          = .next (((s.modPass fun p => { p with formed := p.formed.map fun g => if g.rcd.run = f.rcd.run then { g with full := true } else g }).bump
              0xC002 6).raise 1734))
      ∧ (s.storeRoom f.rcd = false → f.full = true → exec .verdictHandover s = .next s))
    ∧ (let due := if s.pass.nextClose = 0 then 12500 else s.pass.nextClose
      due ≤ s.clk.frames →
      let u := s.modPass fun p => { p with nextClose := due + ((s.clk.frames - due) / s.nInForce 0xC001 1 + 1) * s.nInForce 0xC001 1 }
      (s.pass.batch = [] → exec .batchClose s = .next u)
      ∧ (s.pass.batch ≠ [] → s.pass.closed.length < 16 → exec .batchClose s = .next u.closeBatch)
      ∧ (s.pass.batch ≠ [] → 16 ≤ s.pass.closed.length → exec .batchClose s = .next (u.raise 1737)))
    ∧ (∀ b rest, s.pass.closed = b :: rest → (s.takePair b.interrupted).1 = true →
      let u := ((s.takePair b.interrupted).2.modPass fun p => { p with closed := rest }).signBatch b
      exec .batchSign s = .next (if 65536 ≤ u.pass.batch.length then u.closeBatch else u))
    ∧ (let due (b : SignedBatch) : Bool := decide (b.sentAt + 12500 * s.nInForce 0xC001 4 ≤ s.clk.frames)
      exec .verdictResend s = .next ((s.modPass fun p =>
        { p with signed := p.signed.map fun b => if due b = true then { b with sentAt := s.clk.frames } else b }).each
          (s.pass.signed.filter due) State.ringBatch))
    ∧ (s.reg 0xC000 1 = 1 → s.mode ≠ .sleep → exec (.drbgReseed true) s = .next (s.setNat 0xC000 7 0)
      ∧ exec (.drbgReseed false) s = .next (if s.reg 0xC000 7 = 1 then s.raise 1733 else ((s.setNat 0xC000 7 1).raise 1733).raise 1679))
    ∧ (s.pass.trigger = true → exec .interruptedSeal s = .next s.sealInterrupted)
    ∧ (∀ f, s.handler.current = some f → s.handler.offered = none → s.awaitsWidth f = false →
      exec .faultDecision s = .next (s.decideCurrent f f.level))
    ∧ (∀ t f, s.handler.offered = some t → s.handler.current = some f → t < s.clk.frames →
      exec (.hostDeadline false) s
        = .next (((s.raiseWith 1541 [f.head]).modHandler fun h => { h with expired := true }).decideCurrent f f.level))
    ∧ (∀ t f, s.sl.choiceBy = some t → s.handler.current = some f → f.resource = 3 → f.level = 3 → t < s.clk.frames →
      let lost : FaultRec := (s.faultOf 3).getD { resource := 3, level := 3, source := 1681 }
      let u := { s with sl := { s.sl with choiceBy := none, chosen := none, late := true } }
      exec (.hostDeadline true) s = .next ((u.raiseWith 1541 [lost.head]).decideCurrent f 3))
    ∧ (∀ r us f, r = 9 ∨ r = 10 ∨ 0x80 ≤ r ∧ r ≤ 0xFF → s.handler.active.find? (·.resource == r) = some f →
      exec (.faultRecovered r us) s = .next (s.faultEnds f us))
    ∧ (∀ f, s.inForce 0x2100 9 = 1 → s.handler.queue.find? s.waitedLong = some f →
      exec .queuedFaultTimeout s
        = .next (((s.modHandler fun h => { h with queue := h.queue.erase f, tasks := h.tasks + 1 }).raiseWith 1541 [f.head]).decided f))

/-- The test port (R504): IDCODE shifts out the identification, lowest bit first, BYPASS one 0; SAMPLE/PRELOAD shifts out what the balls show, free
values here, while the new ones enter; the instructions that drive the balls take effect under RESET_N low alone, and act as BYPASS otherwise. -/
def Obligations.TestPort : Prop :=
  ∀ (s : State),
    (exec .bypass s = .next ({ s with jtag := { s.jtag with instr := .bypass } }.send (.tdo [false])))
    ∧ (exec .idcode s = .next ({ s with jtag := { s.jtag with instr := .idcode } }.send
        (.tdo ((List.range 32).map fun i => s.idcodeWord.getLsbD i))))
    ∧ (∀ cells : List Bool, s.start.resetLow = true → s.mode ≠ .off →
      exec (.samplePreload cells) s = .next ({ s with jtag := { instr := .sample, cells := cells }, freeCtr := s.freeCtr + cells.length }.send
        (.tdo ((List.range cells.length).map fun i => natBit (Config.freeValue (s.freeCtr + i)) 0))))
    ∧ (s.start.resetLow = true → s.mode ≠ .off →
      let held (i : JtagInstr) : Out := .next { s with jtag := { s.jtag with instr := i } }
      exec .extest s = held .extest ∧ exec .highz s = held .highz ∧ exec .clamp s = held .clamp ∧ exec .extestPulse s = held .extestPulse
        ∧ exec .extestTrain s = held .extestTrain)
    ∧ (s.start.resetLow = false →
      let passed : Out := .next ({ s with jtag := { s.jtag with instr := .bypass } }.send (.tdo [false]))
      (∀ cells, exec (.samplePreload cells) s = passed) ∧ exec .extest s = passed ∧ exec .highz s = passed ∧ exec .clamp s = passed
        ∧ exec .extestPulse s = passed ∧ exec .extestTrain s = passed)

/-! ### Vector memory -/

/-- A line written is a line kept (R269, R270): after a write of eight codewords the line holds them with its metadata and its seal, every byte and
every line elsewhere stays, and the canonical form of memory stays; read back without an error, below the capacity and on a channel that is not
fenced, in an epoch that is not below the floor, unmarked codewords without an error are delivered as written. -/
def Obligations.LinesKeepWhatIsWritten : Prop :=
  ∀ (s : State) (addr cls site : Nat) (words : List Codeword), s.canonical = true → words.length = 8 →
    let t := s.writeLine addr cls site words
    let kept := words.map fun w => { w with poison := false }
    let md := metaOf cls s.sealEpoch site (poisonBits words)
    (Memory.wf t.mem = true)
    ∧ (∀ k, k / 80 ≠ addr / 64 → memByte t.mem k = memByte s.mem k)
    ∧ t.lineAt addr = some { words := kept, md := md, tag := s.sealOf addr s.sealEpoch md words }
    ∧ (∀ a, a / 64 ≠ addr / 64 → t.lineAt a = s.lineAt a)
    ∧ (addr < s.memCapacity → s.fenced addr = false → s.nInForce 0xC010 2 ≤ s.sealEpoch → site < 256 →
      (∀ w ∈ words, w.poison = false ∧ syndrome w = 0) → (t.readLine addr []).1 = words)

/-- The code of host and pin (R22, R23, R505): a codeword as its creator makes it is good; with one bit in error, whichever of its 72, a checker
delivers the data as made; with two bits in error it delivers none; a poisoned word stays uncorrectable whatever else flips. -/
def Obligations.CodeCorrectsOneFlip : Prop :=
  ∀ (d : Word64),
    let w := encodeWord d
    let flip (e : BitVec 72) (w : Codeword) : Codeword :=
      { w with data := w.data ^^^ BitVec.ofNat 64 e.toNat, check := w.check ^^^ BitVec.ofNat 8 (e.toNat / 2 ^ 64) }
    checkWord w = .good d
    ∧ (∀ i : Fin 72, checkWord (flip (1#72 <<< i.val) w) = .corrected d w)
    ∧ (∀ i j : Fin 72, i ≠ j → (checkWord (flip (1#72 <<< i.val ^^^ 1#72 <<< j.val) w)).ok = false)
    ∧ (∀ e : BitVec 72, (checkWord (flip e (poisonWord w))).ok = false)

/-! ### Three rules whole -/

/-- The format of an instruction word (R39): OPCODE in [63:56], COND in [55:53], CLRF in [52], reserved bits in [51:48], the operand in [47:0]. -/
def Obligations.InstructionWordFormat : Prop :=
  ∀ (w : Word64),
    w.toNat = opcodeOf w * 2 ^ 56 + condOf w * 2 ^ 53 + (clrfOf w).toNat * 2 ^ 52 + bits w 51 48 * 2 ^ 48 + bits w 47 0
    ∧ opcodeOf w < 256 ∧ condOf w < 8 ∧ bits w 51 48 < 16 ∧ bits w 47 0 < 2 ^ 48

/-- SHF (R73): its type is B[6:5], LSL, LSR, ASR, ROR; its amount is B[4:0] in immediate form and mB[4:0], with mB named by B[3:0] and B[4] = 0, in
register form. An amount of 0 leaves mA in mD and clears C; otherwise C is the last bit shifted out, or for ROR the new bit 31. -/
def Obligations.ShiftsFollowTheirType : Prop :=
  ∀ (s : State) (c : CtxId) (f : BitVec 26), s.Issues c 0x08 f 1 → bits f 16 7 = 0 →
    let m := (s.ctx c).ms
    let a := m.reg (fA f)
    let k := if fImm f = true then bits f 4 0 else (m.reg (bits f 3 0)).toNat % 32
    let put (v : Word32) (cf : Bool) : Out :=
      .next ((s.issued c 1).modMs c fun _ => m.result (fD f) v (v == 0) (v.getLsbD 31) cf m.v)
    (fImm f = true ∨ bit f 4 = false →
      (k = 0 → exec (.shf c f) s = put a false)
      ∧ (k ≠ 0 →
        (bits f 6 5 = 0 → exec (.shf c f) s = put (a <<< k) (a.getLsbD (32 - k)))
        ∧ (bits f 6 5 = 1 → exec (.shf c f) s = put (a >>> k) (a.getLsbD (k - 1)))
        ∧ (bits f 6 5 = 2 → exec (.shf c f) s = put (a.sshiftRight k) (a.getLsbD (k - 1)))
        ∧ (bits f 6 5 = 3 → exec (.shf c f) s = put (a.rotateRight k) ((a.rotateRight k).getLsbD 31))))
    ∧ (fImm f = false → bit f 4 = true →
      exec (.shf c f) s = .next (((s.issued c 1).holdFault c 0x0010 m.pc).modMs c fun m => { m with pc := m.pc + 1 }))

/-- The silicon identity (R338): object 0x1001 sub 1 answers the 64 bits of the fuses, and no device state stops the read, SLEEP and SAFE_HALT
included; a write of it is READ_ONLY. -/
def Obligations.IdentityReadsInEveryState : Prop :=
  ∀ (s : State) (r : Req), let u := s.taken r
    let rd : Ask := { service := 1, index := 0x1001, sub := 1 }
    (s.responds = true → (s.arrives r).1 = true → r.ahead < (s.arrives r).2.queueLimit → (s.queuedOne r).keptFor r rd = none → r.badHeader = false →
      (s.queuedOne r).levelOk r rd = true → u.snapshotOf r.sa 0x1001 1 = false →
        exec (.read r 0x1001 1) s = .next (u.answered r rd { data := beBytes 8 s.uid }))
    ∧ (s.Carries r (writeAsk 0x1001 1) → ∀ b, exec (.write r 0x1001 1 b) s
        = .next (u.answered r (writeAsk 0x1001 1) { status := 0x0103 }))

end Statements
end

