-- ==== Sys2Proof/Laws/Host.lean ====
section
/-! SUPPORT. What serving a request does, once, for every request that is carried out. -/

namespace Sys2Proof.Machine

variable {s : State} {r : Req} {q : Ask} {body : State → Answer × State}

/-- A request that is carried out is answered in the state that its frame leaves. -/
theorem State.serve_answer (h : s.Carries r q) : s.serve r q body = (s.arrives r).2.answer r q body := by
  unfold State.serve
  simp only [h.runs, h.consumed, Bool.not_true, Bool.false_eq_true, if_false, if_true]

/-- A request that is carried out: its body acts, and its response is sent and kept. -/
theorem State.serve_carried (h : s.Carries r q) (ha : (body (s.taken r)).1.after = 0) :
    s.serve r q body = (body (s.taken r)).2.answered r q (body (s.taken r)).1 := by
  rw [State.serve_answer h]
  obtain ⟨-, -, h2, h3, h4⟩ := h
  unfold State.answer
  unfold State.taken State.queuedOne at *
  generalize (s.arrives r).2 = u at *
  simp only [ge_iff_le, Nat.not_le.mpr h2, if_false, h3, h4, ne_eq, not_true_eq_false, ha, if_true]
  rfl

/-- A request that is carried out and restarts the engine or changes its mode once answered. -/
theorem State.serve_carried_after (h : s.Carries r q) (ha : (body (s.taken r)).1.after ≠ 0) :
    s.serve r q body = ((body (s.taken r)).2.answered r q (body (s.taken r)).1).request (body (s.taken r)).1.after := by
  rw [State.serve_answer h]
  obtain ⟨-, -, h2, h3, h4⟩ := h
  unfold State.answer
  unfold State.taken State.queuedOne at *
  generalize (s.arrives r).2 = u at *
  simp only [ge_iff_le, Nat.not_le.mpr h2, if_false, h3, h4, ne_eq, not_true_eq_false, ha]
  rfl

/-- A number that passes every check of R506 is stored or carried out. -/
theorem State.writeValue_number {s : State} {cap i j : Nat} {b : List Byte} {d : SubRow} {v : Int} (hd : findSub i j = some d)
    (hl : lengthStatus cap i j b.length = 0) (ht : typeHolds d.ty b = true) (hn : d.ty.numeric = true)
    (hv : decodeNum d.ty.signed b = v) (hc : s.condOk d.cond i j v.toNat = true)
    (hh : ∀ m, d.top = some m → v ≤ m)
    (hr : v.toNat &&& d.reserved = 0) (hb : badReserved i j v.toNat = false)
    (ho : ∀ a z, d.range = some (a, z) → a ≤ v ∧ v ≤ z) (hi : s.inRange i j v = true)
    (hs : (s.stored i j v).consistent i j = true) : s.writeValue cap i j b = s.putNum (s.stored i j v) i j v := by
  unfold State.stored at *
  unfold State.writeValue
  subst hv
  simp only [hd, hl, ht, hn, hc, hi, hs, hr, hb, ne_eq, not_true_eq_false, if_false, if_true, Bool.not_true, Bool.false_eq_true, or_self]
  rw [if_neg, if_neg]
  · rcases e : d.range with _ | ⟨a, z⟩
    · simp
    · have := ho a z e
      simp
      omega
  · rcases e : d.top with _ | m
    · simp
    · have := hh m e
      simp
      omega

/-- A WRITE of a value that is carried out. -/
theorem State.hostWrite_carried {i j : Nat} {b : List Byte} {st : Nat} {t : State} (h : s.Writes r i j)
    (h1 : writeRight i j = 0) (h2 : b.length ≤ 8) (h3 : i ≠ 0x2001)
    (h4 : (s.taken r).writeValue (domainLimit ((s.taken r).levelOf r.src)) i j b = (st, t)) :
    s.hostWrite r i j b = t.answered r (writeAsk i j) { status := st } := by
  have e : State.writeBody r i j b (s.taken r) = ({ status := st }, t) := by
    unfold State.writeBody State.putBody
    simp only [h1, ne_eq, not_true_eq_false, if_false, Nat.not_lt.mpr h2, h3, h4, h.free, Bool.false_eq_true]
  show s.serve r (writeAsk i j) _ = _
  rw [State.serve_carried h.carries (by rw [e]), e]

/-! ### Numbers as bytes -/

theorem ofBytes_foldl (l : List Byte) (a : Nat) :
    l.foldl (fun a b => a * 256 + b.toNat) a = a * 256 ^ l.length + ofBytes l := by
  unfold ofBytes
  induction l generalizing a with
  | nil => simp
  | cons b l ih =>
    simp only [List.foldl_cons, List.length_cons]
    rw [ih (a * 256 + b.toNat), ih (0 * 256 + b.toNat)]
    ring

theorem ofBytes_cons (b : Byte) (l : List Byte) : ofBytes (b :: l) = b.toNat * 256 ^ l.length + ofBytes l := by
  conv_lhs => unfold ofBytes
  rw [List.foldl_cons, ofBytes_foldl]
  ring

@[simp] theorem beBytes_length (n x : Nat) : (beBytes n x).length = n := by
  induction n with
  | zero => rfl
  | succ n ih => simp only [beBytes, List.length_cons, ih]

/-- The bytes of a number spell it, if it fits. -/
theorem ofBytes_beBytes (n x : Nat) : ofBytes (beBytes n x) = x % 256 ^ n := by
  induction n with
  | zero => simp only [beBytes, ofBytes, List.foldl_nil, pow_zero, Nat.mod_one]
  | succ n ih =>
    rw [beBytes, ofBytes_cons, beBytes_length, ih, BitVec.toNat_ofNat, pow_succ 256 n, Nat.mod_mul, show (2 : Nat) ^ 8 = 256 from rfl]
    ring

/-- A number encoded in two's complement is the number it spells. -/
theorem decodeNum_encodeInt (n : Nat) (v : Int) (h1 : -(256 ^ n : Int) ≤ 2 * v) (h2 : 2 * v < (256 ^ n : Int)) :
    decodeNum true (encodeInt n v) = v := by
  have e : (256 : Int) ^ n = ((256 ^ n : Nat) : Int) := by push_cast; rfl
  rw [e] at h1 h2
  unfold decodeNum encodeInt
  simp only [ofBytes_beBytes, beBytes_length]
  generalize (256 ^ n : Nat) = m at *
  have hm : 0 < m := by omega
  rcases lt_or_ge v 0 with hv | hv
  · have : v % (m : Int) = v + m := by
      rw [← Int.add_emod_right]
      exact Int.emod_eq_of_lt (by omega) (by omega)
    rw [this, Nat.mod_eq_of_lt (by omega), if_pos ⟨trivial, by omega⟩]
    omega
  · rw [Int.emod_eq_of_lt hv (by omega), Nat.mod_eq_of_lt (by omega), if_neg (by omega)]
    omega

end Sys2Proof.Machine
end

