-- ==== Sys2Proof/Laws/Memory.lean ====
section
/-! SUPPORT. Laws of the bytes of vector memory: reading after writing, and the canonical form that every write keeps. -/

namespace Sys2Proof.Machine

theorem Memory.wfFrom_mono {m : List Host.Cell} {lo hi : Nat} (h : lo ≤ hi) (hm : Memory.wfFrom hi m = true) :
    Memory.wfFrom lo m = true := by
  cases m with
  | nil => rfl
  | cons e t =>
    obtain ⟨a, w⟩ := e
    simp only [Memory.wfFrom, Bool.and_eq_true, decide_eq_true_eq] at *
    exact ⟨by omega, hm.2⟩

theorem Memory.wfFrom_memSet {m : List Host.Cell} {lo k : Nat} (v : Byte) (hk : lo ≤ k) (hm : Memory.wfFrom lo m = true) :
    Memory.wfFrom lo (memSet m k v) = true := by
  induction m generalizing lo with
  | nil => simp [memSet, Memory.wfFrom, hk]
  | cons e t ih =>
    obtain ⟨a, w⟩ := e
    simp only [Memory.wfFrom, Bool.and_eq_true, decide_eq_true_eq] at hm
    simp only [memSet]
    split
    · rename_i hlt
      simp [Memory.wfFrom, hk, hm.2, Nat.succ_le_of_lt hlt]
    · split
      · rename_i h
        subst h
        simp [Memory.wfFrom, hm.1, hm.2]
      · simp only [Memory.wfFrom, Bool.and_eq_true, decide_eq_true_eq]
        exact ⟨hm.1, ih (by omega) hm.2⟩

/-- One byte written keeps the canonical form. -/
theorem Memory.wf_memSet {m : List Host.Cell} (k : Nat) (v : Byte) (h : Memory.wf m = true) : Memory.wf (memSet m k v) = true :=
  Memory.wfFrom_memSet v (Nat.zero_le k) h

/-- Bytes written keep the canonical form. -/
theorem Memory.wf_memPut (l : List Byte) {m : List Host.Cell} (k : Nat) (h : Memory.wf m = true) : Memory.wf (memPut m k l) = true := by
  induction l generalizing m k with
  | nil => exact h
  | cons b t ih => exact ih (k + 1) (Memory.wf_memSet k b h)

/-- A byte just written is read back. -/
theorem memByte_memSet_self (m : List Host.Cell) (k : Nat) (v : Byte) : memByte (memSet m k v) k = some v := by
  induction m with
  | nil => simp [memSet, memByte]
  | cons e t ih =>
    obtain ⟨a, w⟩ := e
    simp only [memSet]
    split
    · simp [memByte]
    · split <;> simp_all [memByte]

/-- A write leaves every other byte. -/
theorem memByte_memSet_of_ne (m : List Host.Cell) {k j : Nat} (v : Byte) (h : k ≠ j) : memByte (memSet m k v) j = memByte m j := by
  induction m with
  | nil => simp [memSet, memByte, h]
  | cons e t ih =>
    obtain ⟨a, w⟩ := e
    simp only [memSet]
    split
    · simp [memByte, h]
    · split
      · rename_i hk
        subst hk
        simp [memByte, h]
      · simp only [memByte]
        rw [ih]

/-- Bytes written from k on leave every byte outside k to k + their number. -/
theorem memByte_memPut_outside (l : List Byte) (m : List Host.Cell) (k j : Nat) (h : j < k ∨ k + l.length ≤ j) :
    memByte (memPut m k l) j = memByte m j := by
  induction l generalizing m k with
  | nil => rfl
  | cons b t ih =>
    simp only [List.length_cons] at h
    rw [memPut, ih _ _ (by omega), memByte_memSet_of_ne _ _ (by omega)]

/-- A byte within those written is the one written. -/
theorem memByte_memPut_inside (l : List Byte) (m : List Host.Cell) (k i : Nat) (h : i < l.length) :
    memByte (memPut m k l) (k + i) = some l[i] := by
  induction l generalizing m k i with
  | nil => simp at h
  | cons b t ih =>
    cases i with
    | zero => rw [memPut, memByte_memPut_outside _ _ _ _ (by omega)]; exact memByte_memSet_self m k b
    | succ i =>
      simp only [List.length_cons] at h
      rw [memPut, show k + (i + 1) = (k + 1) + i by omega, ih _ _ _ (by omega), List.getElem_cons_succ]

/-- A read of bytes asks nothing but the bytes it reads. -/
theorem memGet_congr {m m' : List Host.Cell} (n k : Nat) (h : ∀ i, i < n → memByte m (k + i) = memByte m' (k + i)) :
    memGet m k n = memGet m' k n := by
  induction n generalizing k with
  | zero => rfl
  | succ n ih =>
    simp only [memGet]
    rw [show memByte m k = memByte m' k from h 0 (by omega),
      ih (k + 1) fun i hi => by have := h (i + 1) (by omega); rwa [show k + (i + 1) = k + 1 + i by omega] at this]

/-- Bytes written are read back. -/
theorem memGet_memPut (l : List Byte) (m : List Host.Cell) (k : Nat) : memGet (memPut m k l) k l.length = some l := by
  have key : ∀ (m : List Host.Cell) (l : List Byte) k, (∀ i (h : i < l.length), memByte m (k + i) = some l[i]) →
      memGet m k l.length = some l := by
    intro m l
    induction l with
    | nil => intro k _; rfl
    | cons b t ih =>
      intro k h
      have h0 := h 0 (by simp)
      have ht := ih (k + 1) fun i hi => by
        have := h (i + 1) (by simpa using hi)
        rw [show k + (i + 1) = k + 1 + i by omega] at this
        simpa using this
      rw [Nat.add_zero] at h0
      simp only [memGet, List.length_cons, h0, ht, List.getElem_cons_zero]
  exact key _ l k fun i h => memByte_memPut_inside l m k i h

/-! ### Lines -/

@[simp] theorem Line.burst_length (l : Line) : l.burst.length = 80 := by
  unfold Line.burst
  simp [List.range_succ, beatPair]

/-- A burst carries its line (R267): a reader finds the words, without their marks, the seal and the metadata that were written. -/
theorem lineOf_burst (l : Line) (h : l.words.length = 8) :
    lineOf l.burst = { l with words := l.words.map fun w => { w with poison := false } } := by
  obtain ⟨words, tag, md⟩ := l
  match words, h with
  | [a, b, c, d, e, f, g, i], _ =>
    have w : ∀ w : Codeword, ({ data := BitVec.ofNat 64 (ofBytes (beBytes 8 w.data.toNat)), check := w.check } : Codeword) =
        { w with poison := false } := by
      intro w
      rw [ofBytes_beBytes, Nat.mod_eq_of_lt (by simpa using w.data.isLt), BitVec.ofNat_toNat]
      simp
    have t : ∀ x : BitVec 32, BitVec.ofNat 32 (ofBytes (beBytes 4 x.toNat)) = x := by
      intro x
      rw [ofBytes_beBytes, Nat.mod_eq_of_lt (by simpa using x.isLt), BitVec.ofNat_toNat]
      simp
    unfold lineOf
    simp only [List.range, List.range.loop, List.map]
    rw [← w a, ← w b, ← w c, ← w d, ← w e, ← w f, ← w g, ← w i]
    conv_rhs => rw [← t tag, ← t md]
    rfl

/-- What a line write stores: one burst. -/
theorem State.writeLine_mem (s : State) (addr cls site : Nat) (words : List Codeword) :
    let md := metaOf cls s.sealEpoch site (poisonBits words)
    (s.writeLine addr cls site words).mem =
      memPut s.mem (lineKey addr 0) ({ words := words, md := md, tag := s.sealOf addr s.sealEpoch md words } : Line).burst := by
  unfold State.writeLine
  have bump : ∀ (u : State) i j, (u.bump i j).mem = u.mem := fun _ _ _ => rfl
  rw [bump]

/-- A line written leaves every byte outside its burst. -/
theorem State.memByte_writeLine (s : State) (addr cls site k : Nat) (words : List Codeword) (h : k / 80 ≠ addr / 64) :
    memByte (s.writeLine addr cls site words).mem k = memByte s.mem k := by
  rw [State.writeLine_mem, memByte_memPut_outside]
  rw [Line.burst_length]
  simp only [lineKey]
  omega

/-- A line written is the line stored there (R269). -/
theorem State.lineAt_writeLine (s : State) (addr cls site : Nat) (words : List Codeword) (h : words.length = 8) :
    let md := metaOf cls s.sealEpoch site (poisonBits words)
    (s.writeLine addr cls site words).lineAt addr =
      some { words := words.map fun w => { w with poison := false }, md := md, tag := s.sealOf addr s.sealEpoch md words } := by
  intro md
  have g := memGet_memPut ({ words := words, md := md, tag := s.sealOf addr s.sealEpoch md words } : Line).burst s.mem (lineKey addr 0)
  rw [Line.burst_length] at g
  unfold State.lineAt
  rw [State.writeLine_mem, g, Option.map_some, lineOf_burst _ h]

/-- A line written leaves every other line. -/
theorem State.lineAt_writeLine_of_ne (s : State) (addr cls site a : Nat) (words : List Codeword) (h : a / 64 ≠ addr / 64) :
    (s.writeLine addr cls site words).lineAt a = s.lineAt a := by
  unfold State.lineAt
  rw [memGet_congr (m' := s.mem) 80 _ fun i hi => s.memByte_writeLine addr cls site _ words (by simp only [lineKey]; omega)]

end Sys2Proof.Machine
end

