-- ==== Sys2Proof/Laws/Table.lean ====
section
/-! SUPPORT. Laws of tables: reading after writing, and the canonical form that every operation keeps. -/

namespace Sys2Proof.Machine

variable {α : Type}

theorem Table.get_insert_self (d x : α) (i : Nat) (t : Table α) : Table.get d (Table.insert t i x) i = x := by
  induction t with
  | nil => simp [Table.insert, Table.get]
  | cons e t ih =>
    obtain ⟨k, v⟩ := e
    simp only [Table.insert]
    split
    · simp [Table.get]
    · split <;> simp_all [Table.get]

theorem Table.get_insert_of_ne (d x : α) {i j : Nat} (h : i ≠ j) (t : Table α) : Table.get d (Table.insert t i x) j = Table.get d t j := by
  induction t with
  | nil => simp [Table.insert, Table.get, h]
  | cons e t ih =>
    obtain ⟨k, v⟩ := e
    simp only [Table.insert]
    split
    · simp [Table.get, h]
    · split <;> simp_all [Table.get]

theorem Table.get_erase_of_ne (d : α) {i j : Nat} (h : i ≠ j) (t : Table α) : Table.get d (Table.erase t i) j = Table.get d t j := by
  induction t with
  | nil => rfl
  | cons e t ih =>
    obtain ⟨k, v⟩ := e
    simp only [Table.erase]
    split <;> simp_all [Table.get]

theorem Table.get_set_of_ne [DecidableEq α] (d x : α) {i j : Nat} (h : i ≠ j) (t : Table α) :
    Table.get d (Table.set d t i x) j = Table.get d t j := by
  unfold Table.set
  split
  · exact Table.get_erase_of_ne d h t
  · exact Table.get_insert_of_ne d x h t

/-! ### Rising keys -/

/-- Keys that rise strictly from a bound. -/
theorem risingKeys_cons {a : Nat × α} {t : Table α} : risingKeys (a :: t) = true ↔ (∀ b ∈ t, a.1 < b.1) ∧ risingKeys t = true := by
  induction t generalizing a with
  | nil => simp [risingKeys]
  | cons b t ih =>
    simp only [risingKeys, Bool.and_eq_true, decide_eq_true_eq, List.mem_cons, forall_eq_or_imp]
    rw [ih]
    constructor
    · rintro ⟨h, hb, ht⟩
      exact ⟨⟨h, fun c hc => Nat.lt_trans h (hb c hc)⟩, hb, ht⟩
    · rintro ⟨⟨h, -⟩, hb, ht⟩
      exact ⟨h, hb, ht⟩

theorem risingKeys_filter (p : Nat × α → Bool) {t : Table α} (h : risingKeys t = true) : risingKeys (t.filter p) = true := by
  induction t with
  | nil => rfl
  | cons a t ih =>
    rw [risingKeys_cons] at h
    rw [List.filter_cons]
    split
    · rw [risingKeys_cons]
      exact ⟨fun b hb => h.1 b (List.mem_of_mem_filter hb), ih h.2⟩
    · exact ih h.2

theorem Table.mem_insert {t : Table α} {i : Nat} {x : α} {b : Nat × α} (h : b ∈ Table.insert t i x) : b = (i, x) ∨ b ∈ t := by
  induction t with
  | nil => simpa [Table.insert] using h
  | cons e t ih =>
    simp only [Table.insert] at h
    split at h
    · simpa using h
    · split at h
      · rcases List.mem_cons.1 h with h | h <;> simp [h]
      · rcases List.mem_cons.1 h with h | h
        · simp [h]
        · rcases ih h with h | h <;> simp [h]

theorem risingKeys_insert {t : Table α} (h : risingKeys t = true) (i : Nat) (x : α) : risingKeys (Table.insert t i x) = true := by
  induction t with
  | nil => rfl
  | cons e t ih =>
    obtain ⟨k, v⟩ := e
    have hc := risingKeys_cons.1 h
    simp only [Table.insert]
    split
    · rename_i hi
      refine risingKeys_cons.2 ⟨?_, h⟩
      intro b hb
      rcases List.mem_cons.1 hb with rfl | hb
      · exact hi
      · exact Nat.lt_trans hi (hc.1 b hb)
    · split
      · rename_i hk
        subst hk
        exact risingKeys_cons.2 hc
      · refine risingKeys_cons.2 ⟨?_, ih hc.2⟩
        intro b hb
        rcases Table.mem_insert hb with rfl | hb
        · simp only at *; omega
        · exact hc.1 b hb

theorem Table.mem_erase {t : Table α} {i : Nat} {b : Nat × α} (h : b ∈ Table.erase t i) : b ∈ t := by
  induction t with
  | nil => exact h
  | cons e t ih =>
    simp only [Table.erase] at h
    split at h
    · simp [h]
    · rcases List.mem_cons.1 h with h | h
      · simp [h]
      · simp [ih h]

theorem risingKeys_erase {t : Table α} (h : risingKeys t = true) (i : Nat) : risingKeys (Table.erase t i) = true := by
  induction t with
  | nil => rfl
  | cons e t ih =>
    have hc := risingKeys_cons.1 h
    simp only [Table.erase]
    split
    · exact hc.2
    · exact risingKeys_cons.2 ⟨fun b hb => hc.1 b (Table.mem_erase hb), ih hc.2⟩

theorem risingKeys_set [DecidableEq α] (d : α) {t : Table α} (h : risingKeys t = true) (i : Nat) (x : α) :
    risingKeys (Table.set d t i x) = true := by
  unfold Table.set
  split
  · exact risingKeys_erase h i
  · exact risingKeys_insert h i x

/-! ### The canonical form -/

theorem Table.wfFrom_iff [DecidableEq α] (d : α) {lo : Nat} {t : Table α} :
    Table.wfFrom d lo t = true ↔ (∀ b ∈ t, lo ≤ b.1 ∧ b.2 ≠ d) ∧ risingKeys t = true := by
  induction t generalizing lo with
  | nil => simp [Table.wfFrom, risingKeys]
  | cons e t ih =>
    obtain ⟨k, v⟩ := e
    simp only [Table.wfFrom, Bool.and_eq_true, decide_eq_true_eq, risingKeys_cons, List.mem_cons, forall_eq_or_imp]
    rw [ih]
    constructor
    · rintro ⟨⟨h1, h2⟩, h3, h4⟩
      exact ⟨⟨⟨h1, h2⟩, fun b hb => ⟨by have := (h3 b hb).1; omega, (h3 b hb).2⟩⟩, fun b hb => (h3 b hb).1, h4⟩
    · rintro ⟨⟨⟨h1, h2⟩, h3⟩, h4, h5⟩
      exact ⟨⟨h1, h2⟩, fun b hb => ⟨h4 b hb, (h3 b hb).2⟩, h5⟩

/-- The canonical form: no entry equals the default, and the keys rise. -/
theorem Table.wf_iff [DecidableEq α] (d : α) {t : Table α} :
    Table.wf d t = true ↔ (∀ b ∈ t, b.2 ≠ d) ∧ risingKeys t = true := by
  simp [Table.wf, Table.wfFrom_iff]

theorem Table.wf_set [DecidableEq α] (d : α) {t : Table α} (h : Table.wf d t = true) (i : Nat) (x : α) :
    Table.wf d (Table.set d t i x) = true := by
  rw [Table.wf_iff] at *
  refine ⟨?_, risingKeys_set d h.2 i x⟩
  intro b hb
  unfold Table.set at hb
  split at hb
  · exact h.1 b (Table.mem_erase hb)
  · rename_i hx
    rcases Table.mem_insert hb with rfl | hb
    · exact hx
    · exact h.1 b hb

theorem Table.wf_filter [DecidableEq α] (d : α) (p : Nat × α → Bool) {t : Table α} (h : Table.wf d t = true) :
    Table.wf d (t.filter p) = true := by
  rw [Table.wf_iff] at *
  exact ⟨fun b hb => h.1 b (List.mem_of_mem_filter hb), risingKeys_filter p h.2⟩

theorem risingKeys_dropWhile (p : Nat × α → Bool) {t : Table α} (h : risingKeys t = true) : risingKeys (t.dropWhile p) = true := by
  induction t with
  | nil => rfl
  | cons a t ih =>
    rw [List.dropWhile_cons]
    split
    · exact ih (risingKeys_cons.1 h).2
    · exact h

theorem Table.wf_dropWhile [DecidableEq α] (d : α) (p : Nat × α → Bool) {t : Table α} (h : Table.wf d t = true) :
    Table.wf d (t.dropWhile p) = true := by
  rw [Table.wf_iff] at *
  exact ⟨fun b hb => h.1 b ((List.dropWhile_sublist p).mem hb), risingKeys_dropWhile p h.2⟩

theorem risingKeys_filterMap {β : Type} (f : Nat × α → Option (Nat × β)) (hf : ∀ e b, f e = some b → b.1 = e.1) {t : Table α}
    (h : risingKeys t = true) : risingKeys (t.filterMap f : Table β) = true := by
  induction t with
  | nil => rfl
  | cons a t ih =>
    have hc := risingKeys_cons.1 h
    rw [List.filterMap_cons]
    split
    · exact ih hc.2
    · rename_i b hb
      refine risingKeys_cons.2 ⟨?_, ih hc.2⟩
      intro c hcm
      obtain ⟨e, he, hec⟩ := List.mem_filterMap.1 hcm
      rw [hf a b hb, hf e c hec]
      exact hc.1 e he

theorem Table.wf_map [DecidableEq α] (d : α) (f : Nat → α → α) {t : Table α} (h : Table.wf d t = true) :
    Table.wf d (Table.map d f t) = true := by
  rw [Table.wf_iff] at *
  constructor
  · intro b hb
    obtain ⟨e, -, he⟩ := List.mem_filterMap.1 hb
    simp only at he
    split at he
    · cases he
    · rename_i hne
      cases he
      exact hne
  · refine risingKeys_filterMap _ ?_ h.2
    intro e b he
    simp only at he
    split at he
    · cases he
    · cases he
      rfl

/-- Reading back what was set. -/
theorem Table.get_set_self [DecidableEq α] (d x : α) (i : Nat) {t : Table α} (h : risingKeys t = true) :
    Table.get d (Table.set d t i x) i = x := by
  unfold Table.set
  split
  · rename_i hx
    subst hx
    induction t with
    | nil => rfl
    | cons e t ih =>
      obtain ⟨k, v⟩ := e
      have hc := risingKeys_cons.1 h
      simp only [Table.erase]
      split
      · rename_i hk
        subst hk
        have hall : ∀ b ∈ t, b.1 ≠ k := fun b hb => Nat.ne_of_gt (hc.1 b hb)
        clear ih h hc
        induction t with
        | nil => rfl
        | cons f t ih =>
          simp only [Table.get, if_neg (hall f (List.mem_cons_self ..))]
          exact ih fun b hb => hall b (List.mem_cons_of_mem _ hb)
      · rename_i hk
        simp only [Table.get, if_neg hk]
        exact ih hc.2
  · exact Table.get_insert_self d x i t

end Sys2Proof.Machine
end

