-- ==== Sys2Proof/Laws/Keeps.lean ====
section
/-! SUPPORT. What every operation keeps: the fuses, the queue, and the canonical form of memory and tables. -/

namespace Sys2Proof.Machine

/-- s keeps what r has of every part outside k, the fuses and the queue, and the canonical form where r has it. -/
structure Keeps (k : Part → Prop) (r s : State) : Prop where
  die : s.grade = r.grade ∧ s.step = r.step ∧ s.uid = r.uid ∧ s.pending = r.pending
  canon : r.canonical = true → s.canonical = true
  parts : ∀ p, ¬k p → p.same r s

/-- The outcome of a step keeps what its next state keeps. -/
def KeepsOut (k : Part → Prop) (r : State) (o : Out) : Prop := ∀ t, o = .next t → Keeps k r t

/-- What an instruction has done keeps what its state keeps. -/
def KeepsDone (k : Part → Prop) (r : State) (d : Done) : Prop :=
  match d with
  | .fault _ | .full => True
  | .next t | .drain t _ | .yields t | .partly t | .custom t | .failed t _ => Keeps k r t

variable {k : Part → Prop} {r s : State}

theorem Part.same_trans {p : Part} {a b c : State} (h : p.same a b) (g : p.same b c) : p.same a c := by
  cases p <;> simp only [Part.same] at * <;> simp only [g, h, and_self]

theorem Keeps.refl : Keeps k r r := ⟨⟨rfl, rfl, rfl, rfl⟩, id, fun p _ => by cases p <;> simp only [Part.same, and_self]⟩

theorem Keeps.trans {t : State} (h : Keeps k r s) (g : Keeps k s t) : Keeps k r t := by
  obtain ⟨⟨a, b, c, d⟩, e, f⟩ := h
  obtain ⟨⟨a', b', c', d'⟩, e', f'⟩ := g
  exact ⟨⟨a'.trans a, b'.trans b, c'.trans c, d'.trans d⟩, fun x => e' (e x), fun p n => Part.same_trans (f p n) (f' p n)⟩

theorem KeepsOut.next (h : Keeps k r s) : KeepsOut k r (.next s) := by
  intro t e
  cases e
  exact h

/-- A state that differs in tables that keep their form. -/
theorem Keeps.of_wf {t : State} (h : Keeps k r s)
    (d : t.grade = s.grade ∧ t.step = s.step ∧ t.uid = s.uid ∧ t.pending = s.pending)
    (c : s.canonical = true → t.canonical = true)
    (g : ∀ p, ¬k p → p.same s t) : Keeps k r t :=
  h.trans ⟨d, c, g⟩

/-! ### Branches and pairs -/

theorem Keeps.ite {c : Prop} [Decidable c] {a b : State} (h : c → Keeps k r a) (g : ¬c → Keeps k r b) : Keeps k r (if c then a else b) := by
  split
  · exact h ‹_›
  · exact g ‹_›

theorem Keeps.dite {c : Prop} [Decidable c] {a : c → State} {b : ¬c → State} (h : ∀ x, Keeps k r (a x)) (g : ∀ x, Keeps k r (b x)) :
    Keeps k r (if x : c then a x else b x) := by
  split
  · exact h ‹_›
  · exact g ‹_›

theorem Keeps.fst_ite {β : Type} {c : Prop} [Decidable c] {a b : State × β} (h : c → Keeps k r a.1) (g : ¬c → Keeps k r b.1) :
    Keeps k r (if c then a else b).1 := by
  split
  · exact h ‹_›
  · exact g ‹_›

theorem Keeps.snd_ite {β : Type} {c : Prop} [Decidable c] {a b : β × State} (h : c → Keeps k r a.2) (g : ¬c → Keeps k r b.2) :
    Keeps k r (if c then a else b).2 := by
  split
  · exact h ‹_›
  · exact g ‹_›

theorem Keeps.fst_dite {β : Type} {c : Prop} [Decidable c] {a : c → State × β} {b : ¬c → State × β} (h : ∀ x, Keeps k r (a x).1)
    (g : ∀ x, Keeps k r (b x).1) : Keeps k r (if x : c then a x else b x).1 := by
  split
  · exact h ‹_›
  · exact g ‹_›

theorem Keeps.out_ite {c : Prop} [Decidable c] {a b : Out} (h : c → KeepsOut k r a) (g : ¬c → KeepsOut k r b) :
    KeepsOut k r (if c then a else b) := by
  split
  · exact h ‹_›
  · exact g ‹_›

theorem Keeps.dout_ite {c : Prop} [Decidable c] {a : c → Out} {b : ¬c → Out} (h : ∀ x, KeepsOut k r (a x)) (g : ∀ x, KeepsOut k r (b x)) :
    KeepsOut k r (if x : c then a x else b x) := by
  split
  · exact h ‹_›
  · exact g ‹_›

theorem Keeps.done_ite {c : Prop} [Decidable c] {a b : Done} (h : c → KeepsDone k r a) (g : ¬c → KeepsDone k r b) :
    KeepsDone k r (if c then a else b) := by
  split
  · exact h ‹_›
  · exact g ‹_›

theorem Keeps.fstOf {β : Type} {v : State × β} {b : β} {P : Prop} (e : v = (s, b)) (h : Keeps k r v.1) (g : Keeps k r s → P) : P := by
  subst e
  exact g h

theorem Keeps.sndOf {β : Type} {v : β × State} {b : β} {P : Prop} (e : v = (b, s)) (h : Keeps k r v.2) (g : Keeps k r s → P) : P := by
  subst e
  exact g h

theorem Keeps.mkFst {β : Type} {b : β} (h : Keeps k r s) : Keeps k r (s, b).1 := h
theorem Keeps.mkSnd {β : Type} {b : β} (h : Keeps k r s) : Keeps k r (b, s).2 := h

/-! ### Records that change no table -/

theorem Keeps.put_sl (klink : k .link) (h : Keeps k r s) {sl} : Keeps k r { s with sl := sl } :=
  h.of_wf ⟨rfl, rfl, rfl, rfl⟩ id fun p hp => by cases p <;> first | exact absurd (by assumption) hp | exact ⟨rfl, rfl, rfl⟩ | exact ⟨rfl, rfl⟩ | exact rfl

theorem Keeps.put_convoy (kconvoy : k .convoy) (h : Keeps k r s) {convoy} : Keeps k r { s with convoy := convoy } :=
  h.of_wf ⟨rfl, rfl, rfl, rfl⟩ id fun p hp => by cases p <;> first | exact absurd (by assumption) hp | exact ⟨rfl, rfl, rfl⟩ | exact ⟨rfl, rfl⟩ | exact rfl

theorem Keeps.put_handler (kfaults : k .faults) (h : Keeps k r s) {handler} : Keeps k r { s with handler := handler } :=
  h.of_wf ⟨rfl, rfl, rfl, rfl⟩ id fun p hp => by cases p <;> first | exact absurd (by assumption) hp | exact ⟨rfl, rfl, rfl⟩ | exact ⟨rfl, rfl⟩ | exact rfl

theorem Keeps.put_inn (kledger : k .ledger) (h : Keeps k r s) {inn} : Keeps k r { s with inn := inn } :=
  h.of_wf ⟨rfl, rfl, rfl, rfl⟩ id fun p hp => by cases p <;> first | exact absurd (by assumption) hp | exact ⟨rfl, rfl, rfl⟩ | exact ⟨rfl, rfl⟩ | exact rfl

theorem Keeps.put_store (kstore : k .store) (h : Keeps k r s) {store} : Keeps k r { s with store := store } :=
  h.of_wf ⟨rfl, rfl, rfl, rfl⟩ id fun p hp => by cases p <;> first | exact absurd (by assumption) hp | exact ⟨rfl, rfl, rfl⟩ | exact ⟨rfl, rfl⟩ | exact rfl

theorem Keeps.put_ev (h : Keeps k r s) {ev} : Keeps k r { s with ev := ev } :=
  h.of_wf ⟨rfl, rfl, rfl, rfl⟩ id fun p hp => by cases p <;> first | exact absurd (by assumption) hp | exact ⟨rfl, rfl, rfl⟩ | exact ⟨rfl, rfl⟩ | exact rfl

theorem Keeps.put_ring (kring : k .ring) (h : Keeps k r s) {ring} : Keeps k r { s with ring := ring } :=
  h.of_wf ⟨rfl, rfl, rfl, rfl⟩ id fun p hp => by cases p <;> first | exact absurd (by assumption) hp | exact ⟨rfl, rfl, rfl⟩ | exact ⟨rfl, rfl⟩ | exact rfl

theorem Keeps.put_pass (kpassport : k .passport) (h : Keeps k r s) {pass} : Keeps k r { s with pass := pass } :=
  h.of_wf ⟨rfl, rfl, rfl, rfl⟩ id fun p hp => by cases p <;> first | exact absurd (by assumption) hp | exact ⟨rfl, rfl, rfl⟩ | exact ⟨rfl, rfl⟩ | exact rfl

theorem Keeps.put_mode (kdevice : k .device) (h : Keeps k r s) {mode} : Keeps k r { s with mode := mode } :=
  h.of_wf ⟨rfl, rfl, rfl, rfl⟩ id fun p hp => by cases p <;> first | exact absurd (by assumption) hp | exact ⟨rfl, rfl, rfl⟩ | exact ⟨rfl, rfl⟩ | exact rfl

theorem Keeps.put_start (kdevice : k .device) (h : Keeps k r s) {start} : Keeps k r { s with start := start } :=
  h.of_wf ⟨rfl, rfl, rfl, rfl⟩ id fun p hp => by cases p <;> first | exact absurd (by assumption) hp | exact ⟨rfl, rfl, rfl⟩ | exact ⟨rfl, rfl⟩ | exact rfl

theorem Keeps.put_freeCtr (h : Keeps k r s) {freeCtr} : Keeps k r { s with freeCtr := freeCtr } :=
  h.of_wf ⟨rfl, rfl, rfl, rfl⟩ id fun p hp => by cases p <;> first | exact absurd (by assumption) hp | exact ⟨rfl, rfl, rfl⟩ | exact ⟨rfl, rfl⟩ | exact rfl

theorem Keeps.put_clk (kclocks : k .clocks) (h : Keeps k r s) {clk} : Keeps k r { s with clk := clk } :=
  h.of_wf ⟨rfl, rfl, rfl, rfl⟩ id fun p hp => by cases p <;> first | exact absurd (by assumption) hp | exact ⟨rfl, rfl, rfl⟩ | exact ⟨rfl, rfl⟩ | exact rfl

theorem Keeps.put_therm (kthermal : k .thermal) (h : Keeps k r s) {therm} : Keeps k r { s with therm := therm } :=
  h.of_wf ⟨rfl, rfl, rfl, rfl⟩ id fun p hp => by cases p <;> first | exact absurd (by assumption) hp | exact ⟨rfl, rfl, rfl⟩ | exact ⟨rfl, rfl⟩ | exact rfl

theorem Keeps.put_reads (kchannels : k .channels) (h : Keeps k r s) {reads} : Keeps k r { s with reads := reads } :=
  h.of_wf ⟨rfl, rfl, rfl, rfl⟩ id fun p hp => by cases p <;> first | exact absurd (by assumption) hp | exact ⟨rfl, rfl, rfl⟩ | exact ⟨rfl, rfl⟩ | exact rfl

theorem Keeps.put_jtag (kjtag : k .jtag) (h : Keeps k r s) {jtag} : Keeps k r { s with jtag := jtag } :=
  h.of_wf ⟨rfl, rfl, rfl, rfl⟩ id fun p hp => by cases p <;> first | exact absurd (by assumption) hp | exact ⟨rfl, rfl, rfl⟩ | exact ⟨rfl, rfl⟩ | exact rfl

theorem Keeps.put_start_store (kdevice : k .device) (kstore : k .store) (h : Keeps k r s) {start store} : Keeps k r { s with start := start, store := store } :=
  h.of_wf ⟨rfl, rfl, rfl, rfl⟩ id fun p hp => by cases p <;> first | exact absurd (by assumption) hp | exact ⟨rfl, rfl, rfl⟩ | exact ⟨rfl, rfl⟩ | exact rfl

theorem Keeps.put_rosec (krosec : k .rosec) (h : Keeps k r s) {rosec} : Keeps k r { s with rosec := rosec } :=
  h.of_wf ⟨rfl, rfl, rfl, rfl⟩ id fun p hp => by cases p <;> first | exact absurd (by assumption) hp | exact ⟨rfl, rfl, rfl⟩ | exact ⟨rfl, rfl⟩ | exact rfl

theorem Keeps.put_time (ktime : k .time) (h : Keeps k r s) {time} : Keeps k r { s with time := time } :=
  h.of_wf ⟨rfl, rfl, rfl, rfl⟩ id fun p hp => by cases p <;> first | exact absurd (by assumption) hp | exact ⟨rfl, rfl, rfl⟩ | exact ⟨rfl, rfl⟩ | exact rfl

theorem Keeps.put_start_pass (kdevice : k .device) (kpassport : k .passport) (h : Keeps k r s) {start pass} : Keeps k r { s with start := start, pass := pass } :=
  h.of_wf ⟨rfl, rfl, rfl, rfl⟩ id fun p hp => by cases p <;> first | exact absurd (by assumption) hp | exact ⟨rfl, rfl, rfl⟩ | exact ⟨rfl, rfl⟩ | exact rfl

theorem Keeps.put_start_handler (kdevice : k .device) (kfaults : k .faults) (h : Keeps k r s) {start handler} : Keeps k r { s with start := start, handler := handler } :=
  h.of_wf ⟨rfl, rfl, rfl, rfl⟩ id fun p hp => by cases p <;> first | exact absurd (by assumption) hp | exact ⟨rfl, rfl, rfl⟩ | exact ⟨rfl, rfl⟩ | exact rfl

theorem Keeps.put_sent (h : Keeps k r s) {sent} : Keeps k r { s with sent := sent } :=
  h.of_wf ⟨rfl, rfl, rfl, rfl⟩ id fun p hp => by cases p <;> first | exact absurd (by assumption) hp | exact ⟨rfl, rfl, rfl⟩ | exact ⟨rfl, rfl⟩ | exact rfl

theorem Keeps.put_mode_pass (kdevice : k .device) (kpassport : k .passport) (h : Keeps k r s) {mode pass} : Keeps k r { s with mode := mode, pass := pass } :=
  h.of_wf ⟨rfl, rfl, rfl, rfl⟩ id fun p hp => by cases p <;> first | exact absurd (by assumption) hp | exact ⟨rfl, rfl, rfl⟩ | exact ⟨rfl, rfl⟩ | exact rfl

theorem Keeps.put_jtag_freeCtr (kjtag : k .jtag) (h : Keeps k r s) {jtag freeCtr} : Keeps k r { s with jtag := jtag, freeCtr := freeCtr } :=
  h.of_wf ⟨rfl, rfl, rfl, rfl⟩ id fun p hp => by cases p <;> first | exact absurd (by assumption) hp | exact ⟨rfl, rfl, rfl⟩ | exact ⟨rfl, rfl⟩ | exact rfl

theorem Keeps.put_clk_convoy (kclocks : k .clocks) (kconvoy : k .convoy) (h : Keeps k r s) {clk convoy} : Keeps k r { s with clk := clk, convoy := convoy } :=
  h.of_wf ⟨rfl, rfl, rfl, rfl⟩ id fun p hp => by cases p <;> first | exact absurd (by assumption) hp | exact ⟨rfl, rfl, rfl⟩ | exact ⟨rfl, rfl⟩ | exact rfl

theorem Keeps.put_start_jtag (kdevice : k .device) (kjtag : k .jtag) (h : Keeps k r s) {start jtag} : Keeps k r { s with start := start, jtag := jtag } :=
  h.of_wf ⟨rfl, rfl, rfl, rfl⟩ id fun p hp => by cases p <;> first | exact absurd (by assumption) hp | exact ⟨rfl, rfl, rfl⟩ | exact ⟨rfl, rfl⟩ | exact rfl

theorem Keeps.put_cal (kcalibration : k .calibration) (h : Keeps k r s) {cal} : Keeps k r { s with cal := cal } :=
  h.of_wf ⟨rfl, rfl, rfl, rfl⟩ id fun p hp => by cases p <;> first | exact absurd (by assumption) hp | exact ⟨rfl, rfl, rfl⟩ | exact ⟨rfl, rfl⟩ | exact rfl

theorem Keeps.put_ring_rosec (kring : k .ring) (krosec : k .rosec) (h : Keeps k r s) {ring rosec} :
    Keeps k r { s with ring := ring, rosec := rosec } :=
  h.of_wf ⟨rfl, rfl, rfl, rfl⟩ id fun p hp => by cases p <;> first | exact absurd (by assumption) hp | exact ⟨rfl, rfl, rfl⟩ | exact ⟨rfl, rfl⟩ | exact rfl

theorem Keeps.put_mode_ring_rosec (kdevice : k .device) (kring : k .ring) (krosec : k .rosec) (h : Keeps k r s) {mode ring rosec} :
    Keeps k r { s with mode := mode, ring := ring, rosec := rosec } :=
  h.of_wf ⟨rfl, rfl, rfl, rfl⟩ id fun p hp => by cases p <;> first | exact absurd (by assumption) hp | exact ⟨rfl, rfl, rfl⟩ | exact ⟨rfl, rfl⟩ | exact rfl


theorem Keeps.each {α : Type} {l : List α} {f : State → α → State} (h : Keeps k r s) (g : ∀ s a, Keeps k r s → Keeps k r (f s a)) :
    Keeps k r (s.each l f) := by
  unfold State.each
  induction l generalizing s with
  | nil => exact h
  | cons a l ih => exact ih (g s a h)

theorem Keeps.foldl {α : Type} {l : List α} {f : State → α → State} (h : Keeps k r s) (g : ∀ s a, Keeps k r s → Keeps k r (f s a)) :
    Keeps k r (l.foldl f s) := Keeps.each h g

theorem Keeps.foldlFst {α β : Type} {l : List α} {f : State × β → α → State × β} {v : State × β} (h : Keeps k r v.1)
    (g : ∀ s a, Keeps k r s.1 → Keeps k r (f s a).1) : Keeps k r (l.foldl f v).1 := by
  induction l generalizing v with
  | nil => exact h
  | cons a l ih => exact ih (g v a h)

theorem Keeps.foldlSnd {α β : Type} {l : List α} {f : β × State → α → β × State} {v : β × State} (h : Keeps k r v.2)
    (g : ∀ s a, Keeps k r s.2 → Keeps k r (f s a).2) : Keeps k r (l.foldl f v).2 := by
  induction l generalizing v with
  | nil => exact h
  | cons a l ih => exact ih (g v a h)

/-! ### Tables set -/

theorem State.setSite_keeps (kp : k .sites) (h : Keeps k r s) {n : Nat} {x : Site} : Keeps k r (s.setSite n x) := by
  refine h.of_wf ⟨rfl, rfl, rfl, rfl⟩ (fun c => ?_)
    fun p hp => by cases p <;> first | exact absurd (by assumption) hp | exact ⟨rfl, rfl, rfl⟩ | exact ⟨rfl, rfl⟩ | exact rfl
  simp only [State.setSite, State.canonical, Bool.and_eq_true] at *
  simp only [c, and_self, and_true, true_and]
  exact Table.wf_set _ (by simp only [c]) n x

theorem State.setPin_keeps (kp : k .pins) (h : Keeps k r s) {n : Nat} {x : Pin} : Keeps k r (s.setPin n x) := by
  refine h.of_wf ⟨rfl, rfl, rfl, rfl⟩ (fun c => ?_)
    fun p hp => by cases p <;> first | exact absurd (by assumption) hp | exact ⟨rfl, rfl, rfl⟩ | exact ⟨rfl, rfl⟩ | exact rfl
  simp only [State.setPin, State.canonical, Bool.and_eq_true] at *
  simp only [c, and_self, and_true, true_and]
  exact Table.wf_set _ (by simp only [c]) n x

theorem State.setCtx_keeps (kp : k .contexts) (h : Keeps k r s) {n : Nat} {x : Ctx} : Keeps k r (s.setCtx n x) := by
  refine h.of_wf ⟨rfl, rfl, rfl, rfl⟩ (fun c => ?_)
    fun p hp => by cases p <;> first | exact absurd (by assumption) hp | exact ⟨rfl, rfl, rfl⟩ | exact ⟨rfl, rfl⟩ | exact rfl
  simp only [State.setCtx, State.canonical, Bool.and_eq_true] at *
  simp only [c, and_self, and_true, true_and]
  exact Table.wf_set _ (by simp only [c]) n x

theorem State.setEntry_keeps (kp : k .ledger) (h : Keeps k r s) {n : Nat} {x : Entry} : Keeps k r (s.setEntry n x) := by
  refine h.of_wf ⟨rfl, rfl, rfl, rfl⟩ (fun c => ?_)
    fun p hp => by cases p <;> first | exact absurd (by assumption) hp | exact ⟨rfl, rfl, rfl⟩ | exact ⟨rfl, rfl⟩ | exact rfl
  simp only [State.setEntry, State.canonical, Bool.and_eq_true] at *
  simp only [c, and_self, and_true, true_and]
  exact Table.wf_set _ (by simp only [c]) n x

theorem State.setCaravan_keeps (kp : k .ledger) (h : Keeps k r s) {n : Nat} {x : Caravan} : Keeps k r (s.setCaravan n x) := by
  refine h.of_wf ⟨rfl, rfl, rfl, rfl⟩ (fun c => ?_)
    fun p hp => by cases p <;> first | exact absurd (by assumption) hp | exact ⟨rfl, rfl, rfl⟩ | exact ⟨rfl, rfl⟩ | exact rfl
  simp only [State.setCaravan, State.canonical, Bool.and_eq_true] at *
  simp only [c, and_self, and_true, true_and]
  exact Table.wf_set _ (by simp only [c]) n x

theorem State.setCap_keeps (kp : k .acquisition) (h : Keeps k r s) {n : Nat} {x : Capture} : Keeps k r (s.setCap n x) := by
  refine h.of_wf ⟨rfl, rfl, rfl, rfl⟩ (fun c => ?_)
    fun p hp => by cases p <;> first | exact absurd (by assumption) hp | exact ⟨rfl, rfl, rfl⟩ | exact ⟨rfl, rfl⟩ | exact rfl
  simp only [State.setCap, State.canonical, Bool.and_eq_true] at *
  simp only [c, and_self, and_true, true_and]
  exact Table.wf_set _ (by simp only [c]) n x

theorem State.setRec_keeps (kp : k .acquisition) (h : Keeps k r s) {n : Nat} {x : Rec} : Keeps k r (s.setRec n x) := by
  refine h.of_wf ⟨rfl, rfl, rfl, rfl⟩ (fun c => ?_)
    fun p hp => by cases p <;> first | exact absurd (by assumption) hp | exact ⟨rfl, rfl, rfl⟩ | exact ⟨rfl, rfl⟩ | exact rfl
  simp only [State.setRec, State.canonical, Bool.and_eq_true] at *
  simp only [c, and_self, and_true, true_and]
  exact Table.wf_set _ (by simp only [c]) n x

theorem State.setTu_keeps (kp : k .acquisition) (h : Keeps k r s) {n : Nat} {x : TrigUnit} : Keeps k r (s.setTu n x) := by
  refine h.of_wf ⟨rfl, rfl, rfl, rfl⟩ (fun c => ?_)
    fun p hp => by cases p <;> first | exact absurd (by assumption) hp | exact ⟨rfl, rfl, rfl⟩ | exact ⟨rfl, rfl⟩ | exact rfl
  simp only [State.setTu, State.canonical, Bool.and_eq_true] at *
  simp only [c, and_self, and_true, true_and]
  exact Table.wf_set _ (by simp only [c]) n x

theorem State.setDef_keeps (kp : k .measure) (h : Keeps k r s) {n : Nat} {x : MeasDef} : Keeps k r (s.setDef n x) := by
  refine h.of_wf ⟨rfl, rfl, rfl, rfl⟩ (fun c => ?_)
    fun p hp => by cases p <;> first | exact absurd (by assumption) hp | exact ⟨rfl, rfl, rfl⟩ | exact ⟨rfl, rfl⟩ | exact rfl
  simp only [State.setDef, State.canonical, Bool.and_eq_true] at *
  simp only [c, and_self, and_true, true_and]
  exact Table.wf_set _ (by simp only [c]) n x

theorem State.setEvt_keeps (kp : k .pins) (h : Keeps k r s) {n : Nat} {x : Evt} : Keeps k r (s.setEvt n x) := by
  refine h.of_wf ⟨rfl, rfl, rfl, rfl⟩ (fun c => ?_)
    fun p hp => by cases p <;> first | exact absurd (by assumption) hp | exact ⟨rfl, rfl, rfl⟩ | exact ⟨rfl, rfl⟩ | exact rfl
  simp only [State.setEvt, State.canonical, Bool.and_eq_true] at *
  simp only [c, and_self, and_true, true_and]
  exact Table.wf_set _ (by simp only [c]) n x

theorem State.setChan_keeps (kp : k .channels) (h : Keeps k r s) {n : Nat} {x : Channel} : Keeps k r (s.setChan n x) := by
  refine h.of_wf ⟨rfl, rfl, rfl, rfl⟩ (fun c => ?_)
    fun p hp => by cases p <;> first | exact absurd (by assumption) hp | exact ⟨rfl, rfl, rfl⟩ | exact ⟨rfl, rfl⟩ | exact rfl
  simp only [State.setChan, State.canonical, Bool.and_eq_true] at *
  simp only [c, and_self, and_true, true_and]
  exact Table.wf_set _ (by simp only [c]) n x


theorem State.setReg_keeps (h : Keeps k r s) {i j : Nat} {v : Int} : Keeps k r (s.setReg i j v) := by
  refine h.of_wf ⟨rfl, rfl, rfl, rfl⟩ (fun c => ?_)
    fun p hp => by cases p <;> first | exact absurd (by assumption) hp | exact ⟨rfl, rfl, rfl⟩ | exact ⟨rfl, rfl⟩ | exact rfl
  simp only [State.setReg, State.canonical, Bool.and_eq_true] at *
  simp only [c, and_true, true_and]
  exact risingKeys_set _ (by simp only [c]) _ v

theorem State.setOct_keeps (h : Keeps k r s) {i j : Nat} {v : List Byte} : Keeps k r (s.setOct i j v) := by
  refine h.of_wf ⟨rfl, rfl, rfl, rfl⟩ (fun c => ?_)
    fun p hp => by cases p <;> first | exact absurd (by assumption) hp | exact ⟨rfl, rfl, rfl⟩ | exact ⟨rfl, rfl⟩ | exact rfl
  simp only [State.setOct, State.canonical, Bool.and_eq_true] at *
  simp only [c, and_self, and_true, true_and]
  exact risingKeys_set _ (by simp only [c]) _ v

theorem State.setForce_keeps (h : Keeps k r s) {i j : Nat} {v : Int} : Keeps k r (s.setForce i j v) := by
  unfold State.setForce
  refine Keeps.ite (fun _ => ?_) fun _ => State.setReg_keeps h
  refine h.of_wf ⟨rfl, rfl, rfl, rfl⟩ (fun c => ?_)
    fun p hp => by cases p <;> first | exact absurd (by assumption) hp | exact ⟨rfl, rfl, rfl⟩ | exact ⟨rfl, rfl⟩ | exact rfl
  simp only [State.canonical, Bool.and_eq_true] at *
  simp only [c, and_self, true_and]
  exact Table.wf_set _ (by simp only [c]) _ _

theorem State.keepForce_keeps (h : Keeps k r s) {i j : Nat} {v : Int} : Keeps k r (s.keepForce i j v) := by
  unfold State.keepForce
  refine Keeps.ite (fun _ => ?_) fun _ => h
  refine h.of_wf ⟨rfl, rfl, rfl, rfl⟩ (fun c => ?_)
    fun p hp => by cases p <;> first | exact absurd (by assumption) hp | exact ⟨rfl, rfl, rfl⟩ | exact ⟨rfl, rfl⟩ | exact rfl
  simp only [State.canonical, Bool.and_eq_true] at *
  simp only [c, and_self, true_and]
  exact Table.wf_set _ (by simp only [c]) _ _

theorem State.clearObj_keeps (h : Keeps k r s) {i : Nat} : Keeps k r (s.clearObj i) := by
  refine h.of_wf ⟨rfl, rfl, rfl, rfl⟩ (fun c => ?_)
    fun p hp => by cases p <;> first | exact absurd (by assumption) hp | exact ⟨rfl, rfl, rfl⟩ | exact ⟨rfl, rfl⟩ | exact rfl
  simp only [State.clearObj, State.canonical, Bool.and_eq_true] at *
  simp only [c, risingKeys_filter, and_self]

end Sys2Proof.Machine
end

