-- ==== Sys2Proof/Laws/KeepsUnits.lean ====
section
/-! SUPPORT. What the operations of a group keep: the shared operations, lines and links, comparators, Ledger, acquisition and verdicts. One lemma for each operation, over `Keeps`. -/

namespace Sys2Proof.Machine

variable {k : Part → Prop}

theorem State.modSite_keeps {r s1 : State} {a2 a3} (kS : k .sites) (h1 : Keeps k r s1) : Keeps k r (@State.modSite s1 a2 a3) := by
  unfold State.modSite
  exact State.setSite_keeps kS (by assumption)

theorem State.count_keeps {r s1 : State} {a2 a3 a4} (h1 : Keeps k r s1) : Keeps k r (@State.count s1 a2 a3 a4) := by
  unfold State.count
  exact State.setReg_keeps (by assumption)

theorem State.bump_keeps {r s1 : State} {a2 a3} (h1 : Keeps k r s1) : Keeps k r (@State.bump s1 a2 a3) := by
  unfold State.bump
  exact State.count_keeps (by assumption)

theorem State.raiseWith_keeps {r s1 : State} {a2 a3} (h1 : Keeps k r s1) : Keeps k r (@State.raiseWith s1 a2 a3) := by
  unfold State.raiseWith
  exact Keeps.put_ev (by assumption)

theorem State.raise_keeps {r s1 : State} {a2} (h1 : Keeps k r s1) : Keeps k r (@State.raise s1 a2) := by
  unfold State.raise
  exact State.raiseWith_keeps (by assumption)

theorem State.modPin_keeps {r s1 : State} {a2 a3} (kP : k .pins) (h1 : Keeps k r s1) : Keeps k r (@State.modPin s1 a2 a3) := by
  unfold State.modPin
  exact State.setPin_keeps kP (by assumption)

theorem State.enter_keeps {r s1 : State} {a2 a3} (kS : k .sites) (h1 : Keeps k r s1) : Keeps k r (@State.enter s1 a2 a3) := by
  unfold State.enter
  exact State.raiseWith_keeps (State.modSite_keeps kS (by assumption))

theorem State.setNat_keeps {r s1 : State} {a2 a3 a4} (h1 : Keeps k r s1) : Keeps k r (@State.setNat s1 a2 a3 a4) := by
  unfold State.setNat
  exact State.setReg_keeps (by assumption)

theorem State.peak_keeps {r s1 : State} {a2 a3 a4} (h1 : Keeps k r s1) : Keeps k r (@State.peak s1 a2 a3 a4) := by
  unfold State.peak
  refine Keeps.ite (fun _ => ?_) fun _ => ?_
  · exact State.setNat_keeps (by assumption)
  assumption

theorem State.free_keeps {r s1 : State} (h1 : Keeps k r s1) : Keeps k r (@State.free s1).2 := by
  unfold State.free
  exact Keeps.mkSnd (Keeps.put_freeCtr (by assumption))

theorem State.crossed_keeps {r s1 : State} {a2 a3 a4} (h1 : Keeps k r s1) : Keeps k r (@State.crossed s1 a2 a3 a4) := by
  unfold State.crossed
  refine Keeps.ite (fun _ => ?_) fun _ => ?_
  · refine State.count_keeps ?_
    refine State.free_keeps ?_
    refine State.peak_keeps ?_
    refine Keeps.ite (fun _ => ?_) fun _ => ?_
    · assumption
    exact State.free_keeps (by assumption)
  refine State.peak_keeps ?_
  refine Keeps.ite (fun _ => ?_) fun _ => ?_
  · assumption
  exact State.free_keeps (by assumption)

theorem State.send_keeps {r s1 : State} {a2} (h1 : Keeps k r s1) : Keeps k r (@State.send s1 a2) := by
  unfold State.send
  exact Keeps.put_sent (by assumption)

theorem State.critical_keeps {r s1 : State} {a2} (kD : k .device) (kF : k .faults) (h1 : Keeps k r s1) : Keeps k r (@State.critical s1 a2) := by
  unfold State.critical
  refine Keeps.put_start_handler kD kF ?_
  refine Keeps.foldl ?_ fun _ _ _ => ?_
  · exact State.raiseWith_keeps (by assumption)
  exact State.raiseWith_keeps (by assumption)

theorem State.takeFault_keeps {r s1 : State} {a2} (kF : k .faults) (h1 : Keeps k r s1) : Keeps k r (@State.takeFault s1 a2) := by
  unfold State.takeFault
  refine Keeps.ite (fun _ => ?_) fun _ => ?_
  · exact Keeps.put_handler kF (Keeps.put_handler kF (by assumption))
  exact Keeps.put_handler kF (Keeps.put_handler kF (by assumption))

theorem State.submitFault_keeps {r s1 : State} {a2} (kD : k .device) (kF : k .faults) (h1 : Keeps k r s1) : Keeps k r (@State.submitFault s1 a2) := by
  unfold State.submitFault
  refine Keeps.ite (fun _ => ?_) fun _ => ?_
  · exact State.takeFault_keeps kF (by assumption)
  refine Keeps.ite (fun _ => ?_) fun _ => ?_
  · exact State.critical_keeps kD kF (State.raiseWith_keeps (by assumption))
  exact State.peak_keeps (Keeps.put_handler kF (by assumption))

theorem State.nextFault_keeps {r s1 : State} (kF : k .faults) (h1 : Keeps k r s1) : Keeps k r (@State.nextFault s1) := by
  unfold State.nextFault
  try dsimp only
  split
  · exact Keeps.put_handler kF (by assumption)
  exact State.takeFault_keeps kF (Keeps.put_handler kF (Keeps.put_handler kF (by assumption)))

theorem State.dropFault_keeps {r s1 : State} {a2} (kF : k .faults) (h1 : Keeps k r s1) : Keeps k r (@State.dropFault s1 a2) := by
  unfold State.dropFault
  try dsimp only
  split
  · refine Keeps.ite (fun _ => ?_) fun _ => ?_
    · exact Keeps.put_handler kF (by assumption)
    exact State.nextFault_keeps kF (Keeps.put_handler kF (by assumption))
  exact Keeps.put_handler kF (by assumption)

theorem State.climb_keeps {r s1 : State} {a2} (kD : k .device) (kF : k .faults) (h1 : Keeps k r s1) : Keeps k r (@State.climb s1 a2) := by
  unfold State.climb
  refine Keeps.ite (fun _ => ?_) fun _ => ?_
  · exact State.critical_keeps kD kF (State.raiseWith_keeps (State.bump_keeps (State.dropFault_keeps kF (by assumption))))
  exact State.submitFault_keeps kD kF (State.raiseWith_keeps (State.bump_keeps (State.dropFault_keeps kF (by assumption))))

theorem State.handFault_keeps {r s1 : State} {a2} (kD : k .device) (kF : k .faults) (h1 : Keeps k r s1) : Keeps k r (@State.handFault s1 a2) := by
  unfold State.handFault
  refine Keeps.ite (fun _ => ?_) fun _ => ?_
  · exact State.critical_keeps kD kF (by assumption)
  split
  · split
    · exact State.climb_keeps kD kF (by assumption)
    exact State.bump_keeps (by assumption)
  exact State.submitFault_keeps kD kF (by assumption)

theorem State.raiseCritical_keeps {r s1 : State} {a2} (h1 : Keeps k r s1) : Keeps k r (@State.raiseCritical s1 a2) := by
  unfold State.raiseCritical
  exact Keeps.put_ev (State.raise_keeps (by assumption))

theorem State.modCtx_keeps {r s1 : State} {a2 a3} (kX : k .contexts) (h1 : Keeps k r s1) : Keeps k r (@State.modCtx s1 a2 a3) := by
  unfold State.modCtx
  exact State.setCtx_keeps kX (by assumption)

theorem State.ownFrame_keeps {r s1 : State} (kR : k .ring) (h1 : Keeps k r s1) : Keeps k r (@State.ownFrame s1) := by
  unfold State.ownFrame
  exact Keeps.put_ring kR (by assumption)

theorem State.originate_keeps {r s1 : State} {a2 a3 a4 a5} (kR : k .ring) (h1 : Keeps k r s1) : Keeps k r (@State.originate s1 a2 a3 a4 a5) := by
  unfold State.originate
  refine Keeps.ite (fun _ => ?_) fun _ => ?_
  · assumption
  exact State.send_keeps (State.ownFrame_keeps kR (by assumption))

theorem State.reportFault_keeps {r s1 : State} {a2} (kD : k .device) (kF : k .faults) (h1 : Keeps k r s1) : Keeps k r (@State.reportFault s1 a2) := by
  unfold State.reportFault
  exact State.handFault_keeps kD kF (State.raiseWith_keeps (by assumption))

theorem State.faultEnds_keeps {r s1 : State} {a2 a3} (kF : k .faults) (h1 : Keeps k r s1) : Keeps k r (@State.faultEnds s1 a2 a3) := by
  unfold State.faultEnds
  refine Keeps.put_handler kF ?_
  refine Keeps.ite (fun _ => ?_) fun _ => ?_
  · exact State.raiseWith_keeps (State.peak_keeps (State.bump_keeps (State.raiseWith_keeps (by assumption))))
  exact State.peak_keeps (State.bump_keeps (State.raiseWith_keeps (by assumption)))

theorem State.recovered_keeps {r s1 : State} {a2 a3} (kF : k .faults) (h1 : Keeps k r s1) : Keeps k r (@State.recovered s1 a2 a3) := by
  unfold State.recovered
  split
  · exact State.faultEnds_keeps kF (by assumption)
  split
  · refine Keeps.ite (fun _ => ?_) fun _ => ?_
    · assumption
    exact State.faultEnds_keeps kF (State.raiseWith_keeps (State.dropFault_keeps kF (by assumption)))
  assumption

theorem State.raiseRanges_keeps {r s1 : State} {a2 a3 a4 a5 a6} (h1 : Keeps k r s1) : Keeps k r (@State.raiseRanges s1 a2 a3 a4 a5 a6) := by
  unfold State.raiseRanges
  exact State.raiseWith_keeps (by assumption)

theorem State.markRow_keeps {r s1 : State} {a2 a3} (kN : k .channels) (h1 : Keeps k r s1) : Keeps k r (@State.markRow s1 a2 a3) := by
  unfold State.markRow
  refine Keeps.ite (fun _ => ?_) fun _ => ?_
  · refine Keeps.ite (fun _ => ?_) fun _ => ?_
    · exact State.setChan_keeps kN (by assumption)
    exact State.setChan_keeps kN (by assumption)
  refine Keeps.ite (fun _ => ?_) fun _ => ?_
  · exact State.setChan_keeps kN (State.free_keeps (by assumption))
  exact State.free_keeps (by assumption)

theorem State.command_keeps {r s1 : State} {a2 a3 a4} (kN : k .channels) (h1 : Keeps k r s1) : Keeps k r (@State.command s1 a2 a3 a4) := by
  unfold State.command
  exact State.setChan_keeps kN (by assumption)

theorem State.precharge_keeps {r s1 : State} {a2 a3} (kN : k .channels) (h1 : Keeps k r s1) : Keeps k r (@State.precharge s1 a2 a3) := by
  unfold State.precharge
  refine State.count_keeps ?_
  refine State.count_keeps ?_
  refine State.setChan_keeps kN ?_
  refine Keeps.each ?_ fun _ _ _ => ?_
  · assumption
  exact State.command_keeps kN (by assumption)

theorem State.activate_keeps {r s1 : State} {a2} (kN : k .channels) (h1 : Keeps k r s1) : Keeps k r (@State.activate s1 a2) := by
  unfold State.activate
  refine Keeps.ite (fun _ => ?_) fun _ => ?_
  · assumption
  exact State.markRow_keeps kN (State.setChan_keeps kN (State.command_keeps kN (State.precharge_keeps kN (by assumption))))

theorem State.touch_keeps {r s1 : State} {a2} (kN : k .channels) (h1 : Keeps k r s1) : Keeps k r (@State.touch s1 a2) := by
  unfold State.touch
  exact State.command_keeps kN (State.activate_keeps kN (by assumption))

theorem State.fence_keeps {r s1 : State} {a2} (kN : k .channels) (h1 : Keeps k r s1) : Keeps k r (@State.fence s1 a2) := by
  unfold State.fence
  refine State.setChan_keeps kN ?_
  refine Keeps.ite (fun _ => ?_) fun _ => ?_
  · exact State.raiseCritical_keeps (by assumption)
  exact State.raise_keeps (by assumption)

theorem State.memClimb_keeps {r s1 : State} {a2 a3} (kD : k .device) (kN : k .channels) (kF : k .faults) (h1 : Keeps k r s1) : Keeps k r (@State.memClimb s1 a2 a3) := by
  unfold State.memClimb
  refine State.climb_keeps kD kF ?_
  refine Keeps.ite (fun _ => ?_) fun _ => ?_
  · exact State.fence_keeps kN (State.setChan_keeps kN (by assumption))
  exact State.setChan_keeps kN (by assumption)

theorem State.memError_keeps {r s1 : State} {a2 a3} (kD : k .device) (kN : k .channels) (kF : k .faults) (h1 : Keeps k r s1) : Keeps k r (@State.memError s1 a2 a3) := by
  unfold State.memError
  refine Keeps.ite (fun _ => ?_) fun _ => ?_
  · assumption
  refine Keeps.ite (fun _ => ?_) fun _ => ?_
  · refine Keeps.ite (fun _ => ?_) fun _ => ?_
    · exact State.memClimb_keeps kD kN kF (by assumption)
    refine Keeps.ite (fun _ => ?_) fun _ => ?_
    · exact State.memClimb_keeps kD kN kF (by assumption)
    assumption
  refine Keeps.ite (fun _ => ?_) fun _ => ?_
  · exact State.handFault_keeps kD kF (State.setChan_keeps kN (by assumption))
  assumption

theorem State.badLine_keeps {r s1 : State} {a2} (kD : k .device) (kN : k .channels) (kF : k .faults) (h1 : Keeps k r s1) : Keeps k r (@State.badLine s1 a2) := by
  unfold State.badLine
  refine Keeps.ite (fun _ => ?_) fun _ => ?_
  · refine Keeps.ite (fun _ => ?_) fun _ => ?_
    · exact State.memError_keeps kD kN kF (by assumption)
    exact State.setChan_keeps kN (by assumption)
  assumption

theorem State.poisonLine_keeps {r s1 : State} {a2} (h1 : Keeps k r s1) : Keeps k r (@State.poisonLine s1 a2).2 := by
  unfold State.poisonLine
  split
  · exact Keeps.mkSnd (by assumption)
  exact Keeps.mkSnd (Keeps.put_freeCtr (by assumption))

theorem State.readLine_keeps {r s1 : State} {a2 a3} (kD : k .device) (kN : k .channels) (kF : k .faults) (h1 : Keeps k r s1) : Keeps k r (@State.readLine s1 a2 a3).2 := by
  unfold State.readLine
  refine Keeps.snd_ite (fun _ => ?_) fun _ => ?_
  · exact Keeps.mkSnd (State.bump_keeps (State.poisonLine_keeps (by assumption)))
  refine Keeps.snd_ite (fun _ => ?_) fun _ => ?_
  · exact State.poisonLine_keeps (by assumption)
  try dsimp only
  split
  · refine Keeps.mkSnd ?_
    refine Keeps.ite (fun _ => ?_) fun _ => ?_
    · exact State.raise_keeps (State.count_keeps (State.touch_keeps kN (by assumption)))
    exact State.touch_keeps kN (by assumption)
  try dsimp only
  split
  · refine Keeps.mkSnd ?_
    refine State.bump_keeps ?_
    refine Keeps.ite (fun _ => ?_) fun _ => ?_
    · refine State.raise_keeps ?_
      refine State.count_keeps ?_
      refine Keeps.ite (fun _ => ?_) fun _ => ?_
      · exact State.raise_keeps (State.count_keeps (State.touch_keeps kN (by assumption)))
      exact State.touch_keeps kN (by assumption)
    refine Keeps.ite (fun _ => ?_) fun _ => ?_
    · exact State.raise_keeps (State.count_keeps (State.touch_keeps kN (by assumption)))
    exact State.touch_keeps kN (by assumption)
  refine Keeps.snd_ite (fun _ => ?_) fun _ => ?_
  · refine Keeps.mkSnd ?_
    refine State.raise_keeps ?_
    refine State.bump_keeps ?_
    refine State.setNat_keeps ?_
    refine State.badLine_keeps kD kN kF ?_
    refine State.poisonLine_keeps ?_
    refine Keeps.ite (fun _ => ?_) fun _ => ?_
    · refine State.raise_keeps ?_
      refine State.count_keeps ?_
      refine Keeps.ite (fun _ => ?_) fun _ => ?_
      · exact State.raise_keeps (State.count_keeps (State.touch_keeps kN (by assumption)))
      exact State.touch_keeps kN (by assumption)
    refine Keeps.ite (fun _ => ?_) fun _ => ?_
    · exact State.raise_keeps (State.count_keeps (State.touch_keeps kN (by assumption)))
    exact State.touch_keeps kN (by assumption)
  refine Keeps.mkSnd ?_
  refine State.handFault_keeps kD kF ?_
  refine State.raise_keeps ?_
  refine State.bump_keeps ?_
  refine State.setNat_keeps ?_
  refine State.badLine_keeps kD kN kF ?_
  refine State.poisonLine_keeps ?_
  refine Keeps.ite (fun _ => ?_) fun _ => ?_
  · refine State.raise_keeps ?_
    refine State.count_keeps ?_
    refine Keeps.ite (fun _ => ?_) fun _ => ?_
    · exact State.raise_keeps (State.count_keeps (State.touch_keeps kN (by assumption)))
    exact State.touch_keeps kN (by assumption)
  refine Keeps.ite (fun _ => ?_) fun _ => ?_
  · exact State.raise_keeps (State.count_keeps (State.touch_keeps kN (by assumption)))
  exact State.touch_keeps kN (by assumption)

theorem State.writeLine_keeps {r s1 : State} {a2 a3 a4 a5} (kY : k .memory) (h1 : Keeps k r s1) : Keeps k r (@State.writeLine s1 a2 a3 a4 a5) := by
  unfold State.writeLine
  refine State.bump_keeps (h1.of_wf ⟨rfl, rfl, rfl, rfl⟩ (fun c => ?_)
    (fun p hp => by cases p <;> first | exact absurd (by assumption) hp | exact ⟨rfl, rfl, rfl⟩ | exact ⟨rfl, rfl⟩ | exact rfl))
  simp only [State.canonical, Bool.and_eq_true] at *
  have m : Memory.wf s1.mem = true := by simp only [c]
  simp only [c, and_true]
  exact Memory.wf_memPut _ _ m

theorem State.mergeLine_keeps {r s1 : State} {a2 a3 a4 a5 a6} (kD : k .device) (kY : k .memory) (kN : k .channels) (kF : k .faults) (h1 : Keeps k r s1) : Keeps k r (@State.mergeLine s1 a2 a3 a4 a5 a6) := by
  unfold State.mergeLine
  refine Keeps.ite (fun _ => ?_) fun _ => ?_
  · exact State.writeLine_keeps kY (State.readLine_keeps kD kN kF (by assumption))
  exact State.readLine_keeps kD kN kF (by assumption)

theorem State.issueWrite_keeps {r s1 : State} {a2} (kN : k .channels) (h1 : Keeps k r s1) : Keeps k r (@State.issueWrite s1 a2) := by
  unfold State.issueWrite
  try dsimp only
  split
  · assumption
  exact State.touch_keeps kN (State.setChan_keeps kN (by assumption))

theorem State.issueWrites_keeps {r s1 : State} {a2} (kN : k .channels) (h1 : Keeps k r s1) : Keeps k r (@State.issueWrites s1 a2) := by
  unfold State.issueWrites
  refine Keeps.each ?_ fun _ _ _ => ?_
  · assumption
  exact State.issueWrite_keeps kN (by assumption)

theorem State.fillQueues_keeps {r s1 : State} {a2 a3} (kN : k .channels) (h1 : Keeps k r s1) : Keeps k r (@State.fillQueues s1 a2 a3) := by
  induction a3 generalizing s1 with
  | zero => exact h1
  | succ n ih =>
    unfold State.fillQueues
    dsimp only
    split
    · exact h1
    · exact Keeps.ite (fun _ => ih (State.setChan_keeps kN h1)) fun _ => h1

theorem State.drainWrites_keeps {r s1 : State} {a2 a3} (kN : k .channels) (h1 : Keeps k r s1) : Keeps k r (@State.drainWrites s1 a2 a3) := by
  induction a3 generalizing s1 with
  | zero => exact h1
  | succ n ih => exact Keeps.ite (fun _ => h1) fun _ => ih (State.fillQueues_keeps kN (State.issueWrites_keeps kN h1))

theorem State.moveWrites_keeps {r s1 : State} {a2} (kN : k .channels) (h1 : Keeps k r s1) : Keeps k r (@State.moveWrites s1 a2) := by
  unfold State.moveWrites
  refine Keeps.ite (fun _ => ?_) fun _ => ?_
  · exact State.drainWrites_keeps kN (State.drainWrites_keeps kN (State.drainWrites_keeps kN (State.fillQueues_keeps kN (by assumption))))
  exact State.fillQueues_keeps kN (by assumption)

theorem State.putWrite_keeps {r s1 : State} {a2 a3} (kN : k .channels) (h1 : Keeps k r s1) : Keeps k r (@State.putWrite s1 a2 a3) := by
  unfold State.putWrite
  exact State.moveWrites_keeps kN (State.crossed_keeps (State.setChan_keeps kN (by assumption)))

theorem State.bulkSlot_keeps {r s1 : State} {a2} (kN : k .channels) (h1 : Keeps k r s1) : Keeps k r (@State.bulkSlot s1 a2) := by
  unfold State.bulkSlot
  refine Keeps.ite (fun _ => ?_) fun _ => ?_
  · assumption
  exact State.setChan_keeps kN (by assumption)

theorem State.passOlder_keeps {r s1 : State} {a2 a3 a4} (kX : k .contexts) (kN : k .channels) (h1 : Keeps k r s1) : Keeps k r (@State.passOlder s1 a2 a3 a4) := by
  unfold State.passOlder
  refine Keeps.ite (fun _ => ?_) fun _ => Keeps.put_reads kN h1
  refine h1.of_wf ⟨rfl, rfl, rfl, rfl⟩ (fun c => ?_)
    (fun p hp => by cases p <;> first | exact absurd (by assumption) hp | exact ⟨rfl, rfl, rfl⟩ | exact ⟨rfl, rfl⟩ | exact rfl)
  simp only [State.canonical, Bool.and_eq_true] at *
  simp only [c, Table.wf_map, and_self]

theorem State.shareSlot_keeps {r s1 : State} {a2} (kN : k .channels) (h1 : Keeps k r s1) : Keeps k r (@State.shareSlot s1 a2) := by
  unfold State.shareSlot
  refine Keeps.ite (fun _ => ?_) fun _ => ?_
  · refine Keeps.ite (fun _ => ?_) fun _ => ?_
    · exact State.setChan_keeps kN (by assumption)
    exact State.setChan_keeps kN (by assumption)
  assumption

theorem State.takeLine_keeps {r s1 : State} {a2 a3} (kD : k .device) (kN : k .channels) (kF : k .faults) (h1 : Keeps k r s1) : Keeps k r (@State.takeLine s1 a2 a3).2 := by
  unfold State.takeLine
  refine Keeps.mkSnd ?_
  exact State.moveWrites_keeps kN (State.shareSlot_keeps kN (State.crossed_keeps (State.readLine_keeps kD kN kF (by assumption))))

theorem State.startPacket_keeps {r s1 : State} {a2} (kK : k .link) (h1 : Keeps k r s1) : Keeps k r (@State.startPacket s1 a2) := by
  unfold State.startPacket
  exact State.send_keeps (Keeps.put_sl kK (State.crossed_keeps (by assumption)))

theorem State.flushFrom_keeps {r s1 : State} {a2} (kK : k .link) (h1 : Keeps k r s1) : Keeps k r (@State.flushFrom s1 a2) := by
  induction a2 generalizing s1 with
  | nil => exact Keeps.put_sl kK h1
  | cons p t ih => exact Keeps.ite (fun _ => ih (State.startPacket_keeps kK h1)) fun _ => Keeps.put_sl kK h1

theorem State.slSend_keeps {r s1 : State} {a2} (kK : k .link) (h1 : Keeps k r s1) : Keeps k r (@State.slSend s1 a2) := by
  unfold State.slSend
  exact State.flushFrom_keeps kK (by assumption)

theorem State.recordPackets_keeps {r s1 : State} {a2 a3 a4 a5} (kK : k .link) (h1 : Keeps k r s1) : Keeps k r (@State.recordPackets s1 a2 a3 a4 a5) := by
  induction a4 generalizing s1 a3 a5 with
  | zero => exact h1
  | succ n ih => exact Keeps.ite (fun _ => h1) fun _ => ih (State.slSend_keeps kK h1)

theorem State.readRecord_keeps {r s1 : State} {a2 a3} (kD : k .device) (kN : k .channels) (kF : k .faults) (h1 : Keeps k r s1) : Keeps k r (@State.readRecord s1 a2 a3).2 := by
  induction a3 generalizing s1 a2 with
  | zero => exact h1
  | succ n ih => exact ih (State.readLine_keeps kD kN kF h1)

theorem State.sendRecord_keeps {r s1 : State} {a2} (kD : k .device) (kA : k .acquisition) (kN : k .channels) (kK : k .link) (kF : k .faults) (h1 : Keeps k r s1) : Keeps k r (@State.sendRecord s1 a2) := by
  unfold State.sendRecord
  refine Keeps.ite (fun _ => ?_) fun _ => ?_
  · exact State.recordPackets_keeps kK (State.setRec_keeps kA (State.readRecord_keeps kD kN kF (by assumption)))
  exact State.setRec_keeps kA (by assumption)

theorem State.engineLines_keeps {r s1 : State} {a2 a3 a4 a5} (kY : k .memory) (h1 : Keeps k r s1) : Keeps k r (@State.engineLines s1 a2 a3 a4 a5) := by
  induction a5 generalizing s1 a2 with
  | nil => exact h1
  | cons l t ih => exact ih (Keeps.ite (fun _ => h1) fun _ => State.writeLine_keeps kY h1)

theorem State.storeRecord_keeps {r s1 : State} {a2} (kY : k .memory) (h1 : Keeps k r s1) : Keeps k r (@State.storeRecord s1 a2) := by
  unfold State.storeRecord
  exact State.engineLines_keeps kY (by assumption)

theorem State.writeRecordLine_keeps {r s1 : State} {a2 a3 a4} (kY : k .memory) (kN : k .channels) (h1 : Keeps k r s1) : Keeps k r (@State.writeRecordLine s1 a2 a3 a4) := by
  unfold State.writeRecordLine
  refine Keeps.ite (fun _ => ?_) fun _ => ?_
  · assumption
  exact State.putWrite_keeps kN (State.writeLine_keeps kY (by assumption))

theorem State.storeResults_keeps {r s1 : State} {a2} (kD : k .device) (kY : k .memory) (kN : k .channels) (kF : k .faults) (h1 : Keeps k r s1) : Keeps k r (@State.storeResults s1 a2) := by
  unfold State.storeResults
  refine Keeps.ite (fun _ => ?_) fun _ => ?_
  · exact State.putWrite_keeps kN (State.mergeLine_keeps kD kY kN kF (State.writeRecordLine_keeps kY kN (by assumption)))
  exact State.readLine_keeps kD kN kF (State.writeRecordLine_keeps kY kN (by assumption))

theorem State.sendWaiting_keeps {r s1 : State} (kD : k .device) (kA : k .acquisition) (kN : k .channels) (kK : k .link) (kF : k .faults) (h1 : Keeps k r s1) : Keeps k r (@State.sendWaiting s1) := by
  unfold State.sendWaiting
  refine Keeps.each ?_ fun _ _ _ => ?_
  · assumption
  exact State.sendRecord_keeps kD kA kN kK kF (by assumption)

theorem State.flush_keeps {r s1 : State} (kK : k .link) (h1 : Keeps k r s1) : Keeps k r (@State.flush s1) := by
  unfold State.flush
  exact State.flushFrom_keeps kK (by assumption)

theorem State.refuse_keeps {r s1 : State} {a2 a3} (kK : k .link) (h1 : Keeps k r s1) : Keeps k r (@State.refuse s1 a2 a3) := by
  unfold State.refuse
  exact State.slSend_keeps kK (by assumption)

theorem State.modTime_keeps {r s1 : State} {a2} (kT : k .time) (h1 : Keeps k r s1) : Keeps k r (@State.modTime s1 a2) := by
  unfold State.modTime
  exact Keeps.put_time kT (by assumption)

theorem State.captureStamp_keeps {r s1 : State} {a2 a3} (kT : k .time) (h1 : Keeps k r s1) : Keeps k r (@State.captureStamp s1 a2 a3) := by
  unfold State.captureStamp
  refine Keeps.ite (fun _ => ?_) fun _ => ?_
  · exact State.raise_keeps (State.bump_keeps (State.modTime_keeps kT (by assumption)))
  exact State.setOct_keeps (State.modTime_keeps kT (by assumption))

theorem State.captureAll_keeps {r s1 : State} {a2 a3} (kT : k .time) (h1 : Keeps k r s1) : Keeps k r (@State.captureAll s1 a2 a3) := by
  unfold State.captureAll
  refine Keeps.each ?_ fun _ _ _ => ?_
  · assumption
  refine Keeps.ite (fun _ => ?_) fun _ => ?_
  · exact State.captureStamp_keeps kT (by assumption)
  assumption

theorem State.evtFall_keeps {r s1 : State} {a2 a3} (kP : k .pins) (kT : k .time) (h1 : Keeps k r s1) : Keeps k r (@State.evtFall s1 a2 a3) := by
  unfold State.evtFall
  refine Keeps.ite (fun _ => ?_) fun _ => ?_
  · exact State.captureAll_keeps kT (State.setEvt_keeps kP (by assumption))
  assumption

theorem State.evtPulse_keeps {r s1 : State} {a2 a3} (kP : k .pins) (kT : k .time) (h1 : Keeps k r s1) : Keeps k r (@State.evtPulse s1 a2 a3) := by
  unfold State.evtPulse
  refine Keeps.ite (fun _ => ?_) fun _ => ?_
  · refine State.send_keeps ?_
    refine State.bump_keeps ?_
    refine State.setEvt_keeps kP ?_
    refine Keeps.ite (fun _ => ?_) fun _ => ?_
    · exact State.captureAll_keeps kT (State.evtFall_keeps kP kT (by assumption))
    exact State.evtFall_keeps kP kT (by assumption)
  assumption

theorem State.linkBatch_keeps {r s1 : State} {a2} (kV : k .passport) (kK : k .link) (h1 : Keeps k r s1) : Keeps k r (@State.linkBatch s1 a2) := by
  unfold State.linkBatch
  refine Keeps.ite (fun _ => ?_) fun _ => ?_
  · refine Keeps.each ?_ fun _ _ _ => ?_
    · exact Keeps.put_pass kV (by assumption)
    exact State.slSend_keeps kK (by assumption)
  assumption

theorem State.sendTail_keeps {r s1 : State} {a2} (kK : k .link) (h1 : Keeps k r s1) : Keeps k r (@State.sendTail s1 a2) := by
  unfold State.sendTail
  refine Keeps.each ?_ fun _ _ _ => ?_
  · assumption
  exact State.slSend_keeps kK (by assumption)

theorem State.ringBatch_keeps {r s1 : State} {a2} (kR : k .ring) (h1 : Keeps k r s1) : Keeps k r (@State.ringBatch s1 a2) := by
  unfold State.ringBatch
  refine Keeps.ite (fun _ => ?_) fun _ => ?_
  · refine Keeps.each ?_ fun _ _ _ => ?_
    · assumption
    refine Keeps.each ?_ fun _ _ _ => ?_
    · assumption
    exact State.originate_keeps kR (by assumption)
  assumption

theorem State.settleExports_keeps {r s1 : State} (kV : k .passport) (h1 : Keeps k r s1) : Keeps k r (@State.settleExports s1) := by
  unfold State.settleExports
  refine Keeps.ite (fun _ => ?_) fun _ => ?_
  · exact Keeps.put_pass kV (by assumption)
  assumption

theorem State.taint_keeps {r s1 : State} {a2} (kS : k .sites) (h1 : Keeps k r s1) : Keeps k r (@State.taint s1 a2) := by
  unfold State.taint
  exact State.modSite_keeps kS (by assumption)

theorem State.taintPath_keeps {r s1 : State} {a2} (kS : k .sites) (h1 : Keeps k r s1) : Keeps k r (@State.taintPath s1 a2) := by
  unfold State.taintPath
  refine Keeps.ite (fun _ => ?_) fun _ => ?_
  · assumption
  exact State.taint_keeps kS (by assumption)

theorem State.noteRuns_keeps {r s1 : State} {a2 a3} (kP : k .pins) (h1 : Keeps k r s1) : Keeps k r (@State.noteRuns s1 a2 a3) := by
  unfold State.noteRuns
  exact State.modPin_keeps kP (by assumption)

theorem State.settleEvents_keeps {r s1 : State} {a2 a3 a4} (kP : k .pins) (h1 : Keeps k r s1) : Keeps k r (@State.settleEvents s1 a2 a3 a4) := by
  unfold State.settleEvents
  exact State.modPin_keeps kP (by assumption)

theorem State.settlePin_keeps {r s1 : State} {a2 a3} (kP : k .pins) (h1 : Keeps k r s1) : Keeps k r (@State.settlePin s1 a2 a3) := by
  unfold State.settlePin
  exact State.settleEvents_keeps kP (by assumption)

theorem State.decide1_keeps {r s1 : State} {a2 a3 a4 a5} (h1 : Keeps k r s1) : Keeps k r (@State.decide1 s1 a2 a3 a4 a5).2 := by
  unfold State.decide1
  split
  · exact Keeps.mkSnd (by assumption)
  · exact Keeps.mkSnd (by assumption)
  split
  · exact Keeps.mkSnd (by assumption)
  exact Keeps.mkSnd (State.free_keeps (by assumption))

theorem State.sample_keeps {r s1 : State} {a2 a3} (kP : k .pins) (h1 : Keeps k r s1) : Keeps k r (@State.sample s1 a2 a3).2 := by
  unfold State.sample
  exact Keeps.mkSnd (State.modPin_keeps kP (State.decide1_keeps (State.decide1_keeps (by assumption))))

theorem State.judge_keeps {r s1 : State} {a2 a3} (kS : k .sites) (kP : k .pins) (h1 : Keeps k r s1) : Keeps k r (@State.judge s1 a2 a3) := by
  unfold State.judge
  exact State.modSite_keeps kS (State.sample_keeps kP (by assumption))

theorem State.judgeUntil_keeps {r s1 : State} {a2 a3} (kS : k .sites) (kP : k .pins) (h1 : Keeps k r s1) : Keeps k r (@State.judgeUntil s1 a2 a3) := by
  unfold State.judgeUntil
  refine Keeps.foldl ?_ fun _ _ _ => ?_
  · exact State.modSite_keeps kS (by assumption)
  exact State.judge_keeps kS kP (by assumption)

theorem State.monChanges_keeps {r s1 : State} {a2 a3} (kP : k .pins) (h1 : Keeps k r s1) : Keeps k r (@State.monChanges s1 a2 a3) := by
  unfold State.monChanges
  exact State.modPin_keeps kP (by assumption)

theorem State.setHeld_keeps {r s1 : State} {a2 a3 a4 a5 a6} (kP : k .pins) (h1 : Keeps k r s1) : Keeps k r (@State.setHeld s1 a2 a3 a4 a5 a6) := by
  unfold State.setHeld
  exact State.modPin_keeps kP (by assumption)

theorem State.clearHeld_keeps {r s1 : State} {a2} (kP : k .pins) (h1 : Keeps k r s1) : Keeps k r (@State.clearHeld s1 a2) := by
  unfold State.clearHeld
  exact State.setHeld_keeps kP (by assumption)

theorem State.monRestart_keeps {r s1 : State} {a2} (kP : k .pins) (h1 : Keeps k r s1) : Keeps k r (@State.monRestart s1 a2) := by
  unfold State.monRestart
  exact State.modPin_keeps kP (State.clearHeld_keeps kP (State.monChanges_keeps kP (by assumption)))

theorem State.clearDecisions_keeps {r s1 : State} {a2} (kP : k .pins) (h1 : Keeps k r s1) : Keeps k r (@State.clearDecisions s1 a2) := by
  unfold State.clearDecisions
  refine Keeps.ite (fun _ => ?_) fun _ => ?_
  · exact State.monRestart_keeps kP (by assumption)
  exact State.clearHeld_keeps kP (by assumption)

theorem State.siteFail_keeps {r s1 : State} {a2 a3} (kS : k .sites) (h1 : Keeps k r s1) : Keeps k r (@State.siteFail s1 a2 a3) := by
  unfold State.siteFail
  refine State.modSite_keeps kS ?_
  refine Keeps.ite (fun _ => ?_) fun _ => ?_
  · assumption
  exact State.raise_keeps (by assumption)

theorem State.bareFail_keeps {r s1 : State} {a2 a3} (kS : k .sites) (h1 : Keeps k r s1) : Keeps k r (@State.bareFail s1 a2 a3) := by
  unfold State.bareFail
  exact State.siteFail_keeps kS (State.bump_keeps (State.bump_keeps (by assumption)))

theorem State.clearCompare_keeps {r s1 : State} {a2} (kP : k .pins) (h1 : Keeps k r s1) : Keeps k r (@State.clearCompare s1 a2) := by
  unfold State.clearCompare
  refine State.setNat_keeps ?_
  refine State.setNat_keeps ?_
  refine State.setNat_keeps ?_
  refine Keeps.each ?_ fun _ _ _ => ?_
  · assumption
  refine State.modPin_keeps kP ?_
  exact State.setNat_keeps (State.setNat_keeps (State.setNat_keeps (State.setNat_keeps (State.setNat_keeps (State.setNat_keeps (by assumption))))))

theorem State.monEnable_keeps {r s1 : State} {a2 a3} (kP : k .pins) (h1 : Keeps k r s1) : Keeps k r (@State.monEnable s1 a2 a3) := by
  unfold State.monEnable
  refine Keeps.ite (fun _ => ?_) fun _ => ?_
  · exact State.monRestart_keeps kP (State.noteRuns_keeps kP (by assumption))
  exact State.modPin_keeps kP (State.monChanges_keeps kP (State.noteRuns_keeps kP (by assumption)))

theorem State.supplyRestart_keeps {r s1 : State} {a2} (kF : k .faults) (h1 : Keeps k r s1) : Keeps k r (@State.supplyRestart s1 a2) := by
  unfold State.supplyRestart
  exact Keeps.put_handler kF (State.setNat_keeps (by assumption))

theorem State.pinFail_keeps {r s1 : State} {a2 a3 a4} (kS : k .sites) (h1 : Keeps k r s1) : Keeps k r (@State.pinFail s1 a2 a3 a4) := by
  unfold State.pinFail
  refine State.siteFail_keeps kS ?_
  refine State.setNat_keeps ?_
  refine State.bump_keeps ?_
  refine Keeps.ite (fun _ => ?_) fun _ => ?_
  · exact State.raise_keeps (State.setNat_keeps (State.setNat_keeps (State.bump_keeps (by assumption))))
  exact State.bump_keeps (by assumption)

theorem State.latch_keeps {r s1 : State} {a2 a3 a4} (kP : k .pins) (h1 : Keeps k r s1) : Keeps k r (@State.latch s1 a2 a3 a4) := by
  unfold State.latch
  refine Keeps.ite (fun _ => ?_) fun _ => ?_
  · refine Keeps.ite (fun _ => ?_) fun _ => ?_
    · refine State.bump_keeps ?_
      refine Keeps.ite (fun _ => ?_) fun _ => ?_
      · exact State.bump_keeps (State.setNat_keeps (by assumption))
      exact State.setNat_keeps (by assumption)
    refine Keeps.ite (fun _ => ?_) fun _ => ?_
    · refine State.modPin_keeps kP ?_
      refine State.setNat_keeps ?_
      refine State.bump_keeps ?_
      refine Keeps.ite (fun _ => ?_) fun _ => ?_
      · exact State.bump_keeps (State.setNat_keeps (by assumption))
      exact State.setNat_keeps (by assumption)
    refine State.setNat_keeps ?_
    refine State.bump_keeps ?_
    refine Keeps.ite (fun _ => ?_) fun _ => ?_
    · exact State.bump_keeps (State.setNat_keeps (by assumption))
    exact State.setNat_keeps (by assumption)
  refine State.setNat_keeps ?_
  refine State.bump_keeps ?_
  refine Keeps.ite (fun _ => ?_) fun _ => ?_
  · exact State.bump_keeps (State.setNat_keeps (by assumption))
  exact State.setNat_keeps (by assumption)

theorem State.commit1_keeps {r s1 : State} {a2 a3} (kS : k .sites) (kP : k .pins) (h1 : Keeps k r s1) : Keeps k r (@State.commit1 s1 a2 a3) := by
  unfold State.commit1
  try dsimp only
  split
  · refine Keeps.ite (fun _ => ?_) fun _ => ?_
    · exact State.bareFail_keeps kS (State.modSite_keeps kS (by assumption))
    exact State.modSite_keeps kS (by assumption)
  refine Keeps.ite (fun _ => ?_) fun _ => ?_
  · refine State.pinFail_keeps kS ?_
    split
    · refine State.modSite_keeps kS ?_
      refine Keeps.ite (fun _ => ?_) fun _ => ?_
      · exact State.latch_keeps kP (State.modSite_keeps kS (by assumption))
      exact State.modSite_keeps kS (by assumption)
    refine Keeps.ite (fun _ => ?_) fun _ => ?_
    · exact State.latch_keeps kP (State.modSite_keeps kS (by assumption))
    exact State.modSite_keeps kS (by assumption)
  split
  · refine State.modSite_keeps kS ?_
    refine Keeps.ite (fun _ => ?_) fun _ => ?_
    · exact State.latch_keeps kP (State.modSite_keeps kS (by assumption))
    exact State.modSite_keeps kS (by assumption)
  refine Keeps.ite (fun _ => ?_) fun _ => ?_
  · exact State.latch_keeps kP (State.modSite_keeps kS (by assumption))
  exact State.modSite_keeps kS (by assumption)

theorem State.commitSite_keeps {r s1 : State} {a2 a3} (kS : k .sites) (kP : k .pins) (h1 : Keeps k r s1) : Keeps k r (@State.commitSite s1 a2 a3) := by
  unfold State.commitSite
  refine Keeps.foldl ?_ fun _ _ _ => ?_
  · exact State.modSite_keeps kS (by assumption)
  exact State.commit1_keeps kS kP (by assumption)

theorem State.failNow_keeps {r s1 : State} {a2 a3} (kS : k .sites) (h1 : Keeps k r s1) : Keeps k r (@State.failNow s1 a2 a3) := by
  unfold State.failNow
  split
  · assumption
  exact State.modSite_keeps kS (by assumption)

theorem State.taintLive_keeps {r s1 : State} (kS : k .sites) (h1 : Keeps k r s1) : Keeps k r (@State.taintLive s1) := by
  unfold State.taintLive
  refine Keeps.each ?_ fun _ _ _ => ?_
  · assumption
  refine Keeps.ite (fun _ => ?_) fun _ => ?_
  · exact State.taint_keeps kS (by assumption)
  assumption

theorem State.monTake_keeps {r s1 : State} {a2 a3 a4} (kS : k .sites) (kP : k .pins) (h1 : Keeps k r s1) : Keeps k r (@State.monTake s1 a2 a3 a4) := by
  unfold State.monTake
  refine Keeps.ite (fun _ => ?_) fun _ => ?_
  · refine Keeps.ite (fun _ => ?_) fun _ => ?_
    · refine State.failNow_keeps kS ?_
      exact State.raise_keeps (State.bump_keeps (State.setNat_keeps (State.modPin_keeps kP (State.monChanges_keeps kP (by assumption)))))
    exact State.raise_keeps (State.bump_keeps (State.setNat_keeps (State.modPin_keeps kP (State.monChanges_keeps kP (by assumption)))))
  refine Keeps.ite (fun _ => ?_) fun _ => ?_
  · exact State.raise_keeps (State.modPin_keeps kP (State.monChanges_keeps kP (by assumption)))
  exact State.modPin_keeps kP (State.monChanges_keeps kP (by assumption))

theorem State.supplyEnds_keeps {r s1 : State} {a2} (kF : k .faults) (h1 : Keeps k r s1) : Keeps k r (@State.supplyEnds s1 a2) := by
  unfold State.supplyEnds
  split
  · assumption
  refine Keeps.ite (fun _ => ?_) fun _ => ?_
  · exact State.recovered_keeps kF (Keeps.put_handler kF (by assumption))
  exact Keeps.put_handler kF (by assumption)

theorem State.supplyFault_keeps {r s1 : State} {a2} (kD : k .device) (kS : k .sites) (kF : k .faults) (h1 : Keeps k r s1) : Keeps k r (@State.supplyFault s1 a2) := by
  unfold State.supplyFault
  refine Keeps.ite (fun _ => ?_) fun _ => ?_
  · exact State.bump_keeps (Keeps.put_handler kF (State.taintLive_keeps kS (by assumption)))
  exact State.handFault_keeps kD kF (Keeps.put_handler kF (State.taintLive_keeps kS (by assumption)))

theorem execSupplyMonForced_keeps {r s2 : State} {a1} (kF : k .faults) (h2 : Keeps k r s2) : KeepsOut k r (@execSupplyMonForced a1 s2) := by
  unfold execSupplyMonForced
  refine Keeps.out_ite (fun _ => ?_) fun _ => ?_
  · exact KeepsOut.next (State.supplyEnds_keeps kF (State.raise_keeps (State.bump_keeps (State.setNat_keeps (by assumption)))))
  exact KeepsOut.next (by assumption)

theorem execSupplyMonChange_keeps {r s3 : State} {a1 a2} (kD : k .device) (kS : k .sites) (kF : k .faults) (h3 : Keeps k r s3) : KeepsOut k r (@execSupplyMonChange a1 a2 s3) := by
  unfold execSupplyMonChange
  refine Keeps.out_ite (fun _ => ?_) fun _ => ?_
  · exact KeepsOut.next (by assumption)
  refine Keeps.out_ite (fun _ => ?_) fun _ => ?_
  · refine KeepsOut.next ?_
    refine State.supplyEnds_keeps kF ?_
    refine Keeps.ite (fun _ => ?_) fun _ => ?_
    · exact State.raise_keeps (State.setNat_keeps (by assumption))
    exact State.setNat_keeps (by assumption)
  refine Keeps.out_ite (fun _ => ?_) fun _ => ?_
  · exact KeepsOut.next (State.setNat_keeps (by assumption))
  refine Keeps.out_ite (fun _ => ?_) fun _ => ?_
  · exact KeepsOut.next (State.raise_keeps (State.bump_keeps (State.setNat_keeps (by assumption))))
  refine Keeps.out_ite (fun _ => ?_) fun _ => ?_
  · exact KeepsOut.next (State.supplyFault_keeps kD kS kF (State.raise_keeps (State.bump_keeps (State.setNat_keeps (by assumption)))))
  exact KeepsOut.next (State.taintLive_keeps kS (State.raise_keeps (State.bump_keeps (State.setNat_keeps (by assumption)))))

theorem execMonForced_keeps {r s2 : State} {a1} (kP : k .pins) (h2 : Keeps k r s2) : KeepsOut k r (@execMonForced a1 s2) := by
  unfold execMonForced
  refine Keeps.out_ite (fun _ => ?_) fun _ => ?_
  · exact KeepsOut.next (State.raise_keeps (State.bump_keeps (State.modPin_keeps kP (State.setHeld_keeps kP (State.monChanges_keeps kP (by assumption))))))
  exact KeepsOut.next (by assumption)

theorem execMonStateChange_keeps {r s4 : State} {a1 a2 a3} (kS : k .sites) (kP : k .pins) (h4 : Keeps k r s4) : KeepsOut k r (@execMonStateChange a1 a2 a3 s4) := by
  unfold execMonStateChange
  try dsimp only
  split
  · exact KeepsOut.next (by assumption)
  refine Keeps.out_ite (fun _ => ?_) fun _ => ?_
  · exact KeepsOut.next (by assumption)
  exact KeepsOut.next (State.monTake_keeps kS kP (by assumption))

theorem State.watchUse_keeps {r s1 : State} (kL : k .ledger) (h1 : Keeps k r s1) : Keeps k r (@State.watchUse s1) := by
  unfold State.watchUse
  refine Keeps.ite (fun _ => ?_) fun _ => ?_
  · exact State.raise_keeps (Keeps.put_inn kL (by assumption))
  refine Keeps.ite (fun _ => ?_) fun _ => ?_
  · exact Keeps.put_inn kL (by assumption)
  assumption

theorem State.rewrite_keeps {r s1 : State} {a2 a3} (kL : k .ledger) (h1 : Keeps k r s1) : Keeps k r (@State.rewrite s1 a2 a3) := by
  unfold State.rewrite
  exact State.setEntry_keeps kL (Keeps.put_inn kL (by assumption))

theorem State.take_keeps {r s1 : State} {a2 a3} (kL : k .ledger) (h1 : Keeps k r s1) : Keeps k r (@State.take s1 a2 a3) := by
  unfold State.take
  exact State.watchUse_keeps kL (State.peak_keeps (State.rewrite_keeps kL (by assumption)))

theorem State.makeReady_keeps {r s1 : State} {a2} (kL : k .ledger) (h1 : Keeps k r s1) : Keeps k r (@State.makeReady s1 a2) := by
  unfold State.makeReady
  exact State.peak_keeps (State.setEntry_keeps kL (by assumption))

theorem State.joinCaravan_keeps {r s1 : State} {a2} (kL : k .ledger) (h1 : Keeps k r s1) : Keeps k r (@State.joinCaravan s1 a2).2 := by
  unfold State.joinCaravan
  exact Keeps.mkSnd (State.setCaravan_keeps kL (by assumption))

theorem State.placePost_keeps {r s1 : State} {a2 a3} (kL : k .ledger) (h1 : Keeps k r s1) : Keeps k r (@State.placePost s1 a2 a3) := by
  unfold State.placePost
  try dsimp only
  split
  · exact State.makeReady_keeps kL (State.take_keeps kL (State.joinCaravan_keeps kL (State.free_keeps (State.free_keeps (by assumption)))))
  exact State.makeReady_keeps kL (State.take_keeps kL (State.free_keeps (State.free_keeps (by assumption))))

theorem State.postService_keeps {r s1 : State} {a2} (kL : k .ledger) (h1 : Keeps k r s1) : Keeps k r (@State.postService s1 a2) := by
  unfold State.postService
  refine Keeps.ite (fun _ => ?_) fun _ => ?_
  · refine Keeps.put_inn kL ?_
    refine Keeps.ite (fun _ => ?_) fun _ => ?_
    · exact State.bump_keeps (by assumption)
    assumption
  exact State.placePost_keeps kL (by assumption)

theorem State.postHeld_keeps {r s1 : State} {a2} (kL : k .ledger) (h1 : Keeps k r s1) : Keeps k r (@State.postHeld s1 a2) := by
  induction a2 generalizing s1 with
  | zero => exact h1
  | succ n ih =>
    unfold State.postHeld
    split
    · exact ih (State.placePost_keeps kL (Keeps.put_inn kL h1))
    · exact h1

theorem State.freeEntry_keeps {r s1 : State} {a2} (kL : k .ledger) (h1 : Keeps k r s1) : Keeps k r (@State.freeEntry s1 a2) := by
  unfold State.freeEntry
  refine Keeps.ite (fun _ => ?_) fun _ => ?_
  · exact State.postHeld_keeps kL (State.watchUse_keeps kL (State.rewrite_keeps kL (by assumption)))
  exact State.watchUse_keeps kL (State.rewrite_keeps kL (by assumption))

theorem State.cancel_keeps {r s1 : State} {a2} (kL : k .ledger) (h1 : Keeps k r s1) : Keeps k r (@State.cancel s1 a2) := by
  unfold State.cancel
  refine Keeps.ite (fun _ => ?_) fun _ => ?_
  · assumption
  split
  · exact State.setEntry_keeps kL (by assumption)
  exact State.freeEntry_keeps kL (by assumption)

theorem State.cancelAll_keeps {r s1 : State} {a2} (kL : k .ledger) (h1 : Keeps k r s1) : Keeps k r (@State.cancelAll s1 a2) := by
  unfold State.cancelAll
  refine Keeps.each ?_ fun _ _ _ => ?_
  · refine Keeps.ite (fun _ => ?_) fun _ => ?_
    · exact State.count_keeps (by assumption)
    assumption
  exact State.cancel_keeps kL (by assumption)

theorem State.cancelTasks_keeps {r s1 : State} {a2} (kL : k .ledger) (h1 : Keeps k r s1) : Keeps k r (@State.cancelTasks s1 a2) := by
  unfold State.cancelTasks
  exact State.cancelAll_keeps kL (by assumption)

theorem State.cutWait_keeps {r s1 : State} {a2} (kX : k .contexts) (h1 : Keeps k r s1) : Keeps k r (@State.cutWait s1 a2) := by
  unfold State.cutWait
  exact State.modCtx_keeps kX (by assumption)

theorem State.freeThread_keeps {r s1 : State} {a2} (kX : k .contexts) (kL : k .ledger) (h1 : Keeps k r s1) : Keeps k r (@State.freeThread s1 a2) := by
  unfold State.freeThread
  refine State.rewrite_keeps kL ?_
  refine Keeps.ite (fun _ => ?_) fun _ => ?_
  · refine State.cutWait_keeps kX ?_
    refine State.modCtx_keeps kX ?_
    refine Keeps.ite (fun _ => ?_) fun _ => ?_
    · exact State.bump_keeps (by assumption)
    assumption
  refine Keeps.ite (fun _ => ?_) fun _ => ?_
  · refine State.modCtx_keeps kX ?_
    refine Keeps.ite (fun _ => ?_) fun _ => ?_
    · exact State.bump_keeps (by assumption)
    assumption
  refine Keeps.ite (fun _ => ?_) fun _ => ?_
  · exact State.bump_keeps (by assumption)
  assumption

theorem State.releaseBudget_keeps {r s1 : State} {a2} (kS : k .sites) (kX : k .contexts) (kL : k .ledger) (h1 : Keeps k r s1) : Keeps k r (@State.releaseBudget s1 a2) := by
  unfold State.releaseBudget
  exact State.setReg_keeps (State.modSite_keeps kS (State.freeThread_keeps kX kL (by assumption)))

theorem State.refusePost_keeps {r s1 : State} (h1 : Keeps k r s1) : Keeps k r (@State.refusePost s1) := by
  unfold State.refusePost
  exact State.bump_keeps (by assumption)

theorem State.allocGeneral_keeps {r s1 : State} {a2 a3} (kL : k .ledger) (h1 : Keeps k r s1) : Keeps k r (@State.allocGeneral s1 a2 a3).2 := by
  unfold State.allocGeneral
  refine Keeps.snd_ite (fun _ => ?_) fun _ => ?_
  · exact Keeps.mkSnd (State.refusePost_keeps (by assumption))
  exact Keeps.mkSnd (State.take_keeps kL (by assumption))

theorem State.passCycles_keeps {r s1 : State} {a2} (kL : k .ledger) (h1 : Keeps k r s1) : Keeps k r (@State.passCycles s1 a2) := by
  unfold State.passCycles
  exact Keeps.put_inn kL (by assumption)

theorem State.postFault_keeps {r s1 : State} {a2} (kL : k .ledger) (h1 : Keeps k r s1) : Keeps k r (@State.postFault s1 a2) := by
  unfold State.postFault
  refine Keeps.ite (fun _ => ?_) fun _ => ?_
  · exact State.placePost_keeps kL (by assumption)
  assumption

theorem State.disarmUnit_keeps {r s1 : State} {a2} (kA : k .acquisition) (h1 : Keeps k r s1) : Keeps k r (@State.disarmUnit s1 a2) := by
  unfold State.disarmUnit
  exact State.setTu_keeps kA (by assumption)

theorem State.disarmUnits_keeps {r s1 : State} {a2} (kA : k .acquisition) (h1 : Keeps k r s1) : Keeps k r (@State.disarmUnits s1 a2) := by
  unfold State.disarmUnits
  refine Keeps.each ?_ fun _ _ _ => ?_
  · assumption
  refine Keeps.ite (fun _ => ?_) fun _ => ?_
  · exact State.disarmUnit_keeps kA (by assumption)
  assumption

theorem State.stageMove_keeps {r s1 : State} {a2 a3} (kA : k .acquisition) (kN : k .channels) (h1 : Keeps k r s1) : Keeps k r (@State.stageMove s1 a2 a3) := by
  induction a3 generalizing s1 with
  | zero => exact h1
  | succ n ih =>
    unfold State.stageMove
    dsimp only
    split
    · exact State.setCap_keeps kA h1
    · refine Keeps.ite (fun _ => ih (State.setCap_keeps kA h1)) fun _ => ?_
      exact Keeps.ite (fun _ => ih (State.putWrite_keeps kN (State.setCap_keeps kA h1))) fun _ => State.setCap_keeps kA h1

theorem State.stageOut_keeps {r s1 : State} {a2} (kA : k .acquisition) (kN : k .channels) (h1 : Keeps k r s1) : Keeps k r (@State.stageOut s1 a2) := by
  unfold State.stageOut
  exact State.stageMove_keeps kA kN (by assumption)

theorem State.exportLost_keeps {r s1 : State} {a2} (kD : k .device) (kA : k .acquisition) (kN : k .channels) (kK : k .link) (kF : k .faults) (h1 : Keeps k r s1) : Keeps k r (@State.exportLost s1 a2) := by
  unfold State.exportLost
  refine Keeps.ite (fun _ => ?_) fun _ => ?_
  · assumption
  exact State.sendRecord_keeps kD kA kN kK kF (State.setRec_keeps kA (by assumption))

theorem State.checkBuffer_keeps {r s1 : State} {a2} (h1 : Keeps k r s1) : Keeps k r (@State.checkBuffer s1 a2) := by
  unfold State.checkBuffer
  refine Keeps.each ?_ fun _ _ _ => ?_
  · assumption
  split
  · exact State.raise_keeps (State.bump_keeps (by assumption))
  · exact State.raise_keeps (State.bump_keeps (by assumption))
  assumption

theorem State.commitRecord_keeps {r s1 : State} {a2 a3 a4} (kD : k .device) (kS : k .sites) (kL : k .ledger) (kA : k .acquisition) (kY : k .memory) (kN : k .channels) (kK : k .link) (kF : k .faults) (h1 : Keeps k r s1) : Keeps k r (@State.commitRecord s1 a2 a3 a4) := by
  unfold State.commitRecord
  refine State.stageOut_keeps kA kN ?_
  refine State.setCap_keeps kA ?_
  split
  · refine State.postService_keeps kL ?_
    refine Keeps.ite (fun _ => ?_) fun _ => ?_
    · refine State.postService_keeps kL ?_
      refine State.modSite_keeps kS ?_
      refine State.setNat_keeps ?_
      exact State.bump_keeps (State.setNat_keeps (State.storeRecord_keeps kY (State.setRec_keeps kA (State.checkBuffer_keeps (by assumption)))))
    refine State.modSite_keeps kS ?_
    refine State.setNat_keeps ?_
    exact State.bump_keeps (State.setNat_keeps (State.storeRecord_keeps kY (State.setRec_keeps kA (State.checkBuffer_keeps (by assumption)))))
  refine State.exportLost_keeps kD kA kN kK kF ?_
  refine Keeps.ite (fun _ => ?_) fun _ => ?_
  · refine State.postService_keeps kL ?_
    refine State.modSite_keeps kS ?_
    refine State.setNat_keeps ?_
    exact State.bump_keeps (State.setNat_keeps (State.storeRecord_keeps kY (State.setRec_keeps kA (State.checkBuffer_keeps (by assumption)))))
  refine State.modSite_keeps kS ?_
  refine State.setNat_keeps ?_
  exact State.bump_keeps (State.setNat_keeps (State.storeRecord_keeps kY (State.setRec_keeps kA (State.checkBuffer_keeps (by assumption)))))

theorem State.commitFit_keeps {r s1 : State} {a2 a3 a4} (kD : k .device) (kS : k .sites) (kL : k .ledger) (kA : k .acquisition) (kY : k .memory) (kN : k .channels) (kK : k .link) (kF : k .faults) (h1 : Keeps k r s1) : Keeps k r (@State.commitFit s1 a2 a3 a4) := by
  unfold State.commitFit
  exact State.commitRecord_keeps kD kS kL kA kY kN kK kF (by assumption)

theorem State.dropRecord_keeps {r s1 : State} {a2} (h1 : Keeps k r s1) : Keeps k r (@State.dropRecord s1 a2) := by
  unfold State.dropRecord
  exact State.raise_keeps (State.bump_keeps (by assumption))

theorem State.commitOpen_keeps {r s1 : State} {a2} (kD : k .device) (kS : k .sites) (kL : k .ledger) (kA : k .acquisition) (kY : k .memory) (kN : k .channels) (kK : k .link) (kF : k .faults) (h1 : Keeps k r s1) : Keeps k r (@State.commitOpen s1 a2) := by
  unfold State.commitOpen
  try dsimp only
  split
  · exact State.commitRecord_keeps kD kS kL kA kY kN kK kF (State.setCap_keeps kA (by assumption))
  refine Keeps.ite (fun _ => ?_) fun _ => ?_
  · assumption
  split
  · refine State.setCap_keeps kA ?_
    split
    · exact State.freeEntry_keeps kL (State.dropRecord_keeps (by assumption))
    exact State.dropRecord_keeps (by assumption)
  refine State.commitFit_keeps kD kS kL kA kY kN kK kF ?_
  exact State.setCap_keeps kA (State.setCap_keeps kA (by assumption))

theorem State.freeRing_keeps {r s1 : State} (kA : k .acquisition) (h1 : Keeps k r s1) : Keeps k r (@State.freeRing s1) := by
  unfold State.freeRing
  refine h1.of_wf ⟨rfl, rfl, rfl, rfl⟩ (fun c => ?_)
    (fun p hp => by cases p <;> first | exact absurd (by assumption) hp | exact ⟨rfl, rfl, rfl⟩ | exact ⟨rfl, rfl⟩ | exact rfl)
  simp only [State.canonical, Bool.and_eq_true] at *
  simp only [c, Table.wf_filter, and_self]

theorem State.dropFires_keeps {r s1 : State} {a2} (kA : k .acquisition) (h1 : Keeps k r s1) : Keeps k r (@State.dropFires s1 a2) := by
  unfold State.dropFires
  refine Keeps.each ?_ fun _ _ _ => ?_
  · assumption
  refine Keeps.ite (fun _ => ?_) fun _ => ?_
  · exact State.setTu_keeps kA (by assumption)
  assumption

theorem State.stopCapture_keeps {r s1 : State} {a2} (kS : k .sites) (kL : k .ledger) (kA : k .acquisition) (h1 : Keeps k r s1) : Keeps k r (@State.stopCapture s1 a2) := by
  unfold State.stopCapture
  refine State.freeRing_keeps kA ?_
  refine State.setCap_keeps kA ?_
  refine State.modSite_keeps kS ?_
  split
  · exact State.freeEntry_keeps kL (State.dropFires_keeps kA (by assumption))
  exact State.dropFires_keeps kA (by assumption)

theorem State.endCapture_keeps {r s1 : State} {a2} (kS : k .sites) (kL : k .ledger) (kA : k .acquisition) (h1 : Keeps k r s1) : Keeps k r (@State.endCapture s1 a2) := by
  unfold State.endCapture
  refine State.setCap_keeps kA ?_
  split
  · exact State.freeEntry_keeps kL (State.stopCapture_keeps kS kL kA (by assumption))
  exact State.stopCapture_keeps kS kL kA (by assumption)

theorem State.closeCapture_keeps {r s1 : State} {a2} (kD : k .device) (kS : k .sites) (kL : k .ledger) (kA : k .acquisition) (kY : k .memory) (kN : k .channels) (kK : k .link) (kF : k .faults) (h1 : Keeps k r s1) : Keeps k r (@State.closeCapture s1 a2) := by
  unfold State.closeCapture
  refine Keeps.ite (fun _ => ?_) fun _ => ?_
  · exact State.endCapture_keeps kS kL kA (by assumption)
  exact State.endCapture_keeps kS kL kA (State.commitOpen_keeps kD kS kL kA kY kN kK kF (by assumption))

theorem State.fireUnit_keeps {r s1 : State} {a2 a3} (kA : k .acquisition) (h1 : Keeps k r s1) : Keeps k r (@State.fireUnit s1 a2 a3) := by
  unfold State.fireUnit
  refine Keeps.ite (fun _ => ?_) fun _ => ?_
  · split
    · exact State.setTu_keeps kA (by assumption)
    exact State.setTu_keeps kA (by assumption)
  refine Keeps.ite (fun _ => ?_) fun _ => ?_
  · exact State.bump_keeps (by assumption)
  assumption

theorem State.armUnit_keeps {r s1 : State} {a2} (kA : k .acquisition) (h1 : Keeps k r s1) : Keeps k r (@State.armUnit s1 a2) := by
  unfold State.armUnit
  refine Keeps.ite (fun _ => ?_) fun _ => ?_
  · exact State.setCap_keeps kA (State.setTu_keeps kA (by assumption))
  exact State.setTu_keeps kA (by assumption)

theorem State.recordEntry_keeps {r s1 : State} {a2} (kL : k .ledger) (h1 : Keeps k r s1) : Keeps k r (@State.recordEntry s1 a2).2 := by
  unfold State.recordEntry
  exact State.allocGeneral_keeps kL (by assumption)

theorem State.openEntry_keeps {r s1 : State} {a2} (kL : k .ledger) (kA : k .acquisition) (h1 : Keeps k r s1) : Keeps k r (@State.openEntry s1 a2) := by
  unfold State.openEntry
  exact State.setCap_keeps kA (State.recordEntry_keeps kL (by assumption))

theorem State.retune_keeps {r s1 : State} {a2} (kA : k .acquisition) (h1 : Keeps k r s1) : Keeps k r (@State.retune s1 a2) := by
  unfold State.retune
  refine Keeps.ite (fun _ => ?_) fun _ => ?_
  · exact State.setCap_keeps kA (by assumption)
  exact State.raise_keeps (State.setCap_keeps kA (by assumption))

theorem State.enterPre_keeps {r s1 : State} {a2} (kA : k .acquisition) (h1 : Keeps k r s1) : Keeps k r (@State.enterPre s1 a2) := by
  unfold State.enterPre
  exact State.setCap_keeps kA (by assumption)

theorem State.takeBeats_keeps {r s1 : State} {a2 a3} (kA : k .acquisition) (h1 : Keeps k r s1) : Keeps k r (@State.takeBeats s1 a2 a3) := by
  unfold State.takeBeats
  refine Keeps.ite (fun _ => ?_) fun _ => ?_
  · exact State.setCap_keeps kA (by assumption)
  assumption

theorem State.capEffect_keeps {r s1 : State} {a2 a3 a4 a5} (kD : k .device) (kS : k .sites) (kL : k .ledger) (kA : k .acquisition) (kY : k .memory) (kN : k .channels) (kK : k .link) (kF : k .faults) (h1 : Keeps k r s1) : Keeps k r (@State.capEffect s1 a2 a3 a4 a5) := by
  unfold State.capEffect
  try dsimp only
  split
  · exact State.enterPre_keeps kA (State.retune_keeps kA (State.setCap_keeps kA (State.takeBeats_keeps kA (by assumption))))
  · split
    · refine State.stopCapture_keeps kS kL kA ?_
      exact State.commitOpen_keeps kD kS kL kA kY kN kK kF (State.takeBeats_keeps kA (by assumption))
    exact State.stopCapture_keeps kS kL kA (State.takeBeats_keeps kA (by assumption))
  · exact State.setCap_keeps kA (State.takeBeats_keeps kA (by assumption))
  · refine Keeps.ite (fun _ => ?_) fun _ => ?_
    · exact State.enterPre_keeps kA (State.setCap_keeps kA (State.takeBeats_keeps kA (by assumption)))
    exact State.setCap_keeps kA (State.takeBeats_keeps kA (by assumption))
  · refine State.enterPre_keeps kA ?_
    refine State.openEntry_keeps kL kA ?_
    refine State.setCap_keeps kA ?_
    exact State.commitOpen_keeps kD kS kL kA kY kN kK kF (State.takeBeats_keeps kA (by assumption))
  exact State.setCap_keeps kA (State.takeBeats_keeps kA (by assumption))

theorem State.autoMarkers_keeps {r s1 : State} {a2 a3} (kA : k .acquisition) (h1 : Keeps k r s1) : Keeps k r (@State.autoMarkers s1 a2 a3) := by
  unfold State.autoMarkers
  exact State.setCap_keeps kA (by assumption)

theorem State.candidates_keeps {r s1 : State} {a2 a3 a4} (kA : k .acquisition) (h1 : Keeps k r s1) : Keeps k r (@State.candidates s1 a2 a3 a4) := by
  unfold State.candidates
  refine Keeps.each ?_ fun _ _ _ => ?_
  · assumption
  refine Keeps.ite (fun _ => ?_) fun _ => ?_
  · exact State.bump_keeps (by assumption)
  exact State.raise_keeps (State.setCap_keeps kA (by assumption))

theorem State.capIssue_keeps {r s1 : State} {a2 a3} (kL : k .ledger) (kA : k .acquisition) (h1 : Keeps k r s1) : Keeps k r (@State.capIssue s1 a2 a3).2 := by
  unfold State.capIssue
  try dsimp only
  split
  · refine Keeps.snd_ite (fun _ => ?_) fun _ => ?_
    · refine Keeps.snd_ite (fun _ => ?_) fun _ => ?_
      · exact Keeps.mkSnd (State.setCap_keeps kA (State.recordEntry_keeps kL (by assumption)))
      exact Keeps.mkSnd (State.bump_keeps (State.recordEntry_keeps kL (by assumption)))
    exact Keeps.mkSnd (State.bump_keeps (by assumption))
  · refine Keeps.snd_ite (fun _ => ?_) fun _ => ?_
    · exact Keeps.mkSnd (by assumption)
    exact Keeps.mkSnd (State.setCap_keeps kA (by assumption))
  · refine Keeps.snd_ite (fun _ => ?_) fun _ => ?_
    · exact Keeps.mkSnd (State.setCap_keeps kA (by assumption))
    exact Keeps.mkSnd (by assumption)
  · refine Keeps.snd_ite (fun _ => ?_) fun _ => ?_
    · exact Keeps.mkSnd (State.setCap_keeps kA (by assumption))
    exact Keeps.mkSnd (by assumption)
  · exact Keeps.mkSnd (by assumption)
  · exact Keeps.mkSnd (by assumption)
  exact Keeps.mkSnd (by assumption)

theorem State.closeRecord_keeps {r s1 : State} {a2 a3} (kD : k .device) (kS : k .sites) (kL : k .ledger) (kA : k .acquisition) (kY : k .memory) (kN : k .channels) (kK : k .link) (kF : k .faults) (h1 : Keeps k r s1) : Keeps k r (@State.closeRecord s1 a2 a3) := by
  unfold State.closeRecord
  split
  · refine Keeps.ite (fun _ => ?_) fun _ => ?_
    · exact State.commitRecord_keeps kD kS kL kA kY kN kK kF (by assumption)
    assumption
  assumption

theorem State.define_keeps {r s1 : State} {a2 a3 a4 a5 a6} (kP : k .pins) (kA : k .acquisition) (kT : k .time) (h1 : Keeps k r s1) : Keeps k r (@State.define s1 a2 a3 a4 a5 a6).2 := by
  unfold State.define
  refine Keeps.snd_ite (fun _ => ?_) fun _ => ?_
  · exact Keeps.mkSnd (State.dropRecord_keeps (by assumption))
  split
  · exact Keeps.mkSnd (State.dropRecord_keeps (by assumption))
  refine Keeps.mkSnd ?_
  refine Keeps.ite (fun _ => ?_) fun _ => ?_
  · refine State.setTu_keeps kA ?_
    refine State.evtPulse_keeps kP kT ?_
    refine State.bump_keeps ?_
    refine State.raise_keeps ?_
    refine Keeps.ite (fun _ => ?_) fun _ => ?_
    · refine Keeps.each ?_ fun _ _ _ => ?_
      · exact State.setCap_keeps kA (by assumption)
      refine Keeps.ite (fun _ => ?_) fun _ => ?_
      · exact State.setTu_keeps kA (by assumption)
      assumption
    exact State.setCap_keeps kA (by assumption)
  refine Keeps.ite (fun _ => ?_) fun _ => ?_
  · refine Keeps.each ?_ fun _ _ _ => ?_
    · exact State.setCap_keeps kA (by assumption)
    refine Keeps.ite (fun _ => ?_) fun _ => ?_
    · exact State.setTu_keeps kA (by assumption)
    assumption
  exact State.setCap_keeps kA (by assumption)

theorem State.endFull_keeps {r s1 : State} {a2} (kD : k .device) (kS : k .sites) (kL : k .ledger) (kA : k .acquisition) (kY : k .memory) (kN : k .channels) (kK : k .link) (kF : k .faults) (h1 : Keeps k r s1) : Keeps k r (@State.endFull s1 a2) := by
  unfold State.endFull
  split
  · refine Keeps.ite (fun _ => ?_) fun _ => ?_
    · exact State.commitFit_keeps kD kS kL kA kY kN kK kF (by assumption)
    assumption
  assumption

theorem State.trigger_keeps {r s1 : State} {a2 a3 a4 a5 a6} (kD : k .device) (kS : k .sites) (kP : k .pins) (kL : k .ledger) (kA : k .acquisition) (kT : k .time) (kY : k .memory) (kN : k .channels) (kK : k .link) (kF : k .faults) (h1 : Keeps k r s1) : Keeps k r (@State.trigger s1 a2 a3 a4 a5 a6) := by
  unfold State.trigger
  refine State.closeRecord_keeps kD kS kL kA kY kN kK kF ?_
  exact State.endFull_keeps kD kS kL kA kY kN kK kF (State.define_keeps kP kA kT (by assumption))

theorem State.hostDecision_keeps {r s1 : State} {a2} (kD : k .device) (kS : k .sites) (kP : k .pins) (kL : k .ledger) (kA : k .acquisition) (kT : k .time) (kY : k .memory) (kN : k .channels) (kK : k .link) (kF : k .faults) (h1 : Keeps k r s1) : Keeps k r (@State.hostDecision s1 a2) := by
  unfold State.hostDecision
  try dsimp only
  split
  · assumption
  try dsimp only
  split
  · exact State.bump_keeps (State.setCap_keeps kA (by assumption))
  refine Keeps.ite (fun _ => ?_) fun _ => ?_
  · exact State.bump_keeps (State.setCap_keeps kA (by assumption))
  exact State.trigger_keeps kD kS kP kL kA kT kY kN kK kF (State.setCap_keeps kA (by assumption))

theorem State.missAll_keeps {r s1 : State} {a2 a3} (h1 : Keeps k r s1) : Keeps k r (@State.missAll s1 a2 a3) := by
  unfold State.missAll
  refine Keeps.ite (fun _ => ?_) fun _ => ?_
  · assumption
  refine State.raise_keeps ?_
  refine State.bump_keeps ?_
  refine Keeps.each ?_ fun _ _ _ => ?_
  · assumption
  exact State.bump_keeps (by assumption)

theorem State.note_keeps {r s1 : State} {a2 a3} (kA : k .acquisition) (h1 : Keeps k r s1) : Keeps k r (@State.note s1 a2 a3) := by
  unfold State.note
  exact State.setCap_keeps kA (by assumption)

theorem State.ringTake_keeps {r s1 : State} {a2 a3} (kA : k .acquisition) (h1 : Keeps k r s1) : Keeps k r (@State.ringTake s1 a2 a3) := by
  unfold State.ringTake
  refine Keeps.ite (fun _ => ?_) fun _ => ?_
  · exact State.note_keeps kA (State.setCap_keeps kA (by assumption))
  exact State.note_keeps kA (State.setCap_keeps kA (by assumption))

theorem State.dropSample_keeps {r s1 : State} {a2 a3 a4} (kA : k .acquisition) (h1 : Keeps k r s1) : Keeps k r (@State.dropSample s1 a2 a3 a4) := by
  unfold State.dropSample
  exact State.bump_keeps (State.setCap_keeps kA (by assumption))

theorem State.postTake_keeps {r s1 : State} {a2 a3} (kD : k .device) (kS : k .sites) (kL : k .ledger) (kA : k .acquisition) (kY : k .memory) (kN : k .channels) (kK : k .link) (kF : k .faults) (h1 : Keeps k r s1) : Keeps k r (@State.postTake s1 a2 a3) := by
  unfold State.postTake
  try dsimp only
  split
  · assumption
  refine Keeps.ite (fun _ => ?_) fun _ => ?_
  · exact State.dropSample_keeps kA (by assumption)
  refine Keeps.ite (fun _ => ?_) fun _ => ?_
  · exact State.ringTake_keeps kA (State.commitRecord_keeps kD kS kL kA kY kN kK kF (by assumption))
  exact State.closeRecord_keeps kD kS kL kA kY kN kK kF (State.setCap_keeps kA (by assumption))

theorem State.decideUnits_keeps {r s1 : State} {a2 a3 a4 a5 a6 a7} (kD : k .device) (kS : k .sites) (kP : k .pins) (kL : k .ledger) (kA : k .acquisition) (kT : k .time) (kY : k .memory) (kN : k .channels) (kK : k .link) (kF : k .faults) (h1 : Keeps k r s1) : Keeps k r (@State.decideUnits s1 a2 a3 a4 a5 a6 a7) := by
  unfold State.decideUnits
  try dsimp only
  split
  · refine Keeps.ite (fun _ => ?_) fun _ => ?_
    · assumption
    refine State.bump_keeps ?_
    refine Keeps.each ?_ fun _ _ _ => ?_
    · assumption
    exact State.setTu_keeps kA (by assumption)
  exact State.trigger_keeps kD kS kP kL kA kT kY kN kK kF (by assumption)

theorem State.forceTrigger_keeps {r s1 : State} {a2 a3 a4} (kD : k .device) (kS : k .sites) (kP : k .pins) (kL : k .ledger) (kA : k .acquisition) (kT : k .time) (kY : k .memory) (kN : k .channels) (kK : k .link) (kF : k .faults) (h1 : Keeps k r s1) : Keeps k r (@State.forceTrigger s1 a2 a3 a4) := by
  unfold State.forceTrigger
  refine Keeps.ite (fun _ => ?_) fun _ => ?_
  · refine State.setCap_keeps kA ?_
    exact State.trigger_keeps kD kS kP kL kA kT kY kN kK kF (State.setCap_keeps kA (by assumption))
  exact State.trigger_keeps kD kS kP kL kA kT kY kN kK kF (State.setCap_keeps kA (by assumption))

theorem State.evalUnit_keeps {r s1 : State} {a2 a3 a4 a5} (kA : k .acquisition) (h1 : Keeps k r s1) : Keeps k r (@State.evalUnit s1 a2 a3 a4 a5).2 := by
  unfold State.evalUnit
  refine Keeps.snd_ite (fun _ => ?_) fun _ => ?_
  · exact Keeps.mkSnd (State.setTu_keeps kA (by assumption))
  refine Keeps.snd_ite (fun _ => ?_) fun _ => ?_
  · exact Keeps.mkSnd (by assumption)
  refine Keeps.snd_ite (fun _ => ?_) fun _ => ?_
  · refine Keeps.snd_ite (fun _ => ?_) fun _ => ?_
    · refine Keeps.snd_ite (fun _ => ?_) fun _ => ?_
      · exact Keeps.mkSnd (State.setTu_keeps kA (by assumption))
      exact Keeps.mkSnd (State.setTu_keeps kA (by assumption))
    exact Keeps.mkSnd (State.setTu_keeps kA (by assumption))
  exact Keeps.mkSnd (State.setTu_keeps kA (by assumption))

theorem State.evalUnits_keeps {r s1 : State} {a2 a3} (kA : k .acquisition) (h1 : Keeps k r s1) : Keeps k r (@State.evalUnits s1 a2 a3).2 := by
  unfold State.evalUnits
  refine Keeps.foldlSnd ?_ fun _ _ _ => ?_
  · exact Keeps.mkSnd (by assumption)
  refine Keeps.snd_ite (fun _ => ?_) fun _ => ?_
  · refine Keeps.snd_ite (fun _ => ?_) fun _ => ?_
    · exact Keeps.mkSnd (State.evalUnit_keeps kA (by assumption))
    exact Keeps.mkSnd (State.evalUnit_keeps kA (by assumption))
  assumption

theorem State.takeSample_keeps {r s1 : State} {a2 a3 a4} (kD : k .device) (kS : k .sites) (kP : k .pins) (kL : k .ledger) (kA : k .acquisition) (kT : k .time) (kY : k .memory) (kN : k .channels) (kK : k .link) (kF : k .faults) (h1 : Keeps k r s1) : Keeps k r (@State.takeSample s1 a2 a3 a4) := by
  unfold State.takeSample
  try dsimp only
  split
  · refine Keeps.ite (fun _ => ?_) fun _ => ?_
    · refine State.forceTrigger_keeps kD kS kP kL kA kT kY kN kK kF ?_
      refine Keeps.ite (fun _ => ?_) fun _ => ?_
      · refine State.ringTake_keeps kA ?_
        refine State.evalUnits_keeps kA ?_
        refine Keeps.ite (fun _ => ?_) fun _ => ?_
        · refine Keeps.ite (fun _ => ?_) fun _ => ?_
          · exact State.stageOut_keeps kA kN (by assumption)
          assumption
        refine State.autoMarkers_keeps kA ?_
        refine Keeps.ite (fun _ => ?_) fun _ => ?_
        · exact State.stageOut_keeps kA kN (by assumption)
        assumption
      refine State.candidates_keeps kA ?_
      refine State.ringTake_keeps kA ?_
      refine State.evalUnits_keeps kA ?_
      refine Keeps.ite (fun _ => ?_) fun _ => ?_
      · refine Keeps.ite (fun _ => ?_) fun _ => ?_
        · exact State.stageOut_keeps kA kN (by assumption)
        assumption
      refine State.autoMarkers_keeps kA ?_
      refine Keeps.ite (fun _ => ?_) fun _ => ?_
      · exact State.stageOut_keeps kA kN (by assumption)
      assumption
    refine Keeps.ite (fun _ => ?_) fun _ => ?_
    · refine State.decideUnits_keeps kD kS kP kL kA kT kY kN kK kF ?_
      refine Keeps.ite (fun _ => ?_) fun _ => ?_
      · refine State.ringTake_keeps kA ?_
        refine State.evalUnits_keeps kA ?_
        refine Keeps.ite (fun _ => ?_) fun _ => ?_
        · refine Keeps.ite (fun _ => ?_) fun _ => ?_
          · exact State.stageOut_keeps kA kN (by assumption)
          assumption
        refine State.autoMarkers_keeps kA ?_
        refine Keeps.ite (fun _ => ?_) fun _ => ?_
        · exact State.stageOut_keeps kA kN (by assumption)
        assumption
      refine State.candidates_keeps kA ?_
      refine State.ringTake_keeps kA ?_
      refine State.evalUnits_keeps kA ?_
      refine Keeps.ite (fun _ => ?_) fun _ => ?_
      · refine Keeps.ite (fun _ => ?_) fun _ => ?_
        · exact State.stageOut_keeps kA kN (by assumption)
        assumption
      refine State.autoMarkers_keeps kA ?_
      refine Keeps.ite (fun _ => ?_) fun _ => ?_
      · exact State.stageOut_keeps kA kN (by assumption)
      assumption
    refine State.decideUnits_keeps kD kS kP kL kA kT kY kN kK kF ?_
    refine Keeps.ite (fun _ => ?_) fun _ => ?_
    · refine State.ringTake_keeps kA ?_
      refine State.evalUnits_keeps kA ?_
      refine Keeps.ite (fun _ => ?_) fun _ => ?_
      · refine Keeps.ite (fun _ => ?_) fun _ => ?_
        · exact State.stageOut_keeps kA kN (by assumption)
        assumption
      refine State.autoMarkers_keeps kA ?_
      refine Keeps.ite (fun _ => ?_) fun _ => ?_
      · exact State.stageOut_keeps kA kN (by assumption)
      assumption
    refine State.candidates_keeps kA ?_
    refine State.ringTake_keeps kA ?_
    refine State.evalUnits_keeps kA ?_
    refine Keeps.ite (fun _ => ?_) fun _ => ?_
    · refine Keeps.ite (fun _ => ?_) fun _ => ?_
      · exact State.stageOut_keeps kA kN (by assumption)
      assumption
    refine State.autoMarkers_keeps kA ?_
    refine Keeps.ite (fun _ => ?_) fun _ => ?_
    · exact State.stageOut_keeps kA kN (by assumption)
    assumption
  · refine State.postTake_keeps kD kS kL kA kY kN kK kF ?_
    refine State.missAll_keeps ?_
    refine State.evalUnits_keeps kA ?_
    refine Keeps.ite (fun _ => ?_) fun _ => ?_
    · refine Keeps.ite (fun _ => ?_) fun _ => ?_
      · exact State.stageOut_keeps kA kN (by assumption)
      assumption
    refine State.autoMarkers_keeps kA ?_
    refine Keeps.ite (fun _ => ?_) fun _ => ?_
    · exact State.stageOut_keeps kA kN (by assumption)
    assumption
  refine State.ringTake_keeps kA ?_
  refine State.missAll_keeps ?_
  refine State.evalUnits_keeps kA ?_
  refine Keeps.ite (fun _ => ?_) fun _ => ?_
  · refine Keeps.ite (fun _ => ?_) fun _ => ?_
    · exact State.stageOut_keeps kA kN (by assumption)
    assumption
  refine State.autoMarkers_keeps kA ?_
  refine Keeps.ite (fun _ => ?_) fun _ => ?_
  · exact State.stageOut_keeps kA kN (by assumption)
  assumption

theorem State.captureTick_keeps {r s1 : State} {a2} (kD : k .device) (kS : k .sites) (kP : k .pins) (kL : k .ledger) (kA : k .acquisition) (kT : k .time) (kY : k .memory) (kN : k .channels) (kK : k .link) (kF : k .faults) (h1 : Keeps k r s1) : Keeps k r (@State.captureTick s1 a2) := by
  unfold State.captureTick
  refine Keeps.ite (fun _ => ?_) fun _ => ?_
  · exact State.stageOut_keeps kA kN (State.setCap_keeps kA (by assumption))
  refine Keeps.ite (fun _ => ?_) fun _ => ?_
  · refine State.setCap_keeps kA ?_
    refine Keeps.ite (fun _ => ?_) fun _ => ?_
    · refine State.setCap_keeps kA ?_
      refine State.stageOut_keeps kA kN ?_
      refine State.hostDecision_keeps kD kS kP kL kA kT kY kN kK kF ?_
      refine Keeps.foldlSnd ?_ fun _ _ _ => ?_
      · exact Keeps.mkSnd (State.setCap_keeps kA (by assumption))
      exact Keeps.mkSnd (State.takeSample_keeps kD kS kP kL kA kT kY kN kK kF (by assumption))
    refine State.stageOut_keeps kA kN ?_
    refine State.hostDecision_keeps kD kS kP kL kA kT kY kN kK kF ?_
    refine Keeps.foldlSnd ?_ fun _ _ _ => ?_
    · exact Keeps.mkSnd (State.setCap_keeps kA (by assumption))
    exact Keeps.mkSnd (State.takeSample_keeps kD kS kP kL kA kT kY kN kK kF (by assumption))
  refine State.setCap_keeps kA ?_
  refine Keeps.ite (fun _ => ?_) fun _ => ?_
  · refine State.setCap_keeps kA ?_
    refine State.stageOut_keeps kA kN ?_
    refine State.hostDecision_keeps kD kS kP kL kA kT kY kN kK kF ?_
    refine Keeps.foldlSnd ?_ fun _ _ _ => ?_
    · exact Keeps.mkSnd (State.setCap_keeps kA (by assumption))
    exact Keeps.mkSnd (State.takeSample_keeps kD kS kP kL kA kT kY kN kK kF (by assumption))
  refine State.stageOut_keeps kA kN ?_
  refine State.hostDecision_keeps kD kS kP kL kA kT kY kN kK kF ?_
  refine Keeps.foldlSnd ?_ fun _ _ _ => ?_
  · exact Keeps.mkSnd (State.setCap_keeps kA (by assumption))
  exact Keeps.mkSnd (State.takeSample_keeps kD kS kP kL kA kT kY kN kK kF (by assumption))

theorem State.hostTrigger_keeps {r s1 : State} {a2 a3} (kA : k .acquisition) (h1 : Keeps k r s1) : Keeps k r (@State.hostTrigger s1 a2 a3).2 := by
  unfold State.hostTrigger
  refine Keeps.snd_ite (fun _ => ?_) fun _ => ?_
  · exact Keeps.mkSnd (State.bump_keeps (by assumption))
  refine Keeps.snd_ite (fun _ => ?_) fun _ => ?_
  · exact Keeps.mkSnd (State.setCap_keeps kA (by assumption))
  exact Keeps.mkSnd (State.bump_keeps (by assumption))

theorem State.loseCapture_keeps {r s1 : State} {a2 a3} (kD : k .device) (kL : k .ledger) (kA : k .acquisition) (kY : k .memory) (kN : k .channels) (kK : k .link) (kF : k .faults) (h1 : Keeps k r s1) : Keeps k r (@State.loseCapture s1 a2 a3) := by
  unfold State.loseCapture
  refine Keeps.ite (fun _ => ?_) fun _ => ?_
  · exact State.setCap_keeps kA (by assumption)
  refine Keeps.ite (fun _ => ?_) fun _ => ?_
  · exact State.setCap_keeps kA (by assumption)
  split
  · refine State.exportLost_keeps kD kA kN kK kF ?_
    exact State.storeResults_keeps kD kY kN kF (State.setRec_keeps kA (Keeps.put_inn kL (by assumption)))
  assumption

theorem execRecordExported_keeps {r s2 : State} {a1} (kA : k .acquisition) (h2 : Keeps k r s2) : KeepsOut k r (@execRecordExported a1 s2) := by
  unfold execRecordExported
  refine Keeps.out_ite (fun _ => ?_) fun _ => ?_
  · exact KeepsOut.next (State.freeRing_keeps kA (State.setRec_keeps kA (by assumption)))
  exact KeepsOut.next (by assumption)

theorem execAutoTrigger_keeps {r s2 : State} {a1} (kA : k .acquisition) (h2 : Keeps k r s2) : KeepsOut k r (@execAutoTrigger a1 s2) := by
  unfold execAutoTrigger
  try dsimp only
  split
  · refine Keeps.out_ite (fun _ => ?_) fun _ => ?_
    · exact KeepsOut.next (State.setCap_keeps kA (by assumption))
    exact KeepsOut.next (by assumption)
  exact KeepsOut.next (by assumption)

theorem execHoldoffEnd_keeps {r s2 : State} {a1} (kL : k .ledger) (kA : k .acquisition) (h2 : Keeps k r s2) : KeepsOut k r (@execHoldoffEnd a1 s2) := by
  unfold execHoldoffEnd
  refine Keeps.out_ite (fun _ => ?_) fun _ => ?_
  · exact KeepsOut.next (State.enterPre_keeps kA (State.openEntry_keeps kL kA (State.retune_keeps kA (by assumption))))
  exact KeepsOut.next (by assumption)

theorem State.formVerdict_keeps {r s1 : State} {a2 a3 a4 a5} (kS : k .sites) (kL : k .ledger) (kV : k .passport) (h1 : Keeps k r s1) : Keeps k r (@State.formVerdict s1 a2 a3 a4 a5) := by
  unfold State.formVerdict
  exact State.postService_keeps kL (State.modSite_keeps kS (Keeps.put_pass kV (by assumption)))

theorem State.formPending_keeps {r s1 : State} {a2} (kS : k .sites) (kL : k .ledger) (kV : k .passport) (h1 : Keeps k r s1) : Keeps k r (@State.formPending s1 a2) := by
  unfold State.formPending
  split
  · exact State.formVerdict_keeps kS kL kV (by assumption)
  assumption

theorem State.hashRelease_keeps {r s1 : State} {a2} (kS : k .sites) (h1 : Keeps k r s1) : Keeps k r (@State.hashRelease s1 a2) := by
  unfold State.hashRelease
  refine State.modSite_keeps kS ?_
  refine State.setNat_keeps ?_
  refine Keeps.each ?_ fun _ _ _ => ?_
  · refine Keeps.each ?_ fun _ _ _ => ?_
    · assumption
    exact State.setNat_keeps (by assumption)
  exact State.setOct_keeps (by assumption)

theorem State.bindRange_keeps {r s1 : State} {a2 a3 a4} (h1 : Keeps k r s1) : Keeps k r (@State.bindRange s1 a2 a3 a4).2 := by
  unfold State.bindRange
  split
  · exact Keeps.mkSnd (State.setNat_keeps (by assumption))
  exact Keeps.mkSnd (by assumption)

theorem State.bindStreams_keeps {r s1 : State} {a2} (h1 : Keeps k r s1) : Keeps k r (@State.bindStreams s1 a2).2 := by
  unfold State.bindStreams
  refine Keeps.foldlSnd ?_ fun _ _ _ => ?_
  · exact Keeps.mkSnd (by assumption)
  refine Keeps.snd_ite (fun _ => ?_) fun _ => ?_
  · exact Keeps.mkSnd (State.bindRange_keeps (by assumption))
  assumption

theorem State.hashArm_keeps {r s1 : State} {a2} (kS : k .sites) (h1 : Keeps k r s1) : Keeps k r (@State.hashArm s1 a2) := by
  unfold State.hashArm
  refine Keeps.ite (fun _ => ?_) fun _ => ?_
  · refine State.raise_keeps ?_
    exact State.setNat_keeps (State.modSite_keeps kS (State.setOct_keeps (State.setOct_keeps (State.setOct_keeps (State.bindStreams_keeps (by assumption))))))
  exact State.setNat_keeps (State.modSite_keeps kS (State.setOct_keeps (State.setOct_keeps (State.setOct_keeps (State.bindStreams_keeps (by assumption))))))

theorem State.hashLoad_keeps {r s1 : State} {a2 a3} (h1 : Keeps k r s1) : Keeps k r (@State.hashLoad s1 a2 a3) := by
  unfold State.hashLoad
  exact State.setNat_keeps (State.setOct_keeps (State.setOct_keeps (State.bindRange_keeps (State.bindRange_keeps (by assumption)))))

end Sys2Proof.Machine
end

