-- ==== Sys2Proof/Laws/KeepsSites.lean ====
section
/-! SUPPORT. What the operations of a group keep: measurement, serial links, sites, the vector path and playback. One lemma for each operation, over `Keeps`. -/

namespace Sys2Proof.Machine

variable {k : Part → Prop}

theorem State.incomplete_keeps {r s1 : State} {a2 a3} (kS : k .sites) (h1 : Keeps k r s1) : Keeps k r (@State.incomplete s1 a2 a3) := by
  unfold State.incomplete
  exact State.modSite_keeps kS (by assumption)

theorem State.gatePins_keeps {r s1 : State} {a2 a3 a4} (kP : k .pins) (h1 : Keeps k r s1) : Keeps k r (@State.gatePins s1 a2 a3 a4) := by
  unfold State.gatePins
  refine Keeps.each ?_ fun _ _ _ => ?_
  · assumption
  exact State.modPin_keeps kP (State.noteRuns_keeps kP (by assumption))

theorem State.cancelMeas_keeps {r s1 : State} {a2} (kS : k .sites) (kP : k .pins) (kL : k .ledger) (kM : k .measure) (h1 : Keeps k r s1) : Keeps k r (@State.cancelMeas s1 a2) := by
  unfold State.cancelMeas
  refine State.incomplete_keeps kS ?_
  refine State.setDef_keeps kM ?_
  split
  · refine State.freeEntry_keeps kL ?_
    refine Keeps.ite (fun _ => ?_) fun _ => ?_
    · exact State.gatePins_keeps kP (by assumption)
    assumption
  refine Keeps.ite (fun _ => ?_) fun _ => ?_
  · exact State.gatePins_keeps kP (by assumption)
  assumption

theorem State.cancelSiteMeas_keeps {r s1 : State} {a2} (kS : k .sites) (kP : k .pins) (kL : k .ledger) (kM : k .measure) (h1 : Keeps k r s1) : Keeps k r (@State.cancelSiteMeas s1 a2) := by
  unfold State.cancelSiteMeas
  refine Keeps.each ?_ fun _ _ _ => ?_
  · assumption
  exact State.cancelMeas_keeps kS kP kL kM (by assumption)

theorem State.parkGates_keeps {r s1 : State} {a2 a3} (kM : k .measure) (h1 : Keeps k r s1) : Keeps k r (@State.parkGates s1 a2 a3) := by
  unfold State.parkGates
  refine Keeps.each ?_ fun _ _ _ => ?_
  · assumption
  exact State.setDef_keeps kM (by assumption)

theorem State.parkMeas_keeps {r s1 : State} {a2 a3} (kM : k .measure) (h1 : Keeps k r s1) : Keeps k r (@State.parkMeas s1 a2 a3) := by
  unfold State.parkMeas
  exact State.parkGates_keeps kM (by assumption)

theorem State.placeMeas_keeps {r s1 : State} {a2 a3} (kM : k .measure) (h1 : Keeps k r s1) : Keeps k r (@State.placeMeas s1 a2 a3) := by
  unfold State.placeMeas
  refine Keeps.ite (fun _ => ?_) fun _ => ?_
  · exact State.setDef_keeps kM (by assumption)
  assumption

theorem State.armMeas_keeps {r s1 : State} {a2 a3 a4} (kS : k .sites) (kL : k .ledger) (kM : k .measure) (h1 : Keeps k r s1) : Keeps k r (@State.armMeas s1 a2 a3 a4) := by
  unfold State.armMeas
  refine Keeps.ite (fun _ => ?_) fun _ => ?_
  · refine State.bump_keeps ?_
    refine Keeps.ite (fun _ => ?_) fun _ => ?_
    · exact State.modSite_keeps kS (by assumption)
    assumption
  refine Keeps.ite (fun _ => ?_) fun _ => ?_
  · refine State.incomplete_keeps kS ?_
    refine State.bump_keeps ?_
    refine Keeps.ite (fun _ => ?_) fun _ => ?_
    · exact State.modSite_keeps kS (by assumption)
    assumption
  try dsimp only
  split
  · refine State.incomplete_keeps kS ?_
    refine State.allocGeneral_keeps kL ?_
    refine Keeps.ite (fun _ => ?_) fun _ => ?_
    · exact State.modSite_keeps kS (by assumption)
    assumption
  refine State.setDef_keeps kM ?_
  refine State.allocGeneral_keeps kL ?_
  refine Keeps.ite (fun _ => ?_) fun _ => ?_
  · exact State.modSite_keeps kS (by assumption)
  assumption

theorem State.completeMeas_keeps {r s1 : State} {a2 a3 a4} (kP : k .pins) (kM : k .measure) (h1 : Keeps k r s1) : Keeps k r (@State.completeMeas s1 a2 a3 a4) := by
  unfold State.completeMeas
  exact State.gatePins_keeps kP (State.setDef_keeps kM (by assumption))

theorem State.checkRepeat_keeps {r s1 : State} {a2 a3} (kP : k .pins) (kM : k .measure) (h1 : Keeps k r s1) : Keeps k r (@State.checkRepeat s1 a2 a3) := by
  unfold State.checkRepeat
  refine Keeps.ite (fun _ => ?_) fun _ => ?_
  · exact State.completeMeas_keeps kP kM (by assumption)
  assumption

theorem State.publishMeas_keeps {r s1 : State} {a2} (kS : k .sites) (kL : k .ledger) (kM : k .measure) (h1 : Keeps k r s1) : Keeps k r (@State.publishMeas s1 a2) := by
  unfold State.publishMeas
  refine Keeps.ite (fun _ => ?_) fun _ => ?_
  · refine State.raise_keeps ?_
    refine State.raise_keeps ?_
    refine State.raise_keeps ?_
    refine State.bump_keeps ?_
    refine State.modSite_keeps kS ?_
    refine State.setDef_keeps kM ?_
    split
    · exact State.freeEntry_keeps kL (by assumption)
    assumption
  refine State.raise_keeps ?_
  refine State.raise_keeps ?_
  refine State.bump_keeps ?_
  refine State.modSite_keeps kS ?_
  refine State.setDef_keeps kM ?_
  split
  · exact State.freeEntry_keeps kL (by assumption)
  assumption

theorem State.publishAll_keeps {r s1 : State} (kS : k .sites) (kL : k .ledger) (kM : k .measure) (h1 : Keeps k r s1) : Keeps k r (@State.publishAll s1) := by
  unfold State.publishAll
  refine Keeps.each ?_ fun _ _ _ => ?_
  · assumption
  exact State.publishMeas_keeps kS kL kM (by assumption)

theorem State.edgeFreq_keeps {r s1 : State} {a2 a3} (kP : k .pins) (kM : k .measure) (h1 : Keeps k r s1) : Keeps k r (@State.edgeFreq s1 a2 a3) := by
  unfold State.edgeFreq
  refine Keeps.ite (fun _ => ?_) fun _ => ?_
  · assumption
  split
  · exact State.setDef_keeps kM (by assumption)
  refine Keeps.ite (fun _ => ?_) fun _ => ?_
  · exact State.checkRepeat_keeps kP kM (State.setDef_keeps kM (by assumption))
  exact State.setDef_keeps kM (by assumption)

theorem State.pairDone_keeps {r s1 : State} {a2 a3 a4 a5} (kP : k .pins) (kM : k .measure) (h1 : Keeps k r s1) : Keeps k r (@State.pairDone s1 a2 a3 a4 a5) := by
  unfold State.pairDone
  refine Keeps.ite (fun _ => ?_) fun _ => ?_
  · exact State.setDef_keeps kM (by assumption)
  exact State.checkRepeat_keeps kP kM (State.setDef_keeps kM (by assumption))

theorem State.edgeSpan_keeps {r s1 : State} {a2 a3 a4 a5} (kP : k .pins) (kM : k .measure) (h1 : Keeps k r s1) : Keeps k r (@State.edgeSpan s1 a2 a3 a4 a5) := by
  unfold State.edgeSpan
  try dsimp only
  split
  · refine Keeps.ite (fun _ => ?_) fun _ => ?_
    · exact State.setDef_keeps kM (by assumption)
    assumption
  refine Keeps.ite (fun _ => ?_) fun _ => ?_
  · refine Keeps.ite (fun _ => ?_) fun _ => ?_
    · exact State.setDef_keeps kM (State.pairDone_keeps kP kM (by assumption))
    exact State.pairDone_keeps kP kM (by assumption)
  assumption

theorem State.orderedPair_keeps {r s1 : State} {a2 a3} (kP : k .pins) (kM : k .measure) (h1 : Keeps k r s1) : Keeps k r (@State.orderedPair s1 a2 a3) := by
  unfold State.orderedPair
  refine Keeps.ite (fun _ => ?_) fun _ => ?_
  · exact State.pairDone_keeps kP kM (by assumption)
  refine Keeps.ite (fun _ => ?_) fun _ => ?_
  · exact State.setDef_keeps kM (State.pairDone_keeps kP kM (State.free_keeps (by assumption)))
  exact State.setDef_keeps kM (State.free_keeps (by assumption))

theorem State.edgeTi_keeps {r s1 : State} {a2 a3 a4 a5} (kP : k .pins) (kM : k .measure) (h1 : Keeps k r s1) : Keeps k r (@State.edgeTi s1 a2 a3 a4 a5) := by
  unfold State.edgeTi
  refine Keeps.ite (fun _ => ?_) fun _ => ?_
  · split
    · assumption
    · refine Keeps.ite (fun _ => ?_) fun _ => ?_
      · exact State.pairDone_keeps kP kM (by assumption)
      refine Keeps.ite (fun _ => ?_) fun _ => ?_
      · exact State.orderedPair_keeps kP kM (by assumption)
      exact State.setDef_keeps kM (by assumption)
    exact State.setDef_keeps kM (by assumption)
  refine Keeps.ite (fun _ => ?_) fun _ => ?_
  · split
    · exact State.pairDone_keeps kP kM (by assumption)
    · refine Keeps.ite (fun _ => ?_) fun _ => ?_
      · assumption
      exact State.setDef_keeps kM (by assumption)
    exact State.setDef_keeps kM (by assumption)
  assumption

theorem State.lostEdge_keeps {r s1 : State} {a2 a3 a4} (kM : k .measure) (h1 : Keeps k r s1) : Keeps k r (@State.lostEdge s1 a2 a3 a4) := by
  unfold State.lostEdge
  refine Keeps.each ?_ fun _ _ _ => ?_
  · assumption
  refine Keeps.ite (fun _ => ?_) fun _ => ?_
  · refine Keeps.ite (fun _ => ?_) fun _ => ?_
    · exact State.setDef_keeps kM (by assumption)
    assumption
  refine Keeps.ite (fun _ => ?_) fun _ => ?_
  · exact State.setDef_keeps kM (by assumption)
  assumption

theorem State.measEdge_keeps {r s1 : State} {a2 a3 a4 a5 a6} (kP : k .pins) (kM : k .measure) (h1 : Keeps k r s1) : Keeps k r (@State.measEdge s1 a2 a3 a4 a5 a6) := by
  unfold State.measEdge
  refine Keeps.ite (fun _ => ?_) fun _ => ?_
  · assumption
  try dsimp only
  split
  · exact State.edgeTi_keeps kP kM (State.setDef_keeps kM (by assumption))
  · exact State.edgeSpan_keeps kP kM (State.setDef_keeps kM (by assumption))
  · refine Keeps.ite (fun _ => ?_) fun _ => ?_
    · exact State.edgeSpan_keeps kP kM (State.setDef_keeps kM (by assumption))
    exact State.setDef_keeps kM (by assumption)
  · refine Keeps.ite (fun _ => ?_) fun _ => ?_
    · exact State.edgeSpan_keeps kP kM (State.setDef_keeps kM (by assumption))
    exact State.setDef_keeps kM (by assumption)
  · refine Keeps.ite (fun _ => ?_) fun _ => ?_
    · exact State.edgeFreq_keeps kP kM (State.setDef_keeps kM (by assumption))
    exact State.setDef_keeps kM (by assumption)
  exact State.setDef_keeps kM (by assumption)

theorem State.openGate_keeps {r s1 : State} {a2 a3 a4} (kP : k .pins) (kM : k .measure) (h1 : Keeps k r s1) : Keeps k r (@State.openGate s1 a2 a3 a4) := by
  unfold State.openGate
  exact State.gatePins_keeps kP (State.setDef_keeps kM (by assumption))

theorem execVernierDone_keeps {r s2 : State} {a1} (kP : k .pins) (kM : k .measure) (h2 : Keeps k r s2) : KeepsOut k r (@execVernierDone a1 s2) := by
  unfold execVernierDone
  split
  · exact KeepsOut.next (by assumption)
  try dsimp only
  split
  · exact KeepsOut.next (by assumption)
  refine Keeps.out_ite (fun _ => ?_) fun _ => ?_
  · exact KeepsOut.next (State.completeMeas_keeps kP kM (State.setDef_keeps kM (State.free_keeps (by assumption))))
  exact KeepsOut.next (State.checkRepeat_keeps kP kM (State.setDef_keeps kM (State.free_keeps (by assumption))))

theorem execGateClose_keeps {r s3 : State} {a1 a2} (kP : k .pins) (kM : k .measure) (h3 : Keeps k r s3) : KeepsOut k r (@execGateClose a1 a2 s3) := by
  unfold execGateClose
  refine Keeps.out_ite (fun _ => ?_) fun _ => ?_
  · exact KeepsOut.next (by assumption)
  refine Keeps.out_ite (fun _ => ?_) fun _ => ?_
  · refine Keeps.out_ite (fun _ => ?_) fun _ => ?_
    · exact KeepsOut.next (State.completeMeas_keeps kP kM (State.setDef_keeps kM (by assumption)))
    exact KeepsOut.next (by assumption)
  refine Keeps.out_ite (fun _ => ?_) fun _ => ?_
  · refine Keeps.out_ite (fun _ => ?_) fun _ => ?_
    · exact KeepsOut.next (State.setDef_keeps kM (by assumption))
    exact KeepsOut.next (State.completeMeas_keeps kP kM (State.setDef_keeps kM (by assumption)))
  exact KeepsOut.next (by assumption)

theorem execGateOpen_keeps {r s3 : State} {a1 a2} (kP : k .pins) (kM : k .measure) (h3 : Keeps k r s3) : KeepsOut k r (@execGateOpen a1 a2 s3) := by
  unfold execGateOpen
  try dsimp only
  split
  · refine Keeps.out_ite (fun _ => ?_) fun _ => ?_
    · exact KeepsOut.next (by assumption)
    try dsimp only
    split
    · refine Keeps.out_ite (fun _ => ?_) fun _ => ?_
      · exact KeepsOut.next (State.openGate_keeps kP kM (by assumption))
      exact KeepsOut.next (by assumption)
    · refine Keeps.out_ite (fun _ => ?_) fun _ => ?_
      · exact KeepsOut.next (State.openGate_keeps kP kM (by assumption))
      exact KeepsOut.next (by assumption)
    · refine Keeps.out_ite (fun _ => ?_) fun _ => ?_
      · exact KeepsOut.next (State.openGate_keeps kP kM (by assumption))
      refine Keeps.out_ite (fun _ => ?_) fun _ => ?_
      · exact KeepsOut.next (State.openGate_keeps kP kM (by assumption))
      exact KeepsOut.next (by assumption)
    exact KeepsOut.next (by assumption)
  · refine Keeps.out_ite (fun _ => ?_) fun _ => ?_
    · exact KeepsOut.next (State.setDef_keeps kM (by assumption))
    exact KeepsOut.next (by assumption)
  exact KeepsOut.next (by assumption)

theorem State.txEvent_keeps {r s1 : State} {a2 a3 a4 a5} (kS : k .sites) (h1 : Keeps k r s1) : Keeps k r (@State.txEvent s1 a2 a3 a4 a5) := by
  unfold State.txEvent
  split
  · refine Keeps.ite (fun _ => ?_) fun _ => ?_
    · exact State.raise_keeps (State.taint_keeps kS (State.bump_keeps (by assumption)))
    exact State.taint_keeps kS (State.bump_keeps (by assumption))
  · exact State.raise_keeps (State.bump_keeps (State.bump_keeps (by assumption)))
  exact State.raise_keeps (State.taintPath_keeps kS (State.count_keeps (State.bump_keeps (State.bump_keeps (by assumption)))))

theorem State.serialAdvance_keeps {r s1 : State} {a2 a3 a4} (kS : k .sites) (kP : k .pins) (h1 : Keeps k r s1) : Keeps k r (@State.serialAdvance s1 a2 a3 a4) := by
  unfold State.serialAdvance
  try dsimp only
  split
  · assumption
  split
  · assumption
  refine Keeps.ite (fun _ => ?_) fun _ => ?_
  · assumption
  refine Keeps.foldlSnd ?_ fun _ _ _ => ?_
  · exact Keeps.mkSnd (State.setNat_keeps (State.modPin_keeps kP (by assumption)))
  exact Keeps.mkSnd (State.txEvent_keeps kS (by assumption))

theorem State.serialPause_keeps {r s1 : State} {a2 a3 a4} (kS : k .sites) (kP : k .pins) (h1 : Keeps k r s1) : Keeps k r (@State.serialPause s1 a2 a3 a4) := by
  unfold State.serialPause
  exact State.modPin_keeps kP (State.serialAdvance_keeps kS kP (by assumption))

theorem State.sessionOver_keeps {r s1 : State} {a2 a3} (kP : k .pins) (h1 : Keeps k r s1) : Keeps k r (@State.sessionOver s1 a2 a3) := by
  unfold State.sessionOver
  exact State.clearDecisions_keeps kP (State.modPin_keeps kP (by assumption))

theorem State.serialEnd_keeps {r s1 : State} {a2 a3 a4} (kS : k .sites) (kP : k .pins) (h1 : Keeps k r s1) : Keeps k r (@State.serialEnd s1 a2 a3 a4) := by
  unfold State.serialEnd
  try dsimp only
  split
  · exact State.serialAdvance_keeps kS kP (State.modPin_keeps kP (by assumption))
  refine State.sessionOver_keeps kP ?_
  exact State.modPin_keeps kP (State.noteRuns_keeps kP (State.serialAdvance_keeps kS kP (State.modPin_keeps kP (by assumption))))

theorem State.serialStart_keeps {r s1 : State} {a2 a3 a4 a5} (kS : k .sites) (kP : k .pins) (h1 : Keeps k r s1) : Keeps k r (@State.serialStart s1 a2 a3 a4 a5) := by
  unfold State.serialStart
  split
  · assumption
  refine State.modPin_keeps kP ?_
  refine State.settleEvents_keeps kP ?_
  refine State.noteRuns_keeps kP ?_
  refine Keeps.ite (fun _ => ?_) fun _ => ?_
  · refine State.monChanges_keeps kP ?_
    refine State.setNat_keeps ?_
    refine State.setNat_keeps ?_
    refine Keeps.ite (fun _ => ?_) fun _ => ?_
    · exact State.serialEnd_keeps kS kP (by assumption)
    assumption
  refine State.setNat_keeps ?_
  refine State.setNat_keeps ?_
  refine Keeps.ite (fun _ => ?_) fun _ => ?_
  · exact State.serialEnd_keeps kS kP (by assumption)
  assumption

theorem State.serialResume_keeps {r s1 : State} {a2 a3 a4} (kP : k .pins) (h1 : Keeps k r s1) : Keeps k r (@State.serialResume s1 a2 a3 a4) := by
  unfold State.serialResume
  split
  · assumption
  refine Keeps.ite (fun _ => ?_) fun _ => ?_
  · assumption
  exact State.modPin_keeps kP (by assumption)

theorem State.rxBit_keeps {r s1 : State} {a2 a3} (kP : k .pins) (h1 : Keeps k r s1) : Keeps k r (@State.rxBit s1 a2 a3) := by
  unfold State.rxBit
  refine Keeps.ite (fun _ => ?_) fun _ => ?_
  · exact State.crossed_keeps (State.modPin_keeps kP (by assumption))
  exact State.modPin_keeps kP (by assumption)

theorem State.serialWord_keeps {r s1 : State} {a2 a3 a4 a5 a6} (kA : k .acquisition) (h1 : Keeps k r s1) : Keeps k r (@State.serialWord s1 a2 a3 a4 a5 a6) := by
  unfold State.serialWord
  refine Keeps.ite (fun _ => ?_) fun _ => ?_
  · exact State.setCap_keeps kA (by assumption)
  assumption

theorem execWordSlot_keeps {r s2 : State} {a1} (kS : k .sites) (kP : k .pins) (h2 : Keeps k r s2) : KeepsOut k r (@execWordSlot a1 s2) := by
  unfold execWordSlot
  split
  · split
    · refine Keeps.out_ite (fun _ => ?_) fun _ => ?_
      · exact KeepsOut.next (State.serialAdvance_keeps kS kP (by assumption))
      exact KeepsOut.next (by assumption)
    exact KeepsOut.next (by assumption)
  exact KeepsOut.next (by assumption)

theorem execSerialBitReceived_keeps {r s4 : State} {a1 a2 a3} (kS : k .sites) (kP : k .pins) (kA : k .acquisition) (h4 : Keeps k r s4) : KeepsOut k r (@execSerialBitReceived a1 a2 a3 s4) := by
  unfold execSerialBitReceived
  split
  · split
    · exact KeepsOut.next (by assumption)
    refine Keeps.out_ite (fun _ => ?_) fun _ => ?_
    · exact KeepsOut.next (by assumption)
    refine Keeps.out_ite (fun _ => ?_) fun _ => ?_
    · refine Keeps.out_ite (fun _ => ?_) fun _ => ?_
      · exact KeepsOut.next (State.modPin_keeps kP (State.serialWord_keeps kA (State.rxBit_keeps kP (by assumption))))
      exact KeepsOut.next (State.modPin_keeps kP (State.rxBit_keeps kP (by assumption)))
    refine Keeps.out_ite (fun _ => ?_) fun _ => ?_
    · try dsimp only
      split
      · exact KeepsOut.next (State.modPin_keeps kP (State.rxBit_keeps kP (by assumption)))
      refine KeepsOut.next ?_
      refine Keeps.ite (fun _ => ?_) fun _ => ?_
      · refine State.failNow_keeps kS ?_
        exact State.bump_keeps (State.modSite_keeps kS (State.bump_keeps (State.modPin_keeps kP (State.rxBit_keeps kP (by assumption)))))
      exact State.modSite_keeps kS (State.bump_keeps (State.modPin_keeps kP (State.rxBit_keeps kP (by assumption))))
    exact KeepsOut.next (State.rxBit_keeps kP (by assumption))
  exact KeepsOut.next (by assumption)

theorem execSerialUnderrun_keeps {r s2 : State} {a1} (kS : k .sites) (kP : k .pins) (h2 : Keeps k r s2) : KeepsOut k r (@execSerialUnderrun a1 s2) := by
  unfold execSerialUnderrun
  split
  · split
    · refine Keeps.out_ite (fun _ => ?_) fun _ => ?_
      · exact KeepsOut.next (State.serialAdvance_keeps kS kP (by assumption))
      exact KeepsOut.next (by assumption)
    exact KeepsOut.next (by assumption)
  exact KeepsOut.next (by assumption)

theorem execCdrSlip_keeps {r s3 : State} {a1 a2} (kS : k .sites) (kP : k .pins) (kA : k .acquisition) (h3 : Keeps k r s3) : KeepsOut k r (@execCdrSlip a1 a2 s3) := by
  unfold execCdrSlip
  split
  · refine Keeps.out_ite (fun _ => ?_) fun _ => ?_
    · try dsimp only
      split
      · refine Keeps.out_ite (fun _ => ?_) fun _ => ?_
        · refine KeepsOut.next ?_
          exact State.setCap_keeps kA (State.failNow_keeps kS (State.raise_keeps (State.bump_keeps (State.modPin_keeps kP (by assumption)))))
        exact KeepsOut.next (State.failNow_keeps kS (State.raise_keeps (State.bump_keeps (State.modPin_keeps kP (by assumption)))))
      exact KeepsOut.next (State.failNow_keeps kS (State.raise_keeps (State.bump_keeps (State.modPin_keeps kP (by assumption)))))
    exact KeepsOut.next (by assumption)
  exact KeepsOut.next (by assumption)

theorem execSerialLockTimeout_keeps {r s2 : State} {a1} (kS : k .sites) (kP : k .pins) (h2 : Keeps k r s2) : KeepsOut k r (@execSerialLockTimeout a1 s2) := by
  unfold execSerialLockTimeout
  split
  · split
    · refine Keeps.out_ite (fun _ => ?_) fun _ => ?_
      · exact KeepsOut.next (State.failNow_keeps kS (State.raise_keeps (State.modPin_keeps kP (by assumption))))
      exact KeepsOut.next (by assumption)
    exact KeepsOut.next (by assumption)
  exact KeepsOut.next (by assumption)

theorem execSerialLockLost_keeps {r s3 : State} {a1 a2} (kS : k .sites) (kP : k .pins) (h3 : Keeps k r s3) : KeepsOut k r (@execSerialLockLost a1 a2 s3) := by
  unfold execSerialLockLost
  split
  · refine Keeps.out_ite (fun _ => ?_) fun _ => ?_
    · exact KeepsOut.next (State.failNow_keeps kS (State.raise_keeps (State.bump_keeps (State.modPin_keeps kP (by assumption)))))
    exact KeepsOut.next (by assumption)
  exact KeepsOut.next (by assumption)

theorem execSerialLock_keeps {r s2 : State} {a1} (kP : k .pins) (h2 : Keeps k r s2) : KeepsOut k r (@execSerialLock a1 s2) := by
  unfold execSerialLock
  split
  · refine Keeps.out_ite (fun _ => ?_) fun _ => ?_
    · exact KeepsOut.next (State.raise_keeps (State.setReg_keeps (State.modPin_keeps kP (State.free_keeps (by assumption)))))
    exact KeepsOut.next (by assumption)
  exact KeepsOut.next (by assumption)

theorem execSerialSessionEnd_keeps {r s2 : State} {a1} (kS : k .sites) (kP : k .pins) (h2 : Keeps k r s2) : KeepsOut k r (@execSerialSessionEnd a1 s2) := by
  unfold execSerialSessionEnd
  split
  · split
    · refine Keeps.out_ite (fun _ => ?_) fun _ => ?_
      · exact KeepsOut.next (State.serialEnd_keeps kS kP (by assumption))
      exact KeepsOut.next (by assumption)
    exact KeepsOut.next (by assumption)
  exact KeepsOut.next (by assumption)

theorem execSerialSessionStart_keeps {r s2 : State} {a1} (kS : k .sites) (kP : k .pins) (h2 : Keeps k r s2) : KeepsOut k r (@execSerialSessionStart a1 s2) := by
  unfold execSerialSessionStart
  try dsimp only
  split
  · exact KeepsOut.next (State.serialStart_keeps kS kP (by assumption))
  exact KeepsOut.next (by assumption)

theorem State.sendAbort_keeps {r s1 : State} {a2 a3 a4} (kW : k .convoy) (h1 : Keeps k r s1) : Keeps k r (@State.sendAbort s1 a2 a3 a4) := by
  unfold State.sendAbort
  split
  · refine Keeps.ite (fun _ => ?_) fun _ => ?_
    · exact State.raise_keeps (State.bump_keeps (Keeps.put_convoy kW (by assumption)))
    assumption
  assumption

theorem State.dropPath_keeps {r s1 : State} {a2} (kS : k .sites) (kP : k .pins) (kN : k .channels) (h1 : Keeps k r s1) : Keeps k r (@State.dropPath s1 a2) := by
  unfold State.dropPath
  refine Keeps.put_reads kN ?_
  refine Keeps.each ?_ fun _ _ _ => ?_
  · exact State.modSite_keeps kS (by assumption)
  exact State.modPin_keeps kP (by assumption)

theorem State.leave_keeps {r s1 : State} {a2} (kD : k .device) (kS : k .sites) (kP : k .pins) (kX : k .contexts) (kL : k .ledger) (kA : k .acquisition) (kM : k .measure) (kY : k .memory) (kN : k .channels) (kK : k .link) (kF : k .faults) (h1 : Keeps k r s1) : Keeps k r (@State.leave s1 a2) := by
  unfold State.leave
  refine State.modSite_keeps kS ?_
  refine State.disarmUnits_keeps kA ?_
  refine State.closeCapture_keeps kD kS kL kA kY kN kK kF ?_
  exact State.cancelSiteMeas_keeps kS kP kL kM (State.cancelTasks_keeps kL (State.releaseBudget_keeps kS kX kL (by assumption)))

theorem State.faultSite_keeps {r s1 : State} {a2 a3 a4} (kD : k .device) (kS : k .sites) (kP : k .pins) (kX : k .contexts) (kL : k .ledger) (kA : k .acquisition) (kM : k .measure) (kY : k .memory) (kN : k .channels) (kK : k .link) (kF : k .faults) (h1 : Keeps k r s1) : Keeps k r (@State.faultSite s1 a2 a3 a4) := by
  unfold State.faultSite
  refine Keeps.ite (fun _ => ?_) fun _ => ?_
  · refine State.modSite_keeps kS ?_
    refine Keeps.ite (fun _ => ?_) fun _ => ?_
    · refine State.leave_keeps kD kS kP kX kL kA kM kY kN kK kF ?_
      exact State.raise_keeps (State.enter_keeps kS (State.setNat_keeps (State.setNat_keeps (by assumption))))
    refine State.dropPath_keeps kS kP kN ?_
    refine State.leave_keeps kD kS kP kX kL kA kM kY kN kK kF ?_
    exact State.raise_keeps (State.enter_keeps kS (State.setNat_keeps (State.setNat_keeps (by assumption))))
  assumption

theorem State.faultHere_keeps {r s1 : State} {a2 a3} (kD : k .device) (kS : k .sites) (kP : k .pins) (kX : k .contexts) (kL : k .ledger) (kA : k .acquisition) (kM : k .measure) (kY : k .memory) (kN : k .channels) (kK : k .link) (kF : k .faults) (h1 : Keeps k r s1) : Keeps k r (@State.faultHere s1 a2 a3) := by
  unfold State.faultHere
  exact State.faultSite_keeps kD kS kP kX kL kA kM kY kN kK kF (by assumption)

theorem State.parkPins_keeps {r s1 : State} {a2 a3} (kS : k .sites) (kP : k .pins) (kM : k .measure) (h1 : Keeps k r s1) : Keeps k r (@State.parkPins s1 a2 a3) := by
  unfold State.parkPins
  refine State.parkMeas_keeps kM ?_
  refine Keeps.each ?_ fun _ _ _ => ?_
  · assumption
  exact State.serialPause_keeps kS kP (by assumption)

theorem State.cutSite_keeps {r s1 : State} {a2 a3} (kS : k .sites) (kP : k .pins) (kM : k .measure) (kN : k .channels) (h1 : Keeps k r s1) : Keeps k r (@State.cutSite s1 a2 a3) := by
  unfold State.cutSite
  refine State.dropPath_keeps kS kP kN ?_
  refine State.modSite_keeps kS ?_
  refine Keeps.each ?_ fun _ _ _ => ?_
  · exact State.parkPins_keeps kS kP kM (State.judgeUntil_keeps kS kP (by assumption))
  exact State.modPin_keeps kP (State.settlePin_keeps kP (by assumption))

theorem State.park_keeps {r s1 : State} {a2 a3} (kS : k .sites) (kP : k .pins) (kM : k .measure) (h1 : Keeps k r s1) : Keeps k r (@State.park s1 a2 a3) := by
  unfold State.park
  refine Keeps.ite (fun _ => ?_) fun _ => ?_
  · assumption
  refine Keeps.ite (fun _ => ?_) fun _ => ?_
  · exact State.parkPins_keeps kS kP kM (State.modSite_keeps kS (by assumption))
  exact State.modSite_keeps kS (by assumption)

theorem State.haltSite_keeps {r s1 : State} {a2} (kD : k .device) (kS : k .sites) (kP : k .pins) (kX : k .contexts) (kL : k .ledger) (kA : k .acquisition) (kM : k .measure) (kY : k .memory) (kN : k .channels) (kK : k .link) (kF : k .faults) (h1 : Keeps k r s1) : Keeps k r (@State.haltSite s1 a2) := by
  unfold State.haltSite
  exact State.leave_keeps kD kS kP kX kL kA kM kY kN kK kF (State.enter_keeps kS (by assumption))

theorem State.pinsOff_keeps {r s1 : State} {a2} (kP : k .pins) (h1 : Keeps k r s1) : Keeps k r (@State.pinsOff s1 a2) := by
  unfold State.pinsOff
  refine Keeps.each ?_ fun _ _ _ => ?_
  · assumption
  refine State.modPin_keeps kP ?_
  split
  · exact State.sessionOver_keeps kP (by assumption)
  assumption

theorem State.clearRun_keeps {r s1 : State} {a2} (kS : k .sites) (kP : k .pins) (kL : k .ledger) (kA : k .acquisition) (kV : k .passport) (kN : k .channels) (h1 : Keeps k r s1) : Keeps k r (@State.clearRun s1 a2) := by
  unfold State.clearRun
  refine State.modSite_keeps kS ?_
  refine State.clearObj_keeps ?_
  refine State.pinsOff_keeps kP ?_
  refine State.dropPath_keeps kS kP kN ?_
  refine State.disarmUnits_keeps kA ?_
  refine State.endCapture_keeps kS kL kA ?_
  refine Keeps.ite (fun _ => ?_) fun _ => ?_
  · exact State.formPending_keeps kS kL kV (by assumption)
  assumption

theorem State.resetNow_keeps {r s1 : State} {a2} (kS : k .sites) (kP : k .pins) (kL : k .ledger) (kA : k .acquisition) (kV : k .passport) (kN : k .channels) (h1 : Keeps k r s1) : Keeps k r (@State.resetNow s1 a2) := by
  unfold State.resetNow
  exact State.enter_keeps kS (State.clearRun_keeps kS kP kL kA kV kN (by assumption))

theorem State.releaseNow_keeps {r s1 : State} {a2} (kS : k .sites) (kP : k .pins) (kL : k .ledger) (kA : k .acquisition) (kV : k .passport) (kN : k .channels) (h1 : Keeps k r s1) : Keeps k r (@State.releaseNow s1 a2) := by
  unfold State.releaseNow
  refine State.enter_keeps kS ?_
  refine State.modSite_keeps kS ?_
  refine State.clearObj_keeps ?_
  exact State.clearObj_keeps (State.hashRelease_keeps kS (State.clearRun_keeps kS kP kL kA kV kN (by assumption)))

theorem State.armOn_keeps {r s1 : State} {a2 a3} (kS : k .sites) (kL : k .ledger) (h1 : Keeps k r s1) : Keeps k r (@State.armOn s1 a2 a3) := by
  unfold State.armOn
  refine State.makeReady_keeps kL ?_
  refine State.take_keeps kL ?_
  refine State.passCycles_keeps kL ?_
  refine State.modSite_keeps kS ?_
  refine State.enter_keeps kS ?_
  refine State.setNat_keeps ?_
  refine State.setNat_keeps ?_
  refine State.setNat_keeps ?_
  exact State.setNat_keeps (State.setNat_keeps (State.setNat_keeps (State.hashArm_keeps kS (State.setNat_keeps (State.setNat_keeps (by assumption))))))

theorem State.parkDue_keeps {r s1 : State} {a2} (kS : k .sites) (kP : k .pins) (kM : k .measure) (h1 : Keeps k r s1) : Keeps k r (@State.parkDue s1 a2) := by
  unfold State.parkDue
  split
  · refine Keeps.ite (fun _ => ?_) fun _ => ?_
    · exact State.parkPins_keeps kS kP kM (by assumption)
    assumption
  assumption

theorem State.cmdArm_keeps {r s1 : State} {a2} (kS : k .sites) (kL : k .ledger) (h1 : Keeps k r s1) : Keeps k r (@State.cmdArm s1 a2).2 := by
  unfold State.cmdArm
  refine Keeps.snd_ite (fun _ => ?_) fun _ => ?_
  · exact Keeps.mkSnd (by assumption)
  refine Keeps.snd_ite (fun _ => ?_) fun _ => ?_
  · exact Keeps.mkSnd (by assumption)
  refine Keeps.snd_ite (fun _ => ?_) fun _ => ?_
  · exact Keeps.mkSnd (by assumption)
  refine Keeps.snd_ite (fun _ => ?_) fun _ => ?_
  · exact Keeps.mkSnd (by assumption)
  refine Keeps.snd_ite (fun _ => ?_) fun _ => ?_
  · exact Keeps.mkSnd (by assumption)
  split
  · exact Keeps.mkSnd (State.raise_keeps (State.setNat_keeps (by assumption)))
  refine Keeps.mkSnd ?_
  refine State.armOn_keeps kS kL ?_
  refine Keeps.ite (fun _ => ?_) fun _ => ?_
  · exact State.bump_keeps (by assumption)
  assumption

theorem State.cmdDisarm_keeps {r s1 : State} {a2} (kS : k .sites) (kP : k .pins) (kX : k .contexts) (kL : k .ledger) (kA : k .acquisition) (kM : k .measure) (kN : k .channels) (h1 : Keeps k r s1) : Keeps k r (@State.cmdDisarm s1 a2).2 := by
  unfold State.cmdDisarm
  refine Keeps.snd_ite (fun _ => ?_) fun _ => ?_
  · exact Keeps.mkSnd (by assumption)
  refine Keeps.mkSnd ?_
  refine State.modSite_keeps kS ?_
  refine State.enter_keeps kS ?_
  refine State.dropPath_keeps kS kP kN ?_
  refine State.endCapture_keeps kS kL kA ?_
  exact State.cancelSiteMeas_keeps kS kP kL kM (State.cancelTasks_keeps kL (State.releaseBudget_keeps kS kX kL (by assumption)))

theorem State.cmdHalt_keeps {r s1 : State} {a2} (kD : k .device) (kS : k .sites) (kP : k .pins) (kX : k .contexts) (kL : k .ledger) (kA : k .acquisition) (kM : k .measure) (kY : k .memory) (kN : k .channels) (kK : k .link) (kF : k .faults) (h1 : Keeps k r s1) : Keeps k r (@State.cmdHalt s1 a2).2 := by
  unfold State.cmdHalt
  refine Keeps.snd_ite (fun _ => ?_) fun _ => ?_
  · refine Keeps.mkSnd ?_
    refine State.dropPath_keeps kS kP kN ?_
    exact State.haltSite_keeps kD kS kP kX kL kA kM kY kN kK kF (by assumption)
  refine Keeps.snd_ite (fun _ => ?_) fun _ => ?_
  · exact Keeps.mkSnd (by assumption)
  exact Keeps.mkSnd (State.modSite_keeps kS (by assumption))

theorem State.readWord_keeps {r s1 : State} {a2} (kD : k .device) (kN : k .channels) (kF : k .faults) (h1 : Keeps k r s1) : Keeps k r (@State.readWord s1 a2).2 := by
  unfold State.readWord
  exact Keeps.mkSnd (State.readLine_keeps kD kN kF (by assumption))

theorem State.cmdLoad_keeps {r s1 : State} {a2} (kD : k .device) (kS : k .sites) (kP : k .pins) (kN : k .channels) (kF : k .faults) (h1 : Keeps k r s1) : Keeps k r (@State.cmdLoad s1 a2).2 := by
  unfold State.cmdLoad
  refine Keeps.snd_ite (fun _ => ?_) fun _ => ?_
  · exact Keeps.mkSnd (by assumption)
  try dsimp only
  split
  · exact Keeps.mkSnd (State.readWord_keeps kD kN kF (by assumption))
  refine Keeps.snd_ite (fun _ => ?_) fun _ => ?_
  · exact Keeps.mkSnd (State.readWord_keeps kD kN kF (by assumption))
  refine Keeps.mkSnd ?_
  refine Keeps.each ?_ fun _ _ _ => ?_
  · refine State.pinsOff_keeps kP ?_
    refine State.modSite_keeps kS ?_
    exact State.enter_keeps kS (State.hashLoad_keeps (State.setNat_keeps (State.readWord_keeps kD kN kF (by assumption))))
  exact State.clearDecisions_keeps kP (by assumption)

theorem State.cmdRelease_keeps {r s1 : State} {a2} (kS : k .sites) (kP : k .pins) (kL : k .ledger) (kA : k .acquisition) (kV : k .passport) (kN : k .channels) (h1 : Keeps k r s1) : Keeps k r (@State.cmdRelease s1 a2).2 := by
  unfold State.cmdRelease
  refine Keeps.snd_ite (fun _ => ?_) fun _ => ?_
  · exact Keeps.mkSnd (by assumption)
  refine Keeps.snd_ite (fun _ => ?_) fun _ => ?_
  · exact Keeps.mkSnd (State.modSite_keeps kS (by assumption))
  exact Keeps.mkSnd (State.releaseNow_keeps kS kP kL kA kV kN (by assumption))

theorem State.cmdReset_keeps {r s1 : State} {a2} (kS : k .sites) (kP : k .pins) (kL : k .ledger) (kA : k .acquisition) (kV : k .passport) (kN : k .channels) (h1 : Keeps k r s1) : Keeps k r (@State.cmdReset s1 a2).2 := by
  unfold State.cmdReset
  refine Keeps.snd_ite (fun _ => ?_) fun _ => ?_
  · exact Keeps.mkSnd (by assumption)
  refine Keeps.snd_ite (fun _ => ?_) fun _ => ?_
  · exact Keeps.mkSnd (State.modSite_keeps kS (by assumption))
  exact Keeps.mkSnd (State.resetNow_keeps kS kP kL kA kV kN (by assumption))

theorem State.cmdSealHalted_keeps {r s1 : State} {a2} (kS : k .sites) (kA : k .acquisition) (h1 : Keeps k r s1) : Keeps k r (@State.cmdSealHalted s1 a2).2 := by
  unfold State.cmdSealHalted
  refine Keeps.snd_ite (fun _ => ?_) fun _ => ?_
  · exact Keeps.mkSnd (by assumption)
  exact Keeps.mkSnd (State.modSite_keeps kS (State.disarmUnits_keeps kA (State.enter_keeps kS (by assumption))))

theorem State.cmdStart_keeps {r s1 : State} {a2} (kS : k .sites) (h1 : Keeps k r s1) : Keeps k r (@State.cmdStart s1 a2).2 := by
  unfold State.cmdStart
  refine Keeps.snd_ite (fun _ => ?_) fun _ => ?_
  · exact Keeps.mkSnd (by assumption)
  refine Keeps.snd_ite (fun _ => ?_) fun _ => ?_
  · exact Keeps.mkSnd (by assumption)
  refine Keeps.mkSnd ?_
  refine State.modSite_keeps kS ?_
  refine Keeps.ite (fun _ => ?_) fun _ => ?_
  · exact State.bump_keeps (by assumption)
  assumption

theorem State.siteCommand_keeps {r s1 : State} {a2 a3} (kD : k .device) (kS : k .sites) (kP : k .pins) (kX : k .contexts) (kL : k .ledger) (kA : k .acquisition) (kM : k .measure) (kV : k .passport) (kY : k .memory) (kN : k .channels) (kK : k .link) (kF : k .faults) (h1 : Keeps k r s1) : Keeps k r (@State.siteCommand s1 a2 a3).2 := by
  unfold State.siteCommand
  refine Keeps.mkSnd ?_
  refine State.setNat_keeps ?_
  split
  · exact State.cmdLoad_keeps kD kS kP kN kF (by assumption)
  · exact State.cmdArm_keeps kS kL (by assumption)
  · exact State.cmdStart_keeps kS (by assumption)
  · exact State.cmdHalt_keeps kD kS kP kX kL kA kM kY kN kK kF (by assumption)
  · exact State.cmdReset_keeps kS kP kL kA kV kN (by assumption)
  · exact State.cmdRelease_keeps kS kP kL kA kV kN (by assumption)
  · exact State.cmdSealHalted_keeps kS kA (by assumption)
  · exact State.cmdDisarm_keeps kS kP kX kL kA kM kN (by assumption)
  exact Keeps.mkSnd (by assumption)

theorem State.showSite_keeps {r s1 : State} {a2} (kS : k .sites) (h1 : Keeps k r s1) : Keeps k r (@State.showSite s1 a2) := by
  unfold State.showSite
  exact State.modSite_keeps kS (by assumption)

theorem State.takePins_keeps {r s1 : State} {a2 a3 a4} (kP : k .pins) (h1 : Keeps k r s1) : Keeps k r (@State.takePins s1 a2 a3 a4) := by
  unfold State.takePins
  split
  · split
    · assumption
    refine Keeps.each ?_ fun _ _ _ => ?_
    · assumption
    refine Keeps.ite (fun _ => ?_) fun _ => ?_
    · assumption
    exact State.modPin_keeps kP (by assumption)
  · split
    · assumption
    refine Keeps.each ?_ fun _ _ _ => ?_
    · assumption
    refine Keeps.ite (fun _ => ?_) fun _ => ?_
    · exact State.modPin_keeps kP (by assumption)
    assumption
  · split
    · assumption
    split
    · refine Keeps.ite (fun _ => ?_) fun _ => ?_
      · exact State.modPin_keeps kP (by assumption)
      assumption
    assumption
  assumption

theorem State.takeHead_keeps {r s1 : State} {a2} (kS : k .sites) (kP : k .pins) (h1 : Keeps k r s1) : Keeps k r (@State.takeHead s1 a2) := by
  unfold State.takeHead
  try dsimp only
  split
  · assumption
  exact State.takePins_keeps kP (State.setSite_keeps kS (by assumption))

theorem State.takeFree_keeps {r s1 : State} {a2 a3} (kS : k .sites) (kP : k .pins) (h1 : Keeps k r s1) : Keeps k r (@State.takeFree s1 a2 a3) := by
  induction a3 generalizing s1 with
  | zero => exact h1
  | succ n ih =>
    unfold State.takeFree
    split
    · exact Keeps.ite (fun _ => ih (State.takeHead_keeps kS kP h1)) fun _ => h1
    · exact h1

theorem State.modRun_keeps {r s1 : State} {a2 a3 a4} (kS : k .sites) (h1 : Keeps k r s1) : Keeps k r (@State.modRun s1 a2 a3 a4) := by
  unfold State.modRun
  exact State.modSite_keeps kS (by assumption)

theorem State.deliverBlock_keeps {r s1 : State} {a2 a3 a4 a5 a6 a7} (kP : k .pins) (h1 : Keeps k r s1) : Keeps k r (@State.deliverBlock s1 a2 a3 a4 a5 a6 a7) := by
  unfold State.deliverBlock
  refine Keeps.each ?_ fun _ _ _ => ?_
  · assumption
  refine Keeps.ite (fun _ => ?_) fun _ => ?_
  · assumption
  exact State.peak_keeps (State.modPin_keeps kP (by assumption))

theorem State.deliver_keeps {r s1 : State} {a2 a3} (kS : k .sites) (kP : k .pins) (h1 : Keeps k r s1) : Keeps k r (@State.deliver s1 a2 a3) := by
  induction a3 generalizing s1 with
  | zero => exact h1
  | succ k ih =>
    unfold State.deliver
    split
    · exact h1
    split
    · exact h1
    dsimp only
    split
    · exact h1
    refine ih (State.modRun_keeps kS ?_)
    split
    · exact State.modSite_keeps kS h1
    · exact State.deliverBlock_keeps kP h1

theorem State.giveLine_keeps {r s1 : State} {a2 a3} (kS : k .sites) (kP : k .pins) (h1 : Keeps k r s1) : Keeps k r (@State.giveLine s1 a2 a3) := by
  unfold State.giveLine
  split
  · exact State.deliver_keeps kS kP (State.modRun_keeps kS (by assumption))
  split
  · assumption
  exact State.peak_keeps (State.modPin_keeps kP (by assumption))

theorem State.issueRead_keeps {r s1 : State} {a2} (kS : k .sites) (kP : k .pins) (kN : k .channels) (h1 : Keeps k r s1) : Keeps k r (@State.issueRead s1 a2) := by
  unfold State.issueRead
  split
  · split
    · assumption
    exact Keeps.put_reads kN (State.modPin_keeps kP (by assumption))
  split
  · assumption
  exact Keeps.put_reads kN (State.modSite_keeps kS (by assumption))

theorem State.noteFetch_keeps {r s1 : State} {a2} (kS : k .sites) (kP : k .pins) (h1 : Keeps k r s1) : Keeps k r (@State.noteFetch s1 a2) := by
  unfold State.noteFetch
  refine Keeps.each ?_ fun _ _ _ => ?_
  · exact State.modSite_keeps kS (by assumption)
  refine Keeps.ite (fun _ => ?_) fun _ => ?_
  · assumption
  exact State.modPin_keeps kP (by assumption)

theorem execLineReadReturn_keeps {r s3 : State} {a1 a2} (kD : k .device) (kS : k .sites) (kP : k .pins) (kX : k .contexts) (kN : k .channels) (kF : k .faults) (h3 : Keeps k r s3) : KeepsOut k r (@execLineReadReturn a1 a2 s3) := by
  unfold execLineReadReturn
  split
  · exact KeepsOut.next (by assumption)
  refine Keeps.out_ite (fun _ => ?_) fun _ => ?_
  · exact KeepsOut.next (by assumption)
  refine KeepsOut.next ?_
  refine State.noteFetch_keeps kS kP ?_
  refine State.giveLine_keeps kS kP ?_
  refine State.noteFetch_keeps kS kP ?_
  exact State.takeLine_keeps kD kN kF (Keeps.put_reads kN (State.passOlder_keeps kX kN (by assumption)))

theorem execLineReadIssue_keeps {r s1 : State} (kS : k .sites) (kP : k .pins) (kN : k .channels) (h1 : Keeps k r s1) : KeepsOut k r (@execLineReadIssue s1) := by
  unfold execLineReadIssue
  split
  · exact KeepsOut.next (by assumption)
  exact KeepsOut.next (State.issueRead_keeps kS kP kN (State.noteFetch_keeps kS kP (by assumption)))

theorem execDescriptorTake_keeps {r s2 : State} {a1} (kS : k .sites) (kP : k .pins) (h2 : Keeps k r s2) : KeepsOut k r (@execDescriptorTake a1 s2) := by
  unfold execDescriptorTake
  try dsimp only
  split
  · exact KeepsOut.next (State.takeFree_keeps kS kP (by assumption))
  refine Keeps.out_ite (fun _ => ?_) fun _ => ?_
  · exact KeepsOut.next (State.takeFree_keeps kS kP (State.takeHead_keeps kS kP (State.takeFree_keeps kS kP (by assumption))))
  exact KeepsOut.next (State.takeFree_keeps kS kP (by assumption))

theorem State.noteFault_keeps {r s1 : State} {a2 a3 a4 a5 a6 a7} (h1 : Keeps k r s1) : Keeps k r (@State.noteFault s1 a2 a3 a4 a5 a6 a7) := by
  unfold State.noteFault
  refine Keeps.each ?_ fun _ _ _ => ?_
  · assumption
  exact State.setNat_keeps (by assumption)

theorem State.vendorFault_keeps {r s1 : State} {a2 a3 a4 a5} (kD : k .device) (kS : k .sites) (kP : k .pins) (kX : k .contexts) (kL : k .ledger) (kA : k .acquisition) (kM : k .measure) (kY : k .memory) (kN : k .channels) (kK : k .link) (kF : k .faults) (h1 : Keeps k r s1) : Keeps k r (@State.vendorFault s1 a2 a3 a4 a5) := by
  unfold State.vendorFault
  refine State.faultSite_keeps kD kS kP kX kL kA kM kY kN kK kF ?_
  exact State.taint_keeps kS (State.noteFault_keeps (State.free_keeps (State.free_keeps (by assumption))))

theorem State.threadFault_keeps {r s1 : State} {a2 a3} (kD : k .device) (kS : k .sites) (kP : k .pins) (kX : k .contexts) (kL : k .ledger) (kA : k .acquisition) (kM : k .measure) (kY : k .memory) (kN : k .channels) (kK : k .link) (kF : k .faults) (h1 : Keeps k r s1) : Keeps k r (@State.threadFault s1 a2 a3) := by
  unfold State.threadFault
  refine Keeps.ite (fun _ => ?_) fun _ => ?_
  · exact State.vendorFault_keeps kD kS kP kX kL kA kM kY kN kK kF (by assumption)
  exact State.faultHere_keeps kD kS kP kX kL kA kM kY kN kK kF (by assumption)

theorem State.holdFault_keeps {r s1 : State} {a2 a3 a4} (kS : k .sites) (kX : k .contexts) (h1 : Keeps k r s1) : Keeps k r (@State.holdFault s1 a2 a3 a4) := by
  unfold State.holdFault
  refine State.cutWait_keeps kX ?_
  split
  · refine Keeps.ite (fun _ => ?_) fun _ => ?_
    · refine State.taint_keeps kS ?_
      split
      · exact State.bump_keeps (by assumption)
      exact State.setCtx_keeps kX (by assumption)
    split
    · exact State.bump_keeps (by assumption)
    exact State.setCtx_keeps kX (by assumption)
  split
  · exact State.bump_keeps (by assumption)
  exact State.setCtx_keeps kX (by assumption)

theorem State.pathFault_keeps {r s1 : State} {a2 a3} (kD : k .device) (kS : k .sites) (kP : k .pins) (kX : k .contexts) (kL : k .ledger) (kA : k .acquisition) (kM : k .measure) (kY : k .memory) (kN : k .channels) (kK : k .link) (kF : k .faults) (h1 : Keeps k r s1) : Keeps k r (@State.pathFault s1 a2 a3) := by
  unfold State.pathFault
  refine Keeps.ite (fun _ => ?_) fun _ => ?_
  · exact State.holdFault_keeps kS kX (State.cutSite_keeps kS kP kM kN (by assumption))
  refine State.modSite_keeps kS ?_
  refine State.threadFault_keeps kD kS kP kX kL kA kM kY kN kK kF ?_
  exact State.cutSite_keeps kS kP kM kN (by assumption)

theorem State.serialRider_keeps {r s1 : State} {a2 a3 a4 a5} (kS : k .sites) (kP : k .pins) (h1 : Keeps k r s1) : Keeps k r (@State.serialRider s1 a2 a3 a4 a5) := by
  unfold State.serialRider
  split
  · assumption
  refine Keeps.each ?_ fun _ _ _ => ?_
  · assumption
  refine State.modPin_keeps kP ?_
  split
  · exact State.serialStart_keeps kS kP (by assumption)
  assumption

theorem State.ride_keeps {r s1 : State} {a2 a3 a4} (kD : k .device) (kS : k .sites) (kP : k .pins) (kL : k .ledger) (kA : k .acquisition) (kM : k .measure) (kY : k .memory) (kN : k .channels) (kK : k .link) (kF : k .faults) (h1 : Keeps k r s1) : Keeps k r (@State.ride s1 a2 a3 a4) := by
  unfold State.ride
  split
  · exact State.capEffect_keeps kD kS kL kA kY kN kK kF (by assumption)
  · exact State.capEffect_keeps kD kS kL kA kY kN kK kF (by assumption)
  · exact State.placeMeas_keeps kM (by assumption)
  · exact State.armUnit_keeps kA (by assumption)
  · exact State.fireUnit_keeps kA (by assumption)
  · exact State.disarmUnit_keeps kA (by assumption)
  · exact State.serialRider_keeps kS kP (by assumption)
  exact State.serialRider_keeps kS kP (by assumption)

theorem State.rideAll_keeps {r s1 : State} {a2 a3 a4} (kD : k .device) (kS : k .sites) (kP : k .pins) (kL : k .ledger) (kA : k .acquisition) (kM : k .measure) (kY : k .memory) (kN : k .channels) (kK : k .link) (kF : k .faults) (h1 : Keeps k r s1) : Keeps k r (@State.rideAll s1 a2 a3 a4) := by
  unfold State.rideAll
  refine Keeps.each ?_ fun _ _ _ => ?_
  · exact State.modSite_keeps kS (by assumption)
  exact State.ride_keeps kD kS kP kL kA kM kY kN kK kF (by assumption)

theorem State.beginHold_keeps {r s1 : State} {a2 a3} (kD : k .device) (kS : k .sites) (kP : k .pins) (kL : k .ledger) (kA : k .acquisition) (kM : k .measure) (kY : k .memory) (kN : k .channels) (kK : k .link) (kF : k .faults) (h1 : Keeps k r s1) : Keeps k r (@State.beginHold s1 a2 a3) := by
  unfold State.beginHold
  refine Keeps.ite (fun _ => ?_) fun _ => ?_
  · refine State.rideAll_keeps kD kS kP kL kA kM kY kN kK kF ?_
    exact State.modSite_keeps kS (State.park_keeps kS kP kM (by assumption))
  exact State.modSite_keeps kS (State.park_keeps kS kP kM (by assumption))

theorem State.countStarve_keeps {r s1 : State} {a2 a3} (h1 : Keeps k r s1) : Keeps k r (@State.countStarve s1 a2 a3) := by
  unfold State.countStarve
  exact State.raise_keeps (State.setNat_keeps (State.bump_keeps (by assumption)))

theorem State.starve_keeps {r s1 : State} {a2 a3} (kD : k .device) (kS : k .sites) (kP : k .pins) (kX : k .contexts) (kL : k .ledger) (kA : k .acquisition) (kM : k .measure) (kY : k .memory) (kN : k .channels) (kK : k .link) (kW : k .convoy) (kF : k .faults) (h1 : Keeps k r s1) : Keeps k r (@State.starve s1 a2 a3) := by
  unfold State.starve
  refine Keeps.ite (fun _ => ?_) fun _ => ?_
  · refine State.modSite_keeps kS ?_
    refine State.dropPath_keeps kS kP kN ?_
    refine State.modSite_keeps kS ?_
    exact State.beginHold_keeps kD kS kP kL kA kM kY kN kK kF (State.countStarve_keeps (by assumption))
  refine Keeps.ite (fun _ => ?_) fun _ => ?_
  · refine State.pathFault_keeps kD kS kP kX kL kA kM kY kN kK kF ?_
    exact State.sendAbort_keeps kW (State.countStarve_keeps (by assumption))
  split
  · exact State.pathFault_keeps kD kS kP kX kL kA kM kY kN kK kF (State.countStarve_keeps (by assumption))
  · refine State.modSite_keeps kS ?_
    exact State.beginHold_keeps kD kS kP kL kA kM kY kN kK kF (State.countStarve_keeps (by assumption))
  refine State.taint_keeps kS ?_
  refine State.modSite_keeps kS ?_
  exact State.beginHold_keeps kD kS kP kL kA kM kY kN kK kF (State.countStarve_keeps (by assumption))

theorem State.judgeLead_keeps {r s1 : State} {a2 a3} (kD : k .device) (kS : k .sites) (kP : k .pins) (kX : k .contexts) (kL : k .ledger) (kA : k .acquisition) (kM : k .measure) (kY : k .memory) (kN : k .channels) (kK : k .link) (kW : k .convoy) (kF : k .faults) (h1 : Keeps k r s1) : Keeps k r (@State.judgeLead s1 a2 a3) := by
  unfold State.judgeLead
  refine Keeps.ite (fun _ => ?_) fun _ => ?_
  · exact State.dropPath_keeps kS kP kN (by assumption)
  refine Keeps.ite (fun _ => ?_) fun _ => ?_
  · exact State.pathFault_keeps kD kS kP kX kL kA kM kY kN kK kF (by assumption)
  refine Keeps.ite (fun _ => ?_) fun _ => ?_
  · refine Keeps.ite (fun _ => ?_) fun _ => ?_
    · assumption
    exact State.countStarve_keeps (by assumption)
  refine Keeps.ite (fun _ => ?_) fun _ => ?_
  · exact State.starve_keeps kD kS kP kX kL kA kM kY kN kK kW kF (by assumption)
  assumption

theorem State.beginVec_keeps {r s1 : State} {a2 a3} (kD : k .device) (kS : k .sites) (kP : k .pins) (kL : k .ledger) (kA : k .acquisition) (kM : k .measure) (kY : k .memory) (kN : k .channels) (kK : k .link) (kF : k .faults) (h1 : Keeps k r s1) : Keeps k r (@State.beginVec s1 a2 a3) := by
  unfold State.beginVec
  refine State.modSite_keeps kS ?_
  refine Keeps.each ?_ fun _ _ _ => ?_
  · exact State.rideAll_keeps kD kS kP kL kA kM kY kN kK kF (by assumption)
  refine State.serialResume_keeps kP ?_
  refine Keeps.ite (fun _ => ?_) fun _ => ?_
  · exact State.modPin_keeps kP (by assumption)
  assumption

theorem State.poisonSlot_keeps {r s1 : State} {a2 a3 a4} (kS : k .sites) (h1 : Keeps k r s1) : Keeps k r (@State.poisonSlot s1 a2 a3 a4) := by
  unfold State.poisonSlot
  exact State.raise_keeps (State.taintPath_keeps kS (State.count_keeps (State.bump_keeps (State.bump_keeps (by assumption)))))

theorem State.blockCode_keeps {r s1 : State} {a2 a3 a4 a5 a6 a7} (kS : k .sites) (h1 : Keeps k r s1) : Keeps k r (@State.blockCode s1 a2 a3 a4 a5 a6 a7).2 := by
  unfold State.blockCode
  try dsimp only
  split
  · exact Keeps.mkSnd (by assumption)
  · refine Keeps.mkSnd ?_
    refine Keeps.ite (fun _ => ?_) fun _ => ?_
    · exact State.raise_keeps (State.bump_keeps (State.bump_keeps (by assumption)))
    assumption
  refine Keeps.mkSnd ?_
  refine Keeps.ite (fun _ => ?_) fun _ => ?_
  · exact State.poisonSlot_keeps kS (by assumption)
  assumption

theorem State.settleEnd_keeps {r s1 : State} {a2} (kD : k .device) (kS : k .sites) (kP : k .pins) (kL : k .ledger) (kA : k .acquisition) (kM : k .measure) (kY : k .memory) (kN : k .channels) (kK : k .link) (kF : k .faults) (h1 : Keeps k r s1) : Keeps k r (@State.settleEnd s1 a2) := by
  unfold State.settleEnd
  refine Keeps.ite (fun _ => ?_) fun _ => ?_
  · exact State.beginHold_keeps kD kS kP kL kA kM kY kN kK kF (by assumption)
  assumption

theorem State.setHead_keeps {r s1 : State} {a2 a3} (kS : k .sites) (h1 : Keeps k r s1) : Keeps k r (@State.setHead s1 a2 a3) := by
  unfold State.setHead
  exact State.modSite_keeps kS (by assumption)

theorem State.holdMarker_keeps {r s1 : State} {a2 a3 a4} (kA : k .acquisition) (h1 : Keeps k r s1) : Keeps k r (@State.holdMarker s1 a2 a3 a4) := by
  unfold State.holdMarker
  refine Keeps.ite (fun _ => ?_) fun _ => ?_
  · exact State.setCap_keeps kA (by assumption)
  assumption

theorem State.resumeSite_keeps {r s1 : State} {a2 a3} (kD : k .device) (kS : k .sites) (kP : k .pins) (kL : k .ledger) (kA : k .acquisition) (kM : k .measure) (kY : k .memory) (kN : k .channels) (kK : k .link) (kF : k .faults) (h1 : Keeps k r s1) : Keeps k r (@State.resumeSite s1 a2 a3) := by
  unfold State.resumeSite
  refine Keeps.ite (fun _ => ?_) fun _ => ?_
  · refine State.enter_keeps kS ?_
    refine State.setHead_keeps kS ?_
    refine Keeps.each ?_ fun _ _ _ => ?_
    · refine State.modSite_keeps kS ?_
      refine State.holdMarker_keeps kA ?_
      refine Keeps.ite (fun _ => ?_) fun _ => ?_
      · exact State.beginHold_keeps kD kS kP kL kA kM kY kN kK kF (by assumption)
      assumption
    exact State.raise_keeps (by assumption)
  refine State.setHead_keeps kS ?_
  refine Keeps.each ?_ fun _ _ _ => ?_
  · refine State.modSite_keeps kS ?_
    refine State.holdMarker_keeps kA ?_
    refine Keeps.ite (fun _ => ?_) fun _ => ?_
    · exact State.beginHold_keeps kD kS kP kL kA kM kY kN kK kF (by assumption)
    assumption
  exact State.raise_keeps (by assumption)

theorem State.skipFlat_keeps {r s1 : State} {a2 a3} (kS : k .sites) (h1 : Keeps k r s1) : Keeps k r (@State.skipFlat s1 a2 a3) := by
  induction a3 generalizing s1 with
  | zero => exact h1
  | succ n ih =>
    unfold State.skipFlat
    split
    · exact h1
    refine Keeps.ite (fun _ => h1) fun _ => ih (State.setHead_keeps kS ?_)
    split <;> exact State.modSite_keeps kS h1

theorem State.playHold_keeps {r s1 : State} {a2 a3} (kD : k .device) (kS : k .sites) (kP : k .pins) (kL : k .ledger) (kA : k .acquisition) (kM : k .measure) (kY : k .memory) (kN : k .channels) (kK : k .link) (kF : k .faults) (h1 : Keeps k r s1) : Keeps k r (@State.playHold s1 a2 a3) := by
  unfold State.playHold
  refine State.setHead_keeps kS ?_
  refine State.modSite_keeps kS ?_
  exact State.holdMarker_keeps kA (State.beginHold_keeps kD kS kP kL kA kM kY kN kK kF (by assumption))

theorem State.markLate_keeps {r s1 : State} {a2 a3} (kS : k .sites) (h1 : Keeps k r s1) : Keeps k r (@State.markLate s1 a2 a3) := by
  unfold State.markLate
  refine Keeps.ite (fun _ => ?_) fun _ => ?_
  · exact State.bump_keeps (State.modSite_keeps kS (by assumption))
  exact State.modSite_keeps kS (by assumption)

theorem State.endVec_keeps {r s1 : State} {a2 a3} (kS : k .sites) (h1 : Keeps k r s1) : Keeps k r (@State.endVec s1 a2 a3) := by
  unfold State.endVec
  exact State.setSite_keeps kS (by assumption)

theorem State.parkSlot_keeps {r s1 : State} {a2 a3} (kP : k .pins) (kM : k .measure) (h1 : Keeps k r s1) : Keeps k r (@State.parkSlot s1 a2 a3) := by
  unfold State.parkSlot
  exact State.parkGates_keeps kM (State.modPin_keeps kP (by assumption))

theorem State.placeVec_keeps {r s1 : State} {a2 a3 a4 a5 a6} (kS : k .sites) (kP : k .pins) (kM : k .measure) (h1 : Keeps k r s1) : Keeps k r (@State.placeVec s1 a2 a3 a4 a5 a6) := by
  unfold State.placeVec
  refine Keeps.ite (fun _ => ?_) fun _ => ?_
  · exact State.modPin_keeps kP (by assumption)
  refine Keeps.ite (fun _ => ?_) fun _ => ?_
  · exact State.parkSlot_keeps kP kM (State.modPin_keeps kP (by assumption))
  refine Keeps.ite (fun _ => ?_) fun _ => ?_
  · refine State.poisonSlot_keeps kS ?_
    refine State.parkSlot_keeps kP kM ?_
    refine State.bump_keeps ?_
    refine Keeps.ite (fun _ => ?_) fun _ => ?_
    · exact State.count_keeps (State.modPin_keeps kP (by assumption))
    exact State.modPin_keeps kP (by assumption)
  refine State.modSite_keeps kS ?_
  refine State.modPin_keeps kP ?_
  refine Keeps.ite (fun _ => ?_) fun _ => ?_
  · exact State.count_keeps (State.modPin_keeps kP (by assumption))
  exact State.modPin_keeps kP (by assumption)

theorem State.playVec_keeps {r s1 : State} {a2 a3 a4 a5 a6} (kD : k .device) (kS : k .sites) (kP : k .pins) (kL : k .ledger) (kA : k .acquisition) (kM : k .measure) (kY : k .memory) (kN : k .channels) (kK : k .link) (kF : k .faults) (h1 : Keeps k r s1) (g6 : ∀ x1 x2 x3, Keeps k r x1 → Keeps k r (a6 x1 x2 x3).2) : Keeps k r (@State.playVec s1 a2 a3 a4 a5 a6) := by
  unfold State.playVec
  refine State.endVec_keeps kS ?_
  refine Keeps.each ?_ fun _ _ _ => ?_
  · exact State.beginVec_keeps kD kS kP kL kA kM kY kN kK kF (by assumption)
  refine State.placeVec_keeps kS kP kM ?_
  refine g6 _ _ _ ?_
  assumption

theorem State.checkSlot_keeps {r s1 : State} {a2 a3 a4 a5} (kS : k .sites) (h1 : Keeps k r s1) : Keeps k r (@State.checkSlot s1 a2 a3 a4 a5).2 := by
  unfold State.checkSlot
  split
  · exact Keeps.mkSnd (by assumption)
  · exact Keeps.mkSnd (State.raise_keeps (State.bump_keeps (State.bump_keeps (by assumption))))
  exact Keeps.mkSnd (State.poisonSlot_keeps kS (by assumption))

theorem State.popCode_keeps {r s1 : State} {a2 a3} (kS : k .sites) (kP : k .pins) (h1 : Keeps k r s1) : Keeps k r (@State.popCode s1 a2 a3).2 := by
  unfold State.popCode
  split
  · exact Keeps.mkSnd (by assumption)
  refine Keeps.mkSnd ?_
  refine State.modPin_keeps kP ?_
  refine Keeps.snd_ite (fun _ => ?_) fun _ => ?_
  · exact Keeps.mkSnd (by assumption)
  exact State.checkSlot_keeps kS (by assumption)

theorem State.nextIter_keeps {r s1 : State} {a2 a3 a4} (kS : k .sites) (h1 : Keeps k r s1) : Keeps k r (@State.nextIter s1 a2 a3 a4) := by
  unfold State.nextIter
  split
  · exact State.modSite_keeps kS (State.setNat_keeps (by assumption))
  assumption

theorem State.startNext_keeps {r s1 t : State} {a2 a3 a4 a5} (kD : k .device) (kS : k .sites) (kP : k .pins) (kL : k .ledger) (kA : k .acquisition) (kM : k .measure) (kY : k .memory) (kN : k .channels) (kK : k .link) (kF : k .faults) (h1 : Keeps k r s1) (e : State.startNext s1 a2 a3 a4 a5 = some t) : Keeps k r t := by
  induction a5 generalizing s1 with
  | zero => cases e
  | succ k ih =>
    unfold State.startNext at e
    dsimp only at e
    split at e
    · cases e
    split at e
    · cases e
    split at e
    · cases e
    split at e
    · exact ih (State.setHead_keeps kS (State.modSite_keeps kS h1)) e
    · exact ih (State.setHead_keeps kS (State.modSite_keeps kS h1)) e
    · exact ih (State.setHead_keeps kS (State.modSite_keeps kS h1)) e
    · cases e
    · split at e
      · exact ih (State.setHead_keeps kS h1) e
      · cases e
        exact State.playHold_keeps kD kS kP kL kA kM kY kN kK kF h1
    · exact ih (State.setHead_keeps kS (State.markLate_keeps kS h1)) e
    · split at e
      · cases e
        exact State.setHead_keeps kS (State.playVec_keeps kD kS kP kL kA kM kY kN kK kF h1 fun _ _ _ h => Keeps.snd_ite (fun _ => h) fun _ => State.popCode_keeps kS kP h)
      · cases e
    · cases e
      exact State.setHead_keeps kS (State.playVec_keeps kD kS kP kL kA kM kY kN kK kF h1 fun _ _ _ h => h)
    · cases e
      refine State.setHead_keeps kS (State.playVec_keeps kD kS kP kL kA kM kY kN kK kF ?_ fun _ _ _ h => Keeps.snd_ite (fun _ => h) fun _ => h)
      refine Keeps.ite (fun _ => ?_) fun _ => h1
      split
      · exact State.modPin_keeps kP h1
      · exact h1
    · split at e <;> split at e
      all_goals try exact ih (State.modSite_keeps kS (State.setHead_keeps kS h1)) e
      all_goals
        split at e <;> cases e
        refine State.setHead_keeps kS (State.playVec_keeps kD kS kP kL kA kM kY kN kK kF ?_ fun _ _ _ h => State.blockCode_keeps kS h)
        exact Keeps.ite (fun _ => State.nextIter_keeps kS h1) fun _ => h1

theorem State.catchUp_keeps {r s1 : State} {a2 a3} (kD : k .device) (kS : k .sites) (kP : k .pins) (kL : k .ledger) (kA : k .acquisition) (kM : k .measure) (kY : k .memory) (kN : k .channels) (kK : k .link) (kF : k .faults) (h1 : Keeps k r s1) : Keeps k r (@State.catchUp s1 a2 a3) := by
  induction a3 generalizing s1 with
  | zero => exact h1
  | succ k ih =>
    unfold State.catchUp
    dsimp only
    split
    · exact Keeps.ite (fun _ => ih (State.resumeSite_keeps kD kS kP kL kA kM kY kN kK kF (State.skipFlat_keeps kS h1))) fun _ => State.settleEnd_keeps kD kS kP kL kA kM kY kN kK kF (State.parkDue_keeps kS kP kM (State.skipFlat_keeps kS h1))
    · split
      · rename_i e
        exact ih (State.startNext_keeps kD kS kP kL kA kM kY kN kK kF (State.skipFlat_keeps kS h1) e)
      · exact State.settleEnd_keeps kD kS kP kL kA kM kY kN kK kF (State.parkDue_keeps kS kP kM (State.skipFlat_keeps kS h1))

theorem State.enterRunning_keeps {r s1 : State} {a2} (kS : k .sites) (kP : k .pins) (h1 : Keeps k r s1) : Keeps k r (@State.enterRunning s1 a2) := by
  unfold State.enterRunning
  refine State.showSite_keeps kS ?_
  refine Keeps.ite (fun _ => ?_) fun _ => ?_
  · refine State.enter_keeps kS ?_
    refine State.enter_keeps kS ?_
    refine Keeps.ite (fun _ => ?_) fun _ => ?_
    · refine State.taint_keeps kS ?_
      refine Keeps.ite (fun _ => ?_) fun _ => ?_
      · exact State.modSite_keeps kS (State.modSite_keeps kS (State.setNat_keeps (State.clearCompare_keeps kP (by assumption))))
      exact State.modSite_keeps kS (State.setNat_keeps (State.clearCompare_keeps kP (by assumption)))
    refine Keeps.ite (fun _ => ?_) fun _ => ?_
    · exact State.modSite_keeps kS (State.modSite_keeps kS (State.setNat_keeps (State.clearCompare_keeps kP (by assumption))))
    exact State.modSite_keeps kS (State.setNat_keeps (State.clearCompare_keeps kP (by assumption)))
  refine State.enter_keeps kS ?_
  refine Keeps.ite (fun _ => ?_) fun _ => ?_
  · refine State.taint_keeps kS ?_
    refine Keeps.ite (fun _ => ?_) fun _ => ?_
    · exact State.modSite_keeps kS (State.modSite_keeps kS (State.setNat_keeps (State.clearCompare_keeps kP (by assumption))))
    exact State.modSite_keeps kS (State.setNat_keeps (State.clearCompare_keeps kP (by assumption)))
  refine Keeps.ite (fun _ => ?_) fun _ => ?_
  · exact State.modSite_keeps kS (State.modSite_keeps kS (State.setNat_keeps (State.clearCompare_keeps kP (by assumption))))
  exact State.modSite_keeps kS (State.setNat_keeps (State.clearCompare_keeps kP (by assumption)))

theorem State.unstarve_keeps {r s1 : State} {a2} (kS : k .sites) (kA : k .acquisition) (h1 : Keeps k r s1) : Keeps k r (@State.unstarve s1 a2) := by
  unfold State.unstarve
  split
  · assumption
  exact State.modSite_keeps kS (State.count_keeps (State.holdMarker_keeps kA (by assumption)))

theorem execStarveResume_keeps {r s2 : State} {a1} (kS : k .sites) (kA : k .acquisition) (h2 : Keeps k r s2) : KeepsOut k r (@execStarveResume a1 s2) := by
  unfold execStarveResume
  refine Keeps.out_ite (fun _ => ?_) fun _ => ?_
  · exact KeepsOut.next (State.unstarve_keeps kS kA (by assumption))
  exact KeepsOut.next (by assumption)

theorem execVectorStart_keeps {r s3 : State} {a1 a2} (kD : k .device) (kS : k .sites) (kP : k .pins) (kL : k .ledger) (kA : k .acquisition) (kM : k .measure) (kY : k .memory) (kN : k .channels) (kK : k .link) (kF : k .faults) (h3 : Keeps k r s3) : KeepsOut k r (@execVectorStart a1 a2 s3) := by
  unfold execVectorStart
  split
  · rename_i e
    exact KeepsOut.next (State.startNext_keeps kD kS kP kL kA kM kY kN kK kF h3 e)
  · exact KeepsOut.next h3

theorem execResumeTick_keeps {r s2 : State} {a1} (kD : k .device) (kS : k .sites) (kP : k .pins) (kX : k .contexts) (kL : k .ledger) (kA : k .acquisition) (kM : k .measure) (kY : k .memory) (kN : k .channels) (kK : k .link) (kW : k .convoy) (kF : k .faults) (h2 : Keeps k r s2) : KeepsOut k r (@execResumeTick a1 s2) := by
  unfold execResumeTick
  try dsimp only
  split
  · refine Keeps.out_ite (fun _ => ?_) fun _ => ?_
    · refine KeepsOut.next ?_
      refine State.judgeLead_keeps kD kS kP kX kL kA kM kY kN kK kW kF ?_
      exact State.resumeSite_keeps kD kS kP kL kA kM kY kN kK kF (State.skipFlat_keeps kS (by assumption))
    exact KeepsOut.next (by assumption)
  exact KeepsOut.next (by assumption)

theorem execStartTakesEffect_keeps {r s2 : State} {a1} (kS : k .sites) (kP : k .pins) (h2 : Keeps k r s2) : KeepsOut k r (@execStartTakesEffect a1 s2) := by
  unfold execStartTakesEffect
  refine Keeps.out_ite (fun _ => ?_) fun _ => ?_
  · exact KeepsOut.next (State.enterRunning_keeps kS kP (by assumption))
  exact KeepsOut.next (by assumption)

end Sys2Proof.Machine
end

