-- ==== Sys2Proof/Laws/KeepsThreads.lean ====
section
/-! SUPPORT. What the operations of a group keep: itineraries, drains, the control store, microwords and the Innkeeper. One lemma for each operation, over `Keeps`. -/

namespace Sys2Proof.Machine

variable {k : Part → Prop}

theorem State.addressOf_keeps {r s1 : State} {a2} (h1 : Keeps k r s1) : Keeps k r (@State.addressOf s1 a2).2 := by
  unfold State.addressOf
  refine Keeps.snd_ite (fun _ => ?_) fun _ => ?_
  · exact Keeps.mkSnd (by assumption)
  exact Keeps.mkSnd (State.free_keeps (by assumption))

theorem State.modThread_keeps {r s1 : State} {a2 a3} (kS : k .sites) (h1 : Keeps k r s1) : Keeps k r (@State.modThread s1 a2 a3) := by
  unfold State.modThread
  exact State.modSite_keeps kS (by assumption)

theorem State.newEpoch_keeps {r s1 : State} {a2} (kS : k .sites) (h1 : Keeps k r s1) : Keeps k r (@State.newEpoch s1 a2) := by
  unfold State.newEpoch
  exact State.modSite_keeps kS (by assumption)

theorem State.engineCycles_keeps {r s1 : State} {a2 a3 a4} (kL : k .ledger) (h1 : Keeps k r s1) : Keeps k r (@State.engineCycles s1 a2 a3 a4) := by
  unfold State.engineCycles
  refine Keeps.ite (fun _ => ?_) fun _ => ?_
  · exact Keeps.put_inn kL (by assumption)
  exact Keeps.put_inn kL (by assumption)

theorem State.charge_keeps {r s1 : State} {a2 a3} (kS : k .sites) (kX : k .contexts) (kL : k .ledger) (kW : k .convoy) (h1 : Keeps k r s1) : Keeps k r (@State.charge s1 a2 a3) := by
  unfold State.charge
  split
  · refine Keeps.ite (fun _ => ?_) fun _ => ?_
    · exact State.engineCycles_keeps kL (State.passCycles_keeps kL (by assumption))
    assumption
  refine Keeps.ite (fun _ => ?_) fun _ => ?_
  · exact State.engineCycles_keeps kL (State.passCycles_keeps kL (by assumption))
  refine Keeps.ite (fun _ => ?_) fun _ => ?_
  · exact State.count_keeps (State.modSite_keeps kS (State.engineCycles_keeps kL (State.passCycles_keeps kL (by assumption))))
  refine Keeps.ite (fun _ => ?_) fun _ => ?_
  · refine State.sendAbort_keeps kW ?_
    refine State.count_keeps ?_
    refine State.holdFault_keeps kS kX ?_
    refine State.addressOf_keeps ?_
    exact State.modSite_keeps kS (State.modSite_keeps kS (State.engineCycles_keeps kL (State.passCycles_keeps kL (by assumption))))
  exact State.modSite_keeps kS (State.engineCycles_keeps kL (State.passCycles_keeps kL (by assumption)))

theorem State.rejoin_keeps {r s1 : State} {a2} (kX : k .contexts) (h1 : Keeps k r s1) : Keeps k r (@State.rejoin s1 a2) := by
  unfold State.rejoin
  exact State.modCtx_keeps kX (by assumption)

theorem State.moveHome_keeps {r s1 : State} {a2} (kS : k .sites) (h1 : Keeps k r s1) : Keeps k r (@State.moveHome s1 a2) := by
  unfold State.moveHome
  try dsimp only
  split
  · exact State.raiseWith_keeps (State.setNat_keeps (State.modSite_keeps kS (by assumption)))
  exact State.raiseWith_keeps (State.modSite_keeps kS (by assumption))

theorem State.yieldThread_keeps {r s1 : State} {a2 a3 a4} (kS : k .sites) (kX : k .contexts) (kL : k .ledger) (h1 : Keeps k r s1) : Keeps k r (@State.yieldThread s1 a2 a3 a4) := by
  unfold State.yieldThread
  refine Keeps.ite (fun _ => ?_) fun _ => ?_
  · exact State.moveHome_keeps kS (State.setEntry_keeps kL (State.modCtx_keeps kX (State.modSite_keeps kS (by assumption))))
  exact State.setEntry_keeps kL (State.modCtx_keeps kX (State.modSite_keeps kS (by assumption)))

theorem State.boundary_keeps {r s1 : State} {a2 a3 a4 a5 a6 a7} (kD : k .device) (kS : k .sites) (kP : k .pins) (kX : k .contexts) (kL : k .ledger) (kA : k .acquisition) (kM : k .measure) (kY : k .memory) (kN : k .channels) (kK : k .link) (kF : k .faults) (h1 : Keeps k r s1) : Keeps k r (@State.boundary s1 a2 a3 a4 a5 a6 a7) := by
  unfold State.boundary
  try dsimp only
  split
  · refine State.faultSite_keeps kD kS kP kX kL kA kM kY kN kK kF ?_
    refine State.noteFault_keeps ?_
    split
    · refine Keeps.mkSnd ?_
      refine Keeps.ite (fun _ => ?_) fun _ => ?_
      · exact State.bump_keeps (State.modThread_keeps kS (by assumption))
      exact State.modThread_keeps kS (by assumption)
    refine Keeps.mkSnd ?_
    refine State.free_keeps ?_
    refine Keeps.ite (fun _ => ?_) fun _ => ?_
    · exact State.bump_keeps (State.modThread_keeps kS (by assumption))
    exact State.modThread_keeps kS (by assumption)
  split
  · refine State.faultSite_keeps kD kS kP kX kL kA kM kY kN kK kF ?_
    exact State.modThread_keeps kS (by assumption)
  refine Keeps.ite (fun _ => ?_) fun _ => ?_
  · exact State.haltSite_keeps kD kS kP kX kL kA kM kY kN kK kF (State.modThread_keeps kS (by assumption))
  refine Keeps.ite (fun _ => ?_) fun _ => ?_
  · exact State.yieldThread_keeps kS kX kL (State.rejoin_keeps kX (by assumption))
  exact State.rejoin_keeps kX (by assumption)

theorem State.stage_keeps {r s1 : State} {a2 a3 a4 a5} (kS : k .sites) (h1 : Keeps k r s1) : Keeps k r (@State.stage s1 a2 a3 a4 a5) := by
  unfold State.stage
  exact State.modSite_keeps kS (by assumption)

theorem State.enterDrain_keeps {r s1 : State} {a2 a3 a4} (kS : k .sites) (kX : k .contexts) (h1 : Keeps k r s1) : Keeps k r (@State.enterDrain s1 a2 a3 a4) := by
  unfold State.enterDrain
  refine Keeps.ite (fun _ => ?_) fun _ => ?_
  · exact State.enter_keeps kS (State.modCtx_keeps kX (State.modSite_keeps kS (by assumption)))
  exact State.modCtx_keeps kX (State.modSite_keeps kS (by assumption))

theorem State.stageBy_keeps {r s1 : State} {a2 a3 a4} (kS : k .sites) (h1 : Keeps k r s1) : Keeps k r (@State.stageBy s1 a2 a3 a4) := by
  unfold State.stageBy
  exact State.modSite_keeps kS (by assumption)

theorem State.release_keeps {r s1 : State} {a2 a3} (kS : k .sites) (kP : k .pins) (kX : k .contexts) (h1 : Keeps k r s1) : Keeps k r (@State.release s1 a2 a3) := by
  unfold State.release
  exact State.takeFree_keeps kS kP (State.modCtx_keeps kX (State.modSite_keeps kS (by assumption)))

theorem State.discard_keeps {r s1 : State} {a2 a3} (kS : k .sites) (kP : k .pins) (kX : k .contexts) (h1 : Keeps k r s1) : Keeps k r (@State.discard s1 a2 a3) := by
  unfold State.discard
  exact State.release_keeps kS kP kX (State.modSite_keeps kS (by assumption))

theorem State.leaveDrain_keeps {r s1 : State} {a2 a3} (kS : k .sites) (kP : k .pins) (kX : k .contexts) (kL : k .ledger) (h1 : Keeps k r s1) : Keeps k r (@State.leaveDrain s1 a2 a3) := by
  unfold State.leaveDrain
  refine Keeps.ite (fun _ => ?_) fun _ => ?_
  · refine State.modCtx_keeps kX ?_
    exact State.passCycles_keeps kL (State.takeFree_keeps kS kP (State.stage_keeps kS (State.modSite_keeps kS (by assumption))))
  exact State.takeFree_keeps kS kP (State.stage_keeps kS (State.modSite_keeps kS (by assumption)))

theorem State.advance_keeps {r s1 : State} {a2} (kS : k .sites) (h1 : Keeps k r s1) : Keeps k r (@State.advance s1 a2) := by
  unfold State.advance
  exact State.modThread_keeps kS (by assumption)

theorem State.emit_keeps {r s1 : State} {a2 a3 a4} (kS : k .sites) (kP : k .pins) (kX : k .contexts) (h1 : Keeps k r s1) : Keeps k r (@State.emit s1 a2 a3 a4) := by
  unfold State.emit
  exact State.takeFree_keeps kS kP (State.modCtx_keeps kX (State.stage_keeps kS (by assumption)))

theorem State.rider_keeps {r s1 : State} {a2 a3 a4} (kS : k .sites) (kP : k .pins) (kX : k .contexts) (h1 : Keeps k r s1) : Keeps k r (@State.rider s1 a2 a3 a4) := by
  unfold State.rider
  exact State.emit_keeps kS kP kX (by assumption)

theorem State.instrFault_keeps {r s1 : State} {a2 a3 a4 a5} (kD : k .device) (kS : k .sites) (kP : k .pins) (kX : k .contexts) (kL : k .ledger) (kA : k .acquisition) (kM : k .measure) (kY : k .memory) (kN : k .channels) (kK : k .link) (kF : k .faults) (h1 : Keeps k r s1) : Keeps k r (@State.instrFault s1 a2 a3 a4 a5) := by
  unfold State.instrFault
  refine Keeps.ite (fun _ => ?_) fun _ => ?_
  · exact State.boundary_keeps kD kS kP kX kL kA kM kY kN kK kF (State.bump_keeps (by assumption))
  exact State.vendorFault_keeps kD kS kP kX kL kA kM kY kN kK kF (by assumption)

theorem State.instr_keeps {r s1 : State} {a2 a3 a4 a5 a6 a7} (kD : k .device) (kS : k .sites) (kP : k .pins) (kX : k .contexts) (kL : k .ledger) (kA : k .acquisition) (kM : k .measure) (kY : k .memory) (kN : k .channels) (kK : k .link) (kW : k .convoy) (kF : k .faults) (h1 : Keeps k r s1)
    (g7 : ∀ x1 x2, Keeps k r x1 → KeepsDone k r (a7 x1 x2)) : KeepsOut k r (@State.instr s1 a2 a3 a4 a5 a6 a7) := by
  unfold State.instr
  refine Keeps.out_ite (fun _ => KeepsOut.next h1) fun _ => ?_
  have h2 : Keeps k r (s1.modCtx (s1.entry a2).context fun y => { y with st := .issuing }) := State.modCtx_keeps kX h1
  dsimp only
  generalize (s1.modCtx (s1.entry a2).context fun y => { y with st := .issuing }) = s2 at h2 ⊢
  refine Keeps.out_ite (fun _ => KeepsOut.next (State.instrFault_keeps kD kS kP kX kL kA kM kY kN kK kF (State.charge_keeps kS kX kL kW h2))) fun _ => ?_
  refine Keeps.out_ite (fun _ => KeepsOut.next (State.instrFault_keeps kD kS kP kX kL kA kM kY kN kK kF (State.charge_keeps kS kX kL kW h2))) fun _ => ?_
  refine Keeps.out_ite (fun _ => KeepsOut.next (State.instrFault_keeps kD kS kP kX kL kA kM kY kN kK kF (State.charge_keeps kS kX kL kW h2))) fun _ => ?_
  refine Keeps.out_ite (fun _ => KeepsOut.next (State.boundary_keeps kD kS kP kX kL kA kM kY kN kK kF (State.advance_keeps kS (State.modThread_keeps kS (State.charge_keeps kS kX kL kW h2))))) fun _ => ?_
  have h3 : Keeps k r (s2.charge (s1.entry a2).context a5) := State.charge_keeps kS kX kL kW h2
  generalize s2.charge (s1.entry a2).context a5 = s3 at h3 ⊢
  refine Keeps.out_ite (fun _ => KeepsOut.next (State.instrFault_keeps kD kS kP kX kL kA kM kY kN kK kF h3)) fun _ => ?_
  have h4 : Keeps k r (s3.modThread a2 (·.pass a4)) := State.modThread_keeps kS h3
  have h5 : Keeps k r (s3.modThread a2 fun t => { t with reached := true }) := State.modThread_keeps kS h3
  generalize (s3.modThread a2 (·.pass a4)) = s4 at h4 ⊢
  generalize (s3.modThread a2 fun t => { t with reached := true }) = s5 at h5 ⊢
  have k := g7 (if clrfOf a3 = true ∧ a6 = true then s4.newEpoch a2 else s4) (s1.entry a2).context
    (Keeps.ite (fun _ => State.newEpoch_keeps kS h4) fun _ => h4)
  split <;> rename_i e <;> try rw [e] at k
  · exact KeepsOut.next (State.instrFault_keeps kD kS kP kX kL kA kM kY kN kK kF h5)
  · exact KeepsOut.next (State.instrFault_keeps kD kS kP kX kL kA kM kY kN kK kF k)
  · exact KeepsOut.next (State.boundary_keeps kD kS kP kX kL kA kM kY kN kK kF h5)
  · exact KeepsOut.next (State.boundary_keeps kD kS kP kX kL kA kM kY kN kK kF k)
  · exact KeepsOut.next (State.boundary_keeps kD kS kP kX kL kA kM kY kN kK kF k)
  · exact KeepsOut.next (State.boundary_keeps kD kS kP kX kL kA kM kY kN kK kF k)
  · exact KeepsOut.next k
  · refine Keeps.out_ite (fun _ => KeepsOut.next (State.boundary_keeps kD kS kP kX kL kA kM kY kN kK kF k)) fun _ => KeepsOut.next (State.enterDrain_keeps kS kX k)

theorem State.capInstr_keeps {r s1 : State} {a2 a3 a4} (kD : k .device) (kS : k .sites) (kP : k .pins) (kX : k .contexts) (kL : k .ledger) (kA : k .acquisition) (kM : k .measure) (kY : k .memory) (kN : k .channels) (kK : k .link) (kW : k .convoy) (kF : k .faults) (h1 : Keeps k r s1) : KeepsOut k r (@State.capInstr s1 a2 a3 a4) := by
  unfold State.capInstr
  refine Keeps.out_ite (fun _ => ?_) fun _ => ?_
  · exact KeepsOut.next (by assumption)
  refine State.instr_keeps kD kS kP kX kL kA kM kY kN kK kW kF ?_ (fun _ _ _ => ?_)
  · assumption
  · refine Keeps.done_ite (fun _ => ?_) fun _ => ?_
    · trivial
    refine State.advance_keeps kS ?_
    refine Keeps.ite (fun _ => ?_) fun _ => ?_
    · exact State.rider_keeps kS kP kX (State.capIssue_keeps kL kA (by assumption))
    exact State.capIssue_keeps kL kA (by assumption)

theorem State.popLoops_keeps {r s1 : State} {a2 a3} (kS : k .sites) (h1 : Keeps k r s1) : Keeps k r (@State.popLoops s1 a2 a3) := by
  unfold State.popLoops
  exact State.modThread_keeps kS (by assumption)

theorem State.emitVectors_keeps {r s1 : State} {a2 a3 a4} (kS : k .sites) (kP : k .pins) (kX : k .contexts) (h1 : Keeps k r s1) : Keeps k r (@State.emitVectors s1 a2 a3 a4) := by
  unfold State.emitVectors
  exact State.modThread_keeps kS (State.emit_keeps kS kP kX (by assumption))

theorem State.emitRun_keeps {r s1 : State} {a2 a3 a4 a5 a6} (kS : k .sites) (kP : k .pins) (kX : k .contexts) (kL : k .ledger) (kW : k .convoy) (h1 : Keeps k r s1) : Keeps k r (@State.emitRun s1 a2 a3 a4 a5 a6).2 := by
  induction a4 generalizing s1 a5 a6 with
  | zero => exact h1
  | succ k ih => exact Keeps.snd_ite (fun _ => h1) fun _ => ih (State.charge_keeps kS kX kL kW (State.emitVectors_keeps kS kP kX h1))

theorem State.goto_keeps {r s1 : State} {a2 a3} (kS : k .sites) (h1 : Keeps k r s1) : Keeps k r (@State.goto s1 a2 a3) := by
  unfold State.goto
  exact State.modThread_keeps kS (by assumption)

theorem State.jump_keeps {r s1 : State} {a2 a3 a4 a5} (kS : k .sites) (h1 : Keeps k r s1) : Keeps k r (@State.jump s1 a2 a3 a4 a5) := by
  unfold State.jump
  refine Keeps.ite (fun _ => ?_) fun _ => ?_
  · exact State.goto_keeps kS (State.popLoops_keeps kS (by assumption))
  exact State.advance_keeps kS (State.popLoops_keeps kS (by assumption))

theorem State.raiseEvent_keeps {r s1 : State} {a2 a3} (kS : k .sites) (h1 : Keeps k r s1) : Keeps k r (@State.raiseEvent s1 a2 a3) := by
  unfold State.raiseEvent
  split
  · refine Keeps.ite (fun _ => ?_) fun _ => ?_
    · exact State.modSite_keeps kS (by assumption)
    exact State.raise_keeps (by assumption)
  exact State.raise_keeps (by assumption)

theorem State.trigInstr_keeps {r s1 : State} {a2 a3 a4} (kD : k .device) (kS : k .sites) (kP : k .pins) (kX : k .contexts) (kL : k .ledger) (kA : k .acquisition) (kM : k .measure) (kY : k .memory) (kN : k .channels) (kK : k .link) (kW : k .convoy) (kF : k .faults) (h1 : Keeps k r s1) : KeepsOut k r (@State.trigInstr s1 a2 a3 a4) := by
  unfold State.trigInstr
  refine Keeps.out_ite (fun _ => ?_) fun _ => ?_
  · exact KeepsOut.next (by assumption)
  refine State.instr_keeps kD kS kP kX kL kA kM kY kN kK kW kF ?_ (fun _ _ _ => ?_)
  · assumption
  · refine Keeps.done_ite (fun _ => ?_) fun _ => ?_
    · trivial
    refine Keeps.done_ite (fun _ => ?_) fun _ => ?_
    · trivial
    exact State.advance_keeps kS (State.rider_keeps kS kP kX (by assumption))

theorem State.vecRun_keeps {r s1 : State} {a2 a3 a4} (kS : k .sites) (kP : k .pins) (kX : k .contexts) (kL : k .ledger) (kW : k .convoy) (h1 : Keeps k r s1) : KeepsDone k r (@State.vecRun s1 a2 a3 a4) := by
  unfold State.vecRun
  refine Keeps.done_ite (fun _ => ?_) fun _ => ?_
  · exact State.advance_keeps kS (State.modThread_keeps kS (by assumption))
  refine Keeps.done_ite (fun _ => ?_) fun _ => ?_
  · exact State.modThread_keeps kS (by assumption)
  refine Keeps.done_ite (fun _ => ?_) fun _ => ?_
  · trivial
  refine Keeps.done_ite (fun _ => ?_) fun _ => ?_
  · refine State.advance_keeps kS ?_
    exact State.modThread_keeps kS (State.modThread_keeps kS (State.emitRun_keeps kS kP kX kL kW (by assumption)))
  exact State.modThread_keeps kS (State.modThread_keeps kS (State.emitRun_keeps kS kP kX kL kW (by assumption)))

theorem execYield_keeps {r s3 : State} {a1 a2} (kD : k .device) (kS : k .sites) (kP : k .pins) (kX : k .contexts) (kL : k .ledger) (kA : k .acquisition) (kM : k .measure) (kY : k .memory) (kN : k .channels) (kK : k .link) (kW : k .convoy) (kF : k .faults) (h3 : Keeps k r s3) : KeepsOut k r (@execYield a1 a2 s3) := by
  unfold execYield
  refine State.instr_keeps kD kS kP kX kL kA kM kY kN kK kW kF ?_ (fun _ _ _ => ?_)
  · assumption
  · exact State.advance_keeps kS (by assumption)

theorem execHalt_keeps {r s3 : State} {a1 a2} (kD : k .device) (kS : k .sites) (kP : k .pins) (kX : k .contexts) (kL : k .ledger) (kA : k .acquisition) (kM : k .measure) (kY : k .memory) (kN : k .channels) (kK : k .link) (kW : k .convoy) (kF : k .faults) (h3 : Keeps k r s3) : KeepsOut k r (@execHalt a1 a2 s3) := by
  unfold execHalt
  refine State.instr_keeps kD kS kP kX kL kA kM kY kN kK kW kF ?_ (fun _ _ _ => ?_)
  · assumption
  · assumption

theorem execSealI_keeps {r s3 : State} {a1 a2} (kD : k .device) (kS : k .sites) (kP : k .pins) (kX : k .contexts) (kL : k .ledger) (kA : k .acquisition) (kM : k .measure) (kY : k .memory) (kN : k .channels) (kK : k .link) (kW : k .convoy) (kF : k .faults) (h3 : Keeps k r s3) : KeepsOut k r (@execSealI a1 a2 s3) := by
  unfold execSealI
  refine State.instr_keeps kD kS kP kX kL kA kM kY kN kK kW kF ?_ (fun _ _ _ => ?_)
  · assumption
  · assumption

theorem execSerialLeave_keeps {r s3 : State} {a1 a2} (kD : k .device) (kS : k .sites) (kP : k .pins) (kX : k .contexts) (kL : k .ledger) (kA : k .acquisition) (kM : k .measure) (kY : k .memory) (kN : k .channels) (kK : k .link) (kW : k .convoy) (kF : k .faults) (h3 : Keeps k r s3) : KeepsOut k r (@execSerialLeave a1 a2 s3) := by
  unfold execSerialLeave
  refine Keeps.out_ite (fun _ => ?_) fun _ => ?_
  · exact KeepsOut.next (by assumption)
  refine State.instr_keeps kD kS kP kX kL kA kM kY kN kK kW kF ?_ (fun _ _ _ => ?_)
  · assumption
  · try dsimp only
    split
    · trivial
    exact State.advance_keeps kS (State.modThread_keeps kS (State.rider_keeps kS kP kX (by assumption)))

theorem execSerialEnter_keeps {r s3 : State} {a1 a2} (kD : k .device) (kS : k .sites) (kP : k .pins) (kX : k .contexts) (kL : k .ledger) (kA : k .acquisition) (kM : k .measure) (kY : k .memory) (kN : k .channels) (kK : k .link) (kW : k .convoy) (kF : k .faults) (h3 : Keeps k r s3) : KeepsOut k r (@execSerialEnter a1 a2 s3) := by
  unfold execSerialEnter
  refine Keeps.out_ite (fun _ => ?_) fun _ => ?_
  · exact KeepsOut.next (by assumption)
  refine State.instr_keeps kD kS kP kX kL kA kM kY kN kK kW kF ?_ (fun _ _ _ => ?_)
  · assumption
  · try dsimp only
    split
    · trivial
    refine Keeps.done_ite (fun _ => ?_) fun _ => ?_
    · trivial
    exact State.advance_keeps kS (State.modThread_keeps kS (State.rider_keeps kS kP kX (by assumption)))

theorem execEvent_keeps {r s3 : State} {a1 a2} (kD : k .device) (kS : k .sites) (kP : k .pins) (kX : k .contexts) (kL : k .ledger) (kA : k .acquisition) (kM : k .measure) (kY : k .memory) (kN : k .channels) (kK : k .link) (kW : k .convoy) (kF : k .faults) (h3 : Keeps k r s3) : KeepsOut k r (@execEvent a1 a2 s3) := by
  unfold execEvent
  refine State.instr_keeps kD kS kP kX kL kA kM kY kN kK kW kF ?_ (fun _ _ _ => ?_)
  · assumption
  · exact State.advance_keeps kS (State.raiseEvent_keeps kS (by assumption))

theorem execSync_keeps {r s3 : State} {a1 a2} (kD : k .device) (kS : k .sites) (kP : k .pins) (kX : k .contexts) (kL : k .ledger) (kA : k .acquisition) (kM : k .measure) (kY : k .memory) (kN : k .channels) (kK : k .link) (kW : k .convoy) (kF : k .faults) (h3 : Keeps k r s3) : KeepsOut k r (@execSync a1 a2 s3) := by
  unfold execSync
  refine State.instr_keeps kD kS kP kX kL kA kM kY kN kK kW kF ?_ (fun _ _ _ => ?_)
  · assumption
  · refine Keeps.done_ite (fun _ => ?_) fun _ => ?_
    · trivial
    refine Keeps.done_ite (fun _ => ?_) fun _ => ?_
    · trivial
    exact State.modSite_keeps kS (by assumption)

theorem execTrigDisarm_keeps {r s3 : State} {a1 a2} (kD : k .device) (kS : k .sites) (kP : k .pins) (kX : k .contexts) (kL : k .ledger) (kA : k .acquisition) (kM : k .measure) (kY : k .memory) (kN : k .channels) (kK : k .link) (kW : k .convoy) (kF : k .faults) (h3 : Keeps k r s3) : KeepsOut k r (@execTrigDisarm a1 a2 s3) := by
  unfold execTrigDisarm
  exact State.trigInstr_keeps kD kS kP kX kL kA kM kY kN kK kW kF (by assumption)

theorem execTrigFire_keeps {r s3 : State} {a1 a2} (kD : k .device) (kS : k .sites) (kP : k .pins) (kX : k .contexts) (kL : k .ledger) (kA : k .acquisition) (kM : k .measure) (kY : k .memory) (kN : k .channels) (kK : k .link) (kW : k .convoy) (kF : k .faults) (h3 : Keeps k r s3) : KeepsOut k r (@execTrigFire a1 a2 s3) := by
  unfold execTrigFire
  exact State.trigInstr_keeps kD kS kP kX kL kA kM kY kN kK kW kF (by assumption)

theorem execTrigArm_keeps {r s3 : State} {a1 a2} (kD : k .device) (kS : k .sites) (kP : k .pins) (kX : k .contexts) (kL : k .ledger) (kA : k .acquisition) (kM : k .measure) (kY : k .memory) (kN : k .channels) (kK : k .link) (kW : k .convoy) (kF : k .faults) (h3 : Keeps k r s3) : KeepsOut k r (@execTrigArm a1 a2 s3) := by
  unfold execTrigArm
  exact State.trigInstr_keeps kD kS kP kX kL kA kM kY kN kK kW kF (by assumption)

theorem execMeas_keeps {r s3 : State} {a1 a2} (kD : k .device) (kS : k .sites) (kP : k .pins) (kX : k .contexts) (kL : k .ledger) (kA : k .acquisition) (kM : k .measure) (kY : k .memory) (kN : k .channels) (kK : k .link) (kW : k .convoy) (kF : k .faults) (h3 : Keeps k r s3) : KeepsOut k r (@execMeas a1 a2 s3) := by
  unfold execMeas
  refine State.instr_keeps kD kS kP kX kL kA kM kY kN kK kW kF ?_ (fun _ _ _ => ?_)
  · assumption
  · refine Keeps.done_ite (fun _ => ?_) fun _ => ?_
    · trivial
    refine Keeps.done_ite (fun _ => ?_) fun _ => ?_
    · trivial
    refine State.advance_keeps kS ?_
    refine Keeps.ite (fun _ => ?_) fun _ => ?_
    · exact State.rider_keeps kS kP kX (State.armMeas_keeps kS kL kM (by assumption))
    exact State.armMeas_keeps kS kL kM (by assumption)

theorem execCapCommit_keeps {r s3 : State} {a1 a2} (kD : k .device) (kS : k .sites) (kP : k .pins) (kX : k .contexts) (kL : k .ledger) (kA : k .acquisition) (kM : k .measure) (kY : k .memory) (kN : k .channels) (kK : k .link) (kW : k .convoy) (kF : k .faults) (h3 : Keeps k r s3) : KeepsOut k r (@execCapCommit a1 a2 s3) := by
  unfold execCapCommit
  exact State.capInstr_keeps kD kS kP kX kL kA kM kY kN kK kW kF (by assumption)

theorem execCapResume_keeps {r s3 : State} {a1 a2} (kD : k .device) (kS : k .sites) (kP : k .pins) (kX : k .contexts) (kL : k .ledger) (kA : k .acquisition) (kM : k .measure) (kY : k .memory) (kN : k .channels) (kK : k .link) (kW : k .convoy) (kF : k .faults) (h3 : Keeps k r s3) : KeepsOut k r (@execCapResume a1 a2 s3) := by
  unfold execCapResume
  exact State.capInstr_keeps kD kS kP kX kL kA kM kY kN kK kW kF (by assumption)

theorem execCapPause_keeps {r s3 : State} {a1 a2} (kD : k .device) (kS : k .sites) (kP : k .pins) (kX : k .contexts) (kL : k .ledger) (kA : k .acquisition) (kM : k .measure) (kY : k .memory) (kN : k .channels) (kK : k .link) (kW : k .convoy) (kF : k .faults) (h3 : Keeps k r s3) : KeepsOut k r (@execCapPause a1 a2 s3) := by
  unfold execCapPause
  exact State.capInstr_keeps kD kS kP kX kL kA kM kY kN kK kW kF (by assumption)

theorem execCapStart_keeps {r s3 : State} {a1 a2} (kD : k .device) (kS : k .sites) (kP : k .pins) (kX : k .contexts) (kL : k .ledger) (kA : k .acquisition) (kM : k .measure) (kY : k .memory) (kN : k .channels) (kK : k .link) (kW : k .convoy) (kF : k .faults) (h3 : Keeps k r s3) : KeepsOut k r (@execCapStart a1 a2 s3) := by
  unfold execCapStart
  exact State.capInstr_keeps kD kS kP kX kL kA kM kY kN kK kW kF (by assumption)

theorem execCapStop_keeps {r s3 : State} {a1 a2} (kD : k .device) (kS : k .sites) (kP : k .pins) (kX : k .contexts) (kL : k .ledger) (kA : k .acquisition) (kM : k .measure) (kY : k .memory) (kN : k .channels) (kK : k .link) (kW : k .convoy) (kF : k .faults) (h3 : Keeps k r s3) : KeepsOut k r (@execCapStop a1 a2 s3) := by
  unfold execCapStop
  exact State.capInstr_keeps kD kS kP kX kL kA kM kY kN kK kW kF (by assumption)

theorem execPeriod_keeps {r s3 : State} {a1 a2} (kD : k .device) (kS : k .sites) (kP : k .pins) (kX : k .contexts) (kL : k .ledger) (kA : k .acquisition) (kM : k .measure) (kY : k .memory) (kN : k .channels) (kK : k .link) (kW : k .convoy) (kF : k .faults) (h3 : Keeps k r s3) : KeepsOut k r (@execPeriod a1 a2 s3) := by
  unfold execPeriod
  refine State.instr_keeps kD kS kP kX kL kA kM kY kN kK kW kF ?_ (fun _ _ _ => ?_)
  · assumption
  · refine Keeps.done_ite (fun _ => ?_) fun _ => ?_
    · trivial
    refine Keeps.done_ite (fun _ => ?_) fun _ => ?_
    · trivial
    exact State.advance_keeps kS (State.modThread_keeps kS (State.emit_keeps kS kP kX (by assumption)))

theorem execTset_keeps {r s3 : State} {a1 a2} (kD : k .device) (kS : k .sites) (kP : k .pins) (kX : k .contexts) (kL : k .ledger) (kA : k .acquisition) (kM : k .measure) (kY : k .memory) (kN : k .channels) (kK : k .link) (kW : k .convoy) (kF : k .faults) (h3 : Keeps k r s3) : KeepsOut k r (@execTset a1 a2 s3) := by
  unfold execTset
  refine State.instr_keeps kD kS kP kX kL kA kM kY kN kK kW kF ?_ (fun _ _ _ => ?_)
  · assumption
  · refine Keeps.done_ite (fun _ => ?_) fun _ => ?_
    · trivial
    refine Keeps.done_ite (fun _ => ?_) fun _ => ?_
    · trivial
    exact State.advance_keeps kS (State.modThread_keeps kS (State.emit_keeps kS kP kX (by assumption)))

theorem execWaitTime_keeps {r s3 : State} {a1 a2} (kD : k .device) (kS : k .sites) (kP : k .pins) (kX : k .contexts) (kL : k .ledger) (kA : k .acquisition) (kM : k .measure) (kY : k .memory) (kN : k .channels) (kK : k .link) (kW : k .convoy) (kF : k .faults) (h3 : Keeps k r s3) : KeepsOut k r (@execWaitTime a1 a2 s3) := by
  unfold execWaitTime
  refine Keeps.out_ite (fun _ => ?_) fun _ => ?_
  · exact KeepsOut.next (by assumption)
  refine State.instr_keeps kD kS kP kX kL kA kM kY kN kK kW kF ?_ (fun _ _ _ => ?_)
  · assumption
  · refine Keeps.done_ite (fun _ => ?_) fun _ => ?_
    · trivial
    exact State.advance_keeps kS (State.modThread_keeps kS (State.emit_keeps kS kP kX (by assumption)))

theorem execWaitHold_keeps {r s3 : State} {a1 a2} (kD : k .device) (kS : k .sites) (kP : k .pins) (kX : k .contexts) (kL : k .ledger) (kA : k .acquisition) (kM : k .measure) (kY : k .memory) (kN : k .channels) (kK : k .link) (kW : k .convoy) (kF : k .faults) (h3 : Keeps k r s3) : KeepsOut k r (@execWaitHold a1 a2 s3) := by
  unfold execWaitHold
  refine Keeps.out_ite (fun _ => ?_) fun _ => ?_
  · exact KeepsOut.next (by assumption)
  refine State.instr_keeps kD kS kP kX kL kA kM kY kN kK kW kF ?_ (fun _ _ _ => ?_)
  · assumption
  · refine Keeps.done_ite (fun _ => ?_) fun _ => ?_
    · exact State.advance_keeps kS (by assumption)
    refine Keeps.done_ite (fun _ => ?_) fun _ => ?_
    · trivial
    exact State.advance_keeps kS (State.modThread_keeps kS (State.emit_keeps kS kP kX (by assumption)))

theorem execMatchI_keeps {r s3 : State} {a1 a2} (kD : k .device) (kS : k .sites) (kP : k .pins) (kX : k .contexts) (kL : k .ledger) (kA : k .acquisition) (kM : k .measure) (kY : k .memory) (kN : k .channels) (kK : k .link) (kW : k .convoy) (kF : k .faults) (h3 : Keeps k r s3) : KeepsOut k r (@execMatchI a1 a2 s3) := by
  unfold execMatchI
  refine State.instr_keeps kD kS kP kX kL kA kM kY kN kK kW kF ?_ (fun _ _ _ => ?_)
  · assumption
  · try dsimp only
    split
    · trivial
    refine Keeps.done_ite (fun _ => ?_) fun _ => ?_
    · trivial
    refine Keeps.done_ite (fun _ => ?_) fun _ => ?_
    · trivial
    refine Keeps.done_ite (fun _ => ?_) fun _ => ?_
    · trivial
    refine Keeps.done_ite (fun _ => ?_) fun _ => ?_
    · trivial
    exact State.modSite_keeps kS (State.emitVectors_keeps kS kP kX (by assumption))

theorem execJevt_keeps {r s3 : State} {a1 a2} (kD : k .device) (kS : k .sites) (kP : k .pins) (kX : k .contexts) (kL : k .ledger) (kA : k .acquisition) (kM : k .measure) (kY : k .memory) (kN : k .channels) (kK : k .link) (kW : k .convoy) (kF : k .faults) (h3 : Keeps k r s3) : KeepsOut k r (@execJevt a1 a2 s3) := by
  unfold execJevt
  refine State.instr_keeps kD kS kP kX kL kA kM kY kN kK kW kF ?_ (fun _ _ _ => ?_)
  · assumption
  · try dsimp only
    split
    · trivial
    refine State.jump_keeps kS ?_
    refine Keeps.ite (fun _ => ?_) fun _ => ?_
    · exact State.modThread_keeps kS (by assumption)
    assumption

theorem execJfail_keeps {r s3 : State} {a1 a2} (kD : k .device) (kS : k .sites) (kP : k .pins) (kX : k .contexts) (kL : k .ledger) (kA : k .acquisition) (kM : k .measure) (kY : k .memory) (kN : k .channels) (kK : k .link) (kW : k .convoy) (kF : k .faults) (h3 : Keeps k r s3) : KeepsOut k r (@execJfail a1 a2 s3) := by
  unfold execJfail
  refine State.instr_keeps kD kS kP kX kL kA kM kY kN kK kW kF ?_ (fun _ _ _ => ?_)
  · assumption
  · try dsimp only
    split
    · trivial
    refine Keeps.done_ite (fun _ => ?_) fun _ => ?_
    · assumption
    refine State.jump_keeps kS ?_
    refine Keeps.ite (fun _ => ?_) fun _ => ?_
    · exact State.newEpoch_keeps kS (by assumption)
    assumption

theorem execJmp_keeps {r s3 : State} {a1 a2} (kD : k .device) (kS : k .sites) (kP : k .pins) (kX : k .contexts) (kL : k .ledger) (kA : k .acquisition) (kM : k .measure) (kY : k .memory) (kN : k .channels) (kK : k .link) (kW : k .convoy) (kF : k .faults) (h3 : Keeps k r s3) : KeepsOut k r (@execJmp a1 a2 s3) := by
  unfold execJmp
  refine State.instr_keeps kD kS kP kX kL kA kM kY kN kK kW kF ?_ (fun _ _ _ => ?_)
  · assumption
  · split
    · trivial
    exact State.jump_keeps kS (by assumption)

theorem execRet_keeps {r s3 : State} {a1 a2} (kD : k .device) (kS : k .sites) (kP : k .pins) (kX : k .contexts) (kL : k .ledger) (kA : k .acquisition) (kM : k .measure) (kY : k .memory) (kN : k .channels) (kK : k .link) (kW : k .convoy) (kF : k .faults) (h3 : Keeps k r s3) : KeepsOut k r (@execRet a1 a2 s3) := by
  unfold execRet
  refine State.instr_keeps kD kS kP kX kL kA kM kY kN kK kW kF ?_ (fun _ _ _ => ?_)
  · assumption
  · split
    · trivial
    refine Keeps.done_ite (fun _ => ?_) fun _ => ?_
    · trivial
    exact State.modThread_keeps kS (by assumption)

theorem execCall_keeps {r s3 : State} {a1 a2} (kD : k .device) (kS : k .sites) (kP : k .pins) (kX : k .contexts) (kL : k .ledger) (kA : k .acquisition) (kM : k .measure) (kY : k .memory) (kN : k .channels) (kK : k .link) (kW : k .convoy) (kF : k .faults) (h3 : Keeps k r s3) : KeepsOut k r (@execCall a1 a2 s3) := by
  unfold execCall
  refine State.instr_keeps kD kS kP kX kL kA kM kY kN kK kW kF ?_ (fun _ _ _ => ?_)
  · assumption
  · refine Keeps.done_ite (fun _ => ?_) fun _ => ?_
    · trivial
    refine Keeps.done_ite (fun _ => ?_) fun _ => ?_
    · trivial
    exact State.goto_keeps kS (State.modThread_keeps kS (by assumption))

theorem execEndl_keeps {r s3 : State} {a1 a2} (kD : k .device) (kS : k .sites) (kP : k .pins) (kX : k .contexts) (kL : k .ledger) (kA : k .acquisition) (kM : k .measure) (kY : k .memory) (kN : k .channels) (kK : k .link) (kW : k .convoy) (kF : k .faults) (h3 : Keeps k r s3) : KeepsOut k r (@execEndl a1 a2 s3) := by
  unfold execEndl
  refine State.instr_keeps kD kS kP kX kL kA kM kY kN kK kW kF ?_ (fun _ _ _ => ?_)
  · assumption
  · split
    · trivial
    refine Keeps.done_ite (fun _ => ?_) fun _ => ?_
    · exact State.modThread_keeps kS (by assumption)
    exact State.advance_keeps kS (State.modThread_keeps kS (by assumption))

theorem execLoop_keeps {r s3 : State} {a1 a2} (kD : k .device) (kS : k .sites) (kP : k .pins) (kX : k .contexts) (kL : k .ledger) (kA : k .acquisition) (kM : k .measure) (kY : k .memory) (kN : k .channels) (kK : k .link) (kW : k .convoy) (kF : k .faults) (h3 : Keeps k r s3) : KeepsOut k r (@execLoop a1 a2 s3) := by
  unfold execLoop
  refine State.instr_keeps kD kS kP kX kL kA kM kY kN kK kW kF ?_ (fun _ _ _ => ?_)
  · assumption
  · refine Keeps.done_ite (fun _ => ?_) fun _ => ?_
    · trivial
    try dsimp only
    split
    · exact State.readWord_keeps kD kN kF (by assumption)
    refine Keeps.done_ite (fun _ => ?_) fun _ => ?_
    · exact State.readWord_keeps kD kN kF (by assumption)
    refine Keeps.done_ite (fun _ => ?_) fun _ => ?_
    · exact State.goto_keeps kS (State.readWord_keeps kD kN kF (by assumption))
    refine Keeps.done_ite (fun _ => ?_) fun _ => ?_
    · exact State.readWord_keeps kD kN kF (by assumption)
    exact State.advance_keeps kS (State.modThread_keeps kS (State.readWord_keeps kD kN kF (by assumption)))

theorem execRpt_keeps {r s3 : State} {a1 a2} (kD : k .device) (kS : k .sites) (kP : k .pins) (kX : k .contexts) (kL : k .ledger) (kA : k .acquisition) (kM : k .measure) (kY : k .memory) (kN : k .channels) (kK : k .link) (kW : k .convoy) (kF : k .faults) (h3 : Keeps k r s3) : KeepsOut k r (@execRpt a1 a2 s3) := by
  unfold execRpt
  refine State.instr_keeps kD kS kP kX kL kA kM kY kN kK kW kF ?_ (fun _ _ _ => ?_)
  · assumption
  · refine Keeps.done_ite (fun _ => ?_) fun _ => ?_
    · trivial
    refine Keeps.done_ite (fun _ => ?_) fun _ => ?_
    · exact State.advance_keeps kS (by assumption)
    refine Keeps.done_ite (fun _ => ?_) fun _ => ?_
    · trivial
    refine Keeps.done_ite (fun _ => ?_) fun _ => ?_
    · trivial
    exact State.advance_keeps kS (State.emitVectors_keeps kS kP kX (by assumption))

theorem execVec_keeps {r s3 : State} {a1 a2} (kD : k .device) (kS : k .sites) (kP : k .pins) (kX : k .contexts) (kL : k .ledger) (kA : k .acquisition) (kM : k .measure) (kY : k .memory) (kN : k .channels) (kK : k .link) (kW : k .convoy) (kF : k .faults) (h3 : Keeps k r s3) : KeepsOut k r (@execVec a1 a2 s3) := by
  unfold execVec
  refine State.instr_keeps kD kS kP kX kL kA kM kY kN kK kW kF ?_ (fun _ _ _ => ?_)
  · assumption
  · try dsimp only
    split
    · exact State.vecRun_keeps kS kP kX kL kW (by assumption)
    refine Keeps.done_ite (fun _ => ?_) fun _ => ?_
    · trivial
    exact State.vecRun_keeps kS kP kX kL kW (State.modThread_keeps kS (by assumption))

theorem State.playOut_keeps {r s1 : State} {a2} (kS : k .sites) (kP : k .pins) (kM : k .measure) (h1 : Keeps k r s1) : Keeps k r (@State.playOut s1 a2) := by
  unfold State.playOut
  refine Keeps.ite (fun _ => ?_) fun _ => ?_
  · exact State.modSite_keeps kS (by assumption)
  exact State.park_keeps kS kP kM (by assumption)

theorem State.decideHalt_keeps {r s1 : State} {a2} (kD : k .device) (kS : k .sites) (kP : k .pins) (kX : k .contexts) (kL : k .ledger) (kA : k .acquisition) (kM : k .measure) (kY : k .memory) (kN : k .channels) (kK : k .link) (kF : k .faults) (h1 : Keeps k r s1) : Keeps k r (@State.decideHalt s1 a2) := by
  unfold State.decideHalt
  refine State.playOut_keeps kS kP kM ?_
  refine State.haltSite_keeps kD kS kP kX kL kA kM kY kN kK kF ?_
  exact State.rideAll_keeps kD kS kP kL kA kM kY kN kK kF (State.skipFlat_keeps kS (by assumption))

theorem State.decideJfail_keeps {r s1 : State} {a2 a3 a4 a5 a6} (kS : k .sites) (kP : k .pins) (kX : k .contexts) (kL : k .ledger) (h1 : Keeps k r s1) : Keeps k r (@State.decideJfail s1 a2 a3 a4 a5 a6) := by
  unfold State.decideJfail
  refine State.leaveDrain_keeps kS kP kX kL ?_
  refine State.popLoops_keeps kS ?_
  refine Keeps.ite (fun _ => ?_) fun _ => ?_
  · exact State.newEpoch_keeps kS (by assumption)
  assumption

theorem State.decideSeal_keeps {r s1 : State} {a2} (kD : k .device) (kS : k .sites) (kP : k .pins) (kL : k .ledger) (kA : k .acquisition) (kM : k .measure) (kY : k .memory) (kN : k .channels) (kK : k .link) (kF : k .faults) (h1 : Keeps k r s1) : Keeps k r (@State.decideSeal s1 a2) := by
  unfold State.decideSeal
  refine State.modSite_keeps kS ?_
  refine State.closeCapture_keeps kD kS kL kA kY kN kK kF ?_
  refine State.cancelSiteMeas_keeps kS kP kL kM ?_
  exact State.rideAll_keeps kD kS kP kL kA kM kY kN kK kF (State.skipFlat_keeps kS (by assumption))

theorem State.endMatch_keeps {r s1 : State} {a2} (kS : k .sites) (kP : k .pins) (kX : k .contexts) (kL : k .ledger) (h1 : Keeps k r s1) : Keeps k r (@State.endMatch s1 a2) := by
  unfold State.endMatch
  split
  · assumption
  exact State.leaveDrain_keeps kS kP kX kL (State.modSite_keeps kS (by assumption))

theorem State.sealSite_keeps {r s1 : State} {a2 a3 a4 a5} (kS : k .sites) (kX : k .contexts) (kL : k .ledger) (kA : k .acquisition) (kV : k .passport) (h1 : Keeps k r s1) : Keeps k r (@State.sealSite s1 a2 a3 a4 a5) := by
  unfold State.sealSite
  refine State.modSite_keeps kS ?_
  refine State.disarmUnits_keeps kA ?_
  refine State.cancelTasks_keeps kL ?_
  exact State.releaseBudget_keeps kS kX kL (State.enter_keeps kS (State.formVerdict_keeps kS kL kV (by assumption)))

theorem execPlayoutEnd_keeps {r s2 : State} {a1} (kS : k .sites) (kP : k .pins) (kM : k .measure) (h2 : Keeps k r s2) : KeepsOut k r (@execPlayoutEnd a1 s2) := by
  unfold execPlayoutEnd
  refine Keeps.out_ite (fun _ => ?_) fun _ => ?_
  · exact KeepsOut.next (State.modSite_keeps kS (State.park_keeps kS kP kM (by assumption)))
  exact KeepsOut.next (by assumption)

theorem execVerdictRecord_keeps {r s2 : State} {a1} (kS : k .sites) (kP : k .pins) (kX : k .contexts) (kL : k .ledger) (kA : k .acquisition) (kM : k .measure) (kV : k .passport) (h2 : Keeps k r s2) : KeepsOut k r (@execVerdictRecord a1 s2) := by
  unfold execVerdictRecord
  split
  · refine Keeps.out_ite (fun _ => ?_) fun _ => ?_
    · exact KeepsOut.next (State.playOut_keeps kS kP kM (State.sealSite_keeps kS kX kL kA kV (by assumption)))
    exact KeepsOut.next (by assumption)
  exact KeepsOut.next (by assumption)

theorem execSyncTimeout_keeps {r s2 : State} {a1} (kD : k .device) (kS : k .sites) (kP : k .pins) (kX : k .contexts) (kL : k .ledger) (kA : k .acquisition) (kM : k .measure) (kY : k .memory) (kN : k .channels) (kK : k .link) (kW : k .convoy) (kF : k .faults) (h2 : Keeps k r s2) : KeepsOut k r (@execSyncTimeout a1 s2) := by
  unfold execSyncTimeout
  refine Keeps.out_ite (fun _ => ?_) fun _ => ?_
  · refine KeepsOut.next ?_
    refine State.threadFault_keeps kD kS kP kX kL kA kM kY kN kK kF ?_
    exact State.sendAbort_keeps kW (by assumption)
  exact KeepsOut.next (by assumption)

theorem execSyncAgreement_keeps {r s2 : State} {a1} (kS : k .sites) (kP : k .pins) (kX : k .contexts) (kL : k .ledger) (kW : k .convoy) (h2 : Keeps k r s2) : KeepsOut k r (@execSyncAgreement a1 s2) := by
  unfold execSyncAgreement
  split
  · refine Keeps.out_ite (fun _ => ?_) fun _ => ?_
    · refine KeepsOut.next ?_
      refine Keeps.ite (fun _ => ?_) fun _ => ?_
      · refine State.charge_keeps kS kX kL kW ?_
        refine State.leaveDrain_keeps kS kP kX kL ?_
        refine State.modSite_keeps kS ?_
        refine Keeps.ite (fun _ => ?_) fun _ => ?_
        · exact State.bump_keeps (by assumption)
        assumption
      refine State.leaveDrain_keeps kS kP kX kL ?_
      refine State.modSite_keeps kS ?_
      refine Keeps.ite (fun _ => ?_) fun _ => ?_
      · exact State.bump_keeps (by assumption)
      assumption
    exact KeepsOut.next (by assumption)
  exact KeepsOut.next (by assumption)

theorem execSyncPost_keeps {r s2 : State} {a1} (kS : k .sites) (h2 : Keeps k r s2) : KeepsOut k r (@execSyncPost a1 s2) := by
  unfold execSyncPost
  split
  · refine KeepsOut.next ?_
    refine Keeps.ite (fun _ => ?_) fun _ => ?_
    · exact State.newEpoch_keeps kS (State.modSite_keeps kS (by assumption))
    exact State.modSite_keeps kS (by assumption)
  exact KeepsOut.next (by assumption)

theorem execMatchTimeout_keeps {r s2 : State} {a1} (kS : k .sites) (kP : k .pins) (kX : k .contexts) (kL : k .ledger) (h2 : Keeps k r s2) : KeepsOut k r (@execMatchTimeout a1 s2) := by
  unfold execMatchTimeout
  refine Keeps.out_ite (fun _ => ?_) fun _ => ?_
  · refine KeepsOut.next ?_
    exact State.endMatch_keeps kS kP kX kL (State.raise_keeps (State.bareFail_keeps kS (State.modSite_keeps kS (by assumption))))
  exact KeepsOut.next (by assumption)

theorem execMatched_keeps {r s2 : State} {a1} (kS : k .sites) (kP : k .pins) (kX : k .contexts) (kL : k .ledger) (h2 : Keeps k r s2) : KeepsOut k r (@execMatched a1 s2) := by
  unfold execMatched
  refine Keeps.out_ite (fun _ => ?_) fun _ => ?_
  · exact KeepsOut.next (State.endMatch_keeps kS kP kX kL (State.modSite_keeps kS (by assumption)))
  exact KeepsOut.next (by assumption)

theorem execDrainDecision_keeps {r s2 : State} {a1} (kD : k .device) (kS : k .sites) (kP : k .pins) (kX : k .contexts) (kL : k .ledger) (kA : k .acquisition) (kM : k .measure) (kY : k .memory) (kN : k .channels) (kK : k .link) (kF : k .faults) (h2 : Keeps k r s2) : KeepsOut k r (@execDrainDecision a1 s2) := by
  unfold execDrainDecision
  try dsimp only
  split
  · exact KeepsOut.next (by assumption)
  refine Keeps.out_ite (fun _ => ?_) fun _ => ?_
  · exact KeepsOut.next (by assumption)
  split
  · exact KeepsOut.next (State.decideJfail_keeps kS kP kX kL (by assumption))
  · exact KeepsOut.next (State.decideSeal_keeps kD kS kP kL kA kM kY kN kK kF (by assumption))
  · exact KeepsOut.next (State.decideHalt_keeps kD kS kP kX kL kA kM kY kN kK kF (by assumption))
  exact KeepsOut.next (by assumption)

theorem State.loseEntry_keeps {r s1 : State} {a2} (kD : k .device) (kO : k .store) (kF : k .faults) (h1 : Keeps k r s1) : Keeps k r (@State.loseEntry s1 a2) := by
  unfold State.loseEntry
  refine Keeps.ite (fun _ => ?_) fun _ => ?_
  · assumption
  refine Keeps.ite (fun _ => ?_) fun _ => ?_
  · exact State.reportFault_keeps kD kF (State.bump_keeps (Keeps.put_store kO (by assumption)))
  exact State.reportFault_keeps kD kF (State.bump_keeps (Keeps.put_store kO (by assumption)))

theorem State.correctCopy_keeps {r s1 : State} {a2 a3} (kO : k .store) (h1 : Keeps k r s1) : Keeps k r (@State.correctCopy s1 a2 a3) := by
  unfold State.correctCopy
  split
  · exact State.bump_keeps (Keeps.put_store kO (by assumption))
  assumption

theorem State.readStore_keeps {r s1 : State} {a2} (kD : k .device) (kO : k .store) (kF : k .faults) (h1 : Keeps k r s1) : Keeps k r (@State.readStore s1 a2) := by
  unfold State.readStore
  refine Keeps.ite (fun _ => ?_) fun _ => ?_
  · exact State.correctCopy_keeps kO (by assumption)
  exact State.loseEntry_keeps kD kO kF (by assumption)

theorem State.custEmpty_keeps {r s1 : State} (kO : k .store) (h1 : Keeps k r s1) : Keeps k r (@State.custEmpty s1) := by
  unfold State.custEmpty
  exact Keeps.put_store kO (by assumption)

theorem State.custClear_keeps {r s1 : State} (kO : k .store) (h1 : Keeps k r s1) : Keeps k r (@State.custClear s1).2 := by
  unfold State.custClear
  refine Keeps.snd_ite (fun _ => ?_) fun _ => ?_
  · exact Keeps.mkSnd (by assumption)
  exact Keeps.mkSnd (State.custEmpty_keeps kO (by assumption))

theorem State.repairCopy_keeps {r s1 : State} {a2 a3} (kO : k .store) (h1 : Keeps k r s1) : Keeps k r (@State.repairCopy s1 a2 a3) := by
  unfold State.repairCopy
  exact State.bump_keeps (Keeps.put_store kO (by assumption))

theorem State.scrubEntry_keeps {r s1 : State} {a2} (kD : k .device) (kO : k .store) (kF : k .faults) (h1 : Keeps k r s1) : Keeps k r (@State.scrubEntry s1 a2) := by
  unfold State.scrubEntry
  try dsimp only
  split
  · exact State.correctCopy_keeps kO (State.correctCopy_keeps kO (by assumption))
  · exact State.repairCopy_keeps kO (State.correctCopy_keeps kO (State.correctCopy_keeps kO (by assumption)))
  · exact State.repairCopy_keeps kO (State.correctCopy_keeps kO (State.correctCopy_keeps kO (by assumption)))
  exact State.loseEntry_keeps kD kO kF (State.correctCopy_keeps kO (State.correctCopy_keeps kO (by assumption)))

theorem State.custClose_keeps {r s1 : State} (kD : k .device) (kO : k .store) (kF : k .faults) (h1 : Keeps k r s1) : Keeps k r (@State.custClose s1).2 := by
  unfold State.custClose
  refine Keeps.snd_ite (fun _ => ?_) fun _ => ?_
  · exact Keeps.mkSnd (by assumption)
  refine Keeps.snd_ite (fun _ => ?_) fun _ => ?_
  · refine Keeps.mkSnd ?_
    refine Keeps.each ?_ fun _ _ _ => ?_
    · assumption
    exact State.scrubEntry_keeps kD kO kF (by assumption)
  refine Keeps.mkSnd ?_
  refine Keeps.put_store kO ?_
  refine Keeps.each ?_ fun _ _ _ => ?_
  · assumption
  exact State.scrubEntry_keeps kD kO kF (by assumption)

theorem State.custOpen_keeps {r s1 : State} (kO : k .store) (h1 : Keeps k r s1) : Keeps k r (@State.custOpen s1).2 := by
  unfold State.custOpen
  refine Keeps.snd_ite (fun _ => ?_) fun _ => ?_
  · exact Keeps.mkSnd (by assumption)
  exact Keeps.mkSnd (Keeps.put_store kO (by assumption))

theorem State.writeHeader_keeps {r s1 : State} {a2} (kD : k .device) (kO : k .store) (h1 : Keeps k r s1) : Keeps k r (@State.writeHeader s1 a2).2 := by
  unfold State.writeHeader
  refine Keeps.snd_ite (fun _ => ?_) fun _ => ?_
  · exact Keeps.mkSnd (by assumption)
  refine Keeps.snd_ite (fun _ => ?_) fun _ => ?_
  · exact Keeps.mkSnd (by assumption)
  refine Keeps.snd_ite (fun _ => ?_) fun _ => ?_
  · exact Keeps.mkSnd (by assumption)
  refine Keeps.snd_ite (fun _ => ?_) fun _ => ?_
  · exact Keeps.mkSnd (by assumption)
  exact Keeps.mkSnd (Keeps.put_start_store kD kO (by assumption))

theorem State.scrub_keeps {r s1 : State} (kD : k .device) (kO : k .store) (kF : k .faults) (h1 : Keeps k r s1) : Keeps k r (@State.scrub s1) := by
  unfold State.scrub
  refine Keeps.ite (fun _ => ?_) fun _ => ?_
  · assumption
  refine Keeps.ite (fun _ => ?_) fun _ => ?_
  · refine State.bump_keeps ?_
    refine Keeps.put_store kO ?_
    refine Keeps.ite (fun _ => ?_) fun _ => ?_
    · assumption
    exact State.scrubEntry_keeps kD kO kF (by assumption)
  refine Keeps.put_store kO ?_
  refine Keeps.ite (fun _ => ?_) fun _ => ?_
  · assumption
  exact State.scrubEntry_keeps kD kO kF (by assumption)

theorem State.mendVendor_keeps {r s1 : State} (kO : k .store) (h1 : Keeps k r s1) : Keeps k r (@State.mendVendor s1) := by
  unfold State.mendVendor
  refine Keeps.each ?_ fun _ _ _ => ?_
  · assumption
  try dsimp only
  split
  · exact State.repairCopy_keeps kO (State.correctCopy_keeps kO (State.correctCopy_keeps kO (by assumption)))
  · exact State.repairCopy_keeps kO (State.correctCopy_keeps kO (State.correctCopy_keeps kO (by assumption)))
  exact State.correctCopy_keeps kO (State.correctCopy_keeps kO (by assumption))

theorem execCustCloseDone_keeps {r s1 : State} (kD : k .device) (kO : k .store) (kF : k .faults) (h1 : Keeps k r s1) : KeepsOut k r (@execCustCloseDone s1) := by
  unfold execCustCloseDone
  refine Keeps.out_ite (fun _ => ?_) fun _ => ?_
  · refine KeepsOut.next ?_
    refine State.setOct_keeps ?_
    refine Keeps.put_store kO ?_
    refine Keeps.each ?_ fun _ _ _ => ?_
    · assumption
    exact State.scrubEntry_keeps kD kO kF (by assumption)
  exact KeepsOut.next (by assumption)

theorem State.modMs_keeps {r s1 : State} {a2 a3} (kX : k .contexts) (h1 : Keeps k r s1) : Keeps k r (@State.modMs s1 a2 a3) := by
  unfold State.modMs
  exact State.modCtx_keeps kX (by assumption)

theorem State.hold_keeps {r s1 : State} {a2 a3} (kS : k .sites) (kX : k .contexts) (h1 : Keeps k r s1) : Keeps k r (@State.hold s1 a2 a3) := by
  unfold State.hold
  exact State.holdFault_keeps kS kX (by assumption)

theorem State.nopFault_keeps {r s1 : State} {a2 a3} (kS : k .sites) (kX : k .contexts) (h1 : Keeps k r s1) : Keeps k r (@State.nopFault s1 a2 a3) := by
  unfold State.nopFault
  exact State.modMs_keeps kX (State.hold_keeps kS kX (by assumption))

theorem State.binary_keeps {r s1 : State} {a2 a3 a4 a5 a6} (kS : k .sites) (kX : k .contexts) (h1 : Keeps k r s1) : Keeps k r (@State.binary s1 a2 a3 a4 a5 a6) := by
  unfold State.binary
  try dsimp only
  split
  · exact State.nopFault_keeps kS kX (by assumption)
  refine Keeps.ite (fun _ => ?_) fun _ => ?_
  · exact State.nopFault_keeps kS kX (by assumption)
  exact State.modMs_keeps kX (by assumption)

theorem State.micro_keeps {r s1 : State} {a2 a3 a4 a5 a6} (kD : k .device) (kS : k .sites) (kX : k .contexts) (kO : k .store) (kL : k .ledger) (kW : k .convoy) (kF : k .faults) (h1 : Keeps k r s1) (g6 : ∀ x1, Keeps k r x1 → Keeps k r (a6 x1)) : KeepsOut k r (@State.micro s1 a2 a3 a4 a5 a6) := by
  unfold State.micro
  refine Keeps.out_ite (fun _ => ?_) fun _ => ?_
  · exact KeepsOut.next (by assumption)
  refine Keeps.out_ite (fun _ => ?_) fun _ => ?_
  · exact KeepsOut.next (by assumption)
  refine Keeps.out_ite (fun _ => ?_) fun _ => ?_
  · refine KeepsOut.next ?_
    refine State.modCtx_keeps kX ?_
    refine Keeps.ite (fun _ => ?_) fun _ => ?_
    · exact State.readStore_keeps kD kO kF (by assumption)
    assumption
  refine Keeps.out_ite (fun _ => ?_) fun _ => ?_
  · refine KeepsOut.next ?_
    refine State.nopFault_keeps kS kX ?_
    refine State.charge_keeps kS kX kL kW ?_
    refine State.modCtx_keeps kX ?_
    refine Keeps.ite (fun _ => ?_) fun _ => ?_
    · exact State.readStore_keeps kD kO kF (by assumption)
    assumption
  refine KeepsOut.next ?_
  refine g6 _ ?_
  refine State.charge_keeps kS kX kL kW ?_
  refine State.modCtx_keeps kX ?_
  refine Keeps.ite (fun _ => ?_) fun _ => ?_
  · exact State.readStore_keeps kD kO kF (by assumption)
  assumption

theorem State.capcMicro_keeps {r s1 : State} {a2 a3 a4} (kD : k .device) (kS : k .sites) (kX : k .contexts) (kO : k .store) (kL : k .ledger) (kA : k .acquisition) (kW : k .convoy) (kF : k .faults) (h1 : Keeps k r s1) : KeepsOut k r (@State.capcMicro s1 a2 a3 a4) := by
  unfold State.capcMicro
  refine Keeps.out_ite (fun _ => ?_) fun _ => ?_
  · exact KeepsOut.next (by assumption)
  refine State.micro_keeps kD kS kX kO kL kW kF ?_ (fun _ _ => ?_)
  · assumption
  · refine Keeps.ite (fun _ => ?_) fun _ => ?_
    · exact State.nopFault_keeps kS kX (by assumption)
    refine State.modMs_keeps kX ?_
    refine Keeps.ite (fun _ => ?_) fun _ => ?_
    · refine State.modCtx_keeps kX ?_
      refine Keeps.ite (fun _ => ?_) fun _ => ?_
      · exact State.stageBy_keeps kS (State.capIssue_keeps kL kA (by assumption))
      exact State.capIssue_keeps kL kA (by assumption)
    refine Keeps.ite (fun _ => ?_) fun _ => ?_
    · exact State.stageBy_keeps kS (State.capIssue_keeps kL kA (by assumption))
    exact State.capIssue_keeps kL kA (by assumption)

theorem State.rehome_keeps {r s1 : State} {a2} (kS : k .sites) (h1 : Keeps k r s1) : Keeps k r (@State.rehome s1 a2) := by
  unfold State.rehome
  refine Keeps.ite (fun _ => ?_) fun _ => ?_
  · split
    · assumption
    refine Keeps.ite (fun _ => ?_) fun _ => ?_
    · exact State.raiseWith_keeps (by assumption)
    refine Keeps.ite (fun _ => ?_) fun _ => ?_
    · exact State.modSite_keeps kS (by assumption)
    exact State.moveHome_keeps kS (by assumption)
  assumption

theorem State.freeCtx_keeps {r s1 : State} {a2} (kX : k .contexts) (h1 : Keeps k r s1) : Keeps k r (@State.freeCtx s1 a2) := by
  unfold State.freeCtx
  exact State.modCtx_keeps kX (by assumption)

theorem State.emitMicro_keeps {r s1 : State} {a2 a3 a4} (kD : k .device) (kS : k .sites) (kX : k .contexts) (kO : k .store) (kL : k .ledger) (kW : k .convoy) (kF : k .faults) (h1 : Keeps k r s1) : KeepsOut k r (@State.emitMicro s1 a2 a3 a4) := by
  unfold State.emitMicro
  refine Keeps.out_ite (fun _ => ?_) fun _ => ?_
  · exact KeepsOut.next (by assumption)
  refine State.micro_keeps kD kS kX kO kL kW kF ?_ (fun _ _ => ?_)
  · assumption
  · refine Keeps.ite (fun _ => ?_) fun _ => ?_
    · exact State.nopFault_keeps kS kX (by assumption)
    try dsimp only
    split
    · exact State.modMs_keeps kX (State.hold_keeps kS kX (by assumption))
    refine Keeps.ite (fun _ => ?_) fun _ => ?_
    · exact State.modMs_keeps kX (by assumption)
    exact State.modMs_keeps kX (State.modThread_keeps kS (State.stageBy_keeps kS (State.modCtx_keeps kX (by assumption))))

theorem State.endOrphan_keeps {r s1 : State} {a2 a3} (kS : k .sites) (kP : k .pins) (kX : k .contexts) (h1 : Keeps k r s1) : Keeps k r (@State.endOrphan s1 a2 a3) := by
  unfold State.endOrphan
  refine State.freeCtx_keeps kX ?_
  split
  · refine State.noteFault_keeps ?_
    refine Keeps.ite (fun _ => ?_) fun _ => ?_
    · exact State.release_keeps kS kP kX (by assumption)
    exact State.discard_keeps kS kP kX (by assumption)
  refine Keeps.ite (fun _ => ?_) fun _ => ?_
  · exact State.release_keeps kS kP kX (by assumption)
  exact State.discard_keeps kS kP kX (by assumption)

theorem State.finishWork_keeps {r s1 : State} {a2 a3} (kL : k .ledger) (kV : k .passport) (h1 : Keeps k r s1) : Keeps k r (@State.finishWork s1 a2 a3) := by
  unfold State.finishWork
  split
  · refine Keeps.put_pass kV ?_
    refine Keeps.ite (fun _ => ?_) fun _ => ?_
    · exact State.freeEntry_keeps kL (by assumption)
    exact State.setEntry_keeps kL (by assumption)
  exact State.freeEntry_keeps kL (by assumption)

theorem State.endTask_keeps {r s1 : State} {a2} (kD : k .device) (kS : k .sites) (kP : k .pins) (kX : k .contexts) (kL : k .ledger) (kA : k .acquisition) (kM : k .measure) (kV : k .passport) (kY : k .memory) (kN : k .channels) (kK : k .link) (kF : k .faults) (h1 : Keeps k r s1) : Keeps k r (@State.endTask s1 a2) := by
  unfold State.endTask
  try dsimp only
  split
  · exact State.freeCtx_keeps kX (by assumption)
  try dsimp only
  split
  · refine Keeps.ite (fun _ => ?_) fun _ => ?_
    · refine State.faultHere_keeps kD kS kP kX kL kA kM kY kN kK kF ?_
      refine State.freeCtx_keeps kX ?_
      split
      · refine State.setEntry_keeps kL ?_
        refine State.noteFault_keeps ?_
        refine Keeps.ite (fun _ => ?_) fun _ => ?_
        · exact State.bump_keeps (by assumption)
        assumption
      refine State.freeEntry_keeps kL ?_
      refine State.noteFault_keeps ?_
      refine Keeps.ite (fun _ => ?_) fun _ => ?_
      · exact State.bump_keeps (by assumption)
      assumption
    refine State.freeCtx_keeps kX ?_
    split
    · refine State.setEntry_keeps kL ?_
      refine State.noteFault_keeps ?_
      refine Keeps.ite (fun _ => ?_) fun _ => ?_
      · exact State.bump_keeps (by assumption)
      assumption
    refine State.freeEntry_keeps kL ?_
    refine State.noteFault_keeps ?_
    refine Keeps.ite (fun _ => ?_) fun _ => ?_
    · exact State.bump_keeps (by assumption)
    assumption
  refine State.freeCtx_keeps kX ?_
  split
  · exact State.setEntry_keeps kL (by assumption)
  exact State.finishWork_keeps kL kV (by assumption)

theorem State.endThread_keeps {r s1 : State} {a2 a3 a4 a5 a6} (kD : k .device) (kS : k .sites) (kP : k .pins) (kX : k .contexts) (kL : k .ledger) (kA : k .acquisition) (kM : k .measure) (kY : k .memory) (kN : k .channels) (kK : k .link) (kF : k .faults) (h1 : Keeps k r s1) : Keeps k r (@State.endThread s1 a2 a3 a4 a5 a6) := by
  unfold State.endThread
  refine State.boundary_keeps kD kS kP kX kL kA kM kY kN kK kF ?_
  refine Keeps.ite (fun _ => ?_) fun _ => ?_
  · refine State.release_keeps kS kP kX ?_
    refine State.modCtx_keeps kX ?_
    refine Keeps.ite (fun _ => ?_) fun _ => ?_
    · exact State.modMs_keeps kX (by assumption)
    assumption
  refine State.advance_keeps kS ?_
  refine State.modThread_keeps kS ?_
  refine State.release_keeps kS kP kX ?_
  refine State.modCtx_keeps kX ?_
  refine Keeps.ite (fun _ => ?_) fun _ => ?_
  · exact State.modMs_keeps kX (by assumption)
  assumption

theorem State.postTask_keeps {r s1 : State} {a2 a3 a4 a5 a6 a7} (kL : k .ledger) (h1 : Keeps k r s1) : Keeps k r (@State.postTask s1 a2 a3 a4 a5 a6 a7).2 := by
  unfold State.postTask
  try dsimp only
  split
  · try dsimp only
    split
    · exact Keeps.mkSnd (State.makeReady_keeps kL (State.allocGeneral_keeps kL (by assumption)))
    exact Keeps.mkSnd (State.allocGeneral_keeps kL (by assumption))
  refine Keeps.snd_ite (fun _ => ?_) fun _ => ?_
  · exact Keeps.mkSnd (State.refusePost_keeps (by assumption))
  try dsimp only
  split
  · exact Keeps.mkSnd (State.makeReady_keeps kL (State.setEntry_keeps kL (State.joinCaravan_keeps kL (State.allocGeneral_keeps kL (by assumption)))))
  exact Keeps.mkSnd (State.allocGeneral_keeps kL (by assumption))

theorem State.raiseBy_keeps {r s1 : State} {a2 a3} (kX : k .contexts) (h1 : Keeps k r s1) : Keeps k r (@State.raiseBy s1 a2 a3) := by
  unfold State.raiseBy
  try dsimp only
  split
  · refine Keeps.ite (fun _ => ?_) fun _ => ?_
    · exact State.modCtx_keeps kX (State.modCtx_keeps kX (by assumption))
    exact State.bump_keeps (State.raise_keeps (State.modCtx_keeps kX (by assumption)))
  exact State.raise_keeps (State.modCtx_keeps kX (by assumption))

theorem State.restartFails_keeps {r s1 : State} {a2 a3} (kD : k .device) (kS : k .sites) (kP : k .pins) (kX : k .contexts) (kL : k .ledger) (kA : k .acquisition) (kM : k .measure) (kY : k .memory) (kN : k .channels) (kK : k .link) (kF : k .faults) (h1 : Keeps k r s1) : Keeps k r (@State.restartFails s1 a2 a3) := by
  unfold State.restartFails
  refine Keeps.ite (fun _ => ?_) fun _ => ?_
  · assumption
  refine State.faultHere_keeps kD kS kP kX kL kA kM kY kN kK kF ?_
  refine Keeps.ite (fun _ => ?_) fun _ => ?_
  · split
    · try dsimp only
      split
      · exact State.setEntry_keeps kL (by assumption)
      exact State.freeEntry_keeps kL (by assumption)
    assumption
  assumption

theorem State.retire_keeps {r s1 : State} {a2 a3} (kD : k .device) (kS : k .sites) (kX : k .contexts) (kF : k .faults) (h1 : Keeps k r s1) : Keeps k r (@State.retire s1 a2 a3) := by
  unfold State.retire
  exact State.rehome_keeps kS (State.handFault_keeps kD kF (State.raise_keeps (State.setCtx_keeps kX (by assumption))))

theorem State.wake_keeps {r s1 : State} {a2 a3} (kX : k .contexts) (kL : k .ledger) (h1 : Keeps k r s1) : Keeps k r (@State.wake s1 a2 a3) := by
  unfold State.wake
  exact State.modCtx_keeps kX (State.passCycles_keeps kL (by assumption))

theorem execCsRestart_keeps {r s3 : State} {a1 a2} (kD : k .device) (kS : k .sites) (kP : k .pins) (kX : k .contexts) (kO : k .store) (kL : k .ledger) (kA : k .acquisition) (kM : k .measure) (kY : k .memory) (kN : k .channels) (kK : k .link) (kF : k .faults) (h3 : Keeps k r s3) : KeepsOut k r (@execCsRestart a1 a2 s3) := by
  unfold execCsRestart
  split
  · exact KeepsOut.next (by assumption)
  refine KeepsOut.next ?_
  refine Keeps.ite (fun _ => ?_) fun _ => ?_
  · refine State.setCtx_keeps kX ?_
    split
    · refine Keeps.ite (fun _ => ?_) fun _ => ?_
      · refine State.taint_keeps kS ?_
        refine State.modCtx_keeps kX ?_
        split
        · refine State.setEntry_keeps kL ?_
          refine State.setCtx_keeps kX ?_
          refine State.discard_keeps kS kP kX ?_
          refine State.reportFault_keeps kD kF ?_
          exact State.passCycles_keeps kL (State.bump_keeps (State.repairCopy_keeps kO (State.correctCopy_keeps kO (by assumption))))
        refine State.setCtx_keeps kX ?_
        refine State.discard_keeps kS kP kX ?_
        refine State.reportFault_keeps kD kF ?_
        exact State.passCycles_keeps kL (State.bump_keeps (State.repairCopy_keeps kO (State.correctCopy_keeps kO (by assumption))))
      split
      · refine State.setEntry_keeps kL ?_
        refine State.setCtx_keeps kX ?_
        refine State.discard_keeps kS kP kX ?_
        refine State.reportFault_keeps kD kF ?_
        exact State.passCycles_keeps kL (State.bump_keeps (State.repairCopy_keeps kO (State.correctCopy_keeps kO (by assumption))))
      refine State.setCtx_keeps kX ?_
      refine State.discard_keeps kS kP kX ?_
      refine State.reportFault_keeps kD kF ?_
      exact State.passCycles_keeps kL (State.bump_keeps (State.repairCopy_keeps kO (State.correctCopy_keeps kO (by assumption))))
    refine State.restartFails_keeps kD kS kP kX kL kA kM kY kN kK kF ?_
    refine State.discard_keeps kS kP kX ?_
    refine State.reportFault_keeps kD kF ?_
    exact State.passCycles_keeps kL (State.bump_keeps (State.repairCopy_keeps kO (State.correctCopy_keeps kO (by assumption))))
  refine State.retire_keeps kD kS kX kF ?_
  split
  · refine Keeps.ite (fun _ => ?_) fun _ => ?_
    · refine State.taint_keeps kS ?_
      refine State.modCtx_keeps kX ?_
      split
      · refine State.setEntry_keeps kL ?_
        refine State.setCtx_keeps kX ?_
        refine State.discard_keeps kS kP kX ?_
        refine State.reportFault_keeps kD kF ?_
        exact State.passCycles_keeps kL (State.bump_keeps (State.repairCopy_keeps kO (State.correctCopy_keeps kO (by assumption))))
      refine State.setCtx_keeps kX ?_
      refine State.discard_keeps kS kP kX ?_
      refine State.reportFault_keeps kD kF ?_
      exact State.passCycles_keeps kL (State.bump_keeps (State.repairCopy_keeps kO (State.correctCopy_keeps kO (by assumption))))
    split
    · refine State.setEntry_keeps kL ?_
      refine State.setCtx_keeps kX ?_
      refine State.discard_keeps kS kP kX ?_
      refine State.reportFault_keeps kD kF ?_
      exact State.passCycles_keeps kL (State.bump_keeps (State.repairCopy_keeps kO (State.correctCopy_keeps kO (by assumption))))
    refine State.setCtx_keeps kX ?_
    refine State.discard_keeps kS kP kX ?_
    refine State.reportFault_keeps kD kF ?_
    exact State.passCycles_keeps kL (State.bump_keeps (State.repairCopy_keeps kO (State.correctCopy_keeps kO (by assumption))))
  refine State.restartFails_keeps kD kS kP kX kL kA kM kY kN kK kF ?_
  refine State.discard_keeps kS kP kX ?_
  refine State.reportFault_keeps kD kF ?_
  exact State.passCycles_keeps kL (State.bump_keeps (State.repairCopy_keeps kO (State.correctCopy_keeps kO (by assumption))))

theorem execSavingDone_keeps {r s2 : State} {a1} (kX : k .contexts) (h2 : Keeps k r s2) : KeepsOut k r (@execSavingDone a1 s2) := by
  unfold execSavingDone
  refine Keeps.out_ite (fun _ => ?_) fun _ => ?_
  · exact KeepsOut.next (State.freeCtx_keeps kX (by assumption))
  exact KeepsOut.next (by assumption)

theorem execWatchdog_keeps {r s2 : State} {a1} (kD : k .device) (kS : k .sites) (kP : k .pins) (kX : k .contexts) (kL : k .ledger) (kA : k .acquisition) (kM : k .measure) (kV : k .passport) (kY : k .memory) (kN : k .channels) (kK : k .link) (kF : k .faults) (h2 : Keeps k r s2) : KeepsOut k r (@execWatchdog a1 s2) := by
  unfold execWatchdog
  refine Keeps.out_ite (fun _ => ?_) fun _ => ?_
  · exact KeepsOut.next (by assumption)
  refine KeepsOut.next ?_
  refine Keeps.ite (fun _ => ?_) fun _ => ?_
  · exact State.endOrphan_keeps kS kP kX (State.discard_keeps kS kP kX (State.bump_keeps (State.hold_keeps kS kX (by assumption))))
  refine Keeps.ite (fun _ => ?_) fun _ => ?_
  · refine State.endTask_keeps kD kS kP kX kL kA kM kV kY kN kK kF ?_
    exact State.discard_keeps kS kP kX (State.bump_keeps (State.hold_keeps kS kX (by assumption)))
  refine State.boundary_keeps kD kS kP kX kL kA kM kY kN kK kF ?_
  exact State.discard_keeps kS kP kX (State.bump_keeps (State.hold_keeps kS kX (by assumption)))

theorem execEndI_keeps {r s3 : State} {a1 a2} (kD : k .device) (kS : k .sites) (kP : k .pins) (kX : k .contexts) (kO : k .store) (kL : k .ledger) (kA : k .acquisition) (kM : k .measure) (kV : k .passport) (kY : k .memory) (kN : k .channels) (kK : k .link) (kW : k .convoy) (kF : k .faults) (h3 : Keeps k r s3) : KeepsOut k r (@execEndI a1 a2 s3) := by
  unfold execEndI
  refine State.micro_keeps kD kS kX kO kL kW kF ?_ (fun _ _ => ?_)
  · assumption
  · refine Keeps.ite (fun _ => ?_) fun _ => ?_
    · exact State.nopFault_keeps kS kX (by assumption)
    refine Keeps.ite (fun _ => ?_) fun _ => ?_
    · refine State.endOrphan_keeps kS kP kX ?_
      refine Keeps.ite (fun _ => ?_) fun _ => ?_
      · exact State.hold_keeps kS kX (by assumption)
      assumption
    refine Keeps.ite (fun _ => ?_) fun _ => ?_
    · refine State.endTask_keeps kD kS kP kX kL kA kM kV kY kN kK kF ?_
      refine State.modCtx_keeps kX ?_
      refine State.release_keeps kS kP kX ?_
      refine Keeps.ite (fun _ => ?_) fun _ => ?_
      · exact State.hold_keeps kS kX (by assumption)
      assumption
    refine State.endThread_keeps kD kS kP kX kL kA kM kY kN kK kF ?_
    refine Keeps.ite (fun _ => ?_) fun _ => ?_
    · exact State.hold_keeps kS kX (by assumption)
    assumption

theorem execPost_keeps {r s3 : State} {a1 a2} (kD : k .device) (kS : k .sites) (kX : k .contexts) (kO : k .store) (kL : k .ledger) (kW : k .convoy) (kF : k .faults) (h3 : Keeps k r s3) : KeepsOut k r (@execPost a1 a2 s3) := by
  unfold execPost
  refine State.micro_keeps kD kS kX kO kL kW kF ?_ (fun _ _ => ?_)
  · assumption
  · refine Keeps.ite (fun _ => ?_) fun _ => ?_
    · exact State.nopFault_keeps kS kX (by assumption)
    refine Keeps.ite (fun _ => ?_) fun _ => ?_
    · exact State.modMs_keeps kX (State.hold_keeps kS kX (by assumption))
    refine State.modMs_keeps kX ?_
    refine Keeps.ite (fun _ => ?_) fun _ => ?_
    · exact State.modCtx_keeps kX (State.postTask_keeps kL (by assumption))
    exact State.postTask_keeps kL (by assumption)

theorem execCapcMark_keeps {r s3 : State} {a1 a2} (kD : k .device) (kS : k .sites) (kX : k .contexts) (kO : k .store) (kL : k .ledger) (kA : k .acquisition) (kW : k .convoy) (kF : k .faults) (h3 : Keeps k r s3) : KeepsOut k r (@execCapcMark a1 a2 s3) := by
  unfold execCapcMark
  exact State.capcMicro_keeps kD kS kX kO kL kA kW kF (by assumption)

theorem execCapcCommit_keeps {r s3 : State} {a1 a2} (kD : k .device) (kS : k .sites) (kX : k .contexts) (kO : k .store) (kL : k .ledger) (kA : k .acquisition) (kW : k .convoy) (kF : k .faults) (h3 : Keeps k r s3) : KeepsOut k r (@execCapcCommit a1 a2 s3) := by
  unfold execCapcCommit
  exact State.capcMicro_keeps kD kS kX kO kL kA kW kF (by assumption)

theorem execCapcResume_keeps {r s3 : State} {a1 a2} (kD : k .device) (kS : k .sites) (kX : k .contexts) (kO : k .store) (kL : k .ledger) (kA : k .acquisition) (kW : k .convoy) (kF : k .faults) (h3 : Keeps k r s3) : KeepsOut k r (@execCapcResume a1 a2 s3) := by
  unfold execCapcResume
  exact State.capcMicro_keeps kD kS kX kO kL kA kW kF (by assumption)

theorem execCapcPause_keeps {r s3 : State} {a1 a2} (kD : k .device) (kS : k .sites) (kX : k .contexts) (kO : k .store) (kL : k .ledger) (kA : k .acquisition) (kW : k .convoy) (kF : k .faults) (h3 : Keeps k r s3) : KeepsOut k r (@execCapcPause a1 a2 s3) := by
  unfold execCapcPause
  exact State.capcMicro_keeps kD kS kX kO kL kA kW kF (by assumption)

theorem execCapcStart_keeps {r s3 : State} {a1 a2} (kD : k .device) (kS : k .sites) (kX : k .contexts) (kO : k .store) (kL : k .ledger) (kA : k .acquisition) (kW : k .convoy) (kF : k .faults) (h3 : Keeps k r s3) : KeepsOut k r (@execCapcStart a1 a2 s3) := by
  unfold execCapcStart
  exact State.capcMicro_keeps kD kS kX kO kL kA kW kF (by assumption)

theorem execCapcStop_keeps {r s3 : State} {a1 a2} (kD : k .device) (kS : k .sites) (kX : k .contexts) (kO : k .store) (kL : k .ledger) (kA : k .acquisition) (kW : k .convoy) (kF : k .faults) (h3 : Keeps k r s3) : KeepsOut k r (@execCapcStop a1 a2 s3) := by
  unfold execCapcStop
  exact State.capcMicro_keeps kD kS kX kO kL kA kW kF (by assumption)

theorem execEvt_keeps {r s3 : State} {a1 a2} (kD : k .device) (kS : k .sites) (kX : k .contexts) (kO : k .store) (kL : k .ledger) (kW : k .convoy) (kF : k .faults) (h3 : Keeps k r s3) : KeepsOut k r (@execEvt a1 a2 s3) := by
  unfold execEvt
  refine State.micro_keeps kD kS kX kO kL kW kF ?_ (fun _ _ => ?_)
  · assumption
  · refine Keeps.ite (fun _ => ?_) fun _ => ?_
    · exact State.nopFault_keeps kS kX (by assumption)
    refine Keeps.ite (fun _ => ?_) fun _ => ?_
    · refine Keeps.ite (fun _ => ?_) fun _ => ?_
      · exact State.modMs_keeps kX (State.hold_keeps kS kX (by assumption))
      exact State.modMs_keeps kX (State.raiseBy_keeps kX (by assumption))
    exact State.modMs_keeps kX (State.raiseBy_keeps kX (by assumption))

theorem execWaitcTimeout_keeps {r s2 : State} {a1} (kX : k .contexts) (kL : k .ledger) (h2 : Keeps k r s2) : KeepsOut k r (@execWaitcTimeout a1 s2) := by
  unfold execWaitcTimeout
  split
  · refine Keeps.out_ite (fun _ => ?_) fun _ => ?_
    · exact KeepsOut.next (State.wake_keeps kX kL (by assumption))
    exact KeepsOut.next (by assumption)
  exact KeepsOut.next (by assumption)

theorem execWaitcWake_keeps {r s2 : State} {a1} (kX : k .contexts) (kL : k .ledger) (h2 : Keeps k r s2) : KeepsOut k r (@execWaitcWake a1 s2) := by
  unfold execWaitcWake
  split
  · refine Keeps.out_ite (fun _ => ?_) fun _ => ?_
    · exact KeepsOut.next (State.wake_keeps kX kL (by assumption))
    exact KeepsOut.next (by assumption)
  exact KeepsOut.next (by assumption)

theorem execWaitc_keeps {r s3 : State} {a1 a2} (kD : k .device) (kS : k .sites) (kX : k .contexts) (kO : k .store) (kL : k .ledger) (kW : k .convoy) (kF : k .faults) (h3 : Keeps k r s3) : KeepsOut k r (@execWaitc a1 a2 s3) := by
  unfold execWaitc
  refine State.micro_keeps kD kS kX kO kL kW kF ?_ (fun _ _ => ?_)
  · assumption
  · refine Keeps.ite (fun _ => ?_) fun _ => ?_
    · exact State.nopFault_keeps kS kX (by assumption)
    refine Keeps.ite (fun _ => ?_) fun _ => ?_
    · exact State.modMs_keeps kX (State.hold_keeps kS kX (by assumption))
    refine Keeps.ite (fun _ => ?_) fun _ => ?_
    · exact State.modMs_keeps kX (by assumption)
    refine Keeps.ite (fun _ => ?_) fun _ => ?_
    · exact State.modMs_keeps kX (by assumption)
    exact State.modCtx_keeps kX (State.modMs_keeps kX (by assumption))

theorem execEmitTset_keeps {r s3 : State} {a1 a2} (kD : k .device) (kS : k .sites) (kX : k .contexts) (kO : k .store) (kL : k .ledger) (kW : k .convoy) (kF : k .faults) (h3 : Keeps k r s3) : KeepsOut k r (@execEmitTset a1 a2 s3) := by
  unfold execEmitTset
  exact State.emitMicro_keeps kD kS kX kO kL kW kF (by assumption)

theorem execEmitPeriod_keeps {r s3 : State} {a1 a2} (kD : k .device) (kS : k .sites) (kX : k .contexts) (kO : k .store) (kL : k .ledger) (kW : k .convoy) (kF : k .faults) (h3 : Keeps k r s3) : KeepsOut k r (@execEmitPeriod a1 a2 s3) := by
  unfold execEmitPeriod
  exact State.emitMicro_keeps kD kS kX kO kL kW kF (by assumption)

theorem execEmitHold_keeps {r s3 : State} {a1 a2} (kD : k .device) (kS : k .sites) (kX : k .contexts) (kO : k .store) (kL : k .ledger) (kW : k .convoy) (kF : k .faults) (h3 : Keeps k r s3) : KeepsOut k r (@execEmitHold a1 a2 s3) := by
  unfold execEmitHold
  exact State.emitMicro_keeps kD kS kX kO kL kW kF (by assumption)

theorem execEmitLiteral_keeps {r s3 : State} {a1 a2} (kD : k .device) (kS : k .sites) (kX : k .contexts) (kO : k .store) (kL : k .ledger) (kW : k .convoy) (kF : k .faults) (h3 : Keeps k r s3) : KeepsOut k r (@execEmitLiteral a1 a2 s3) := by
  unfold execEmitLiteral
  exact State.emitMicro_keeps kD kS kX kO kL kW kF (by assumption)

theorem execEmitRepeat_keeps {r s3 : State} {a1 a2} (kD : k .device) (kS : k .sites) (kX : k .contexts) (kO : k .store) (kL : k .ledger) (kW : k .convoy) (kF : k .faults) (h3 : Keeps k r s3) : KeepsOut k r (@execEmitRepeat a1 a2 s3) := by
  unfold execEmitRepeat
  exact State.emitMicro_keeps kD kS kX kO kL kW kF (by assumption)

theorem execEmitStream_keeps {r s3 : State} {a1 a2} (kD : k .device) (kS : k .sites) (kX : k .contexts) (kO : k .store) (kL : k .ledger) (kW : k .convoy) (kF : k .faults) (h3 : Keeps k r s3) : KeepsOut k r (@execEmitStream a1 a2 s3) := by
  unfold execEmitStream
  exact State.emitMicro_keeps kD kS kX kO kL kW kF (by assumption)

theorem execStt_keeps {r s3 : State} {a1 a2} (kD : k .device) (kS : k .sites) (kX : k .contexts) (kO : k .store) (kL : k .ledger) (kW : k .convoy) (kF : k .faults) (h3 : Keeps k r s3) : KeepsOut k r (@execStt a1 a2 s3) := by
  unfold execStt
  refine State.micro_keeps kD kS kX kO kL kW kF ?_ (fun _ _ => ?_)
  · assumption
  · refine Keeps.ite (fun _ => ?_) fun _ => ?_
    · exact State.nopFault_keeps kS kX (by assumption)
    refine Keeps.ite (fun _ => ?_) fun _ => ?_
    · exact State.modMs_keeps kX (State.hold_keeps kS kX (by assumption))
    refine Keeps.ite (fun _ => ?_) fun _ => ?_
    · exact State.modMs_keeps kX (State.hold_keeps kS kX (by assumption))
    split
    · exact State.modMs_keeps kX (State.modCtx_keeps kX (State.modSite_keeps kS (by assumption)))
    · exact State.modMs_keeps kX (State.modCtx_keeps kX (State.modSite_keeps kS (by assumption)))
    exact State.modMs_keeps kX (State.modCtx_keeps kX (State.modThread_keeps kS (by assumption)))

theorem execLdt_keeps {r s3 : State} {a1 a2} (kD : k .device) (kS : k .sites) (kX : k .contexts) (kO : k .store) (kL : k .ledger) (kW : k .convoy) (kF : k .faults) (h3 : Keeps k r s3) : KeepsOut k r (@execLdt a1 a2 s3) := by
  unfold execLdt
  refine Keeps.out_ite (fun _ => ?_) fun _ => ?_
  · exact KeepsOut.next (by assumption)
  refine State.micro_keeps kD kS kX kO kL kW kF ?_ (fun _ _ => ?_)
  · assumption
  · refine Keeps.ite (fun _ => ?_) fun _ => ?_
    · exact State.nopFault_keeps kS kX (by assumption)
    refine Keeps.ite (fun _ => ?_) fun _ => ?_
    · exact State.modMs_keeps kX (State.hold_keeps kS kX (by assumption))
    refine Keeps.ite (fun _ => ?_) fun _ => ?_
    · exact State.modMs_keeps kX (State.hold_keeps kS kX (by assumption))
    split
    · exact State.modMs_keeps kX (by assumption)
    · exact State.modMs_keeps kX (by assumption)
    · exact State.modMs_keeps kX (by assumption)
    · exact State.modMs_keeps kX (by assumption)
    try dsimp only
    split
    · exact State.modMs_keeps kX (State.readStore_keeps kD kO kF (by assumption))
    exact State.modMs_keeps kX (State.hold_keeps kS kX (State.free_keeps (State.readStore_keeps kD kO kF (by assumption))))

theorem execFetchData_keeps {r s3 : State} {a1 a2} (kD : k .device) (kS : k .sites) (kX : k .contexts) (kL : k .ledger) (kN : k .channels) (kF : k .faults) (h3 : Keeps k r s3) : KeepsOut k r (@execFetchData a1 a2 s3) := by
  unfold execFetchData
  split
  · exact KeepsOut.next (by assumption)
  refine KeepsOut.next ?_
  refine Keeps.ite (fun _ => ?_) fun _ => ?_
  · refine State.modCtx_keeps kX ?_
    exact State.takeLine_keeps kD kN kF (State.passCycles_keeps kL (State.passOlder_keeps kX kN (by assumption)))
  refine State.holdFault_keeps kS kX ?_
  refine State.modCtx_keeps kX ?_
  exact State.takeLine_keeps kD kN kF (State.passCycles_keeps kL (State.passOlder_keeps kX kN (by assumption)))

theorem execFetch_keeps {r s3 : State} {a1 a2} (kD : k .device) (kS : k .sites) (kX : k .contexts) (kO : k .store) (kL : k .ledger) (kW : k .convoy) (kF : k .faults) (h3 : Keeps k r s3) : KeepsOut k r (@execFetch a1 a2 s3) := by
  unfold execFetch
  refine State.micro_keeps kD kS kX kO kL kW kF ?_ (fun _ _ => ?_)
  · assumption
  · refine Keeps.ite (fun _ => ?_) fun _ => ?_
    · exact State.nopFault_keeps kS kX (by assumption)
    refine Keeps.ite (fun _ => ?_) fun _ => ?_
    · exact State.modMs_keeps kX (State.hold_keeps kS kX (by assumption))
    exact State.modCtx_keeps kX (by assumption)

theorem execRetu_keeps {r s3 : State} {a1 a2} (kD : k .device) (kS : k .sites) (kX : k .contexts) (kO : k .store) (kL : k .ledger) (kW : k .convoy) (kF : k .faults) (h3 : Keeps k r s3) : KeepsOut k r (@execRetu a1 a2 s3) := by
  unfold execRetu
  refine State.micro_keeps kD kS kX kO kL kW kF ?_ (fun _ _ => ?_)
  · assumption
  · refine Keeps.ite (fun _ => ?_) fun _ => ?_
    · exact State.nopFault_keeps kS kX (by assumption)
    split
    · exact State.nopFault_keeps kS kX (by assumption)
    refine Keeps.ite (fun _ => ?_) fun _ => ?_
    · exact State.nopFault_keeps kS kX (by assumption)
    exact State.modMs_keeps kX (by assumption)

theorem execCallu_keeps {r s3 : State} {a1 a2} (kD : k .device) (kS : k .sites) (kX : k .contexts) (kO : k .store) (kL : k .ledger) (kW : k .convoy) (kF : k .faults) (h3 : Keeps k r s3) : KeepsOut k r (@execCallu a1 a2 s3) := by
  unfold execCallu
  refine State.micro_keeps kD kS kX kO kL kW kF ?_ (fun _ _ => ?_)
  · assumption
  · try dsimp only
    split
    · exact State.nopFault_keeps kS kX (by assumption)
    refine Keeps.ite (fun _ => ?_) fun _ => ?_
    · exact State.nopFault_keeps kS kX (by assumption)
    refine Keeps.ite (fun _ => ?_) fun _ => ?_
    · exact State.nopFault_keeps kS kX (by assumption)
    refine Keeps.ite (fun _ => ?_) fun _ => ?_
    · exact State.nopFault_keeps kS kX (by assumption)
    exact State.modMs_keeps kX (by assumption)

theorem execBr_keeps {r s3 : State} {a1 a2} (kD : k .device) (kS : k .sites) (kX : k .contexts) (kO : k .store) (kL : k .ledger) (kW : k .convoy) (kF : k .faults) (h3 : Keeps k r s3) : KeepsOut k r (@execBr a1 a2 s3) := by
  unfold execBr
  refine State.micro_keeps kD kS kX kO kL kW kF ?_ (fun _ _ => ?_)
  · assumption
  · try dsimp only
    split
    · exact State.nopFault_keeps kS kX (by assumption)
    refine Keeps.ite (fun _ => ?_) fun _ => ?_
    · exact State.nopFault_keeps kS kX (by assumption)
    refine Keeps.ite (fun _ => ?_) fun _ => ?_
    · exact State.modMs_keeps kX (by assumption)
    refine Keeps.ite (fun _ => ?_) fun _ => ?_
    · exact State.nopFault_keeps kS kX (by assumption)
    exact State.modMs_keeps kX (by assumption)

theorem execCrc_keeps {r s3 : State} {a1 a2} (kD : k .device) (kS : k .sites) (kX : k .contexts) (kO : k .store) (kL : k .ledger) (kW : k .convoy) (kF : k .faults) (h3 : Keeps k r s3) : KeepsOut k r (@execCrc a1 a2 s3) := by
  unfold execCrc
  refine State.micro_keeps kD kS kX kO kL kW kF ?_ (fun _ _ => ?_)
  · assumption
  · split
    · exact State.nopFault_keeps kS kX (by assumption)
    exact State.modMs_keeps kX (by assumption)

theorem execCmp_keeps {r s3 : State} {a1 a2} (kD : k .device) (kS : k .sites) (kX : k .contexts) (kO : k .store) (kL : k .ledger) (kW : k .convoy) (kF : k .faults) (h3 : Keeps k r s3) : KeepsOut k r (@execCmp a1 a2 s3) := by
  unfold execCmp
  refine State.micro_keeps kD kS kX kO kL kW kF ?_ (fun _ _ => ?_)
  · assumption
  · exact State.binary_keeps kS kX (by assumption)

theorem execShf_keeps {r s3 : State} {a1 a2} (kD : k .device) (kS : k .sites) (kX : k .contexts) (kO : k .store) (kL : k .ledger) (kW : k .convoy) (kF : k .faults) (h3 : Keeps k r s3) : KeepsOut k r (@execShf a1 a2 s3) := by
  unfold execShf
  refine State.micro_keeps kD kS kX kO kL kW kF ?_ (fun _ _ => ?_)
  · assumption
  · split
    · exact State.nopFault_keeps kS kX (by assumption)
    exact State.modMs_keeps kX (by assumption)

theorem execXor_keeps {r s3 : State} {a1 a2} (kD : k .device) (kS : k .sites) (kX : k .contexts) (kO : k .store) (kL : k .ledger) (kW : k .convoy) (kF : k .faults) (h3 : Keeps k r s3) : KeepsOut k r (@execXor a1 a2 s3) := by
  unfold execXor
  refine State.micro_keeps kD kS kX kO kL kW kF ?_ (fun _ _ => ?_)
  · assumption
  · exact State.binary_keeps kS kX (by assumption)

theorem execOr_keeps {r s3 : State} {a1 a2} (kD : k .device) (kS : k .sites) (kX : k .contexts) (kO : k .store) (kL : k .ledger) (kW : k .convoy) (kF : k .faults) (h3 : Keeps k r s3) : KeepsOut k r (@execOr a1 a2 s3) := by
  unfold execOr
  refine State.micro_keeps kD kS kX kO kL kW kF ?_ (fun _ _ => ?_)
  · assumption
  · exact State.binary_keeps kS kX (by assumption)

theorem execAnd_keeps {r s3 : State} {a1 a2} (kD : k .device) (kS : k .sites) (kX : k .contexts) (kO : k .store) (kL : k .ledger) (kW : k .convoy) (kF : k .faults) (h3 : Keeps k r s3) : KeepsOut k r (@execAnd a1 a2 s3) := by
  unfold execAnd
  refine State.micro_keeps kD kS kX kO kL kW kF ?_ (fun _ _ => ?_)
  · assumption
  · exact State.binary_keeps kS kX (by assumption)

theorem execSub_keeps {r s3 : State} {a1 a2} (kD : k .device) (kS : k .sites) (kX : k .contexts) (kO : k .store) (kL : k .ledger) (kW : k .convoy) (kF : k .faults) (h3 : Keeps k r s3) : KeepsOut k r (@execSub a1 a2 s3) := by
  unfold execSub
  refine State.micro_keeps kD kS kX kO kL kW kF ?_ (fun _ _ => ?_)
  · assumption
  · exact State.binary_keeps kS kX (by assumption)

theorem execAdd_keeps {r s3 : State} {a1 a2} (kD : k .device) (kS : k .sites) (kX : k .contexts) (kO : k .store) (kL : k .ledger) (kW : k .convoy) (kF : k .faults) (h3 : Keeps k r s3) : KeepsOut k r (@execAdd a1 a2 s3) := by
  unfold execAdd
  refine State.micro_keeps kD kS kX kO kL kW kF ?_ (fun _ _ => ?_)
  · assumption
  · exact State.binary_keeps kS kX (by assumption)

theorem execMovh_keeps {r s3 : State} {a1 a2} (kD : k .device) (kS : k .sites) (kX : k .contexts) (kO : k .store) (kL : k .ledger) (kW : k .convoy) (kF : k .faults) (h3 : Keeps k r s3) : KeepsOut k r (@execMovh a1 a2 s3) := by
  unfold execMovh
  refine State.micro_keeps kD kS kX kO kL kW kF ?_ (fun _ _ => ?_)
  · assumption
  · refine Keeps.ite (fun _ => ?_) fun _ => ?_
    · exact State.nopFault_keeps kS kX (by assumption)
    exact State.modMs_keeps kX (by assumption)

theorem execMov_keeps {r s3 : State} {a1 a2} (kD : k .device) (kS : k .sites) (kX : k .contexts) (kO : k .store) (kL : k .ledger) (kW : k .convoy) (kF : k .faults) (h3 : Keeps k r s3) : KeepsOut k r (@execMov a1 a2 s3) := by
  unfold execMov
  refine State.micro_keeps kD kS kX kO kL kW kF ?_ (fun _ _ => ?_)
  · assumption
  · exact State.binary_keeps kS kX (by assumption)

theorem execNop_keeps {r s3 : State} {a1 a2} (kD : k .device) (kS : k .sites) (kX : k .contexts) (kO : k .store) (kL : k .ledger) (kW : k .convoy) (kF : k .faults) (h3 : Keeps k r s3) : KeepsOut k r (@execNop a1 a2 s3) := by
  unfold execNop
  refine Keeps.out_ite (fun _ => ?_) fun _ => ?_
  · exact KeepsOut.next (by assumption)
  refine State.micro_keeps kD kS kX kO kL kW kF ?_ (fun _ _ => ?_)
  · assumption
  · refine Keeps.ite (fun _ => ?_) fun _ => ?_
    · exact State.modMs_keeps kX (by assumption)
    exact State.nopFault_keeps kS kX (by assumption)

theorem execCust_keeps {r s3 : State} {a1 a2} (kD : k .device) (kS : k .sites) (kP : k .pins) (kX : k .contexts) (kO : k .store) (kL : k .ledger) (kA : k .acquisition) (kM : k .measure) (kY : k .memory) (kN : k .channels) (kK : k .link) (kW : k .convoy) (kF : k .faults) (h3 : Keeps k r s3) : KeepsOut k r (@execCust a1 a2 s3) := by
  unfold execCust
  refine Keeps.out_ite (fun _ => ?_) fun _ => ?_
  · exact KeepsOut.next (by assumption)
  refine State.instr_keeps kD kS kP kX kL kA kM kY kN kK kW kF ?_ (fun _ _ _ => ?_)
  · assumption
  · refine Keeps.done_ite (fun _ => ?_) fun _ => ?_
    · exact State.readStore_keeps kD kO kF (by assumption)
    split
    · exact State.readStore_keeps kD kO kF (by assumption)
    exact State.modCtx_keeps kX (State.modThread_keeps kS (Keeps.put_freeCtr (State.readStore_keeps kD kO kF (by assumption))))

theorem State.closeEngine_keeps {r s1 : State} {a2} (h1 : Keeps k r s1) : Keeps k r (@State.closeEngine s1 a2) := by
  unfold State.closeEngine
  refine State.count_keeps ?_
  refine State.setNat_keeps ?_
  refine State.count_keeps ?_
  refine Keeps.ite (fun _ => ?_) fun _ => ?_
  · exact State.bump_keeps (State.setNat_keeps (State.setNat_keeps (by assumption)))
  exact State.setNat_keeps (State.setNat_keeps (by assumption))

theorem State.closeSite_keeps {r s1 : State} {a2} (kS : k .sites) (h1 : Keeps k r s1) : Keeps k r (@State.closeSite s1 a2) := by
  unfold State.closeSite
  refine Keeps.ite (fun _ => ?_) fun _ => ?_
  · refine State.modSite_keeps kS ?_
    refine Keeps.ite (fun _ => ?_) fun _ => ?_
    · assumption
    exact State.setNat_keeps (by assumption)
  exact State.modSite_keeps kS (State.peak_keeps (State.setNat_keeps (by assumption)))

theorem State.wakeThread_keeps {r s1 : State} {a2} (kL : k .ledger) (h1 : Keeps k r s1) : Keeps k r (@State.wakeThread s1 a2) := by
  unfold State.wakeThread
  refine Keeps.ite (fun _ => ?_) fun _ => ?_
  · refine Keeps.ite (fun _ => ?_) fun _ => ?_
    · exact State.makeReady_keeps kL (by assumption)
    assumption
  assumption

theorem State.housekeep_keeps {r s1 : State} (kL : k .ledger) (h1 : Keeps k r s1) : Keeps k r (@State.housekeep s1) := by
  unfold State.housekeep
  refine Keeps.ite (fun _ => ?_) fun _ => ?_
  · exact State.postService_keeps kL (State.free_keeps (State.free_keeps (by assumption)))
  exact State.free_keeps (State.free_keeps (by assumption))

theorem State.loseRecord_keeps {r s1 : State} {a2} (kL : k .ledger) (kA : k .acquisition) (h1 : Keeps k r s1) : Keeps k r (@State.loseRecord s1 a2) := by
  unfold State.loseRecord
  refine Keeps.each ?_ fun _ _ _ => ?_
  · exact State.setRec_keeps kA (by assumption)
  exact State.cancel_keeps kL (by assumption)

theorem State.dropTask_keeps {r s1 : State} {a2} (kS : k .sites) (kP : k .pins) (kX : k .contexts) (h1 : Keeps k r s1) : Keeps k r (@State.dropTask s1 a2) := by
  unfold State.dropTask
  refine Keeps.ite (fun _ => ?_) fun _ => ?_
  · exact State.freeCtx_keeps kX (State.discard_keeps kS kP kX (by assumption))
  assumption

theorem State.loseTask_keeps {r s1 : State} {a2 a3} (kS : k .sites) (kP : k .pins) (kX : k .contexts) (kL : k .ledger) (h1 : Keeps k r s1) : Keeps k r (@State.loseTask s1 a2 a3) := by
  unfold State.loseTask
  split
  · exact State.setEntry_keeps kL (State.dropTask_keeps kS kP kX (by assumption))
  exact State.freeEntry_keeps kL (State.dropTask_keeps kS kP kX (by assumption))

theorem State.loseLedger_keeps {r s1 : State} {a2} (kD : k .device) (kS : k .sites) (kP : k .pins) (kX : k .contexts) (kL : k .ledger) (kA : k .acquisition) (kM : k .measure) (kV : k .passport) (kY : k .memory) (kN : k .channels) (kK : k .link) (kF : k .faults) (h1 : Keeps k r s1) : Keeps k r (@State.loseLedger s1 a2) := by
  unfold State.loseLedger
  refine Keeps.ite (fun _ => ?_) fun _ => ?_
  · exact Keeps.put_inn kL (State.handFault_keeps kD kF (State.raise_keeps (State.bump_keeps (by assumption))))
  split
  · refine State.faultHere_keeps kD kS kP kX kL kA kM kY kN kK kF ?_
    exact Keeps.put_inn kL (State.handFault_keeps kD kF (State.raise_keeps (State.bump_keeps (by assumption))))
  · refine State.cancelMeas_keeps kS kP kL kM ?_
    exact Keeps.put_inn kL (State.handFault_keeps kD kF (State.raise_keeps (State.bump_keeps (by assumption))))
  · refine State.loseCapture_keeps kD kL kA kY kN kK kF ?_
    exact State.freeEntry_keeps kL (Keeps.put_inn kL (State.handFault_keeps kD kF (State.raise_keeps (State.bump_keeps (by assumption)))))
  split
  · refine State.loseTask_keeps kS kP kX kL ?_
    exact State.taint_keeps kS (Keeps.put_inn kL (State.handFault_keeps kD kF (State.raise_keeps (State.bump_keeps (by assumption)))))
  · refine Keeps.ite (fun _ => ?_) fun _ => ?_
    · refine State.postService_keeps kL ?_
      refine Keeps.put_pass kV ?_
      refine State.loseTask_keeps kS kP kX kL ?_
      exact Keeps.put_inn kL (State.handFault_keeps kD kF (State.raise_keeps (State.bump_keeps (by assumption))))
    refine State.loseTask_keeps kS kP kX kL ?_
    exact Keeps.put_inn kL (State.handFault_keeps kD kF (State.raise_keeps (State.bump_keeps (by assumption))))
  · refine State.loseTask_keeps kS kP kX kL ?_
    exact Keeps.put_inn kL (State.handFault_keeps kD kF (State.raise_keeps (State.bump_keeps (by assumption))))
  · refine State.loseTask_keeps kS kP kX kL ?_
    refine State.loseRecord_keeps kL kA ?_
    exact Keeps.put_inn kL (State.handFault_keeps kD kF (State.raise_keeps (State.bump_keeps (by assumption))))
  · refine State.postFault_keeps kL ?_
    refine State.loseTask_keeps kS kP kX kL ?_
    exact Keeps.put_inn kL (State.handFault_keeps kD kF (State.raise_keeps (State.bump_keeps (by assumption))))
  refine State.postService_keeps kL ?_
  refine State.loseTask_keeps kS kP kX kL ?_
  exact Keeps.put_inn kL (State.handFault_keeps kD kF (State.raise_keeps (State.bump_keeps (by assumption))))

theorem State.readEntry_keeps {r s1 : State} {a2} (kD : k .device) (kS : k .sites) (kP : k .pins) (kX : k .contexts) (kL : k .ledger) (kA : k .acquisition) (kM : k .measure) (kV : k .passport) (kY : k .memory) (kN : k .channels) (kK : k .link) (kF : k .faults) (h1 : Keeps k r s1) : Keeps k r (@State.readEntry s1 a2) := by
  unfold State.readEntry
  refine Keeps.ite (fun _ => ?_) fun _ => ?_
  · exact State.loseLedger_keeps kD kS kP kX kL kA kM kV kY kN kK kF (by assumption)
  refine Keeps.ite (fun _ => ?_) fun _ => ?_
  · assumption
  refine Keeps.each ?_ fun _ _ _ => ?_
  · exact Keeps.put_inn kL (by assumption)
  exact State.raise_keeps (State.bump_keeps (by assumption))

theorem State.sweepEntry_keeps {r s1 : State} {a2} (kD : k .device) (kS : k .sites) (kP : k .pins) (kX : k .contexts) (kL : k .ledger) (kA : k .acquisition) (kM : k .measure) (kV : k .passport) (kY : k .memory) (kN : k .channels) (kK : k .link) (kF : k .faults) (h1 : Keeps k r s1) : Keeps k r (@State.sweepEntry s1 a2) := by
  unfold State.sweepEntry
  refine Keeps.ite (fun _ => ?_) fun _ => ?_
  · refine State.setEntry_keeps kL ?_
    exact State.readEntry_keeps kD kS kP kX kL kA kM kV kY kN kK kF (by assumption)
  exact State.readEntry_keeps kD kS kP kX kL kA kM kV kY kN kK kF (by assumption)

theorem State.sweepLedger_keeps {r s1 : State} (kD : k .device) (kS : k .sites) (kP : k .pins) (kX : k .contexts) (kL : k .ledger) (kA : k .acquisition) (kM : k .measure) (kV : k .passport) (kY : k .memory) (kN : k .channels) (kK : k .link) (kF : k .faults) (h1 : Keeps k r s1) : Keeps k r (@State.sweepLedger s1) := by
  unfold State.sweepLedger
  refine Keeps.ite (fun _ => ?_) fun _ => ?_
  · refine State.housekeep_keeps kL ?_
    refine State.bump_keeps ?_
    refine Keeps.put_inn kL ?_
    refine Keeps.each ?_ fun _ _ _ => ?_
    · assumption
    exact State.sweepEntry_keeps kD kS kP kX kL kA kM kV kY kN kK kF (by assumption)
  refine Keeps.put_inn kL ?_
  refine Keeps.each ?_ fun _ _ _ => ?_
  · assumption
  exact State.sweepEntry_keeps kD kS kP kX kL kA kM kV kY kN kK kF (by assumption)

theorem State.stallFrame_keeps {r s1 : State} {a2} (kL : k .ledger) (h1 : Keeps k r s1) : Keeps k r (@State.stallFrame s1 a2) := by
  unfold State.stallFrame
  refine Keeps.ite (fun _ => ?_) fun _ => ?_
  · exact State.bump_keeps (State.setCaravan_keeps kL (by assumption))
  refine Keeps.ite (fun _ => ?_) fun _ => ?_
  · assumption
  exact State.setCaravan_keeps kL (by assumption)

theorem State.takeHints_keeps {r s1 : State} (kL : k .ledger) (h1 : Keeps k r s1) : Keeps k r (@State.takeHints s1) := by
  unfold State.takeHints
  exact State.watchUse_keeps kL (Keeps.put_inn kL (by assumption))

theorem State.innkeeperTick_keeps {r s1 : State} (kD : k .device) (kS : k .sites) (kP : k .pins) (kX : k .contexts) (kL : k .ledger) (kA : k .acquisition) (kM : k .measure) (kV : k .passport) (kY : k .memory) (kN : k .channels) (kK : k .link) (kF : k .faults) (h1 : Keeps k r s1) : Keeps k r (@State.innkeeperTick s1) := by
  unfold State.innkeeperTick
  refine Keeps.each ?_ fun _ _ _ => ?_
  · refine State.sweepLedger_keeps kD kS kP kX kL kA kM kV kY kN kK kF ?_
    refine Keeps.each ?_ fun _ _ _ => ?_
    · refine Keeps.put_inn kL ?_
      refine Keeps.each ?_ fun _ _ _ => ?_
      · refine Keeps.each ?_ fun _ _ _ => ?_
        · exact State.passCycles_keeps kL (State.takeHints_keeps kL (by assumption))
        exact State.closeSite_keeps kS (by assumption)
      exact State.closeEngine_keeps (by assumption)
    exact State.stallFrame_keeps kL (by assumption)
  exact State.wakeThread_keeps kL (by assumption)

theorem State.deliverWork_keeps {r s1 : State} {a2 a3} (kD : k .device) (kA : k .acquisition) (kY : k .memory) (kN : k .channels) (kK : k .link) (kF : k .faults) (h1 : Keeps k r s1) : Keeps k r (@State.deliverWork s1 a2 a3) := by
  unfold State.deliverWork
  split
  · refine Keeps.ite (fun _ => ?_) fun _ => ?_
    · assumption
    refine Keeps.ite (fun _ => ?_) fun _ => ?_
    · exact State.storeResults_keeps kD kY kN kF (State.setRec_keeps kA (by assumption))
    exact State.storeResults_keeps kD kY kN kF (State.setRec_keeps kA (by assumption))
  · refine Keeps.ite (fun _ => ?_) fun _ => ?_
    · assumption
    refine State.sendRecord_keeps kD kA kN kK kF ?_
    refine Keeps.ite (fun _ => ?_) fun _ => ?_
    · exact State.setRec_keeps kA (by assumption)
    exact State.storeResults_keeps kD kY kN kF (State.setRec_keeps kA (by assumption))
  assumption

theorem State.place_keeps {r s1 : State} {a2 a3} (kS : k .sites) (kX : k .contexts) (kL : k .ledger) (kW : k .convoy) (h1 : Keeps k r s1) : Keeps k r (@State.place s1 a2 a3) := by
  unfold State.place
  split
  · assumption
  refine Keeps.ite (fun _ => ?_) fun _ => ?_
  · refine State.modSite_keeps kS ?_
    refine State.charge_keeps kS kX kL kW ?_
    exact State.setCtx_keeps kX (State.setEntry_keeps kL (State.bump_keeps (State.passCycles_keeps kL (by assumption))))
  exact State.setCtx_keeps kX (Keeps.put_freeCtr (State.setEntry_keeps kL (State.bump_keeps (State.passCycles_keeps kL (by assumption)))))

theorem State.releaseItem_keeps {r s1 : State} {a2 a3} (kD : k .device) (kL : k .ledger) (kA : k .acquisition) (kY : k .memory) (kN : k .channels) (kK : k .link) (kF : k .faults) (h1 : Keeps k r s1) : Keeps k r (@State.releaseItem s1 a2 a3) := by
  unfold State.releaseItem
  refine State.postHeld_keeps kL ?_
  refine State.freeEntry_keeps kL ?_
  refine State.setCaravan_keeps kL ?_
  refine State.bump_keeps ?_
  refine State.deliverWork_keeps kD kA kY kN kK kF ?_
  refine Keeps.ite (fun _ => ?_) fun _ => ?_
  · refine Keeps.each ?_ fun _ _ _ => ?_
    · assumption
    exact State.raise_keeps (by assumption)
  assumption

theorem State.releaseHead_keeps {r s1 : State} {a2 a3} (kD : k .device) (kL : k .ledger) (kA : k .acquisition) (kY : k .memory) (kN : k .channels) (kK : k .link) (kF : k .faults) (h1 : Keeps k r s1) : Keeps k r (@State.releaseHead s1 a2 a3) := by
  induction a3 generalizing s1 with
  | zero => exact h1
  | succ k ih =>
    unfold State.releaseHead
    split
    · exact Keeps.ite (fun _ => ih (State.releaseItem_keeps kD kL kA kY kN kK kF h1)) fun _ => h1
    · exact h1

theorem execCaravanStall_keeps {r s2 : State} {a1} (kL : k .ledger) (h2 : Keeps k r s2) : KeepsOut k r (@execCaravanStall a1 s2) := by
  unfold execCaravanStall
  refine Keeps.out_ite (fun _ => ?_) fun _ => ?_
  · exact KeepsOut.next (State.raise_keeps (State.setCaravan_keeps kL (by assumption)))
  exact KeepsOut.next (by assumption)

theorem execCaravanRelease_keeps {r s2 : State} {a1} (kD : k .device) (kL : k .ledger) (kA : k .acquisition) (kY : k .memory) (kN : k .channels) (kK : k .link) (kF : k .faults) (h2 : Keeps k r s2) : KeepsOut k r (@execCaravanRelease a1 s2) := by
  unfold execCaravanRelease
  exact KeepsOut.next (State.releaseHead_keeps kD kL kA kY kN kK kF (by assumption))

theorem execDispatch_keeps {r s1 : State} (kD : k .device) (kS : k .sites) (kP : k .pins) (kX : k .contexts) (kL : k .ledger) (kA : k .acquisition) (kM : k .measure) (kV : k .passport) (kY : k .memory) (kN : k .channels) (kK : k .link) (kW : k .convoy) (kF : k .faults) (h1 : Keeps k r s1) : KeepsOut k r (@execDispatch s1) := by
  unfold execDispatch
  refine Keeps.out_ite (fun _ => ?_) fun _ => ?_
  · exact KeepsOut.next (by assumption)
  split
  · refine KeepsOut.next ?_
    refine Keeps.ite (fun _ => ?_) fun _ => ?_
    · refine State.place_keeps kS kX kL kW ?_
      exact State.readEntry_keeps kD kS kP kX kL kA kM kV kY kN kK kF (by assumption)
    exact State.readEntry_keeps kD kS kP kX kL kA kM kV kY kN kK kF (by assumption)
  exact KeepsOut.next (by assumption)

end Sys2Proof.Machine
end

