-- ==== Sys2Proof/Laws/KeepsLinks.lean ====
section
/-! SUPPORT. What the operations of a group keep: memory, Stagelink, the Convoy, network time and the ring. One lemma for each operation, over `Keeps`. -/

namespace Sys2Proof.Machine

variable {k : Part → Prop}

theorem State.modChan_keeps {r s1 : State} {a2 a3} (kN : k .channels) (h1 : Keeps k r s1) : Keeps k r (@State.modChan s1 a2 a3) := by
  unfold State.modChan
  exact State.setChan_keeps kN (by assumption)

theorem State.again_keeps {r s1 : State} {a2 a3} (kN : k .channels) (h1 : Keeps k r s1) : Keeps k r (@State.again s1 a2 a3) := by
  unfold State.again
  try dsimp only
  split
  · refine Keeps.ite (fun _ => ?_) fun _ => ?_
    · assumption
    exact State.markRow_keeps kN (State.modChan_keeps kN (by assumption))
  · refine Keeps.ite (fun _ => ?_) fun _ => ?_
    · assumption
    exact State.markRow_keeps kN (State.modChan_keeps kN (by assumption))
  · exact State.modChan_keeps kN (by assumption)
  · assumption
  assumption

theorem State.startRetrain_keeps {r s1 : State} {a2} (kN : k .channels) (h1 : Keeps k r s1) : Keeps k r (@State.startRetrain s1 a2) := by
  unfold State.startRetrain
  exact State.raise_keeps (State.bump_keeps (State.modChan_keeps kN (State.precharge_keeps kN (by assumption))))

theorem State.recoverMem_keeps {r s1 : State} {a2 a3} (kD : k .device) (kN : k .channels) (kF : k .faults) (h1 : Keeps k r s1) : Keeps k r (@State.recoverMem s1 a2 a3) := by
  unfold State.recoverMem
  refine Keeps.ite (fun _ => ?_) fun _ => ?_
  · assumption
  split
  · exact State.modChan_keeps kN (by assumption)
  · exact State.startRetrain_keeps kN (by assumption)
  · refine Keeps.ite (fun _ => ?_) fun _ => ?_
    · exact State.critical_keeps kD kF (State.fence_keeps kN (by assumption))
    exact State.fence_keeps kN (by assumption)
  assumption

theorem State.scatter_keeps {r s1 : State} (kY : k .memory) (h1 : Keeps k r s1) : Keeps k r (@State.scatter s1) := by
  refine h1.of_wf ⟨rfl, rfl, rfl, rfl⟩ (fun c => ?_)
    (fun p hp => by cases p <;> first | exact absurd (by assumption) hp | exact ⟨rfl, rfl, rfl⟩ | exact ⟨rfl, rfl⟩ | exact rfl)
  simp only [State.scatter, State.canonical, Bool.and_eq_true] at *
  simp only [c, and_true]
  decide

theorem State.completeWrites_keeps {r s1 : State} {a2} (kN : k .channels) (h1 : Keeps k r s1) : Keeps k r (@State.completeWrites s1 a2) := by
  unfold State.completeWrites
  refine Keeps.each ?_ fun _ _ _ => ?_
  · exact State.setChan_keeps kN (by assumption)
  exact State.touch_keeps kN (by assumption)

theorem State.setCapacity_keeps {r s1 : State} (h1 : Keeps k r s1) : Keeps k r (@State.setCapacity s1) := by
  unfold State.setCapacity
  refine State.setNat_keeps ?_
  refine State.setNat_keeps ?_
  refine Keeps.each ?_ fun _ _ _ => ?_
  · assumption
  exact State.setNat_keeps (by assumption)

theorem State.storeTraining_keeps {r s1 : State} {a2} (h1 : Keeps k r s1) : Keeps k r (@State.storeTraining s1 a2) := by
  unfold State.storeTraining
  exact Keeps.put_freeCtr (State.setOct_keeps (by assumption))

theorem State.trainChannel_keeps {r s1 : State} {a2 a3 a4} (kN : k .channels) (h1 : Keeps k r s1) : Keeps k r (@State.trainChannel s1 a2 a3 a4) := by
  unfold State.trainChannel
  refine Keeps.ite (fun _ => ?_) fun _ => ?_
  · exact State.setChan_keeps kN (by assumption)
  refine Keeps.ite (fun _ => ?_) fun _ => ?_
  · exact State.raise_keeps (State.setChan_keeps kN (by assumption))
  refine Keeps.ite (fun _ => ?_) fun _ => ?_
  · refine State.setChan_keeps kN ?_
    refine Keeps.ite (fun _ => ?_) fun _ => ?_
    · exact State.raise_keeps (by assumption)
    assumption
  refine Keeps.ite (fun _ => ?_) fun _ => ?_
  · refine State.setChan_keeps kN ?_
    refine Keeps.ite (fun _ => ?_) fun _ => ?_
    · exact State.raise_keeps (by assumption)
    assumption
  refine State.setChan_keeps kN ?_
  refine State.storeTraining_keeps ?_
  refine Keeps.ite (fun _ => ?_) fun _ => ?_
  · exact State.raise_keeps (by assumption)
  assumption

theorem State.trainAll_keeps {r s1 : State} {a2} (kY : k .memory) (kN : k .channels) (h1 : Keeps k r s1) : Keeps k r (@State.trainAll s1 a2) := by
  unfold State.trainAll
  exact State.setCapacity_keeps (State.scatter_keeps kY (Keeps.each h1 fun _ _ h => State.trainChannel_keeps kN h))

theorem State.sleepChannel_keeps {r s1 : State} {a2} (kN : k .channels) (h1 : Keeps k r s1) : Keeps k r (@State.sleepChannel s1 a2) := by
  unfold State.sleepChannel
  exact State.modChan_keeps kN (State.precharge_keeps kN (State.completeWrites_keeps kN (by assumption)))

theorem State.enterSelfRefresh_keeps {r s1 : State} (kN : k .channels) (h1 : Keeps k r s1) : Keeps k r (@State.enterSelfRefresh s1) := by
  unfold State.enterSelfRefresh
  refine Keeps.each ?_ fun _ _ _ => ?_
  · assumption
  split
  · exact State.sleepChannel_keeps kN (by assumption)
  · exact State.modChan_keeps kN (by assumption)
  · exact State.modChan_keeps kN (by assumption)
  assumption

theorem State.failRetrain_keeps {r s1 : State} {a2} (kD : k .device) (kN : k .channels) (kF : k .faults) (h1 : Keeps k r s1) : Keeps k r (@State.failRetrain s1 a2) := by
  unfold State.failRetrain
  refine Keeps.ite (fun _ => ?_) fun _ => ?_
  · exact State.memClimb_keeps kD kN kF (State.startRetrain_keeps kN (by assumption))
  assumption

theorem State.modRank_keeps {r s1 : State} {a2 a3 a4} (kN : k .channels) (h1 : Keeps k r s1) : Keeps k r (@State.modRank s1 a2 a3 a4) := by
  unfold State.modRank
  exact State.modChan_keeps kN (by assumption)

theorem State.refreshIndex_keeps {r s1 : State} {a2 a3 a4} (kN : k .channels) (h1 : Keeps k r s1) : Keeps k r (@State.refreshIndex s1 a2 a3 a4) := by
  unfold State.refreshIndex
  exact State.modRank_keeps kN (State.command_keeps kN (State.precharge_keeps kN (by assumption)))

theorem State.refreshUnits_keeps {r s1 : State} {a2 a3 a4 a5} (kN : k .channels) (h1 : Keeps k r s1) : Keeps k r (@State.refreshUnits s1 a2 a3 a4 a5) := by
  induction a5 generalizing s1 with
  | zero => exact h1
  | succ n ih =>
    unfold State.refreshUnits
    have h2 := Keeps.each (l := (List.range 4).filter fun i => !a4.contains i && !(Table.get {} (s1.chan a2).ranks a3).part.contains i)
      (f := fun s i => s.refreshIndex a2 a3 i) h1 fun _ _ h => State.refreshIndex_keeps kN h
    exact Keeps.ite (fun _ => h1) fun _ => Keeps.ite (fun _ => h2) fun _ => ih (State.modRank_keeps kN h2)

theorem State.splitBurst_keeps {r s1 : State} {a2 a3} (kN : k .channels) (h1 : Keeps k r s1) : Keeps k r (@State.splitBurst s1 a2 a3) := by
  unfold State.splitBurst
  refine State.refreshUnits_keeps kN ?_
  exact State.raise_keeps (State.bump_keeps (State.modRank_keeps kN (State.command_keeps kN (State.precharge_keeps kN (by assumption)))))

theorem State.lateSplits_keeps {r s1 : State} {a2} (kN : k .channels) (h1 : Keeps k r s1) : Keeps k r (@State.lateSplits s1 a2) := by
  unfold State.lateSplits
  refine Keeps.each ?_ fun _ _ _ => ?_
  · assumption
  refine Keeps.each ?_ fun _ _ _ => ?_
  · assumption
  refine Keeps.ite (fun _ => ?_) fun _ => ?_
  · exact State.splitBurst_keeps kN (by assumption)
  assumption

theorem State.leaveSelfRefresh_keeps {r s1 : State} (kD : k .device) (kA : k .acquisition) (kN : k .channels) (kK : k .link) (kF : k .faults) (h1 : Keeps k r s1) : Keeps k r (@State.leaveSelfRefresh s1) := by
  unfold State.leaveSelfRefresh
  refine Keeps.each ?_ fun _ _ _ => ?_
  · assumption
  refine Keeps.ite (fun _ => ?_) fun _ => ?_
  · refine State.moveWrites_keeps kN ?_
    exact State.sendWaiting_keeps kD kA kN kK kF (State.modChan_keeps kN (State.storeTraining_keeps (by assumption)))
  exact State.modChan_keeps kN (by assumption)

theorem State.reissue_keeps {r s1 : State} {a2} (kN : k .channels) (h1 : Keeps k r s1) : Keeps k r (@State.reissue s1 a2) := by
  unfold State.reissue
  refine Keeps.each ?_ fun _ _ _ => ?_
  · exact State.modChan_keeps kN (by assumption)
  exact State.again_keeps kN (by assumption)

theorem State.serveAgain_keeps {r s1 : State} {a2} (kD : k .device) (kA : k .acquisition) (kN : k .channels) (kK : k .link) (kF : k .faults) (h1 : Keeps k r s1) : Keeps k r (@State.serveAgain s1 a2) := by
  unfold State.serveAgain
  refine Keeps.ite (fun _ => ?_) fun _ => ?_
  · refine State.sleepChannel_keeps kN ?_
    refine State.sendWaiting_keeps kD kA kN kK kF ?_
    exact State.lateSplits_keeps kN (State.modChan_keeps kN (State.reissue_keeps kN (by assumption)))
  refine State.moveWrites_keeps kN ?_
  refine State.sendWaiting_keeps kD kA kN kK kF ?_
  exact State.lateSplits_keeps kN (State.modChan_keeps kN (State.reissue_keeps kN (by assumption)))

theorem State.startTraining_keeps {r s1 : State} (kN : k .channels) (h1 : Keeps k r s1) : Keeps k r (@State.startTraining s1) := by
  unfold State.startTraining
  refine Keeps.each ?_ fun _ _ _ => ?_
  · assumption
  refine Keeps.ite (fun _ => ?_) fun _ => ?_
  · exact State.setChan_keeps kN (by assumption)
  assumption

theorem execPowerDown_keeps {r s3 : State} {a1 a2} (kN : k .channels) (h3 : Keeps k r s3) : KeepsOut k r (@execPowerDown a1 a2 s3) := by
  unfold execPowerDown
  refine Keeps.out_ite (fun _ => ?_) fun _ => ?_
  · exact KeepsOut.next (by assumption)
  exact KeepsOut.next (State.bump_keeps (State.setChan_keeps kN (by assumption)))

theorem execMr4Read_keeps {r s2 : State} {a1} (kN : k .channels) (h2 : Keeps k r s2) : KeepsOut k r (@execMr4Read a1 s2) := by
  unfold execMr4Read
  refine Keeps.out_ite (fun _ => ?_) fun _ => ?_
  · exact KeepsOut.next (by assumption)
  refine KeepsOut.next ?_
  refine Keeps.each ?_ fun _ _ _ => ?_
  · assumption
  refine Keeps.ite (fun _ => ?_) fun _ => ?_
  · exact State.modRank_keeps kN (State.command_keeps kN (by assumption))
  assumption

theorem execRefreshDue_keeps {r s4 : State} {a1 a2 a3} (kN : k .channels) (h4 : Keeps k r s4) : KeepsOut k r (@execRefreshDue a1 a2 a3 s4) := by
  unfold execRefreshDue
  refine Keeps.out_ite (fun _ => ?_) fun _ => ?_
  · exact KeepsOut.next (by assumption)
  refine Keeps.out_ite (fun _ => ?_) fun _ => ?_
  · exact KeepsOut.next (State.modRank_keeps kN (State.peak_keeps (by assumption)))
  refine Keeps.out_ite (fun _ => ?_) fun _ => ?_
  · exact KeepsOut.next (State.splitBurst_keeps kN (State.refreshUnits_keeps kN (State.modRank_keeps kN (State.peak_keeps (by assumption)))))
  exact KeepsOut.next (State.refreshUnits_keeps kN (State.modRank_keeps kN (State.peak_keeps (by assumption))))

theorem execEscalateWindowEnd_keeps {r s2 : State} {a1} (kN : k .channels) (h2 : Keeps k r s2) : KeepsOut k r (@execEscalateWindowEnd a1 s2) := by
  unfold execEscalateWindowEnd
  try dsimp only
  split
  · exact KeepsOut.next (by assumption)
  refine Keeps.out_ite (fun _ => ?_) fun _ => ?_
  · exact KeepsOut.next (State.setChan_keeps kN (by assumption))
  exact KeepsOut.next (by assumption)

theorem execRetrainTimeout_keeps {r s2 : State} {a1} (kD : k .device) (kN : k .channels) (kF : k .faults) (h2 : Keeps k r s2) : KeepsOut k r (@execRetrainTimeout a1 s2) := by
  unfold execRetrainTimeout
  refine Keeps.out_ite (fun _ => ?_) fun _ => ?_
  · exact KeepsOut.next (State.memClimb_keeps kD kN kF (by assumption))
  exact KeepsOut.next (by assumption)

theorem execRetrainDone_keeps {r s2 : State} {a1} (kD : k .device) (kA : k .acquisition) (kN : k .channels) (kK : k .link) (kF : k .faults) (h2 : Keeps k r s2) : KeepsOut k r (@execRetrainDone a1 s2) := by
  unfold execRetrainDone
  refine Keeps.out_ite (fun _ => ?_) fun _ => ?_
  · exact KeepsOut.next (State.serveAgain_keeps kD kA kN kK kF (State.storeTraining_keeps (State.recovered_keeps kF (by assumption))))
  exact KeepsOut.next (by assumption)

theorem execReplayDone_keeps {r s2 : State} {a1} (kD : k .device) (kA : k .acquisition) (kN : k .channels) (kK : k .link) (kF : k .faults) (h2 : Keeps k r s2) : KeepsOut k r (@execReplayDone a1 s2) := by
  unfold execReplayDone
  refine Keeps.out_ite (fun _ => ?_) fun _ => ?_
  · refine KeepsOut.next ?_
    exact State.serveAgain_keeps kD kA kN kK kF (State.recovered_keeps kF (State.raise_keeps (State.bump_keeps (by assumption))))
  exact KeepsOut.next (by assumption)

theorem execDramAlert_keeps {r s3 : State} {a1 a2} (kD : k .device) (kN : k .channels) (kF : k .faults) (h3 : Keeps k r s3) : KeepsOut k r (@execDramAlert a1 a2 s3) := by
  unfold execDramAlert
  refine Keeps.out_ite (fun _ => ?_) fun _ => ?_
  · exact KeepsOut.next (State.memError_keeps kD kN kF (State.bump_keeps (by assumption)))
  exact KeepsOut.next (by assumption)

theorem State.linkRetrain_keeps {r s1 : State} {a2} (kD : k .device) (kF : k .faults) (h1 : Keeps k r s1) : Keeps k r (@State.linkRetrain s1 a2) := by
  unfold State.linkRetrain
  split
  · refine Keeps.ite (fun _ => ?_) fun _ => ?_
    · assumption
    exact State.climb_keeps kD kF (by assumption)
  exact State.handFault_keeps kD kF (by assumption)

theorem State.rejectPacket_keeps {r s1 : State} (kD : k .device) (kK : k .link) (kF : k .faults) (h1 : Keeps k r s1) : Keeps k r (@State.rejectPacket s1) := by
  unfold State.rejectPacket
  refine Keeps.ite (fun _ => ?_) fun _ => ?_
  · assumption
  refine Keeps.ite (fun _ => ?_) fun _ => ?_
  · exact State.linkRetrain_keeps kD kF (Keeps.put_sl kK (State.raise_keeps (State.bump_keeps (State.send_keeps (Keeps.put_sl kK (by assumption))))))
  refine Keeps.ite (fun _ => ?_) fun _ => ?_
  · exact State.raise_keeps (State.bump_keeps (State.send_keeps (Keeps.put_sl kK (by assumption))))
  exact State.handFault_keeps kD kF (State.raise_keeps (State.bump_keeps (State.send_keeps (Keeps.put_sl kK (by assumption)))))

theorem State.badCrc_keeps {r s1 : State} (kD : k .device) (kK : k .link) (kF : k .faults) (h1 : Keeps k r s1) : Keeps k r (@State.badCrc s1) := by
  unfold State.badCrc
  exact State.rejectPacket_keeps kD kK kF (State.bump_keeps (Keeps.put_sl kK (by assumption)))

theorem State.blockErrors_keeps {r s1 : State} {a2} (h1 : Keeps k r s1) : Keeps k r (@State.blockErrors s1 a2) := by
  unfold State.blockErrors
  refine Keeps.each ?_ fun _ _ _ => ?_
  · assumption
  exact State.bump_keeps (by assumption)

theorem State.setLanes_keeps {r s1 : State} {a2 a3} (h1 : Keeps k r s1) : Keeps k r (@State.setLanes s1 a2 a3) := by
  unfold State.setLanes
  refine Keeps.each ?_ fun _ _ _ => ?_
  · assumption
  exact State.setNat_keeps (by assumption)

theorem State.bringUp_keeps {r s1 : State} (h1 : Keeps k r s1) : Keeps k r (@State.bringUp s1) := by
  unfold State.bringUp
  exact State.setLanes_keeps (State.setNat_keeps (by assumption))

theorem State.holdOutNow_keeps {r s1 : State} (kK : k .link) (h1 : Keeps k r s1) : Keeps k r (@State.holdOutNow s1) := by
  unfold State.holdOutNow
  refine Keeps.ite (fun _ => ?_) fun _ => ?_
  · exact State.send_keeps (State.bump_keeps (Keeps.put_sl kK (by assumption)))
  refine Keeps.ite (fun _ => ?_) fun _ => ?_
  · exact State.send_keeps (Keeps.put_sl kK (by assumption))
  assumption

theorem State.linkDown_keeps {r s1 : State} (kK : k .link) (h1 : Keeps k r s1) : Keeps k r (@State.linkDown s1) := by
  unfold State.linkDown
  exact Keeps.put_sl kK (State.setLanes_keeps (State.setNat_keeps (State.setNat_keeps (State.setNat_keeps (State.setNat_keeps (by assumption))))))

theorem State.startDegrade_keeps {r s1 : State} (kK : k .link) (h1 : Keeps k r s1) : Keeps k r (@State.startDegrade s1) := by
  unfold State.startDegrade
  exact State.send_keeps (State.setNat_keeps (Keeps.put_sl kK (State.setLanes_keeps (by assumption))))

theorem State.recoverLink_keeps {r s1 : State} {a2 a3} (kK : k .link) (h1 : Keeps k r s1) : Keeps k r (@State.recoverLink s1 a2 a3) := by
  unfold State.recoverLink
  split
  · refine Keeps.ite (fun _ => ?_) fun _ => ?_
    · exact State.setLanes_keeps (State.setNat_keeps (Keeps.put_sl kK (by assumption)))
    assumption
  · refine Keeps.ite (fun _ => ?_) fun _ => ?_
    · exact State.startDegrade_keeps kK (by assumption)
    assumption
  · refine Keeps.ite (fun _ => ?_) fun _ => ?_
    · exact State.raise_keeps (State.linkDown_keeps kK (by assumption))
    assumption
  assumption

theorem State.setFailed_keeps {r s1 : State} {a2 a3} (h1 : Keeps k r s1) : Keeps k r (@State.setFailed s1 a2 a3) := by
  unfold State.setFailed
  exact State.setNat_keeps (by assumption)

theorem State.restoreLink_keeps {r s1 : State} (kK : k .link) (kF : k .faults) (h1 : Keeps k r s1) : Keeps k r (@State.restoreLink s1) := by
  unfold State.restoreLink
  exact State.bringUp_keeps (State.setFailed_keeps (State.linkDown_keeps kK (State.dropFault_keeps kF (State.dropFault_keeps kF (by assumption)))))

theorem State.endsHost_keeps {r s1 : State} (kD : k .device) (h1 : Keeps k r s1) : Keeps k r (@State.endsHost s1) := by
  unfold State.endsHost
  refine Keeps.ite (fun _ => ?_) fun _ => ?_
  · exact Keeps.put_start kD (by assumption)
  assumption

theorem State.csWrite_keeps {r s1 : State} {a2} (kD : k .device) (kO : k .store) (h1 : Keeps k r s1) : Keeps k r (@State.csWrite s1 a2).2 := by
  unfold State.csWrite
  refine Keeps.snd_ite (fun _ => ?_) fun _ => ?_
  · exact Keeps.mkSnd (by assumption)
  refine Keeps.snd_ite (fun _ => ?_) fun _ => ?_
  · exact Keeps.mkSnd (by assumption)
  exact Keeps.mkSnd (State.endsHost_keeps kD (Keeps.put_start_store kD kO (by assumption)))

theorem State.deskew_keeps {r s1 : State} {a2} (h1 : Keeps k r s1) : Keeps k r (@State.deskew s1 a2) := by
  unfold State.deskew
  refine Keeps.each ?_ fun _ _ _ => ?_
  · assumption
  exact State.setReg_keeps (State.free_keeps (by assumption))

theorem State.popRx_keeps {r s1 : State} {a2 a3} (kK : k .link) (h1 : Keeps k r s1) : Keeps k r (@State.popRx s1 a2 a3) := by
  unfold State.popRx
  refine Keeps.ite (fun _ => ?_) fun _ => ?_
  · exact Keeps.put_sl kK (by assumption)
  exact State.refuse_keeps kK (Keeps.put_sl kK (by assumption))

theorem State.windowLine_keeps {r s1 : State} {a2 a3} (kV : k .passport) (h1 : Keeps k r s1) : Keeps k r (@State.windowLine s1 a2 a3) := by
  unfold State.windowLine
  split
  · assumption
  refine Keeps.ite (fun _ => ?_) fun _ => ?_
  · exact State.setOct_keeps (State.setNat_keeps (Keeps.put_pass kV (State.setNat_keeps (by assumption))))
  exact Keeps.put_pass kV (State.setNat_keeps (by assumption))

theorem State.hostLine_keeps {r s1 : State} {a2 a3} (kV : k .passport) (kY : k .memory) (kN : k .channels) (h1 : Keeps k r s1) : Keeps k r (@State.hostLine s1 a2 a3) := by
  unfold State.hostLine
  exact State.putWrite_keeps kN (State.writeLine_keeps kY (State.windowLine_keeps kV (by assumption)))

theorem State.lineServed_keeps {r s1 : State} {a2} (kK : k .link) (h1 : Keeps k r s1) : Keeps k r (@State.lineServed s1 a2) := by
  unfold State.lineServed
  exact Keeps.put_sl kK (by assumption)

theorem State.tsetWrite_keeps {r s1 : State} {a2} (kP : k .pins) (h1 : Keeps k r s1) : Keeps k r (@State.tsetWrite s1 a2).2 := by
  unfold State.tsetWrite
  refine Keeps.snd_ite (fun _ => ?_) fun _ => ?_
  · exact Keeps.mkSnd (by assumption)
  refine Keeps.snd_ite (fun _ => ?_) fun _ => ?_
  · exact Keeps.mkSnd (by assumption)
  refine Keeps.snd_ite (fun _ => ?_) fun _ => ?_
  · exact Keeps.mkSnd (by assumption)
  try dsimp only
  split
  · refine Keeps.mkSnd ?_
    refine Keeps.each ?_ fun _ _ _ => ?_
    · assumption
    exact State.modPin_keeps kP (by assumption)
  refine Keeps.mkSnd ?_
  refine Keeps.ite (fun _ => ?_) fun _ => ?_
  · refine Keeps.each ?_ fun _ _ _ => ?_
    · assumption
    exact State.setNat_keeps (State.modPin_keeps kP (by assumption))
  refine State.raise_keeps ?_
  refine Keeps.each ?_ fun _ _ _ => ?_
  · assumption
  exact State.setNat_keeps (State.modPin_keeps kP (by assumption))

theorem State.serveRx_keeps {r s1 t : State} (kD : k .device) (kP : k .pins) (kO : k .store) (kV : k .passport) (kY : k .memory) (kN : k .channels) (kK : k .link) (kF : k .faults) (h1 : Keeps k r s1) (e : State.serveRx s1 = some t) : Keeps k r t := by
  unfold State.serveRx at e
  dsimp only at e
  split at e
  · cases e
  split at e
  · cases e
    exact State.popRx_keeps kK h1
  split at e
  · split at e
    · cases e
      exact State.popRx_keeps kK (Keeps.ite (fun _ => State.raise_keeps h1) fun _ => h1)
    split at e
    · cases e
      exact State.popRx_keeps kK h1
    split at e
    · cases e
      exact Keeps.ite (fun _ => State.popRx_keeps kK (State.hostLine_keeps kV kY kN h1)) fun _ => State.lineServed_keeps kK (State.hostLine_keeps kV kY kN h1)
    · cases e
  · split at e
    · cases e
      exact State.popRx_keeps kK h1
    split at e
    · cases e
      exact State.slSend_keeps kK (State.popRx_keeps kK h1)
    split at e
    · cases e
      exact State.lineServed_keeps kK (State.crossed_keeps (State.readLine_keeps kD kN kF (State.bulkSlot_keeps kN h1)))
    · cases e
  · cases e
    exact State.popRx_keeps kK (State.csWrite_keeps kD kO h1)
  · cases e
    exact State.popRx_keeps kK (State.tsetWrite_keeps kP h1)

theorem State.pumpRx_keeps {r s1 : State} {a2} (kD : k .device) (kP : k .pins) (kO : k .store) (kV : k .passport) (kY : k .memory) (kN : k .channels) (kK : k .link) (kF : k .faults) (h1 : Keeps k r s1) : Keeps k r (@State.pumpRx s1 a2) := by
  induction a2 generalizing s1 with
  | zero => exact h1
  | succ n ih =>
    unfold State.pumpRx
    split
    · rename_i e
      exact ih (State.serveRx_keeps kD kP kO kV kY kN kK kF h1 e)
    · exact h1

theorem State.pump_keeps {r s1 : State} (kD : k .device) (kP : k .pins) (kO : k .store) (kV : k .passport) (kY : k .memory) (kN : k .channels) (kK : k .link) (kF : k .faults) (h1 : Keeps k r s1) : Keeps k r (@State.pump s1) := by
  unfold State.pump
  exact State.holdOutNow_keeps kK (State.pumpRx_keeps kD kP kO kV kY kN kK kF (by assumption))

theorem State.loseLink_keeps {r s1 : State} {a2} (kD : k .device) (kK : k .link) (kF : k .faults) (h1 : Keeps k r s1) : Keeps k r (@State.loseLink s1 a2) := by
  unfold State.loseLink
  exact State.handFault_keeps kD kF (State.raise_keeps (State.linkDown_keeps kK (State.dropFault_keeps kF (by assumption))))

theorem State.receive_keeps {r s1 : State} {a2 a3 a4} (kD : k .device) (kP : k .pins) (kO : k .store) (kV : k .passport) (kY : k .memory) (kN : k .channels) (kK : k .link) (kF : k .faults) (h1 : Keeps k r s1) : Keeps k r (@State.receive s1 a2 a3 a4) := by
  unfold State.receive
  refine Keeps.ite (fun _ => ?_) fun _ => ?_
  · exact State.blockErrors_keeps (by assumption)
  refine Keeps.ite (fun _ => ?_) fun _ => ?_
  · exact State.badCrc_keeps kD kK kF (State.blockErrors_keeps (by assumption))
  refine Keeps.ite (fun _ => ?_) fun _ => ?_
  · refine Keeps.ite (fun _ => ?_) fun _ => ?_
    · exact State.send_keeps (State.blockErrors_keeps (by assumption))
    exact State.rejectPacket_keeps kD kK kF (State.blockErrors_keeps (by assumption))
  refine Keeps.ite (fun _ => ?_) fun _ => ?_
  · exact State.rejectPacket_keeps kD kK kF (Keeps.put_sl kK (State.blockErrors_keeps (by assumption)))
  refine State.pump_keeps kD kP kO kV kY kN kK kF ?_
  refine State.holdOutNow_keeps kK ?_
  refine State.crossed_keeps ?_
  refine State.send_keeps ?_
  refine Keeps.put_sl kK ?_
  split
  · refine Keeps.ite (fun _ => ?_) fun _ => ?_
    · exact State.recovered_keeps kF (Keeps.put_sl kK (State.blockErrors_keeps (by assumption)))
    exact Keeps.put_sl kK (State.blockErrors_keeps (by assumption))
  exact Keeps.put_sl kK (State.blockErrors_keeps (by assumption))

theorem State.refuseWrite_keeps {r s1 : State} {a2 a3} (kK : k .link) (h1 : Keeps k r s1) : Keeps k r (@State.refuseWrite s1 a2 a3) := by
  unfold State.refuseWrite
  refine State.popRx_keeps kK ?_
  refine Keeps.ite (fun _ => ?_) fun _ => ?_
  · exact State.raise_keeps (by assumption)
  assumption

theorem State.replayFrom_keeps {r s1 : State} {a2} (h1 : Keeps k r s1) : Keeps k r (@State.replayFrom s1 a2) := by
  unfold State.replayFrom
  refine State.raise_keeps ?_
  refine State.bump_keeps ?_
  refine Keeps.foldl ?_ fun _ _ _ => ?_
  · assumption
  exact State.send_keeps (by assumption)

theorem State.replayOnce_keeps {r s1 : State} {a2} (kD : k .device) (kK : k .link) (kF : k .faults) (h1 : Keeps k r s1) : Keeps k r (@State.replayOnce s1 a2) := by
  unfold State.replayOnce
  refine Keeps.ite (fun _ => ?_) fun _ => ?_
  · exact State.linkRetrain_keeps kD kF (Keeps.put_sl kK (State.replayFrom_keeps (Keeps.put_sl kK (by assumption))))
  refine Keeps.ite (fun _ => ?_) fun _ => ?_
  · exact State.replayFrom_keeps (Keeps.put_sl kK (by assumption))
  exact State.handFault_keeps kD kF (State.replayFrom_keeps (Keeps.put_sl kK (by assumption)))

theorem State.resume_keeps {r s1 : State} (kK : k .link) (h1 : Keeps k r s1) : Keeps k r (@State.resume s1) := by
  unfold State.resume
  refine State.flush_keeps kK ?_
  split
  · assumption
  exact State.replayFrom_keeps (by assumption)

theorem State.writeNext_keeps {r s1 : State} {a2 a3 a4} (kV : k .passport) (kY : k .memory) (kN : k .channels) (kK : k .link) (h1 : Keeps k r s1) : Keeps k r (@State.writeNext s1 a2 a3 a4) := by
  unfold State.writeNext
  refine Keeps.ite (fun _ => ?_) fun _ => ?_
  · exact State.popRx_keeps kK (State.hostLine_keeps kV kY kN (by assumption))
  exact State.lineServed_keeps kK (State.hostLine_keeps kV kY kN (by assumption))

theorem execWidthControlBlock_keeps {r s2 : State} {a1} (kD : k .device) (kK : k .link) (kF : k .faults) (h2 : Keeps k r s2) : KeepsOut k r (@execWidthControlBlock a1 s2) := by
  unfold execWidthControlBlock
  refine Keeps.out_ite (fun _ => ?_) fun _ => ?_
  · exact KeepsOut.next (by assumption)
  refine Keeps.out_ite (fun _ => ?_) fun _ => ?_
  · exact KeepsOut.next (State.loseLink_keeps kD kK kF (State.setFailed_keeps (by assumption)))
  refine KeepsOut.next ?_
  refine Keeps.ite (fun _ => ?_) fun _ => ?_
  · exact State.setNat_keeps (Keeps.put_sl kK (State.setFailed_keeps (by assumption)))
  exact State.handFault_keeps kD kF (State.setNat_keeps (Keeps.put_sl kK (State.setFailed_keeps (by assumption))))

theorem execReservedPacket_keeps {r s3 : State} {a1 a2} (kD : k .device) (kP : k .pins) (kO : k .store) (kV : k .passport) (kY : k .memory) (kN : k .channels) (kK : k .link) (kF : k .faults) (h3 : Keeps k r s3) : KeepsOut k r (@execReservedPacket a1 a2 s3) := by
  unfold execReservedPacket
  refine Keeps.out_ite (fun _ => ?_) fun _ => ?_
  · exact KeepsOut.next (by assumption)
  exact KeepsOut.next (State.receive_keeps kD kP kO kV kY kN kK kF (by assumption))

theorem execPacketCrcError_keeps {r s1 : State} (kD : k .device) (kK : k .link) (kF : k .faults) (h1 : Keeps k r s1) : KeepsOut k r (@execPacketCrcError s1) := by
  unfold execPacketCrcError
  refine Keeps.out_ite (fun _ => ?_) fun _ => ?_
  · exact KeepsOut.next (State.badCrc_keeps kD kK kF (by assumption))
  exact KeepsOut.next (by assumption)

theorem execSlHoldIn_keeps {r s2 : State} {a1} (kK : k .link) (h2 : Keeps k r s2) : KeepsOut k r (@execSlHoldIn a1 s2) := by
  unfold execSlHoldIn
  refine Keeps.out_ite (fun _ => ?_) fun _ => ?_
  · exact KeepsOut.next (by assumption)
  refine KeepsOut.next ?_
  refine Keeps.ite (fun _ => ?_) fun _ => ?_
  · exact Keeps.put_sl kK (by assumption)
  exact State.flush_keeps kK (Keeps.put_sl kK (by assumption))

theorem execSlDegradeDone_keeps {r s1 : State} (kK : k .link) (kF : k .faults) (h1 : Keeps k r s1) : KeepsOut k r (@execSlDegradeDone s1) := by
  unfold execSlDegradeDone
  refine Keeps.out_ite (fun _ => ?_) fun _ => ?_
  · refine KeepsOut.next ?_
    refine State.resume_keeps kK ?_
    exact State.setLanes_keeps (State.recovered_keeps kF (State.recovered_keeps kF (State.setNat_keeps (Keeps.put_sl kK (by assumption)))))
  refine Keeps.out_ite (fun _ => ?_) fun _ => ?_
  · refine KeepsOut.next ?_
    refine State.resume_keeps kK ?_
    refine State.setNat_keeps ?_
    refine Keeps.put_sl kK ?_
    split
    · refine State.recovered_keeps kF ?_
      refine State.raise_keeps ?_
      refine State.bump_keeps ?_
      refine State.setNat_keeps ?_
      split
      · exact State.recovered_keeps kF (State.raise_keeps (State.bump_keeps (State.setLanes_keeps (State.setNat_keeps (by assumption)))))
      assumption
    split
    · exact State.recovered_keeps kF (State.raise_keeps (State.bump_keeps (State.setLanes_keeps (State.setNat_keeps (by assumption)))))
    assumption
  exact KeepsOut.next (by assumption)

theorem execLaneFail_keeps {r s3 : State} {a1 a2} (kD : k .device) (kK : k .link) (kF : k .faults) (h3 : Keeps k r s3) : KeepsOut k r (@execLaneFail a1 a2 s3) := by
  unfold execLaneFail
  refine Keeps.out_ite (fun _ => ?_) fun _ => ?_
  · exact KeepsOut.next (by assumption)
  refine Keeps.out_ite (fun _ => ?_) fun _ => ?_
  · exact KeepsOut.next (State.loseLink_keeps kD kK kF (State.raise_keeps (State.setFailed_keeps (by assumption))))
  refine Keeps.out_ite (fun _ => ?_) fun _ => ?_
  · exact KeepsOut.next (by assumption)
  refine Keeps.out_ite (fun _ => ?_) fun _ => ?_
  · refine KeepsOut.next ?_
    refine State.loseLink_keeps kD kK kF ?_
    refine State.raise_keeps ?_
    refine State.setNat_keeps ?_
    refine State.setFailed_keeps ?_
    split
    · exact State.bump_keeps (by assumption)
    · exact State.bump_keeps (by assumption)
    · exact State.count_keeps (by assumption)
    exact State.setReg_keeps (State.free_keeps (by assumption))
  refine Keeps.out_ite (fun _ => ?_) fun _ => ?_
  · refine KeepsOut.next ?_
    refine State.raise_keeps ?_
    refine State.setNat_keeps ?_
    refine State.setFailed_keeps ?_
    split
    · exact State.bump_keeps (by assumption)
    · exact State.bump_keeps (by assumption)
    · exact State.count_keeps (by assumption)
    exact State.setReg_keeps (State.free_keeps (by assumption))
  split
  · refine KeepsOut.next ?_
    refine State.startDegrade_keeps kK ?_
    refine State.raise_keeps ?_
    refine State.setNat_keeps ?_
    refine State.setFailed_keeps ?_
    split
    · exact State.bump_keeps (by assumption)
    · exact State.bump_keeps (by assumption)
    · exact State.count_keeps (by assumption)
    exact State.setReg_keeps (State.free_keeps (by assumption))
  refine Keeps.out_ite (fun _ => ?_) fun _ => ?_
  · refine KeepsOut.next ?_
    refine State.raise_keeps ?_
    refine State.setNat_keeps ?_
    refine State.setFailed_keeps ?_
    split
    · exact State.bump_keeps (by assumption)
    · exact State.bump_keeps (by assumption)
    · exact State.count_keeps (by assumption)
    exact State.setReg_keeps (State.free_keeps (by assumption))
  try dsimp only
  split
  · refine KeepsOut.next ?_
    refine State.climb_keeps kD kF ?_
    refine Keeps.ite (fun _ => ?_) fun _ => ?_
    · refine Keeps.put_sl kK ?_
      refine State.raise_keeps ?_
      refine State.setNat_keeps ?_
      refine State.setFailed_keeps ?_
      split
      · exact State.bump_keeps (by assumption)
      · exact State.bump_keeps (by assumption)
      · exact State.count_keeps (by assumption)
      exact State.setReg_keeps (State.free_keeps (by assumption))
    refine State.raise_keeps ?_
    refine State.setNat_keeps ?_
    refine State.setFailed_keeps ?_
    split
    · exact State.bump_keeps (by assumption)
    · exact State.bump_keeps (by assumption)
    · exact State.count_keeps (by assumption)
    exact State.setReg_keeps (State.free_keeps (by assumption))
  refine KeepsOut.next ?_
  refine State.handFault_keeps kD kF ?_
  refine Keeps.ite (fun _ => ?_) fun _ => ?_
  · refine Keeps.put_sl kK ?_
    refine State.raise_keeps ?_
    refine State.setNat_keeps ?_
    refine State.setFailed_keeps ?_
    split
    · exact State.bump_keeps (by assumption)
    · exact State.bump_keeps (by assumption)
    · exact State.count_keeps (by assumption)
    exact State.setReg_keeps (State.free_keeps (by assumption))
  refine State.raise_keeps ?_
  refine State.setNat_keeps ?_
  refine State.setFailed_keeps ?_
  split
  · exact State.bump_keeps (by assumption)
  · exact State.bump_keeps (by assumption)
  · exact State.count_keeps (by assumption)
  exact State.setReg_keeps (State.free_keeps (by assumption))

theorem execSlBringupDone_keeps {r s3 : State} {a1 a2} (kK : k .link) (kF : k .faults) (h3 : Keeps k r s3) : KeepsOut k r (@execSlBringupDone a1 a2 s3) := by
  unfold execSlBringupDone
  refine Keeps.out_ite (fun _ => ?_) fun _ => ?_
  · exact KeepsOut.next (by assumption)
  refine Keeps.out_ite (fun _ => ?_) fun _ => ?_
  · exact KeepsOut.next (State.raiseRanges_keeps (State.linkDown_keeps kK (State.send_keeps (by assumption))))
  refine Keeps.out_ite (fun _ => ?_) fun _ => ?_
  · exact KeepsOut.next (by assumption)
  refine KeepsOut.next ?_
  refine State.resume_keeps kK ?_
  refine State.raise_keeps ?_
  refine State.deskew_keeps ?_
  refine State.recovered_keeps kF ?_
  refine State.recovered_keeps kF ?_
  exact State.setLanes_keeps (State.setNat_keeps (State.setNat_keeps (State.setNat_keeps (State.setNat_keeps (State.send_keeps (by assumption))))))

theorem execSlAckTimeout_keeps {r s1 : State} (kD : k .device) (kK : k .link) (kF : k .faults) (h1 : Keeps k r s1) : KeepsOut k r (@execSlAckTimeout s1) := by
  unfold execSlAckTimeout
  split
  · exact KeepsOut.next (by assumption)
  refine Keeps.out_ite (fun _ => ?_) fun _ => ?_
  · exact KeepsOut.next (State.replayOnce_keeps kD kK kF (by assumption))
  exact KeepsOut.next (by assumption)

theorem execSlNak_keeps {r s2 : State} {a1} (kD : k .device) (kK : k .link) (kF : k .faults) (h2 : Keeps k r s2) : KeepsOut k r (@execSlNak a1 s2) := by
  unfold execSlNak
  refine Keeps.out_ite (fun _ => ?_) fun _ => ?_
  · exact KeepsOut.next (by assumption)
  exact KeepsOut.next (State.replayOnce_keeps kD kK kF (by assumption))

theorem execSlAck_keeps {r s2 : State} {a1} (kV : k .passport) (kK : k .link) (kF : k .faults) (h2 : Keeps k r s2) : KeepsOut k r (@execSlAck a1 s2) := by
  unfold execSlAck
  refine Keeps.out_ite (fun _ => ?_) fun _ => ?_
  · exact KeepsOut.next (by assumption)
  refine KeepsOut.next ?_
  refine State.flush_keeps kK ?_
  refine State.settleExports_keeps kV ?_
  split
  · refine Keeps.ite (fun _ => ?_) fun _ => ?_
    · exact State.recovered_keeps kF (Keeps.put_sl kK (by assumption))
    exact Keeps.put_sl kK (by assumption)
  exact Keeps.put_sl kK (by assumption)

theorem execCsWrite_keeps {r s2 : State} {a1} (kD : k .device) (kP : k .pins) (kO : k .store) (kV : k .passport) (kY : k .memory) (kN : k .channels) (kK : k .link) (kF : k .faults) (h2 : Keeps k r s2) : KeepsOut k r (@execCsWrite a1 s2) := by
  unfold execCsWrite
  exact KeepsOut.next (State.receive_keeps kD kP kO kV kY kN kK kF (by assumption))

theorem execMemReadReq_keeps {r s3 : State} {a1 a2} (kD : k .device) (kP : k .pins) (kO : k .store) (kV : k .passport) (kY : k .memory) (kN : k .channels) (kK : k .link) (kF : k .faults) (h3 : Keeps k r s3) : KeepsOut k r (@execMemReadReq a1 a2 s3) := by
  unfold execMemReadReq
  exact KeepsOut.next (State.receive_keeps kD kP kO kV kY kN kK kF (by assumption))

theorem execMemWrite_keeps {r s2 : State} {a1} (kD : k .device) (kP : k .pins) (kO : k .store) (kV : k .passport) (kY : k .memory) (kN : k .channels) (kK : k .link) (kF : k .faults) (h2 : Keeps k r s2) : KeepsOut k r (@execMemWrite a1 s2) := by
  unfold execMemWrite
  exact KeepsOut.next (State.receive_keeps kD kP kO kV kY kN kK kF (by assumption))

theorem execTsetWrite_keeps {r s2 : State} {a1} (kD : k .device) (kP : k .pins) (kO : k .store) (kV : k .passport) (kY : k .memory) (kN : k .channels) (kK : k .link) (kF : k .faults) (h2 : Keeps k r s2) : KeepsOut k r (@execTsetWrite a1 s2) := by
  unfold execTsetWrite
  exact KeepsOut.next (State.receive_keeps kD kP kO kV kY kN kK kF (by assumption))

theorem State.alignEnds_keeps {r s1 : State} {a2} (h1 : Keeps k r s1) : Keeps k r (@State.alignEnds s1 a2) := by
  unfold State.alignEnds
  exact State.raise_keeps (State.setNat_keeps (by assumption))

theorem State.convoyFault_keeps {r s1 : State} {a2 a3} (kD : k .device) (kS : k .sites) (kP : k .pins) (kX : k .contexts) (kL : k .ledger) (kA : k .acquisition) (kM : k .measure) (kY : k .memory) (kN : k .channels) (kK : k .link) (kF : k .faults) (h1 : Keeps k r s1) : Keeps k r (@State.convoyFault s1 a2 a3) := by
  unfold State.convoyFault
  refine Keeps.ite (fun _ => ?_) fun _ => ?_
  · exact State.cutWait_keeps kX (State.modSite_keeps kS (by assumption))
  exact State.faultHere_keeps kD kS kP kX kL kA kM kY kN kK kF (by assumption)

theorem State.applyDist_keeps {r s1 : State} {a2} (kD : k .device) (kS : k .sites) (kP : k .pins) (kX : k .contexts) (kL : k .ledger) (kA : k .acquisition) (kM : k .measure) (kY : k .memory) (kN : k .channels) (kK : k .link) (kF : k .faults) (h1 : Keeps k r s1) : Keeps k r (@State.applyDist s1 a2) := by
  unfold State.applyDist
  split
  · assumption
  refine Keeps.ite (fun _ => ?_) fun _ => ?_
  · assumption
  refine State.convoyFault_keeps kD kS kP kX kL kA kM kY kN kK kF ?_
  exact State.raise_keeps (State.bump_keeps (by assumption))

theorem State.startAlign_keeps {r s1 : State} (kW : k .convoy) (h1 : Keeps k r s1) : Keeps k r (@State.startAlign s1) := by
  unfold State.startAlign
  refine Keeps.ite (fun _ => ?_) fun _ => ?_
  · exact State.alignEnds_keeps (by assumption)
  exact Keeps.put_convoy kW (State.setNat_keeps (State.setNat_keeps (by assumption)))

theorem State.sendWord_keeps {r s1 : State} {a2} (kW : k .convoy) (h1 : Keeps k r s1) : Keeps k r (@State.sendWord s1 a2) := by
  unfold State.sendWord
  exact State.send_keeps (Keeps.put_convoy kW (by assumption))

theorem State.convoyDown_keeps {r s1 : State} (kD : k .device) (kS : k .sites) (kP : k .pins) (kX : k .contexts) (kL : k .ledger) (kA : k .acquisition) (kM : k .measure) (kY : k .memory) (kN : k .channels) (kK : k .link) (kW : k .convoy) (kF : k .faults) (h1 : Keeps k r s1) : Keeps k r (@State.convoyDown s1) := by
  unfold State.convoyDown
  refine Keeps.each ?_ fun _ _ _ => ?_
  · exact State.handFault_keeps kD kF (Keeps.put_convoy kW (State.raise_keeps (State.setNat_keeps (State.setNat_keeps (by assumption)))))
  exact State.convoyFault_keeps kD kS kP kX kL kA kM kY kN kK kF (by assumption)

theorem State.wordLost_keeps {r s1 : State} (kD : k .device) (kS : k .sites) (kP : k .pins) (kX : k .contexts) (kL : k .ledger) (kA : k .acquisition) (kM : k .measure) (kY : k .memory) (kN : k .channels) (kK : k .link) (kW : k .convoy) (kF : k .faults) (h1 : Keeps k r s1) : Keeps k r (@State.wordLost s1) := by
  unfold State.wordLost
  refine Keeps.ite (fun _ => ?_) fun _ => ?_
  · refine Keeps.ite (fun _ => ?_) fun _ => ?_
    · refine State.convoyDown_keeps kD kS kP kX kL kA kM kY kN kK kW kF ?_
      exact State.raise_keeps (State.bump_keeps (Keeps.put_convoy kW (by assumption)))
    exact State.raise_keeps (State.bump_keeps (Keeps.put_convoy kW (by assumption)))
  exact Keeps.put_convoy kW (by assumption)

theorem State.convoyTick_keeps {r s1 : State} (kD : k .device) (kS : k .sites) (kP : k .pins) (kX : k .contexts) (kL : k .ledger) (kA : k .acquisition) (kM : k .measure) (kY : k .memory) (kN : k .channels) (kK : k .link) (kW : k .convoy) (kF : k .faults) (h1 : Keeps k r s1) : Keeps k r (@State.convoyTick s1) := by
  unfold State.convoyTick
  refine Keeps.ite (fun _ => ?_) fun _ => ?_
  · assumption
  refine Keeps.ite (fun _ => ?_) fun _ => ?_
  · refine State.sendWord_keeps kW ?_
    refine Keeps.put_convoy kW ?_
    refine Keeps.put_convoy kW ?_
    refine Keeps.each ?_ fun _ _ _ => ?_
    · refine Keeps.put_convoy kW ?_
      refine Keeps.ite (fun _ => ?_) fun _ => ?_
      · exact State.wordLost_keeps kD kS kP kX kL kA kM kY kN kK kW kF (by assumption)
      assumption
    exact State.applyDist_keeps kD kS kP kX kL kA kM kY kN kK kF (by assumption)
  refine Keeps.put_convoy kW ?_
  refine Keeps.each ?_ fun _ _ _ => ?_
  · refine Keeps.put_convoy kW ?_
    refine Keeps.ite (fun _ => ?_) fun _ => ?_
    · exact State.wordLost_keeps kD kS kP kX kL kA kM kY kN kK kW kF (by assumption)
    assumption
  exact State.applyDist_keeps kD kS kP kX kL kA kM kY kN kK kF (by assumption)

theorem State.headCmd_keeps {r s1 : State} {a2 a3 a4} (kW : k .convoy) (h1 : Keeps k r s1) : Keeps k r (@State.headCmd s1 a2 a3 a4) := by
  unfold State.headCmd
  refine Keeps.ite (fun _ => ?_) fun _ => ?_
  · assumption
  split
  · refine Keeps.ite (fun _ => ?_) fun _ => ?_
    · exact State.alignEnds_keeps (by assumption)
    exact Keeps.put_convoy kW (State.setNat_keeps (by assumption))
  · exact Keeps.put_convoy kW (by assumption)
  · exact State.alignEnds_keeps (State.setNat_keeps (by assumption))
  assumption

theorem State.wordFound_keeps {r s1 : State} (kW : k .convoy) (kF : k .faults) (h1 : Keeps k r s1) : Keeps k r (@State.wordFound s1) := by
  unfold State.wordFound
  refine Keeps.ite (fun _ => ?_) fun _ => ?_
  · try dsimp only
    split
    · exact State.recovered_keeps kF (State.setNat_keeps (Keeps.put_convoy kW (by assumption)))
    exact State.setNat_keeps (Keeps.put_convoy kW (by assumption))
  exact Keeps.put_convoy kW (by assumption)

theorem State.takeDist_keeps {r s1 : State} {a2 a3 a4} (kD : k .device) (kS : k .sites) (kP : k .pins) (kX : k .contexts) (kL : k .ledger) (kA : k .acquisition) (kM : k .measure) (kY : k .memory) (kN : k .channels) (kK : k .link) (kW : k .convoy) (kF : k .faults) (h1 : Keeps k r s1) : Keeps k r (@State.takeDist s1 a2 a3 a4) := by
  unfold State.takeDist
  split
  · assumption
  split
  · refine Keeps.ite (fun _ => ?_) fun _ => ?_
    · exact State.modSite_keeps kS (by assumption)
    refine Keeps.ite (fun _ => ?_) fun _ => ?_
    · refine State.convoyFault_keeps kD kS kP kX kL kA kM kY kN kK kF ?_
      exact State.sendAbort_keeps kW (by assumption)
    refine Keeps.ite (fun _ => ?_) fun _ => ?_
    · exact Keeps.put_convoy kW (by assumption)
    assumption
  refine Keeps.ite (fun _ => ?_) fun _ => ?_
  · exact Keeps.put_convoy kW (by assumption)
  assumption

theorem State.takeDists_keeps {r s1 : State} {a2 a3} (kD : k .device) (kS : k .sites) (kP : k .pins) (kX : k .contexts) (kL : k .ledger) (kA : k .acquisition) (kM : k .measure) (kY : k .memory) (kN : k .channels) (kK : k .link) (kW : k .convoy) (kF : k .faults) (h1 : Keeps k r s1) : Keeps k r (@State.takeDists s1 a2 a3) := by
  unfold State.takeDists
  refine Keeps.each ?_ fun _ _ _ => ?_
  · assumption
  exact State.takeDist_keeps kD kS kP kX kL kA kM kY kN kK kW kF (by assumption)

theorem State.headWord_keeps {r s1 : State} {a2} (kD : k .device) (kS : k .sites) (kP : k .pins) (kX : k .contexts) (kL : k .ledger) (kA : k .acquisition) (kM : k .measure) (kY : k .memory) (kN : k .channels) (kK : k .link) (kW : k .convoy) (kF : k .faults) (h1 : Keeps k r s1) : Keeps k r (@State.headWord s1 a2) := by
  unfold State.headWord
  refine Keeps.ite (fun _ => ?_) fun _ => ?_
  · refine State.headCmd_keeps kW ?_
    refine Keeps.put_convoy kW ?_
    refine State.takeDists_keeps kD kS kP kX kL kA kM kY kN kK kW kF ?_
    exact State.wordFound_keeps kW kF (Keeps.put_convoy kW (by assumption))
  refine State.wordLost_keeps kD kS kP kX kL kA kM kY kN kK kW kF ?_
  exact Keeps.put_convoy kW (Keeps.put_convoy kW (by assumption))

theorem State.newPhase_keeps {r s1 : State} {a2 a3} (kW : k .convoy) (h1 : Keeps k r s1) : Keeps k r (@State.newPhase s1 a2 a3) := by
  unfold State.newPhase
  exact Keeps.put_convoy kW (by assumption)

theorem State.memberCmd_keeps {r s1 : State} {a2 a3 a4 a5 a6 a7} (kW : k .convoy) (h1 : Keeps k r s1) : Keeps k r (@State.memberCmd s1 a2 a3 a4 a5 a6 a7).2 := by
  unfold State.memberCmd
  split
  · refine Keeps.mkSnd ?_
    refine Keeps.ite (fun _ => ?_) fun _ => ?_
    · exact State.alignEnds_keeps (State.setNat_keeps (State.setNat_keeps (by assumption)))
    exact State.setNat_keeps (State.setNat_keeps (by assumption))
  · exact Keeps.mkSnd (State.setNat_keeps (by assumption))
  refine Keeps.mkSnd ?_
  refine Keeps.ite (fun _ => ?_) fun _ => ?_
  · exact State.alignEnds_keeps (by assumption)
  refine Keeps.ite (fun _ => ?_) fun _ => ?_
  · exact State.alignEnds_keeps (by assumption)
  exact State.newPhase_keeps kW (Keeps.put_convoy kW (by assumption))

theorem State.takeKey_keeps {r s1 : State} {a2 a3 a4 a5 a6} (kD : k .device) (kS : k .sites) (kP : k .pins) (kX : k .contexts) (kL : k .ledger) (kA : k .acquisition) (kM : k .measure) (kY : k .memory) (kN : k .channels) (kK : k .link) (kW : k .convoy) (kF : k .faults) (h1 : Keeps k r s1) : Keeps k r (@State.takeKey s1 a2 a3 a4 a5 a6) := by
  unfold State.takeKey
  split
  · assumption
  split
  · assumption
  refine Keeps.ite (fun _ => ?_) fun _ => ?_
  · assumption
  refine State.convoyFault_keeps kD kS kP kX kL kA kM kY kN kK kF ?_
  exact State.sendAbort_keeps kW (by assumption)

theorem State.memberWord_keeps {r s1 : State} {a2 a3 a4} (kD : k .device) (kS : k .sites) (kP : k .pins) (kX : k .contexts) (kL : k .ledger) (kA : k .acquisition) (kM : k .measure) (kY : k .memory) (kN : k .channels) (kK : k .link) (kW : k .convoy) (kF : k .faults) (h1 : Keeps k r s1) : Keeps k r (@State.memberWord s1 a2 a3 a4) := by
  unfold State.memberWord
  refine Keeps.ite (fun _ => ?_) fun _ => ?_
  · refine State.sendWord_keeps kW ?_
    refine State.takeDists_keeps kD kS kP kX kL kA kM kY kN kK kW kF ?_
    refine Keeps.snd_ite (fun _ => ?_) fun _ => ?_
    · exact State.memberCmd_keeps kW (State.wordFound_keeps kW kF (Keeps.put_convoy kW (by assumption)))
    refine Keeps.snd_ite (fun _ => ?_) fun _ => ?_
    · refine Keeps.mkSnd ?_
      refine State.takeKey_keeps kD kS kP kX kL kA kM kY kN kK kW kF ?_
      exact State.wordFound_keeps kW kF (Keeps.put_convoy kW (by assumption))
    exact Keeps.mkSnd (State.wordFound_keeps kW kF (Keeps.put_convoy kW (by assumption)))
  refine State.sendWord_keeps kW ?_
  refine State.wordLost_keeps kD kS kP kX kL kA kM kY kN kK kW kF ?_
  exact Keeps.put_convoy kW (by assumption)

theorem State.slipChain_keeps {r s1 : State} (kD : k .device) (kS : k .sites) (kP : k .pins) (kX : k .contexts) (kL : k .ledger) (kA : k .acquisition) (kM : k .measure) (kY : k .memory) (kN : k .channels) (kK : k .link) (kW : k .convoy) (kF : k .faults) (h1 : Keeps k r s1) : Keeps k r (@State.slipChain s1) := by
  unfold State.slipChain
  refine State.convoyDown_keeps kD kS kP kX kL kA kM kY kN kK kW kF ?_
  exact State.raise_keeps (State.bump_keeps (by assumption))

theorem execConvoyWord_keeps {r s2 : State} {a1} (kD : k .device) (kS : k .sites) (kP : k .pins) (kX : k .contexts) (kL : k .ledger) (kA : k .acquisition) (kM : k .measure) (kY : k .memory) (kN : k .channels) (kK : k .link) (kW : k .convoy) (kF : k .faults) (h2 : Keeps k r s2) : KeepsOut k r (@execConvoyWord a1 s2) := by
  unfold execConvoyWord
  refine Keeps.out_ite (fun _ => ?_) fun _ => ?_
  · exact KeepsOut.next (State.sendWord_keeps kW (by assumption))
  refine Keeps.out_ite (fun _ => ?_) fun _ => ?_
  · exact KeepsOut.next (by assumption)
  refine Keeps.out_ite (fun _ => ?_) fun _ => ?_
  · refine KeepsOut.next ?_
    refine State.headWord_keeps kD kS kP kX kL kA kM kY kN kK kW kF ?_
    refine State.crossed_keeps ?_
    refine Keeps.ite (fun _ => ?_) fun _ => ?_
    · exact State.slipChain_keeps kD kS kP kX kL kA kM kY kN kK kW kF (by assumption)
    assumption
  refine KeepsOut.next ?_
  refine State.memberWord_keeps kD kS kP kX kL kA kM kY kN kK kW kF ?_
  refine State.crossed_keeps ?_
  refine Keeps.ite (fun _ => ?_) fun _ => ?_
  · exact State.slipChain_keeps kD kS kP kX kL kA kM kY kN kK kW kF (by assumption)
  assumption

theorem State.reanchor_keeps {r s1 : State} {a2} (kT : k .time) (h1 : Keeps k r s1) : Keeps k r (@State.reanchor s1 a2) := by
  unfold State.reanchor
  exact State.modTime_keeps kT (by assumption)

theorem State.applyStep_keeps {r s1 : State} (kT : k .time) (h1 : Keeps k r s1) : Keeps k r (@State.applyStep s1) := by
  unfold State.applyStep
  split
  · assumption
  exact State.raise_keeps (State.bump_keeps (State.modTime_keeps kT (State.reanchor_keeps kT (by assumption))))

theorem State.ptpTake_keeps {r s1 : State} {a2 a3 a4} (kT : k .time) (h1 : Keeps k r s1) : Keeps k r (@State.ptpTake s1 a2 a3 a4).2 := by
  unfold State.ptpTake
  refine Keeps.snd_ite (fun _ => ?_) fun _ => ?_
  · exact Keeps.mkSnd (by assumption)
  refine Keeps.snd_ite (fun _ => ?_) fun _ => ?_
  · exact Keeps.mkSnd (State.bump_keeps (by assumption))
  refine Keeps.snd_ite (fun _ => ?_) fun _ => ?_
  · exact Keeps.mkSnd (by assumption)
  refine Keeps.snd_ite (fun _ => ?_) fun _ => ?_
  · exact Keeps.mkSnd (State.modTime_keeps kT (by assumption))
  exact Keeps.mkSnd (State.modTime_keeps kT (by assumption))

theorem State.ptpOther_keeps {r s1 : State} {a2 a3} (kT : k .time) (h1 : Keeps k r s1) : Keeps k r (@State.ptpOther s1 a2 a3) := by
  unfold State.ptpOther
  refine Keeps.ite (fun _ => ?_) fun _ => ?_
  · refine Keeps.ite (fun _ => ?_) fun _ => ?_
    · exact State.send_keeps (State.ptpTake_keeps kT (by assumption))
    exact State.ptpTake_keeps kT (by assumption)
  refine Keeps.ite (fun _ => ?_) fun _ => ?_
  · assumption
  exact State.bump_keeps (by assumption)

theorem State.askStep_keeps {r s1 : State} {a2} (kT : k .time) (h1 : Keeps k r s1) : Keeps k r (@State.askStep s1 a2) := by
  unfold State.askStep
  exact State.modTime_keeps kT (by assumption)

theorem State.askPhase_keeps {r s1 : State} {a2} (kT : k .time) (h1 : Keeps k r s1) : Keeps k r (@State.askPhase s1 a2) := by
  unfold State.askPhase
  refine Keeps.ite (fun _ => ?_) fun _ => ?_
  · exact State.askStep_keeps kT (by assumption)
  exact State.modTime_keeps kT (by assumption)

theorem State.beginSlew_keeps {r s1 : State} (kT : k .time) (h1 : Keeps k r s1) : Keeps k r (@State.beginSlew s1) := by
  unfold State.beginSlew
  refine Keeps.ite (fun _ => ?_) fun _ => ?_
  · assumption
  exact State.modTime_keeps kT (State.reanchor_keeps kT (by assumption))

theorem State.modPdelay_keeps {r s1 : State} {a2 a3} (kT : k .time) (h1 : Keeps k r s1) : Keeps k r (@State.modPdelay s1 a2 a3) := by
  unfold State.modPdelay
  exact State.modTime_keeps kT (by assumption)

theorem State.startBurst_keeps {r s1 : State} {a2} (kT : k .time) (h1 : Keeps k r s1) : Keeps k r (@State.startBurst s1 a2) := by
  unfold State.startBurst
  exact State.modPdelay_keeps kT (by assumption)

theorem State.setQuality_keeps {r s1 : State} {a2} (kT : k .time) (h1 : Keeps k r s1) : Keeps k r (@State.setQuality s1 a2) := by
  unfold State.setQuality
  exact State.modTime_keeps kT (by assumption)

theorem State.reroute_keeps {r s1 : State} (kT : k .time) (h1 : Keeps k r s1) : Keeps k r (@State.reroute s1) := by
  unfold State.reroute
  refine State.modTime_keeps kT ?_
  refine Keeps.each ?_ fun _ _ _ => ?_
  · exact State.setQuality_keeps kT (by assumption)
  exact State.startBurst_keeps kT (by assumption)

theorem State.clampRate_keeps {r s1 : State} {a2} (h1 : Keeps k r s1) : Keeps k r (@State.clampRate s1 a2).2 := by
  unfold State.clampRate
  refine Keeps.snd_ite (fun _ => ?_) fun _ => ?_
  · exact Keeps.mkSnd (State.bump_keeps (by assumption))
  refine Keeps.snd_ite (fun _ => ?_) fun _ => ?_
  · exact Keeps.mkSnd (State.bump_keeps (by assumption))
  exact Keeps.mkSnd (by assumption)

theorem State.rateSet_keeps {r s1 : State} {a2} (kT : k .time) (h1 : Keeps k r s1) : Keeps k r (@State.rateSet s1 a2) := by
  unfold State.rateSet
  exact State.modTime_keeps kT (State.clampRate_keeps (by assumption))

theorem State.offsetAdj_keeps {r s1 : State} {a2} (kT : k .time) (h1 : Keeps k r s1) : Keeps k r (@State.offsetAdj s1 a2) := by
  unfold State.offsetAdj
  exact State.modTime_keeps kT (State.askPhase_keeps kT (by assumption))

theorem State.timeSet_keeps {r s1 : State} {a2} (kT : k .time) (h1 : Keeps k r s1) : Keeps k r (@State.timeSet s1 a2) := by
  unfold State.timeSet
  exact State.askPhase_keeps kT (State.modTime_keeps kT (by assumption))

theorem State.transmitterQuality_keeps {r s1 : State} (kT : k .time) (h1 : Keeps k r s1) : Keeps k r (@State.transmitterQuality s1) := by
  unfold State.transmitterQuality
  refine Keeps.ite (fun _ => ?_) fun _ => ?_
  · assumption
  refine Keeps.ite (fun _ => ?_) fun _ => ?_
  · assumption
  exact State.setQuality_keeps kT (by assumption)

theorem State.hostQuality_keeps {r s1 : State} (kT : k .time) (h1 : Keeps k r s1) : Keeps k r (@State.hostQuality s1) := by
  unfold State.hostQuality
  refine Keeps.ite (fun _ => ?_) fun _ => ?_
  · exact State.setQuality_keeps kT (by assumption)
  assumption

theorem State.takeQuality_keeps {r s1 : State} (kT : k .time) (h1 : Keeps k r s1) : Keeps k r (@State.takeQuality s1) := by
  unfold State.takeQuality
  split
  · assumption
  refine Keeps.ite (fun _ => ?_) fun _ => ?_
  · exact State.modTime_keeps kT (by assumption)
  exact State.raise_keeps (State.setNat_keeps (State.modTime_keeps kT (State.modTime_keeps kT (by assumption))))

theorem State.endSlew_keeps {r s1 : State} (kT : k .time) (h1 : Keeps k r s1) : Keeps k r (@State.endSlew s1) := by
  unfold State.endSlew
  try dsimp only
  split
  · assumption
  exact State.modTime_keeps kT (State.reanchor_keeps kT (by assumption))

theorem State.takeRate_keeps {r s1 : State} {a2} (kT : k .time) (h1 : Keeps k r s1) : Keeps k r (@State.takeRate s1 a2) := by
  unfold State.takeRate
  exact State.modTime_keeps kT (State.clampRate_keeps (State.reanchor_keeps kT (by assumption)))

theorem State.timeTick_keeps {r s1 : State} (kT : k .time) (h1 : Keeps k r s1) : Keeps k r (@State.timeTick s1) := by
  unfold State.timeTick
  refine State.takeQuality_keeps kT ?_
  refine State.hostQuality_keeps kT ?_
  refine State.transmitterQuality_keeps kT ?_
  split
  · refine State.beginSlew_keeps kT ?_
    refine State.modTime_keeps kT ?_
    refine State.endSlew_keeps kT ?_
    refine Keeps.ite (fun _ => ?_) fun _ => ?_
    · refine Keeps.ite (fun _ => ?_) fun _ => ?_
      · refine State.modTime_keeps kT ?_
        split
        · exact State.takeRate_keeps kT (by assumption)
        assumption
      refine State.applyStep_keeps kT ?_
      split
      · exact State.takeRate_keeps kT (by assumption)
      assumption
    split
    · exact State.takeRate_keeps kT (by assumption)
    assumption
  refine Keeps.ite (fun _ => ?_) fun _ => ?_
  · refine Keeps.ite (fun _ => ?_) fun _ => ?_
    · refine State.modTime_keeps kT ?_
      split
      · exact State.takeRate_keeps kT (by assumption)
      assumption
    refine State.applyStep_keeps kT ?_
    split
    · exact State.takeRate_keeps kT (by assumption)
    assumption
  split
  · exact State.takeRate_keeps kT (by assumption)
  assumption

theorem State.firstCopy_keeps {r s1 : State} {a2 a3} (kT : k .time) (h1 : Keeps k r s1) : Keeps k r (@State.firstCopy s1 a2 a3).2 := by
  unfold State.firstCopy
  refine Keeps.snd_ite (fun _ => ?_) fun _ => ?_
  · exact Keeps.mkSnd (by assumption)
  exact Keeps.mkSnd (State.modTime_keeps kT (by assumption))

theorem State.startPdelay_keeps {r s1 : State} {a2} (kT : k .time) (h1 : Keeps k r s1) : Keeps k r (@State.startPdelay s1 a2) := by
  unfold State.startPdelay
  refine Keeps.each ?_ fun _ _ _ => ?_
  · exact State.modPdelay_keeps kT (by assumption)
  exact State.startBurst_keeps kT (by assumption)

theorem State.judgeSync_keeps {r s1 : State} {a2} (kT : k .time) (h1 : Keeps k r s1) : Keeps k r (@State.judgeSync s1 a2) := by
  unfold State.judgeSync
  refine Keeps.ite (fun _ => ?_) fun _ => ?_
  · refine Keeps.ite (fun _ => ?_) fun _ => ?_
    · exact State.setQuality_keeps kT (State.modTime_keeps kT (by assumption))
    exact State.modTime_keeps kT (by assumption)
  refine Keeps.ite (fun _ => ?_) fun _ => ?_
  · exact State.modTime_keeps kT (by assumption)
  refine Keeps.ite (fun _ => ?_) fun _ => ?_
  · exact State.setQuality_keeps kT (State.modTime_keeps kT (State.modTime_keeps kT (by assumption)))
  exact State.modTime_keeps kT (State.modTime_keeps kT (by assumption))

theorem State.recount_keeps {r s1 : State} (kT : k .time) (h1 : Keeps k r s1) : Keeps k r (@State.recount s1) := by
  unfold State.recount
  exact State.modTime_keeps kT (by assumption)

theorem State.loseLock_keeps {r s1 : State} (kT : k .time) (h1 : Keeps k r s1) : Keeps k r (@State.loseLock s1) := by
  unfold State.loseLock
  refine Keeps.ite (fun _ => ?_) fun _ => ?_
  · exact State.setQuality_keeps kT (by assumption)
  exact State.recount_keeps kT (by assumption)

theorem State.publishTime_keeps {r s1 : State} (h1 : Keeps k r s1) : Keeps k r (@State.publishTime s1) := by
  unfold State.publishTime
  refine State.setNat_keeps ?_
  refine State.setNat_keeps ?_
  exact State.setReg_keeps (State.setReg_keeps (State.setReg_keeps (State.setNat_keeps (State.setNat_keeps (State.setNat_keeps (State.setNat_keeps (by assumption)))))))

theorem State.pdelayDone_keeps {r s1 : State} {a2 a3 a4 a5} (kT : k .time) (h1 : Keeps k r s1) : Keeps k r (@State.pdelayDone s1 a2 a3 a4 a5) := by
  unfold State.pdelayDone
  refine Keeps.ite (fun _ => ?_) fun _ => ?_
  · exact State.setNat_keeps (State.setReg_keeps (State.modPdelay_keeps kT (by assumption)))
  exact State.modPdelay_keeps kT (by assumption)

theorem State.servoRate_keeps {r s1 : State} {a2} (h1 : Keeps k r s1) : Keeps k r (@State.servoRate s1 a2).2 := by
  unfold State.servoRate
  exact State.clampRate_keeps (Keeps.put_freeCtr (by assumption))

theorem State.ptpForward_keeps {r s1 : State} {a2 a3 a4} (h1 : Keeps k r s1) : Keeps k r (@State.ptpForward s1 a2 a3 a4) := by
  unfold State.ptpForward
  refine Keeps.ite (fun _ => ?_) fun _ => ?_
  · assumption
  refine Keeps.ite (fun _ => ?_) fun _ => ?_
  · refine Keeps.ite (fun _ => ?_) fun _ => ?_
    · exact State.send_keeps (State.bump_keeps (by assumption))
    exact State.send_keeps (State.peak_keeps (by assumption))
  exact State.send_keeps (by assumption)

theorem State.queueSample_keeps {r s1 : State} {a2 a3} (h1 : Keeps k r s1) : Keeps k r (@State.queueSample s1 a2 a3) := by
  unfold State.queueSample
  exact State.setOct_keeps (by assumption)

theorem State.selectMaster_keeps {r s1 : State} (kT : k .time) (h1 : Keeps k r s1) : Keeps k r (@State.selectMaster s1) := by
  unfold State.selectMaster
  try dsimp only
  split
  · exact State.modTime_keeps kT (State.modTime_keeps kT (by assumption))
  refine Keeps.ite (fun _ => ?_) fun _ => ?_
  · exact State.modTime_keeps kT (by assumption)
  exact State.loseLock_keeps kT (State.modTime_keeps kT (State.raise_keeps (State.setOct_keeps (State.setOct_keeps (State.modTime_keeps kT (by assumption))))))

theorem State.servo_keeps {r s1 : State} {a2} (kT : k .time) (h1 : Keeps k r s1) : Keeps k r (@State.servo s1 a2) := by
  unfold State.servo
  refine Keeps.ite (fun _ => ?_) fun _ => ?_
  · assumption
  exact State.askPhase_keeps kT (State.modTime_keeps kT (State.servoRate_keeps (by assumption)))

theorem State.useSync_keeps {r s1 : State} {a2} (kT : k .time) (h1 : Keeps k r s1) : Keeps k r (@State.useSync s1 a2) := by
  unfold State.useSync
  try dsimp only
  split
  · exact State.modTime_keeps kT (by assumption)
  refine Keeps.ite (fun _ => ?_) fun _ => ?_
  · exact State.queueSample_keeps (State.judgeSync_keeps kT (State.modTime_keeps kT (State.modTime_keeps kT (by assumption))))
  exact State.servo_keeps kT (State.judgeSync_keeps kT (State.modTime_keeps kT (State.modTime_keeps kT (by assumption))))

theorem execPpsPulse_keeps {r s1 : State} (kT : k .time) (h1 : Keeps k r s1) : KeepsOut k r (@execPpsPulse s1) := by
  unfold execPpsPulse
  refine Keeps.out_ite (fun _ => ?_) fun _ => ?_
  · exact KeepsOut.next (State.send_keeps (State.modTime_keeps kT (by assumption)))
  exact KeepsOut.next (by assumption)

theorem execTimeTrigger_keeps {r s2 : State} {a1} (kP : k .pins) (kT : k .time) (h2 : Keeps k r s2) : KeepsOut k r (@execTimeTrigger a1 s2) := by
  unfold execTimeTrigger
  refine Keeps.out_ite (fun _ => ?_) fun _ => ?_
  · refine KeepsOut.next ?_
    refine Keeps.ite (fun _ => ?_) fun _ => ?_
    · refine State.setForce_keeps ?_
      refine Keeps.ite (fun _ => ?_) fun _ => ?_
      · refine State.raise_keeps ?_
        refine Keeps.ite (fun _ => ?_) fun _ => ?_
        · refine State.evtPulse_keeps kP kT ?_
          refine State.count_keeps ?_
          refine Keeps.ite (fun _ => ?_) fun _ => ?_
          · exact State.bump_keeps (by assumption)
          assumption
        refine State.count_keeps ?_
        refine Keeps.ite (fun _ => ?_) fun _ => ?_
        · exact State.bump_keeps (by assumption)
        assumption
      refine Keeps.ite (fun _ => ?_) fun _ => ?_
      · refine State.evtPulse_keeps kP kT ?_
        refine State.count_keeps ?_
        refine Keeps.ite (fun _ => ?_) fun _ => ?_
        · exact State.bump_keeps (by assumption)
        assumption
      refine State.count_keeps ?_
      refine Keeps.ite (fun _ => ?_) fun _ => ?_
      · exact State.bump_keeps (by assumption)
      assumption
    refine State.setForce_keeps ?_
    refine Keeps.ite (fun _ => ?_) fun _ => ?_
    · refine State.raise_keeps ?_
      refine Keeps.ite (fun _ => ?_) fun _ => ?_
      · refine State.evtPulse_keeps kP kT ?_
        refine State.count_keeps ?_
        refine Keeps.ite (fun _ => ?_) fun _ => ?_
        · exact State.bump_keeps (by assumption)
        assumption
      refine State.count_keeps ?_
      refine Keeps.ite (fun _ => ?_) fun _ => ?_
      · exact State.bump_keeps (by assumption)
      assumption
    refine Keeps.ite (fun _ => ?_) fun _ => ?_
    · refine State.evtPulse_keeps kP kT ?_
      refine State.count_keeps ?_
      refine Keeps.ite (fun _ => ?_) fun _ => ?_
      · exact State.bump_keeps (by assumption)
      assumption
    refine State.count_keeps ?_
    refine Keeps.ite (fun _ => ?_) fun _ => ?_
    · exact State.bump_keeps (by assumption)
    assumption
  exact KeepsOut.next (by assumption)

theorem execStepApply_keeps {r s1 : State} (kT : k .time) (h1 : Keeps k r s1) : KeepsOut k r (@execStepApply s1) := by
  unfold execStepApply
  refine Keeps.out_ite (fun _ => ?_) fun _ => ?_
  · exact KeepsOut.next (State.applyStep_keeps kT (by assumption))
  exact KeepsOut.next (by assumption)

theorem execSlewEnd_keeps {r s1 : State} (kT : k .time) (h1 : Keeps k r s1) : KeepsOut k r (@execSlewEnd s1) := by
  unfold execSlewEnd
  split
  · refine Keeps.out_ite (fun _ => ?_) fun _ => ?_
    · exact KeepsOut.next (State.beginSlew_keeps kT (State.endSlew_keeps kT (by assumption)))
    exact KeepsOut.next (by assumption)
  exact KeepsOut.next (by assumption)

theorem execHostLockTimeout_keeps {r s1 : State} (kT : k .time) (h1 : Keeps k r s1) : KeepsOut k r (@execHostLockTimeout s1) := by
  unfold execHostLockTimeout
  refine Keeps.out_ite (fun _ => ?_) fun _ => ?_
  · exact KeepsOut.next (State.setQuality_keeps kT (by assumption))
  exact KeepsOut.next (by assumption)

theorem execPdelayFail_keeps {r s2 : State} {a1} (kT : k .time) (h2 : Keeps k r s2) : KeepsOut k r (@execPdelayFail a1 s2) := by
  unfold execPdelayFail
  refine Keeps.out_ite (fun _ => ?_) fun _ => ?_
  · exact KeepsOut.next (State.raise_keeps (State.setNat_keeps (State.modPdelay_keeps kT (by assumption))))
  exact KeepsOut.next (by assumption)

theorem execHoldoverLimit_keeps {r s1 : State} (kT : k .time) (h1 : Keeps k r s1) : KeepsOut k r (@execHoldoverLimit s1) := by
  unfold execHoldoverLimit
  split
  · refine Keeps.out_ite (fun _ => ?_) fun _ => ?_
    · exact KeepsOut.next (State.setQuality_keeps kT (by assumption))
    exact KeepsOut.next (by assumption)
  exact KeepsOut.next (by assumption)

theorem execPtpSyncTimeout_keeps {r s1 : State} (kT : k .time) (h1 : Keeps k r s1) : KeepsOut k r (@execPtpSyncTimeout s1) := by
  unfold execPtpSyncTimeout
  refine Keeps.out_ite (fun _ => ?_) fun _ => ?_
  · exact KeepsOut.next (State.loseLock_keeps kT (by assumption))
  exact KeepsOut.next (by assumption)

theorem execAnnounceReceiptTimeout_keeps {r s1 : State} (kT : k .time) (h1 : Keeps k r s1) : KeepsOut k r (@execAnnounceReceiptTimeout s1) := by
  unfold execAnnounceReceiptTimeout
  refine Keeps.out_ite (fun _ => ?_) fun _ => ?_
  · refine Keeps.out_ite (fun _ => ?_) fun _ => ?_
    · exact KeepsOut.next (State.loseLock_keeps kT (State.selectMaster_keeps kT (by assumption)))
    refine Keeps.out_ite (fun _ => ?_) fun _ => ?_
    · exact KeepsOut.next (State.loseLock_keeps kT (by assumption))
    exact KeepsOut.next (by assumption)
  exact KeepsOut.next (by assumption)

theorem execDelayReqSend_keeps {r s2 : State} {a1} (kT : k .time) (h2 : Keeps k r s2) : KeepsOut k r (@execDelayReqSend a1 s2) := by
  unfold execDelayReqSend
  split
  · exact KeepsOut.next (by assumption)
  refine Keeps.out_ite (fun _ => ?_) fun _ => ?_
  · exact KeepsOut.next (State.send_keeps (State.modTime_keeps kT (by assumption)))
  exact KeepsOut.next (by assumption)

theorem execPdelayReqSend_keeps {r s3 : State} {a1 a2} (kT : k .time) (h3 : Keeps k r s3) : KeepsOut k r (@execPdelayReqSend a1 a2 s3) := by
  unfold execPdelayReqSend
  refine Keeps.out_ite (fun _ => ?_) fun _ => ?_
  · exact KeepsOut.next (State.send_keeps (State.modPdelay_keeps kT (by assumption)))
  exact KeepsOut.next (by assumption)

theorem execAnnounceSend_keeps {r s1 : State} (kT : k .time) (h1 : Keeps k r s1) : KeepsOut k r (@execAnnounceSend s1) := by
  unfold execAnnounceSend
  refine Keeps.out_ite (fun _ => ?_) fun _ => ?_
  · refine KeepsOut.next ?_
    refine Keeps.each ?_ fun _ _ _ => ?_
    · exact State.modTime_keeps kT (by assumption)
    exact State.send_keeps (by assumption)
  exact KeepsOut.next (by assumption)

theorem execPtpSyncSend_keeps {r s1 : State} (kT : k .time) (h1 : Keeps k r s1) : KeepsOut k r (@execPtpSyncSend s1) := by
  unfold execPtpSyncSend
  refine Keeps.out_ite (fun _ => ?_) fun _ => ?_
  · refine KeepsOut.next ?_
    refine Keeps.each ?_ fun _ _ _ => ?_
    · exact State.modTime_keeps kT (State.free_keeps (by assumption))
    exact State.send_keeps (by assumption)
  exact KeepsOut.next (by assumption)

theorem execAnnounce_keeps {r s3 : State} {a1 a2} (kT : k .time) (h3 : Keeps k r s3) : KeepsOut k r (@execAnnounce a1 a2 s3) := by
  unfold execAnnounce
  refine Keeps.out_ite (fun _ => ?_) fun _ => ?_
  · exact KeepsOut.next (State.ptpTake_keeps kT (by assumption))
  refine KeepsOut.next ?_
  refine State.ptpForward_keeps ?_
  refine Keeps.ite (fun _ => ?_) fun _ => ?_
  · exact State.selectMaster_keeps kT (State.modTime_keeps kT (State.firstCopy_keeps kT (State.ptpTake_keeps kT (by assumption))))
  exact State.ptpTake_keeps kT (by assumption)

theorem execPdelayRespFollowUp_keeps {r s3 : State} {a1 a2} (kT : k .time) (h3 : Keeps k r s3) : KeepsOut k r (@execPdelayRespFollowUp a1 a2 s3) := by
  unfold execPdelayRespFollowUp
  refine Keeps.out_ite (fun _ => ?_) fun _ => ?_
  · exact KeepsOut.next (State.bump_keeps (by assumption))
  split
  · refine Keeps.out_ite (fun _ => ?_) fun _ => ?_
    · exact KeepsOut.next (State.pdelayDone_keeps kT (by assumption))
    exact KeepsOut.next (by assumption)
  exact KeepsOut.next (by assumption)

theorem execPdelayResp_keeps {r s3 : State} {a1 a2} (kT : k .time) (h3 : Keeps k r s3) : KeepsOut k r (@execPdelayResp a1 a2 s3) := by
  unfold execPdelayResp
  refine Keeps.out_ite (fun _ => ?_) fun _ => ?_
  · exact KeepsOut.next (State.bump_keeps (by assumption))
  split
  · refine Keeps.out_ite (fun _ => ?_) fun _ => ?_
    · refine Keeps.out_ite (fun _ => ?_) fun _ => ?_
      · exact KeepsOut.next (State.modPdelay_keeps kT (by assumption))
      exact KeepsOut.next (State.pdelayDone_keeps kT (by assumption))
    exact KeepsOut.next (by assumption)
  exact KeepsOut.next (by assumption)

theorem execPdelayReq_keeps {r s3 : State} {a1 a2} (h3 : Keeps k r s3) : KeepsOut k r (@execPdelayReq a1 a2 s3) := by
  unfold execPdelayReq
  refine Keeps.out_ite (fun _ => ?_) fun _ => ?_
  · exact KeepsOut.next (by assumption)
  refine Keeps.out_ite (fun _ => ?_) fun _ => ?_
  · exact KeepsOut.next (State.bump_keeps (by assumption))
  exact KeepsOut.next (State.send_keeps (State.send_keeps (by assumption)))

theorem execDelayResp_keeps {r s3 : State} {a1 a2} (kT : k .time) (h3 : Keeps k r s3) : KeepsOut k r (@execDelayResp a1 a2 s3) := by
  unfold execDelayResp
  refine Keeps.out_ite (fun _ => ?_) fun _ => ?_
  · exact KeepsOut.next (State.ptpTake_keeps kT (by assumption))
  refine KeepsOut.next ?_
  refine State.ptpForward_keeps ?_
  split
  · refine Keeps.ite (fun _ => ?_) fun _ => ?_
    · exact State.modTime_keeps kT (State.ptpTake_keeps kT (by assumption))
    exact State.ptpTake_keeps kT (by assumption)
  exact State.ptpTake_keeps kT (by assumption)

theorem execDelayReq_keeps {r s3 : State} {a1 a2} (kT : k .time) (h3 : Keeps k r s3) : KeepsOut k r (@execDelayReq a1 a2 s3) := by
  unfold execDelayReq
  refine Keeps.out_ite (fun _ => ?_) fun _ => ?_
  · exact KeepsOut.next (State.ptpTake_keeps kT (by assumption))
  refine KeepsOut.next ?_
  refine State.ptpForward_keeps ?_
  refine Keeps.ite (fun _ => ?_) fun _ => ?_
  · refine Keeps.each ?_ fun _ _ _ => ?_
    · exact State.ptpTake_keeps kT (by assumption)
    exact State.send_keeps (by assumption)
  exact State.ptpTake_keeps kT (by assumption)

theorem execFollowUp_keeps {r s3 : State} {a1 a2} (kT : k .time) (h3 : Keeps k r s3) : KeepsOut k r (@execFollowUp a1 a2 s3) := by
  unfold execFollowUp
  refine Keeps.out_ite (fun _ => ?_) fun _ => ?_
  · exact KeepsOut.next (State.ptpTake_keeps kT (by assumption))
  refine KeepsOut.next ?_
  refine State.ptpForward_keeps ?_
  split
  · refine Keeps.ite (fun _ => ?_) fun _ => ?_
    · exact State.useSync_keeps kT (State.ptpTake_keeps kT (by assumption))
    exact State.ptpTake_keeps kT (by assumption)
  exact State.ptpTake_keeps kT (by assumption)

theorem execPtpSync_keeps {r s3 : State} {a1 a2} (kT : k .time) (h3 : Keeps k r s3) : KeepsOut k r (@execPtpSync a1 a2 s3) := by
  unfold execPtpSync
  refine Keeps.out_ite (fun _ => ?_) fun _ => ?_
  · exact KeepsOut.next (State.ptpTake_keeps kT (by assumption))
  refine KeepsOut.next ?_
  refine State.ptpForward_keeps ?_
  refine Keeps.ite (fun _ => ?_) fun _ => ?_
  · refine Keeps.ite (fun _ => ?_) fun _ => ?_
    · exact State.modTime_keeps kT (State.modTime_keeps kT (State.firstCopy_keeps kT (State.bump_keeps (State.ptpTake_keeps kT (by assumption)))))
    exact State.useSync_keeps kT (State.modTime_keeps kT (State.firstCopy_keeps kT (State.bump_keeps (State.ptpTake_keeps kT (by assumption)))))
  exact State.bump_keeps (State.ptpTake_keeps kT (by assumption))

theorem State.alone_keeps {r s1 : State} (h1 : Keeps k r s1) : Keeps k r (@State.alone s1) := by
  unfold State.alone
  refine Keeps.ite (fun _ => ?_) fun _ => ?_
  · assumption
  exact State.setNat_keeps (by assumption)

theorem State.modPort_keeps {r s1 : State} {a2 a3} (kR : k .ring) (h1 : Keeps k r s1) : Keeps k r (@State.modPort s1 a2 a3) := by
  unfold State.modPort
  exact Keeps.put_ring kR (by assumption)

theorem State.sendOn_keeps {r s1 : State} {a2 a3 a4 a5} (kR : k .ring) (h1 : Keeps k r s1) : Keeps k r (@State.sendOn s1 a2 a3 a4 a5) := by
  unfold State.sendOn
  refine Keeps.ite (fun _ => ?_) fun _ => ?_
  · assumption
  refine Keeps.ite (fun _ => ?_) fun _ => ?_
  · exact State.bump_keeps (by assumption)
  exact State.send_keeps (State.modPort_keeps kR (by assumption))

theorem State.noteConsumed_keeps {r s1 : State} {a2} (kR : k .ring) (h1 : Keeps k r s1) : Keeps k r (@State.noteConsumed s1 a2) := by
  unfold State.noteConsumed
  refine Keeps.ite (fun _ => ?_) fun _ => ?_
  · exact Keeps.put_ring kR (by assumption)
  assumption

theorem State.spoilCopy_keeps {r s1 : State} {a2 a3} (h1 : Keeps k r s1) : Keeps k r (@State.spoilCopy s1 a2 a3) := by
  unfold State.spoilCopy
  refine Keeps.ite (fun _ => ?_) fun _ => ?_
  · refine Keeps.ite (fun _ => ?_) fun _ => ?_
    · exact State.send_keeps (State.free_keeps (by assumption))
    exact State.free_keeps (by assumption)
  assumption

theorem State.dropFrame_keeps {r s1 : State} (h1 : Keeps k r s1) : Keeps k r (@State.dropFrame s1) := by
  unfold State.dropFrame
  exact State.raise_keeps (State.bump_keeps (State.crossed_keeps (by assumption)))

theorem State.classify_keeps {r s1 : State} {a2 a3} (kT : k .time) (h1 : Keeps k r s1) : Keeps k r (@State.classify s1 a2 a3).2 := by
  unfold State.classify
  refine Keeps.snd_ite (fun _ => ?_) fun _ => ?_
  · exact Keeps.mkSnd (by assumption)
  refine Keeps.snd_ite (fun _ => ?_) fun _ => ?_
  · exact Keeps.mkSnd (State.dropFrame_keeps (by assumption))
  refine Keeps.snd_ite (fun _ => ?_) fun _ => ?_
  · exact Keeps.mkSnd (by assumption)
  refine Keeps.snd_ite (fun _ => ?_) fun _ => ?_
  · exact Keeps.mkSnd (State.spoilCopy_keeps (State.bump_keeps (by assumption)))
  refine Keeps.snd_ite (fun _ => ?_) fun _ => ?_
  · exact Keeps.mkSnd (State.ptpOther_keeps kT (by assumption))
  refine Keeps.snd_ite (fun _ => ?_) fun _ => ?_
  · exact Keeps.mkSnd (State.bump_keeps (by assumption))
  refine Keeps.snd_ite (fun _ => ?_) fun _ => ?_
  · exact Keeps.mkSnd (by assumption)
  refine Keeps.snd_ite (fun _ => ?_) fun _ => ?_
  · exact Keeps.mkSnd (by assumption)
  refine Keeps.snd_ite (fun _ => ?_) fun _ => ?_
  · refine Keeps.mkSnd ?_
    refine Keeps.ite (fun _ => ?_) fun _ => ?_
    · assumption
    exact State.bump_keeps (by assumption)
  refine Keeps.snd_ite (fun _ => ?_) fun _ => ?_
  · exact Keeps.mkSnd (by assumption)
  exact Keeps.mkSnd (by assumption)

theorem State.takeFrame_keeps {r s1 : State} {a2 a3} (kT : k .time) (kR : k .ring) (h1 : Keeps k r s1) : Keeps k r (@State.takeFrame s1 a2 a3).2 := by
  unfold State.takeFrame
  refine Keeps.snd_ite (fun _ => ?_) fun _ => ?_
  · exact State.classify_keeps kT (by assumption)
  refine Keeps.snd_ite (fun _ => ?_) fun _ => ?_
  · exact Keeps.mkSnd (State.bump_keeps (State.classify_keeps kT (by assumption)))
  exact Keeps.mkSnd (State.noteConsumed_keeps kR (State.classify_keeps kT (by assumption)))

theorem State.receiveFrame_keeps {r s1 : State} {a2 a3 a4} (kT : k .time) (kR : k .ring) (h1 : Keeps k r s1) : Keeps k r (@State.receiveFrame s1 a2 a3 a4).2 := by
  unfold State.receiveFrame
  refine Keeps.mkSnd ?_
  refine Keeps.ite (fun _ => ?_) fun _ => ?_
  · exact State.sendOn_keeps kR (State.takeFrame_keeps kT kR (by assumption))
  exact State.takeFrame_keeps kT kR (by assumption)

theorem State.askRate_keeps {r s1 : State} {a2} (kR : k .ring) (h1 : Keeps k r s1) : Keeps k r (@State.askRate s1 a2) := by
  unfold State.askRate
  refine Keeps.each ?_ fun _ _ _ => ?_
  · assumption
  refine Keeps.ite (fun _ => ?_) fun _ => ?_
  · exact State.modPort_keeps kR (by assumption)
  exact State.modPort_keeps kR (by assumption)

theorem State.wrap_keeps {r s1 : State} (kT : k .time) (h1 : Keeps k r s1) : Keeps k r (@State.wrap s1) := by
  unfold State.wrap
  exact State.reroute_keeps kT (State.setNat_keeps (by assumption))

theorem State.breakSeen_keeps {r s1 : State} (kT : k .time) (kR : k .ring) (h1 : Keeps k r s1) : Keeps k r (@State.breakSeen s1) := by
  unfold State.breakSeen
  exact Keeps.put_ring kR (State.wrap_keeps kT (State.raiseWith_keeps (State.bump_keeps (by assumption))))

theorem State.setPort_keeps {r s1 : State} {a2 a3} (h1 : Keeps k r s1) : Keeps k r (@State.setPort s1 a2 a3) := by
  unfold State.setPort
  refine Keeps.ite (fun _ => ?_) fun _ => ?_
  · exact State.setNat_keeps (by assumption)
  exact State.setNat_keeps (State.setNat_keeps (by assumption))

theorem State.changeRate_keeps {r s1 : State} {a2} (kR : k .ring) (h1 : Keeps k r s1) : Keeps k r (@State.changeRate s1 a2) := by
  unfold State.changeRate
  try dsimp only
  split
  · assumption
  refine Keeps.ite (fun _ => ?_) fun _ => ?_
  · exact State.modPort_keeps kR (by assumption)
  refine State.raise_keeps ?_
  exact State.alone_keeps (State.modPort_keeps kR (State.modPort_keeps kR (State.setNat_keeps (State.setPort_keeps (State.modPort_keeps kR (by assumption))))))

theorem State.sendNotify_keeps {r s1 : State} {a2} (kR : k .ring) (h1 : Keeps k r s1) : Keeps k r (@State.sendNotify s1 a2) := by
  unfold State.sendNotify
  exact State.originate_keeps kR (by assumption)

theorem State.sendUrgent_keeps {r s1 : State} {a2 a3} (kR : k .ring) (h1 : Keeps k r s1) : Keeps k r (@State.sendUrgent s1 a2 a3) := by
  unfold State.sendUrgent
  exact State.modPort_keeps kR (by assumption)

theorem State.notice_keeps {r s1 : State} {a2 a3 a4} (kR : k .ring) (h1 : Keeps k r s1) : Keeps k r (@State.notice s1 a2 a3 a4) := by
  unfold State.notice
  refine Keeps.ite (fun _ => ?_) fun _ => ?_
  · assumption
  refine State.send_keeps ?_
  refine State.ownFrame_keeps kR ?_
  refine Keeps.each ?_ fun _ _ _ => ?_
  · assumption
  exact State.sendUrgent_keeps kR (by assumption)

theorem State.endStation_keeps {r s1 : State} {a2} (kT : k .time) (kR : k .ring) (h1 : Keeps k r s1) : Keeps k r (@State.endStation s1 a2) := by
  unfold State.endStation
  refine Keeps.ite (fun _ => ?_) fun _ => ?_
  · exact State.wrap_keeps kT (Keeps.put_ring kR (State.notice_keeps kR (by assumption)))
  exact State.alone_keeps (by assumption)

theorem State.portComesUp_keeps {r s1 : State} {a2 a3} (kT : k .time) (kR : k .ring) (kF : k .faults) (h1 : Keeps k r s1) : Keeps k r (@State.portComesUp s1 a2 a3) := by
  unfold State.portComesUp
  refine Keeps.ite (fun _ => ?_) fun _ => ?_
  · refine State.recovered_keeps kF ?_
    exact State.startPdelay_keeps kT (State.raise_keeps (State.modPort_keeps kR (State.setNat_keeps (State.setPort_keeps (by assumption)))))
  refine State.setNat_keeps ?_
  refine State.recovered_keeps kF ?_
  exact State.startPdelay_keeps kT (State.raise_keeps (State.modPort_keeps kR (State.setNat_keeps (State.setPort_keeps (by assumption)))))

theorem State.judgeNeighbour_keeps {r s1 : State} {a2} (kT : k .time) (kR : k .ring) (kF : k .faults) (h1 : Keeps k r s1) : Keeps k r (@State.judgeNeighbour s1 a2) := by
  unfold State.judgeNeighbour
  split
  · refine Keeps.ite (fun _ => ?_) fun _ => ?_
    · exact State.setNat_keeps (by assumption)
    exact State.portComesUp_keeps kT kR kF (by assumption)
  refine Keeps.ite (fun _ => ?_) fun _ => ?_
  · assumption
  exact State.endStation_keeps kT kR (State.raiseRanges_keeps (State.modPort_keeps kR (State.setPort_keeps (by assumption))))

theorem State.keepRate_keeps {r s1 : State} {a2} (kR : k .ring) (h1 : Keeps k r s1) : Keeps k r (@State.keepRate s1 a2) := by
  unfold State.keepRate
  refine Keeps.ite (fun _ => ?_) fun _ => ?_
  · exact State.modPort_keeps kR (by assumption)
  assumption

theorem State.loseRingLink_keeps {r s1 : State} {a2} (kD : k .device) (kT : k .time) (kR : k .ring) (kF : k .faults) (h1 : Keeps k r s1) : Keeps k r (@State.loseRingLink s1 a2) := by
  unfold State.loseRingLink
  refine State.handFault_keeps kD kF ?_
  refine State.endStation_keeps kT kR ?_
  refine State.raise_keeps ?_
  refine State.bump_keeps ?_
  refine Keeps.ite (fun _ => ?_) fun _ => ?_
  · exact State.raise_keeps (State.setNat_keeps (State.setPort_keeps (State.modPort_keeps kR (by assumption))))
  exact State.setPort_keeps (State.modPort_keeps kR (by assumption))

theorem State.passNotice_keeps {r s1 : State} {a2 a3 a4 a5 a6} (kR : k .ring) (h1 : Keeps k r s1) : Keeps k r (@State.passNotice s1 a2 a3 a4 a5 a6) := by
  unfold State.passNotice
  refine Keeps.ite (fun _ => ?_) fun _ => ?_
  · exact State.send_keeps (State.sendUrgent_keeps kR (by assumption))
  assumption

theorem State.rateBits_keeps {r s1 : State} {a2 a3} (kR : k .ring) (h1 : Keeps k r s1) : Keeps k r (@State.rateBits s1 a2 a3) := by
  unfold State.rateBits
  refine Keeps.ite (fun _ => ?_) fun _ => ?_
  · refine State.modPort_keeps kR ?_
    refine Keeps.ite (fun _ => ?_) fun _ => ?_
    · refine Keeps.ite (fun _ => ?_) fun _ => ?_
      · exact State.modPort_keeps kR (by assumption)
      refine Keeps.ite (fun _ => ?_) fun _ => ?_
      · exact State.modPort_keeps kR (by assumption)
      assumption
    assumption
  refine Keeps.ite (fun _ => ?_) fun _ => ?_
  · refine Keeps.ite (fun _ => ?_) fun _ => ?_
    · exact State.modPort_keeps kR (by assumption)
    refine Keeps.ite (fun _ => ?_) fun _ => ?_
    · exact State.modPort_keeps kR (by assumption)
    assumption
  assumption

theorem State.startPorts_keeps {r s1 : State} (kR : k .ring) (h1 : Keeps k r s1) : Keeps k r (@State.startPorts s1) := by
  unfold State.startPorts
  refine Keeps.ite (fun _ => ?_) fun _ => ?_
  · exact Keeps.put_ring kR (by assumption)
  assumption

theorem State.returnWalk_keeps {r s1 : State} {a2 a3} (kR : k .ring) (h1 : Keeps k r s1) : Keeps k r (@State.returnWalk s1 a2 a3) := by
  unfold State.returnWalk
  exact State.originate_keeps kR (by assumption)

theorem State.supervised_keeps {r s1 : State} {a2 a3} (kT : k .time) (kR : k .ring) (kF : k .faults) (h1 : Keeps k r s1) : Keeps k r (@State.supervised s1 a2 a3) := by
  unfold State.supervised
  refine Keeps.ite (fun _ => ?_) fun _ => ?_
  · refine State.alone_keeps ?_
    refine Keeps.ite (fun _ => ?_) fun _ => ?_
    · refine Keeps.ite (fun _ => ?_) fun _ => ?_
      · exact State.modPort_keeps kR (State.setNat_keeps (State.setNat_keeps (State.setNat_keeps (State.setNat_keeps (by assumption)))))
      exact State.raise_keeps (State.modPort_keeps kR (State.setNat_keeps (State.setNat_keeps (State.setNat_keeps (State.setNat_keeps (by assumption))))))
    refine State.setPort_keeps ?_
    refine Keeps.ite (fun _ => ?_) fun _ => ?_
    · exact State.modPort_keeps kR (State.setNat_keeps (State.setNat_keeps (State.setNat_keeps (State.setNat_keeps (by assumption)))))
    exact State.raise_keeps (State.modPort_keeps kR (State.setNat_keeps (State.setNat_keeps (State.setNat_keeps (State.setNat_keeps (by assumption))))))
  refine State.rateBits_keeps kR ?_
  refine State.keepRate_keeps kR ?_
  refine Keeps.ite (fun _ => ?_) fun _ => ?_
  · refine State.judgeNeighbour_keeps kT kR kF ?_
    exact State.modPort_keeps kR (State.setNat_keeps (State.setNat_keeps (State.setNat_keeps (State.setNat_keeps (by assumption)))))
  refine Keeps.ite (fun _ => ?_) fun _ => ?_
  · refine State.judgeNeighbour_keeps kT kR kF ?_
    exact State.modPort_keeps kR (State.setNat_keeps (State.setNat_keeps (State.setNat_keeps (State.setNat_keeps (by assumption)))))
  exact State.modPort_keeps kR (State.setNat_keeps (State.setNat_keeps (State.setNat_keeps (State.setNat_keeps (by assumption)))))

theorem State.takeNumber_keeps {r s1 : State} {a2} (h1 : Keeps k r s1) : Keeps k r (@State.takeNumber s1 a2) := by
  unfold State.takeNumber
  refine Keeps.ite (fun _ => ?_) fun _ => ?_
  · assumption
  exact State.raise_keeps (State.setNat_keeps (by assumption))

theorem State.walked_keeps {r s1 : State} {a2 a3} (kR : k .ring) (h1 : Keeps k r s1) : Keeps k r (@State.walked s1 a2 a3).1 := by
  unfold State.walked
  refine Keeps.mkFst ?_
  refine Keeps.put_ring kR ?_
  refine Keeps.ite (fun _ => ?_) fun _ => ?_
  · exact State.takeNumber_keeps (by assumption)
  assumption

theorem execPcsSynchronised_keeps {r s2 : State} {a1} (kR : k .ring) (h2 : Keeps k r s2) : KeepsOut k r (@execPcsSynchronised a1 s2) := by
  unfold execPcsSynchronised
  refine Keeps.out_ite (fun _ => ?_) fun _ => ?_
  · exact KeepsOut.next (State.setPort_keeps (State.modPort_keeps kR (by assumption)))
  exact KeepsOut.next (by assumption)

theorem execRingFrameForward_keeps {r s4 : State} {a1 a2 a3} (kT : k .time) (kR : k .ring) (h4 : Keeps k r s4) : KeepsOut k r (@execRingFrameForward a1 a2 a3 s4) := by
  unfold execRingFrameForward
  exact KeepsOut.next (State.receiveFrame_keeps kT kR (by assumption))

theorem execAssign_keeps {r s5 : State} {a1 a2 a3 a4} (kT : k .time) (kR : k .ring) (h5 : Keeps k r s5) : KeepsOut k r (@execAssign a1 a2 a3 a4 s5) := by
  unfold execAssign
  refine KeepsOut.next ?_
  refine Keeps.ite (fun _ => ?_) fun _ => ?_
  · refine Keeps.ite (fun _ => ?_) fun _ => ?_
    · exact State.takeNumber_keeps (State.receiveFrame_keeps kT kR (by assumption))
    exact State.bump_keeps (State.receiveFrame_keeps kT kR (by assumption))
  exact State.receiveFrame_keeps kT kR (by assumption)

theorem execNoticeClose_keeps {r s4 : State} {a1 a2 a3} (kT : k .time) (kR : k .ring) (h4 : Keeps k r s4) : KeepsOut k r (@execNoticeClose a1 a2 a3 s4) := by
  unfold execNoticeClose
  refine KeepsOut.next ?_
  refine State.passNotice_keeps kR ?_
  refine Keeps.ite (fun _ => ?_) fun _ => ?_
  · refine Keeps.ite (fun _ => ?_) fun _ => ?_
    · refine State.reroute_keeps kT ?_
      refine Keeps.put_ring kR ?_
      refine State.setNat_keeps ?_
      refine State.raise_keeps ?_
      refine State.bump_keeps ?_
      refine Keeps.ite (fun _ => ?_) fun _ => ?_
      · exact Keeps.put_ring kR (State.takeFrame_keeps kT kR (by assumption))
      exact State.takeFrame_keeps kT kR (by assumption)
    refine Keeps.put_ring kR ?_
    refine State.setNat_keeps ?_
    refine State.raise_keeps ?_
    refine State.bump_keeps ?_
    refine Keeps.ite (fun _ => ?_) fun _ => ?_
    · exact Keeps.put_ring kR (State.takeFrame_keeps kT kR (by assumption))
    exact State.takeFrame_keeps kT kR (by assumption)
  refine Keeps.ite (fun _ => ?_) fun _ => ?_
  · exact Keeps.put_ring kR (State.takeFrame_keeps kT kR (by assumption))
  exact State.takeFrame_keeps kT kR (by assumption)

theorem execNoticeBreak_keeps {r s4 : State} {a1 a2 a3} (kT : k .time) (kR : k .ring) (h4 : Keeps k r s4) : KeepsOut k r (@execNoticeBreak a1 a2 a3 s4) := by
  unfold execNoticeBreak
  refine KeepsOut.next ?_
  refine State.passNotice_keeps kR ?_
  refine Keeps.ite (fun _ => ?_) fun _ => ?_
  · exact State.breakSeen_keeps kT kR (State.takeFrame_keeps kT kR (by assumption))
  exact State.takeFrame_keeps kT kR (by assumption)

theorem execWalk_keeps {r s4 : State} {a1 a2 a3} (kT : k .time) (kR : k .ring) (h4 : Keeps k r s4) : KeepsOut k r (@execWalk a1 a2 a3 s4) := by
  unfold execWalk
  refine Keeps.out_ite (fun _ => ?_) fun _ => ?_
  · refine KeepsOut.next ?_
    refine State.sendOn_keeps kR ?_
    refine Keeps.fst_ite (fun _ => ?_) fun _ => ?_
    · refine State.walked_keeps kR ?_
      refine Keeps.ite (fun _ => ?_) fun _ => ?_
      · exact State.setNat_keeps (State.setNat_keeps (State.takeFrame_keeps kT kR (by assumption)))
      exact State.takeFrame_keeps kT kR (by assumption)
    refine Keeps.mkFst ?_
    refine Keeps.ite (fun _ => ?_) fun _ => ?_
    · exact State.setNat_keeps (State.setNat_keeps (State.takeFrame_keeps kT kR (by assumption)))
    exact State.takeFrame_keeps kT kR (by assumption)
  refine Keeps.out_ite (fun _ => ?_) fun _ => ?_
  · refine KeepsOut.next ?_
    refine State.returnWalk_keeps kR ?_
    refine Keeps.fst_ite (fun _ => ?_) fun _ => ?_
    · refine State.walked_keeps kR ?_
      refine Keeps.ite (fun _ => ?_) fun _ => ?_
      · exact State.setNat_keeps (State.setNat_keeps (State.takeFrame_keeps kT kR (by assumption)))
      exact State.takeFrame_keeps kT kR (by assumption)
    refine Keeps.mkFst ?_
    refine Keeps.ite (fun _ => ?_) fun _ => ?_
    · exact State.setNat_keeps (State.setNat_keeps (State.takeFrame_keeps kT kR (by assumption)))
    exact State.takeFrame_keeps kT kR (by assumption)
  refine KeepsOut.next ?_
  refine Keeps.fst_ite (fun _ => ?_) fun _ => ?_
  · refine State.walked_keeps kR ?_
    refine Keeps.ite (fun _ => ?_) fun _ => ?_
    · exact State.setNat_keeps (State.setNat_keeps (State.takeFrame_keeps kT kR (by assumption)))
    exact State.takeFrame_keeps kT kR (by assumption)
  refine Keeps.mkFst ?_
  refine Keeps.ite (fun _ => ?_) fun _ => ?_
  · exact State.setNat_keeps (State.setNat_keeps (State.takeFrame_keeps kT kR (by assumption)))
  exact State.takeFrame_keeps kT kR (by assumption)

theorem execRateChangeTimeout_keeps {r s2 : State} {a1} (kD : k .device) (kT : k .time) (kR : k .ring) (kF : k .faults) (h2 : Keeps k r s2) : KeepsOut k r (@execRateChangeTimeout a1 s2) := by
  unfold execRateChangeTimeout
  refine Keeps.out_ite (fun _ => ?_) fun _ => ?_
  · exact KeepsOut.next (State.loseRingLink_keeps kD kT kR kF (by assumption))
  exact KeepsOut.next (by assumption)

theorem execCloseTimer_keeps {r s2 : State} {a1} (kR : k .ring) (h2 : Keeps k r s2) : KeepsOut k r (@execCloseTimer a1 s2) := by
  unfold execCloseTimer
  refine Keeps.out_ite (fun _ => ?_) fun _ => ?_
  · exact KeepsOut.next (State.notice_keeps kR (State.modPort_keeps kR (by assumption)))
  exact KeepsOut.next (by assumption)

theorem execLinkLost_keeps {r s2 : State} {a1} (kD : k .device) (kT : k .time) (kR : k .ring) (kF : k .faults) (h2 : Keeps k r s2) : KeepsOut k r (@execLinkLost a1 s2) := by
  unfold execLinkLost
  refine Keeps.out_ite (fun _ => ?_) fun _ => ?_
  · exact KeepsOut.next (State.loseRingLink_keeps kD kT kR kF (by assumption))
  exact KeepsOut.next (by assumption)

theorem execSupervisionSend_keeps {r s2 : State} {a1} (kR : k .ring) (h2 : Keeps k r s2) : KeepsOut k r (@execSupervisionSend a1 s2) := by
  unfold execSupervisionSend
  refine Keeps.out_ite (fun _ => ?_) fun _ => ?_
  · refine KeepsOut.next ?_
    exact State.send_keeps (State.ownFrame_keeps kR (State.sendUrgent_keeps kR (State.modPort_keeps kR (State.changeRate_keeps kR (by assumption)))))
  exact KeepsOut.next (by assumption)

theorem execSupervision_keeps {r s4 : State} {a1 a2 a3} (kT : k .time) (kR : k .ring) (kF : k .faults) (h4 : Keeps k r s4) : KeepsOut k r (@execSupervision a1 a2 a3 s4) := by
  unfold execSupervision
  refine Keeps.out_ite (fun _ => ?_) fun _ => ?_
  · exact KeepsOut.next (by assumption)
  refine Keeps.out_ite (fun _ => ?_) fun _ => ?_
  · exact KeepsOut.next (State.dropFrame_keeps (by assumption))
  refine Keeps.out_ite (fun _ => ?_) fun _ => ?_
  · exact KeepsOut.next (State.modPort_keeps kR (State.bump_keeps (by assumption)))
  refine Keeps.out_ite (fun _ => ?_) fun _ => ?_
  · exact KeepsOut.next (State.bump_keeps (by assumption))
  refine Keeps.out_ite (fun _ => ?_) fun _ => ?_
  · exact KeepsOut.next (State.modPort_keeps kR (by assumption))
  exact KeepsOut.next (State.supervised_keeps kT kR kF (by assumption))

end Sys2Proof.Machine
end

