-- ==== Sys2Proof/Laws/KeepsDevice.lean ====
section
/-! SUPPORT. What the operations of a group keep: edges, calibration, the Passport, fault rows, starts, the dictionary, rosec and the frame. One lemma for each operation, over `Keeps`. -/

namespace Sys2Proof.Machine

variable {k : Part → Prop}

theorem State.evtExt_keeps {r s1 : State} {a2 a3 a4} (kA : k .acquisition) (h1 : Keeps k r s1) : Keeps k r (@State.evtExt s1 a2 a3 a4) := by
  unfold State.evtExt
  refine Keeps.each ?_ fun _ _ _ => ?_
  · assumption
  refine Keeps.ite (fun _ => ?_) fun _ => ?_
  · exact State.setTu_keeps kA (by assumption)
  assumption

theorem State.ppsEdge_keeps {r s1 : State} {a2 a3} (kT : k .time) (h1 : Keeps k r s1) : Keeps k r (@State.ppsEdge s1 a2 a3) := by
  unfold State.ppsEdge
  refine Keeps.ite (fun _ => ?_) fun _ => ?_
  · exact State.modTime_keeps kT (State.servoRate_keeps (by assumption))
  assumption

theorem State.stamp_keeps {r s1 : State} {a2 a3 a4 a5 a6} (kP : k .pins) (kM : k .measure) (kT : k .time) (h1 : Keeps k r s1) : Keeps k r (@State.stamp s1 a2 a3 a4 a5 a6) := by
  unfold State.stamp
  refine Keeps.ite (fun _ => ?_) fun _ => ?_
  · exact State.lostEdge_keeps kM (State.raise_keeps (State.bump_keeps (by assumption)))
  refine State.captureAll_keeps kT ?_
  refine Keeps.each ?_ fun _ _ _ => ?_
  · exact State.bump_keeps (State.modPin_keeps kP (by assumption))
  exact State.measEdge_keeps kP kM (by assumption)

theorem execEvtEdge_keeps {r s4 : State} {a1 a2 a3} (kP : k .pins) (kA : k .acquisition) (kT : k .time) (h4 : Keeps k r s4) : KeepsOut k r (@execEvtEdge a1 a2 a3 s4) := by
  unfold execEvtEdge
  refine Keeps.out_ite (fun _ => ?_) fun _ => ?_
  · exact KeepsOut.next (by assumption)
  refine Keeps.out_ite (fun _ => ?_) fun _ => ?_
  · exact KeepsOut.next (State.setEvt_keeps kP (by assumption))
  refine KeepsOut.next ?_
  refine State.captureAll_keeps kT ?_
  refine Keeps.ite (fun _ => ?_) fun _ => ?_
  · refine State.ppsEdge_keeps kT ?_
    refine Keeps.ite (fun _ => ?_) fun _ => ?_
    · exact State.evtExt_keeps kA (State.setEvt_keeps kP (by assumption))
    exact State.setEvt_keeps kP (by assumption)
  refine Keeps.ite (fun _ => ?_) fun _ => ?_
  · exact State.evtExt_keeps kA (State.setEvt_keeps kP (by assumption))
  exact State.setEvt_keeps kP (by assumption)

theorem execComparatorEdge_keeps {r s6 : State} {a1 a2 a3 a4 a5} (kP : k .pins) (kM : k .measure) (kT : k .time) (h6 : Keeps k r s6) : KeepsOut k r (@execComparatorEdge a1 a2 a3 a4 a5 s6) := by
  unfold execComparatorEdge
  refine Keeps.out_ite (fun _ => ?_) fun _ => ?_
  · exact KeepsOut.next (by assumption)
  refine Keeps.out_ite (fun _ => ?_) fun _ => ?_
  · refine KeepsOut.next ?_
    refine Keeps.ite (fun _ => ?_) fun _ => ?_
    · exact State.setHeld_keeps kP (by assumption)
    exact State.setHeld_keeps kP (by assumption)
  refine KeepsOut.next ?_
  refine State.stamp_keeps kP kM kT ?_
  refine Keeps.ite (fun _ => ?_) fun _ => ?_
  · exact State.setHeld_keeps kP (by assumption)
  exact State.setHeld_keeps kP (by assumption)

theorem State.modCal_keeps {r s1 : State} {a2} (kB : k .calibration) (h1 : Keeps k r s1) : Keeps k r (@State.modCal s1 a2) := by
  unfold State.modCal
  exact Keeps.put_cal kB (by assumption)

theorem State.calCancel_keeps {r s1 : State} (kB : k .calibration) (h1 : Keeps k r s1) : Keeps k r (@State.calCancel s1) := by
  unfold State.calCancel
  refine Keeps.ite (fun _ => ?_) fun _ => ?_
  · exact State.modCal_keeps kB (by assumption)
  assumption

theorem State.setPinStates_keeps {r s1 : State} {a2} (h1 : Keeps k r s1) : Keeps k r (@State.setPinStates s1 a2) := by
  unfold State.setPinStates
  refine Keeps.each ?_ fun _ _ _ => ?_
  · assumption
  exact State.setNat_keeps (by assumption)

theorem State.endRun_keeps {r s1 : State} (kB : k .calibration) (h1 : Keeps k r s1) : Keeps k r (@State.endRun s1) := by
  unfold State.endRun
  exact State.setPinStates_keeps (State.setNat_keeps (State.modCal_keeps kB (by assumption)))

theorem State.nextDomain_keeps {r s1 : State} (kB : k .calibration) (h1 : Keeps k r s1) : Keeps k r (@State.nextDomain s1) := by
  unfold State.nextDomain
  split
  · exact State.endRun_keeps kB (by assumption)
  exact State.setNat_keeps (State.modCal_keeps kB (by assumption))

theorem State.calStart_keeps {r s1 : State} (kB : k .calibration) (h1 : Keeps k r s1) : Keeps k r (@State.calStart s1).2 := by
  unfold State.calStart
  refine Keeps.snd_ite (fun _ => ?_) fun _ => ?_
  · exact Keeps.mkSnd (by assumption)
  refine Keeps.mkSnd ?_
  exact State.setPinStates_keeps (State.nextDomain_keeps kB (State.setNat_keeps (State.setNat_keeps (State.modCal_keeps kB (by assumption)))))

theorem State.slewPin_keeps {r s1 : State} {a2} (kB : k .calibration) (h1 : Keeps k r s1) : Keeps k r (@State.slewPin s1 a2) := by
  unfold State.slewPin
  refine State.setPinStates_keeps ?_
  refine Keeps.each ?_ fun _ _ _ => ?_
  · refine Keeps.each ?_ fun _ _ _ => ?_
    · refine Keeps.each ?_ fun _ _ _ => ?_
      · assumption
      exact State.setReg_keeps (by assumption)
    exact State.setReg_keeps (by assumption)
  exact State.modCal_keeps kB (by assumption)

theorem State.takeCoefs_keeps {r s1 : State} (kB : k .calibration) (h1 : Keeps k r s1) : Keeps k r (@State.takeCoefs s1) := by
  unfold State.takeCoefs
  refine Keeps.ite (fun _ => ?_) fun _ => ?_
  · refine Keeps.each ?_ fun _ _ _ => ?_
    · assumption
    refine Keeps.ite (fun _ => ?_) fun _ => ?_
    · assumption
    exact State.modCal_keeps kB (by assumption)
  refine Keeps.each ?_ fun _ _ _ => ?_
  · refine Keeps.each ?_ fun _ _ _ => ?_
    · assumption
    refine Keeps.ite (fun _ => ?_) fun _ => ?_
    · assumption
    exact State.modCal_keeps kB (by assumption)
  refine Keeps.ite (fun _ => ?_) fun _ => ?_
  · assumption
  refine Keeps.each ?_ fun _ _ _ => ?_
  · assumption
  exact State.modCal_keeps kB (by assumption)

theorem State.judgeProvisional_keeps {r s1 : State} (kB : k .calibration) (h1 : Keeps k r s1) : Keeps k r (@State.judgeProvisional s1) := by
  unfold State.judgeProvisional
  split
  · assumption
  refine Keeps.ite (fun _ => ?_) fun _ => ?_
  · assumption
  refine Keeps.ite (fun _ => ?_) fun _ => ?_
  · exact State.setNat_keeps (State.modCal_keeps kB (by assumption))
  exact State.raise_keeps (State.setNat_keeps (State.modCal_keeps kB (by assumption)))

theorem State.calTick_keeps {r s1 : State} (kB : k .calibration) (h1 : Keeps k r s1) : Keeps k r (@State.calTick s1) := by
  unfold State.calTick
  refine State.judgeProvisional_keeps kB ?_
  refine State.takeCoefs_keeps kB ?_
  refine Keeps.each ?_ fun _ _ _ => ?_
  · refine Keeps.ite (fun _ => ?_) fun _ => ?_
    · exact State.endRun_keeps kB (by assumption)
    assumption
  exact State.slewPin_keeps kB (by assumption)

theorem State.stepDone_keeps {r s1 : State} {a2} (kB : k .calibration) (h1 : Keeps k r s1) : Keeps k r (@State.stepDone s1 a2) := by
  unfold State.stepDone
  refine State.setNat_keeps ?_
  refine State.bump_keeps ?_
  refine State.modCal_keeps kB ?_
  split
  · exact State.modCal_keeps kB (by assumption)
  refine State.modCal_keeps kB ?_
  refine Keeps.ite (fun _ => ?_) fun _ => ?_
  · exact State.raise_keeps (State.bump_keeps (by assumption))
  exact State.raise_keeps (State.bump_keeps (by assumption))

theorem State.meanOf_keeps {r s1 : State} {a2 a3} (h1 : Keeps k r s1) : Keeps k r (@State.meanOf s1 a2 a3).2 := by
  unfold State.meanOf
  refine Keeps.snd_ite (fun _ => ?_) fun _ => ?_
  · exact Keeps.mkSnd (by assumption)
  exact Keeps.mkSnd (State.free_keeps (by assumption))

theorem State.meansOf_keeps {r s1 : State} {a2 a3} (h1 : Keeps k r s1) : Keeps k r (@State.meansOf s1 a2 a3).2 := by
  induction a2 generalizing s1 a3 with
  | nil => exact h1
  | cons a l ih =>
    cases a3 with
    | nil => exact h1
    | cons b m => exact ih (State.meanOf_keeps h1)

theorem State.judgePair_keeps {r s1 : State} {a2 a3 a4} (kB : k .calibration) (h1 : Keeps k r s1) : Keeps k r (@State.judgePair s1 a2 a3 a4) := by
  unfold State.judgePair
  refine Keeps.ite (fun _ => ?_) fun _ => ?_
  · exact State.stepDone_keeps kB (State.meansOf_keeps (by assumption))
  refine Keeps.ite (fun _ => ?_) fun _ => ?_
  · exact State.setNat_keeps (State.modCal_keeps kB (State.bump_keeps (by assumption)))
  exact State.stepDone_keeps kB (by assumption)

theorem State.coeffs_keeps {r s1 : State} {a2} (kB : k .calibration) (h1 : Keeps k r s1) : Keeps k r (@State.coeffs s1 a2).2 := by
  unfold State.coeffs
  split
  · refine Keeps.snd_ite (fun _ => ?_) fun _ => ?_
    · exact Keeps.mkSnd (by assumption)
    refine Keeps.mkSnd ?_
    refine Keeps.ite (fun _ => ?_) fun _ => ?_
    · exact State.judgePair_keeps kB (State.modCal_keeps kB (by assumption))
    exact State.modCal_keeps kB (by assumption)
  refine Keeps.snd_ite (fun _ => ?_) fun _ => ?_
  · exact Keeps.mkSnd (by assumption)
  exact Keeps.mkSnd (by assumption)

theorem State.judgeTemp_keeps {r s1 : State} (h1 : Keeps k r s1) : Keeps k r (@State.judgeTemp s1) := by
  unfold State.judgeTemp
  refine Keeps.ite (fun _ => ?_) fun _ => ?_
  · exact State.raise_keeps (State.setNat_keeps (by assumption))
  refine Keeps.ite (fun _ => ?_) fun _ => ?_
  · assumption
  exact State.setNat_keeps (by assumption)

theorem State.rehash_keeps {r s1 : State} (h1 : Keeps k r s1) : Keeps k r (@State.rehash s1) := by
  unfold State.rehash
  exact State.setOct_keeps (by assumption)

theorem State.useBlob_keeps {r s1 : State} {a2} (kB : k .calibration) (h1 : Keeps k r s1) : Keeps k r (@State.useBlob s1 a2) := by
  unfold State.useBlob
  refine State.rehash_keeps ?_
  refine Keeps.each ?_ fun _ _ _ => ?_
  · refine Keeps.each ?_ fun _ _ _ => ?_
    · refine Keeps.each ?_ fun _ _ _ => ?_
      · assumption
      refine Keeps.each ?_ fun _ _ _ => ?_
      · refine State.setNat_keeps ?_
        refine State.setReg_keeps ?_
        refine State.setReg_keeps ?_
        refine Keeps.each ?_ fun _ _ _ => ?_
        · refine State.setOct_keeps ?_
          refine Keeps.each ?_ fun _ _ _ => ?_
          · refine Keeps.each ?_ fun _ _ _ => ?_
            · assumption
            exact State.modCal_keeps kB (State.setReg_keeps (State.setReg_keeps (by assumption)))
          exact State.setReg_keeps (State.setReg_keeps (by assumption))
        exact State.modCal_keeps kB (by assumption)
      exact State.setNat_keeps (by assumption)
    refine Keeps.each ?_ fun _ _ _ => ?_
    · assumption
    exact State.modCal_keeps kB (by assumption)
  exact State.setNat_keeps (by assumption)

theorem State.freeIn_keeps {r s1 : State} {a2 a3} (h1 : Keeps k r s1) : Keeps k r (@State.freeIn s1 a2 a3).2 := by
  unfold State.freeIn
  exact Keeps.mkSnd (State.free_keeps (by assumption))

theorem State.setTaps_keeps {r s1 : State} {a2 a3} (h1 : Keeps k r s1) : Keeps k r (@State.setTaps s1 a2 a3) := by
  unfold State.setTaps
  exact State.setOct_keeps (by assumption)

theorem State.setTargets_keeps {r s1 : State} {a2 a3} (h1 : Keeps k r s1) : Keeps k r (@State.setTargets s1 a2 a3) := by
  unfold State.setTargets
  refine Keeps.each ?_ fun _ _ _ => ?_
  · assumption
  exact State.setReg_keeps (by assumption)

theorem State.freeList_keeps {α : Type} {r s4 : State} {a1 : List α} {a2 a3} (h4 : Keeps k r s4) : Keeps k r (@State.freeList _ a1 a2 a3 s4).2 := by
  unfold State.freeList
  exact Keeps.foldlSnd h4 fun _ _ h => State.freeIn_keeps (a2 := a2) (a3 := a3) h

theorem State.freePin_keeps {r s1 : State} {a2} (kB : k .calibration) (h1 : Keeps k r s1) : Keeps k r (@State.freePin s1 a2) := by
  unfold State.freePin
  refine State.setReg_keeps ?_
  refine State.setNat_keeps ?_
  refine State.setNat_keeps ?_
  refine State.setNat_keeps ?_
  refine State.modCal_keeps kB ?_
  refine State.setTaps_keeps ?_
  refine Keeps.each ?_ fun _ _ _ => ?_
  · refine Keeps.each ?_ fun _ _ _ => ?_
    · refine State.setTargets_keeps ?_
      exact State.freeIn_keeps (State.freeIn_keeps (State.freeList_keeps (State.freeList_keeps (State.freeList_keeps (State.freeIn_keeps (by assumption))))))
    exact State.modCal_keeps kB (State.setReg_keeps (by assumption))
  exact State.setReg_keeps (State.setReg_keeps (by assumption))

theorem State.selfCalibrate_keeps {r s1 : State} (kB : k .calibration) (h1 : Keeps k r s1) : Keeps k r (@State.selfCalibrate s1) := by
  unfold State.selfCalibrate
  refine State.judgeTemp_keeps ?_
  refine State.rehash_keeps ?_
  refine State.setNat_keeps ?_
  refine Keeps.each ?_ fun _ _ _ => ?_
  · refine Keeps.each ?_ fun _ _ _ => ?_
    · refine Keeps.each ?_ fun _ _ _ => ?_
      · assumption
      exact State.freePin_keeps kB (by assumption)
    exact State.modCal_keeps kB (State.freeIn_keeps (State.freeIn_keeps (State.freeIn_keeps (by assumption))))
  refine Keeps.ite (fun _ => ?_) fun _ => ?_
  · exact State.raise_keeps (State.bump_keeps (State.setNat_keeps (State.setNat_keeps (State.bump_keeps (by assumption)))))
  refine Keeps.each ?_ fun _ _ _ => ?_
  · exact State.raise_keeps (State.bump_keeps (State.setNat_keeps (State.setNat_keeps (State.bump_keeps (by assumption)))))
  exact State.raise_keeps (by assumption)

theorem State.coldCalibrate_keeps {r s1 : State} (kB : k .calibration) (h1 : Keeps k r s1) : Keeps k r (@State.coldCalibrate s1) := by
  unfold State.coldCalibrate
  split
  · exact State.selfCalibrate_keeps kB (by assumption)
  refine Keeps.ite (fun _ => ?_) fun _ => ?_
  · exact State.selfCalibrate_keeps kB (State.raise_keeps (State.setNat_keeps (State.modCal_keeps kB (by assumption))))
  refine Keeps.ite (fun _ => ?_) fun _ => ?_
  · exact State.selfCalibrate_keeps kB (State.raise_keeps (State.setNat_keeps (State.modCal_keeps kB (by assumption))))
  refine State.judgeTemp_keeps ?_
  refine Keeps.ite (fun _ => ?_) fun _ => ?_
  · exact State.setNat_keeps (State.setNat_keeps (State.raise_keeps (State.useBlob_keeps kB (State.modCal_keeps kB (by assumption)))))
  refine State.modCal_keeps kB ?_
  exact State.setNat_keeps (State.setNat_keeps (State.raise_keeps (State.useBlob_keeps kB (State.modCal_keeps kB (by assumption)))))

theorem State.setExt_keeps {r s1 : State} {a2 a3 a4} (h1 : Keeps k r s1) : Keeps k r (@State.setExt s1 a2 a3 a4) := by
  unfold State.setExt
  exact State.setPinStates_keeps (State.setTargets_keeps (State.setReg_keeps (by assumption)))

theorem State.importBlob_keeps {r s1 : State} {a2} (kB : k .calibration) (h1 : Keeps k r s1) : Keeps k r (@State.importBlob s1 a2).2 := by
  unfold State.importBlob
  split
  · exact Keeps.mkSnd (by assumption)
  refine Keeps.mkSnd ?_
  refine State.rehash_keeps ?_
  refine State.modCal_keeps kB ?_
  refine Keeps.each ?_ fun _ _ _ => ?_
  · assumption
  exact State.setNat_keeps (State.setNat_keeps (by assumption))

theorem State.pinLimit_keeps {r s1 : State} {a2 a3} (h1 : Keeps k r s1) : Keeps k r (@State.pinLimit s1 a2 a3) := by
  unfold State.pinLimit
  refine Keeps.each ?_ fun _ _ _ => ?_
  · assumption
  exact State.raise_keeps (State.raise_keeps (by assumption))

theorem State.commitClock_keeps {r s1 : State} {a2 a3} (kB : k .calibration) (h1 : Keeps k r s1) : Keeps k r (@State.commitClock s1 a2 a3).1 := by
  unfold State.commitClock
  refine Keeps.foldlFst ?_ fun _ _ _ => ?_
  · exact Keeps.mkFst (by assumption)
  refine Keeps.fst_ite (fun _ => ?_) fun _ => ?_
  · exact Keeps.mkFst (State.pinLimit_keeps (by assumption))
  exact Keeps.mkFst (State.modCal_keeps kB (by assumption))

theorem State.commitLevels_keeps {r s1 : State} {a2 a3} (h1 : Keeps k r s1) : Keeps k r (@State.commitLevels s1 a2 a3).1 := by
  unfold State.commitLevels
  refine Keeps.mkFst ?_
  refine State.pinLimit_keeps ?_
  refine State.setNat_keeps ?_
  refine Keeps.foldlFst ?_ fun _ _ _ => ?_
  · exact Keeps.mkFst (by assumption)
  refine Keeps.fst_ite (fun _ => ?_) fun _ => ?_
  · exact Keeps.mkFst (State.setReg_keeps (by assumption))
  exact Keeps.mkFst (by assumption)

theorem State.commitTdc_keeps {r s1 : State} {a2 a3} (h1 : Keeps k r s1) : Keeps k r (@State.commitTdc s1 a2 a3).1 := by
  unfold State.commitTdc
  exact Keeps.mkFst (State.pinLimit_keeps (State.setNat_keeps (State.setTaps_keeps (by assumption))))

theorem State.commitTiming_keeps {r s1 : State} {a2 a3} (kB : k .calibration) (h1 : Keeps k r s1) : Keeps k r (@State.commitTiming s1 a2 a3).1 := by
  unfold State.commitTiming
  refine Keeps.mkFst ?_
  refine State.pinLimit_keeps ?_
  exact State.setNat_keeps (State.setReg_keeps (State.setReg_keeps (State.setNat_keeps (State.setTargets_keeps (State.modCal_keeps kB (by assumption))))))

theorem State.commitVernier_keeps {r s1 : State} {a2 a3} (kB : k .calibration) (h1 : Keeps k r s1) : Keeps k r (@State.commitVernier s1 a2 a3).1 := by
  unfold State.commitVernier
  refine Keeps.foldlFst ?_ fun _ _ _ => ?_
  · exact Keeps.mkFst (by assumption)
  refine Keeps.fst_ite (fun _ => ?_) fun _ => ?_
  · exact Keeps.mkFst (State.raise_keeps (by assumption))
  exact Keeps.mkFst (State.modCal_keeps kB (by assumption))

theorem State.commitUnit_keeps {r s1 : State} {a2 a3 a4} (kB : k .calibration) (h1 : Keeps k r s1) : Keeps k r (@State.commitUnit s1 a2 a3 a4).1 := by
  unfold State.commitUnit
  split
  · exact State.commitTiming_keeps kB (by assumption)
  · exact State.commitLevels_keeps (by assumption)
  · exact State.commitTdc_keeps (by assumption)
  · exact State.commitVernier_keeps kB (by assumption)
  exact State.commitClock_keeps kB (by assumption)

theorem State.driftTaken_keeps {r s1 : State} {a2} (kB : k .calibration) (h1 : Keeps k r s1) : Keeps k r (@State.driftTaken s1 a2) := by
  unfold State.driftTaken
  exact State.modCal_keeps kB (by assumption)

theorem State.exportBlob_keeps {r s1 : State} (h1 : Keeps k r s1) : Keeps k r (@State.exportBlob s1).2 := by
  unfold State.exportBlob
  exact Keeps.mkSnd (State.setNat_keeps (State.bump_keeps (State.free_keeps (by assumption))))

theorem State.judgeHeat_keeps {r s1 : State} {a2 a3} (kD : k .device) (kS : k .sites) (kH : k .thermal) (kF : k .faults) (h1 : Keeps k r s1) : Keeps k r (@State.judgeHeat s1 a2 a3) := by
  unfold State.judgeHeat
  refine Keeps.ite (fun _ => ?_) fun _ => ?_
  · refine State.handFault_keeps kD kF ?_
    refine Keeps.ite (fun _ => ?_) fun _ => ?_
    · refine State.raise_keeps ?_
      refine Keeps.put_therm kH ?_
      refine Keeps.ite (fun _ => ?_) fun _ => ?_
      · refine State.raise_keeps ?_
        refine Keeps.ite (fun _ => ?_) fun _ => ?_
        · refine State.taintLive_keeps kS ?_
          refine Keeps.ite (fun _ => ?_) fun _ => ?_
          · refine State.raise_keeps ?_
            refine Keeps.ite (fun _ => ?_) fun _ => ?_
            · exact State.raise_keeps (by assumption)
            assumption
          refine Keeps.ite (fun _ => ?_) fun _ => ?_
          · exact State.raise_keeps (by assumption)
          assumption
        refine Keeps.ite (fun _ => ?_) fun _ => ?_
        · refine State.raise_keeps ?_
          refine Keeps.ite (fun _ => ?_) fun _ => ?_
          · exact State.raise_keeps (by assumption)
          assumption
        refine Keeps.ite (fun _ => ?_) fun _ => ?_
        · exact State.raise_keeps (by assumption)
        assumption
      refine Keeps.ite (fun _ => ?_) fun _ => ?_
      · refine State.taintLive_keeps kS ?_
        refine Keeps.ite (fun _ => ?_) fun _ => ?_
        · refine State.raise_keeps ?_
          refine Keeps.ite (fun _ => ?_) fun _ => ?_
          · exact State.raise_keeps (by assumption)
          assumption
        refine Keeps.ite (fun _ => ?_) fun _ => ?_
        · exact State.raise_keeps (by assumption)
        assumption
      refine Keeps.ite (fun _ => ?_) fun _ => ?_
      · refine State.raise_keeps ?_
        refine Keeps.ite (fun _ => ?_) fun _ => ?_
        · exact State.raise_keeps (by assumption)
        assumption
      refine Keeps.ite (fun _ => ?_) fun _ => ?_
      · exact State.raise_keeps (by assumption)
      assumption
    refine Keeps.put_therm kH ?_
    refine Keeps.ite (fun _ => ?_) fun _ => ?_
    · refine State.raise_keeps ?_
      refine Keeps.ite (fun _ => ?_) fun _ => ?_
      · refine State.taintLive_keeps kS ?_
        refine Keeps.ite (fun _ => ?_) fun _ => ?_
        · refine State.raise_keeps ?_
          refine Keeps.ite (fun _ => ?_) fun _ => ?_
          · exact State.raise_keeps (by assumption)
          assumption
        refine Keeps.ite (fun _ => ?_) fun _ => ?_
        · exact State.raise_keeps (by assumption)
        assumption
      refine Keeps.ite (fun _ => ?_) fun _ => ?_
      · refine State.raise_keeps ?_
        refine Keeps.ite (fun _ => ?_) fun _ => ?_
        · exact State.raise_keeps (by assumption)
        assumption
      refine Keeps.ite (fun _ => ?_) fun _ => ?_
      · exact State.raise_keeps (by assumption)
      assumption
    refine Keeps.ite (fun _ => ?_) fun _ => ?_
    · refine State.taintLive_keeps kS ?_
      refine Keeps.ite (fun _ => ?_) fun _ => ?_
      · refine State.raise_keeps ?_
        refine Keeps.ite (fun _ => ?_) fun _ => ?_
        · exact State.raise_keeps (by assumption)
        assumption
      refine Keeps.ite (fun _ => ?_) fun _ => ?_
      · exact State.raise_keeps (by assumption)
      assumption
    refine Keeps.ite (fun _ => ?_) fun _ => ?_
    · refine State.raise_keeps ?_
      refine Keeps.ite (fun _ => ?_) fun _ => ?_
      · exact State.raise_keeps (by assumption)
      assumption
    refine Keeps.ite (fun _ => ?_) fun _ => ?_
    · exact State.raise_keeps (by assumption)
    assumption
  refine Keeps.ite (fun _ => ?_) fun _ => ?_
  · refine State.raise_keeps ?_
    refine Keeps.put_therm kH ?_
    refine Keeps.ite (fun _ => ?_) fun _ => ?_
    · refine State.raise_keeps ?_
      refine Keeps.ite (fun _ => ?_) fun _ => ?_
      · refine State.taintLive_keeps kS ?_
        refine Keeps.ite (fun _ => ?_) fun _ => ?_
        · refine State.raise_keeps ?_
          refine Keeps.ite (fun _ => ?_) fun _ => ?_
          · exact State.raise_keeps (by assumption)
          assumption
        refine Keeps.ite (fun _ => ?_) fun _ => ?_
        · exact State.raise_keeps (by assumption)
        assumption
      refine Keeps.ite (fun _ => ?_) fun _ => ?_
      · refine State.raise_keeps ?_
        refine Keeps.ite (fun _ => ?_) fun _ => ?_
        · exact State.raise_keeps (by assumption)
        assumption
      refine Keeps.ite (fun _ => ?_) fun _ => ?_
      · exact State.raise_keeps (by assumption)
      assumption
    refine Keeps.ite (fun _ => ?_) fun _ => ?_
    · refine State.taintLive_keeps kS ?_
      refine Keeps.ite (fun _ => ?_) fun _ => ?_
      · refine State.raise_keeps ?_
        refine Keeps.ite (fun _ => ?_) fun _ => ?_
        · exact State.raise_keeps (by assumption)
        assumption
      refine Keeps.ite (fun _ => ?_) fun _ => ?_
      · exact State.raise_keeps (by assumption)
      assumption
    refine Keeps.ite (fun _ => ?_) fun _ => ?_
    · refine State.raise_keeps ?_
      refine Keeps.ite (fun _ => ?_) fun _ => ?_
      · exact State.raise_keeps (by assumption)
      assumption
    refine Keeps.ite (fun _ => ?_) fun _ => ?_
    · exact State.raise_keeps (by assumption)
    assumption
  refine Keeps.put_therm kH ?_
  refine Keeps.ite (fun _ => ?_) fun _ => ?_
  · refine State.raise_keeps ?_
    refine Keeps.ite (fun _ => ?_) fun _ => ?_
    · refine State.taintLive_keeps kS ?_
      refine Keeps.ite (fun _ => ?_) fun _ => ?_
      · refine State.raise_keeps ?_
        refine Keeps.ite (fun _ => ?_) fun _ => ?_
        · exact State.raise_keeps (by assumption)
        assumption
      refine Keeps.ite (fun _ => ?_) fun _ => ?_
      · exact State.raise_keeps (by assumption)
      assumption
    refine Keeps.ite (fun _ => ?_) fun _ => ?_
    · refine State.raise_keeps ?_
      refine Keeps.ite (fun _ => ?_) fun _ => ?_
      · exact State.raise_keeps (by assumption)
      assumption
    refine Keeps.ite (fun _ => ?_) fun _ => ?_
    · exact State.raise_keeps (by assumption)
    assumption
  refine Keeps.ite (fun _ => ?_) fun _ => ?_
  · refine State.taintLive_keeps kS ?_
    refine Keeps.ite (fun _ => ?_) fun _ => ?_
    · refine State.raise_keeps ?_
      refine Keeps.ite (fun _ => ?_) fun _ => ?_
      · exact State.raise_keeps (by assumption)
      assumption
    refine Keeps.ite (fun _ => ?_) fun _ => ?_
    · exact State.raise_keeps (by assumption)
    assumption
  refine Keeps.ite (fun _ => ?_) fun _ => ?_
  · refine State.raise_keeps ?_
    refine Keeps.ite (fun _ => ?_) fun _ => ?_
    · exact State.raise_keeps (by assumption)
    assumption
  refine Keeps.ite (fun _ => ?_) fun _ => ?_
  · exact State.raise_keeps (by assumption)
  assumption

theorem State.judgeMargin_keeps {r s1 : State} (kB : k .calibration) (h1 : Keeps k r s1) : Keeps k r (@State.judgeMargin s1) := by
  unfold State.judgeMargin
  refine Keeps.ite (fun _ => ?_) fun _ => ?_
  · exact State.raise_keeps (State.modCal_keeps kB (State.modCal_keeps kB (State.setNat_keeps (State.free_keeps (by assumption)))))
  exact State.modCal_keeps kB (State.setNat_keeps (State.free_keeps (by assumption)))

theorem State.retarget_keeps {r s1 : State} {a2 a3} (h1 : Keeps k r s1) : Keeps k r (@State.retarget s1 a2 a3) := by
  unfold State.retarget
  exact State.setPinStates_keeps (State.pinLimit_keeps (State.setTargets_keeps (by assumption)))

theorem State.takeMean_keeps {r s1 : State} {a2} (kH : k .thermal) (h1 : Keeps k r s1) : Keeps k r (@State.takeMean s1 a2) := by
  unfold State.takeMean
  refine State.setReg_keeps ?_
  refine Keeps.put_therm kH ?_
  refine Keeps.snd_ite (fun _ => ?_) fun _ => ?_
  · refine Keeps.mkSnd ?_
    refine Keeps.snd_ite (fun _ => ?_) fun _ => ?_
    · exact Keeps.mkSnd (by assumption)
    exact Keeps.mkSnd (State.free_keeps (by assumption))
  refine Keeps.mkSnd ?_
  refine State.free_keeps ?_
  refine Keeps.snd_ite (fun _ => ?_) fun _ => ?_
  · exact Keeps.mkSnd (by assumption)
  exact Keeps.mkSnd (State.free_keeps (by assumption))

theorem State.timingWhole_keeps {r s1 : State} {a2 a3} (kB : k .calibration) (h1 : Keeps k r s1) : Keeps k r (@State.timingWhole s1 a2 a3) := by
  unfold State.timingWhole
  refine Keeps.ite (fun _ => ?_) fun _ => ?_
  · exact State.modCal_keeps kB (State.setNat_keeps (by assumption))
  assumption

theorem execThermNChange_keeps {r s2 : State} {a1} (kH : k .thermal) (h2 : Keeps k r s2) : KeepsOut k r (@execThermNChange a1 s2) := by
  unfold execThermNChange
  refine Keeps.out_ite (fun _ => ?_) fun _ => ?_
  · exact KeepsOut.next (by assumption)
  exact KeepsOut.next (State.send_keeps (Keeps.put_therm kH (by assumption)))

theorem execTempRead_keeps {r s2 : State} {a1} (kD : k .device) (kS : k .sites) (kH : k .thermal) (kF : k .faults) (h2 : Keeps k r s2) : KeepsOut k r (@execTempRead a1 s2) := by
  unfold execTempRead
  split
  · refine Keeps.out_ite (fun _ => ?_) fun _ => ?_
    · exact KeepsOut.next (by assumption)
    exact KeepsOut.next (State.judgeTemp_keeps (State.judgeHeat_keeps kD kS kH kF (State.takeMean_keeps kH (by assumption))))
  exact KeepsOut.next (by assumption)

theorem execAgeingRead_keeps {r s2 : State} {a1} (kB : k .calibration) (h2 : Keeps k r s2) : KeepsOut k r (@execAgeingRead a1 s2) := by
  unfold execAgeingRead
  refine Keeps.out_ite (fun _ => ?_) fun _ => ?_
  · exact KeepsOut.next (by assumption)
  refine KeepsOut.next ?_
  refine State.judgeMargin_keeps kB ?_
  refine State.setReg_keeps ?_
  refine Keeps.each ?_ fun _ _ _ => ?_
  · assumption
  exact State.setReg_keeps (by assumption)

theorem execCalHostTimeout_keeps {r s1 : State} (kB : k .calibration) (h1 : Keeps k r s1) : KeepsOut k r (@execCalHostTimeout s1) := by
  unfold execCalHostTimeout
  split
  · refine Keeps.out_ite (fun _ => ?_) fun _ => ?_
    · exact KeepsOut.next (State.raise_keeps (State.endRun_keeps kB (State.setNat_keeps (by assumption))))
    exact KeepsOut.next (by assumption)
  exact KeepsOut.next (by assumption)

theorem execDriftMeasurement_keeps {r s4 : State} {a1 a2 a3} (kB : k .calibration) (h4 : Keeps k r s4) : KeepsOut k r (@execDriftMeasurement a1 a2 a3 s4) := by
  unfold execDriftMeasurement
  try dsimp only
  split
  · refine Keeps.out_ite (fun _ => ?_) fun _ => ?_
    · exact KeepsOut.next (by assumption)
    refine Keeps.out_ite (fun _ => ?_) fun _ => ?_
    · exact KeepsOut.next (State.bump_keeps (State.driftTaken_keeps kB (by assumption)))
    refine KeepsOut.next ?_
    refine State.bump_keeps ?_
    refine State.retarget_keeps ?_
    refine Keeps.ite (fun _ => ?_) fun _ => ?_
    · exact State.raise_keeps (State.raise_keeps (State.setNat_keeps (State.setReg_keeps (State.meanOf_keeps (State.driftTaken_keeps kB (by assumption))))))
    exact State.setReg_keeps (State.meanOf_keeps (State.driftTaken_keeps kB (by assumption)))
  exact KeepsOut.next (by assumption)

theorem execCalDomainCommit_keeps {r s1 : State} (kB : k .calibration) (h1 : Keeps k r s1) : KeepsOut k r (@execCalDomainCommit s1) := by
  unfold execCalDomainCommit
  split
  · exact KeepsOut.next (by assumption)
  refine Keeps.out_ite (fun _ => ?_) fun _ => ?_
  · exact KeepsOut.next (by assumption)
  refine KeepsOut.next ?_
  refine State.nextDomain_keeps kB ?_
  refine State.judgeTemp_keeps ?_
  refine State.timingWhole_keeps kB ?_
  refine Keeps.ite (fun _ => ?_) fun _ => ?_
  · refine State.raise_keeps ?_
    refine State.bump_keeps ?_
    refine State.rehash_keeps ?_
    refine State.setNat_keeps ?_
    refine State.setNat_keeps ?_
    refine State.bump_keeps ?_
    refine Keeps.foldlFst ?_ fun _ _ _ => ?_
    · exact Keeps.mkFst (by assumption)
    exact Keeps.mkFst (State.commitUnit_keeps kB (by assumption))
  refine Keeps.each ?_ fun _ _ _ => ?_
  · refine State.raise_keeps ?_
    refine State.bump_keeps ?_
    refine State.rehash_keeps ?_
    refine State.setNat_keeps ?_
    refine State.setNat_keeps ?_
    refine State.bump_keeps ?_
    refine Keeps.foldlFst ?_ fun _ _ _ => ?_
    · exact Keeps.mkFst (by assumption)
    exact Keeps.mkFst (State.commitUnit_keeps kB (by assumption))
  exact State.raise_keeps (by assumption)

theorem execCalStepDone_keeps {r s3 : State} {a1 a2} (kB : k .calibration) (h3 : Keeps k r s3) : KeepsOut k r (@execCalStepDone a1 a2 s3) := by
  unfold execCalStepDone
  split
  · exact KeepsOut.next (by assumption)
  refine Keeps.out_ite (fun _ => ?_) fun _ => ?_
  · exact KeepsOut.next (by assumption)
  refine Keeps.out_ite (fun _ => ?_) fun _ => ?_
  · exact KeepsOut.next (State.setNat_keeps (State.modCal_keeps kB (State.setOct_keeps (by assumption))))
  exact KeepsOut.next (State.judgePair_keeps kB (by assumption))

theorem State.modPass_keeps {r s1 : State} {a2} (kV : k .passport) (h1 : Keeps k r s1) : Keeps k r (@State.modPass s1 a2) := by
  unfold State.modPass
  exact Keeps.put_pass kV (by assumption)

theorem State.ackBatch_keeps {r s1 : State} {a2} (kV : k .passport) (h1 : Keeps k r s1) : Keeps k r (@State.ackBatch s1 a2) := by
  unfold State.ackBatch
  refine Keeps.ite (fun _ => ?_) fun _ => ?_
  · exact State.modPass_keeps kV (by assumption)
  assumption

theorem State.advanceEpoch_keeps {r s1 : State} (h1 : Keeps k r s1) : Keeps k r (@State.advanceEpoch s1) := by
  unfold State.advanceEpoch
  exact State.setNat_keeps (by assumption)

theorem State.relinkBatches_keeps {r s1 : State} (kV : k .passport) (kK : k .link) (h1 : Keeps k r s1) : Keeps k r (@State.relinkBatches s1) := by
  unfold State.relinkBatches
  refine Keeps.each ?_ fun _ _ _ => ?_
  · assumption
  exact State.linkBatch_keeps kV kK (by assumption)

theorem State.closeBatch_keeps {r s1 : State} (kV : k .passport) (h1 : Keeps k r s1) : Keeps k r (@State.closeBatch s1) := by
  unfold State.closeBatch
  exact State.modPass_keeps kV (by assumption)

theorem State.windowAbandon_keeps {r s1 : State} {a2} (kV : k .passport) (h1 : Keeps k r s1) : Keeps k r (@State.windowAbandon s1 a2).2 := by
  unfold State.windowAbandon
  refine Keeps.snd_ite (fun _ => ?_) fun _ => ?_
  · exact Keeps.mkSnd (by assumption)
  exact Keeps.mkSnd (State.modPass_keeps kV (State.setNat_keeps (by assumption)))

theorem State.windowFree_keeps {r s1 : State} {a2} (h1 : Keeps k r s1) : Keeps k r (@State.windowFree s1 a2).2 := by
  unfold State.windowFree
  refine Keeps.snd_ite (fun _ => ?_) fun _ => ?_
  · exact Keeps.mkSnd (by assumption)
  exact Keeps.mkSnd (State.setNat_keeps (by assumption))

theorem State.windowOpen_keeps {r s1 : State} {a2} (kV : k .passport) (h1 : Keeps k r s1) : Keeps k r (@State.windowOpen s1 a2).2 := by
  unfold State.windowOpen
  refine Keeps.snd_ite (fun _ => ?_) fun _ => ?_
  · exact Keeps.mkSnd (by assumption)
  refine Keeps.snd_ite (fun _ => ?_) fun _ => ?_
  · exact Keeps.mkSnd (by assumption)
  exact Keeps.mkSnd (State.modPass_keeps kV (State.setNat_keeps (State.setNat_keeps (by assumption))))

theorem State.deriveKeys_keeps {r s1 : State} {a2} (kV : k .passport) (h1 : Keeps k r s1) : Keeps k r (@State.deriveKeys s1 a2) := by
  unfold State.deriveKeys
  refine State.modPass_keeps kV ?_
  refine State.setNat_keeps ?_
  refine State.setOct_keeps ?_
  refine State.setOct_keeps ?_
  refine State.setNat_keeps ?_
  refine State.setNat_keeps ?_
  refine Keeps.each ?_ fun _ _ _ => ?_
  · assumption
  exact State.raise_keeps (by assumption)

theorem State.refillPool_keeps {r s1 : State} (kV : k .passport) (h1 : Keeps k r s1) : Keeps k r (@State.refillPool s1) := by
  unfold State.refillPool
  refine Keeps.ite (fun _ => ?_) fun _ => ?_
  · exact State.modPass_keeps kV (State.setNat_keeps (by assumption))
  assumption

theorem State.pushVerdicts_keeps {r s1 : State} (kR : k .ring) (kV : k .passport) (kK : k .link) (h1 : Keeps k r s1) : Keeps k r (@State.pushVerdicts s1) := by
  unfold State.pushVerdicts
  refine Keeps.ite (fun _ => ?_) fun _ => ?_
  · refine State.flushFrom_keeps kK ?_
    refine State.modPass_keeps kV ?_
    refine Keeps.each ?_ fun _ _ _ => ?_
    · assumption
    exact State.ringBatch_keeps kR (by assumption)
  refine Keeps.each ?_ fun _ _ _ => ?_
  · assumption
  exact State.ringBatch_keeps kR (by assumption)

theorem State.signBatch_keeps {r s1 : State} {a2} (kR : k .ring) (kV : k .passport) (kK : k .link) (h1 : Keeps k r s1) : Keeps k r (@State.signBatch s1 a2) := by
  unfold State.signBatch
  refine State.ringBatch_keeps kR ?_
  refine State.linkBatch_keeps kV kK ?_
  exact State.modPass_keeps kV (State.raise_keeps (State.setOct_keeps (State.count_keeps (State.setNat_keeps (State.free_keeps (by assumption))))))

theorem State.takePair_keeps {r s1 : State} {a2} (kV : k .passport) (h1 : Keeps k r s1) : Keeps k r (@State.takePair s1 a2).2 := by
  unfold State.takePair
  refine Keeps.snd_ite (fun _ => ?_) fun _ => ?_
  · refine Keeps.mkSnd ?_
    refine State.modPass_keeps kV ?_
    refine State.setNat_keeps ?_
    refine Keeps.ite (fun _ => ?_) fun _ => ?_
    · exact State.modPass_keeps kV (by assumption)
    assumption
  exact Keeps.mkSnd (by assumption)

theorem State.interruptSite_keeps {r s1 : State} {a2} (kD : k .device) (kS : k .sites) (kP : k .pins) (kX : k .contexts) (kL : k .ledger) (kA : k .acquisition) (kM : k .measure) (kV : k .passport) (kY : k .memory) (kN : k .channels) (kK : k .link) (kF : k .faults) (h1 : Keeps k r s1) : Keeps k r (@State.interruptSite s1 a2) := by
  unfold State.interruptSite
  refine State.modSite_keeps kS ?_
  refine State.leave_keeps kD kS kP kX kL kA kM kY kN kK kF ?_
  refine State.enter_keeps kS ?_
  exact State.modPass_keeps kV (State.endCapture_keeps kS kL kA (State.cancelSiteMeas_keeps kS kP kL kM (by assumption)))

theorem State.sealInterrupted_keeps {r s1 : State} (kD : k .device) (kS : k .sites) (kP : k .pins) (kX : k .contexts) (kL : k .ledger) (kA : k .acquisition) (kM : k .measure) (kR : k .ring) (kV : k .passport) (kY : k .memory) (kN : k .channels) (kK : k .link) (kF : k .faults) (h1 : Keeps k r s1) : Keeps k r (@State.sealInterrupted s1) := by
  unfold State.sealInterrupted
  refine Keeps.ite (fun _ => ?_) fun _ => ?_
  · refine Keeps.each ?_ fun _ _ _ => ?_
    · refine Keeps.each ?_ fun _ _ _ => ?_
      · refine Keeps.each ?_ fun _ _ _ => ?_
        · exact State.modPass_keeps kV (by assumption)
        exact State.formPending_keeps kS kL kV (by assumption)
      exact State.interruptSite_keeps kD kS kP kX kL kA kM kV kY kN kK kF (by assumption)
    exact State.freeEntry_keeps kL (by assumption)
  refine Keeps.ite (fun _ => ?_) fun _ => ?_
  · refine State.signBatch_keeps kR kV kK ?_
    refine State.takePair_keeps kV ?_
    refine State.raise_keeps ?_
    refine State.modPass_keeps kV ?_
    refine Keeps.each ?_ fun _ _ _ => ?_
    · refine Keeps.each ?_ fun _ _ _ => ?_
      · refine Keeps.each ?_ fun _ _ _ => ?_
        · exact State.modPass_keeps kV (by assumption)
        exact State.formPending_keeps kS kL kV (by assumption)
      exact State.interruptSite_keeps kD kS kP kX kL kA kM kV kY kN kK kF (by assumption)
    exact State.freeEntry_keeps kL (by assumption)
  refine State.modPass_keeps kV ?_
  refine State.takePair_keeps kV ?_
  refine State.raise_keeps ?_
  refine State.modPass_keeps kV ?_
  refine Keeps.each ?_ fun _ _ _ => ?_
  · refine Keeps.each ?_ fun _ _ _ => ?_
    · refine Keeps.each ?_ fun _ _ _ => ?_
      · exact State.modPass_keeps kV (by assumption)
      exact State.formPending_keeps kS kL kV (by assumption)
    exact State.interruptSite_keeps kD kS kP kX kL kA kM kV kY kN kK kF (by assumption)
  exact State.freeEntry_keeps kL (by assumption)

theorem State.failKeys_keeps {r s1 : State} {a2} (h1 : Keeps k r s1) : Keeps k r (@State.failKeys s1 a2) := by
  unfold State.failKeys
  refine Keeps.ite (fun _ => ?_) fun _ => ?_
  · assumption
  exact State.setNat_keeps (State.setNat_keeps (State.raise_keeps (State.raise_keeps (by assumption))))

theorem execInterruptedSeal_keeps {r s1 : State} (kD : k .device) (kS : k .sites) (kP : k .pins) (kX : k .contexts) (kL : k .ledger) (kA : k .acquisition) (kM : k .measure) (kR : k .ring) (kV : k .passport) (kY : k .memory) (kN : k .channels) (kK : k .link) (kF : k .faults) (h1 : Keeps k r s1) : KeepsOut k r (@execInterruptedSeal s1) := by
  unfold execInterruptedSeal
  refine Keeps.out_ite (fun _ => ?_) fun _ => ?_
  · refine KeepsOut.next ?_
    exact State.sealInterrupted_keeps kD kS kP kX kL kA kM kR kV kY kN kK kF (by assumption)
  exact KeepsOut.next (by assumption)

theorem execDrbgReseed_keeps {r s2 : State} {a1} (h2 : Keeps k r s2) : KeepsOut k r (@execDrbgReseed a1 s2) := by
  unfold execDrbgReseed
  refine Keeps.out_ite (fun _ => ?_) fun _ => ?_
  · exact KeepsOut.next (by assumption)
  refine Keeps.out_ite (fun _ => ?_) fun _ => ?_
  · exact KeepsOut.next (State.setNat_keeps (by assumption))
  refine KeepsOut.next ?_
  refine Keeps.ite (fun _ => ?_) fun _ => ?_
  · exact State.raise_keeps (by assumption)
  exact State.raise_keeps (State.raise_keeps (State.setNat_keeps (by assumption)))

theorem execVerdictResend_keeps {r s1 : State} (kR : k .ring) (kV : k .passport) (h1 : Keeps k r s1) : KeepsOut k r (@execVerdictResend s1) := by
  unfold execVerdictResend
  refine KeepsOut.next ?_
  refine Keeps.each ?_ fun _ _ _ => ?_
  · exact State.modPass_keeps kV (by assumption)
  exact State.ringBatch_keeps kR (by assumption)

theorem execBatchSign_keeps {r s1 : State} (kR : k .ring) (kV : k .passport) (kK : k .link) (h1 : Keeps k r s1) : KeepsOut k r (@execBatchSign s1) := by
  unfold execBatchSign
  split
  · exact KeepsOut.next (by assumption)
  refine Keeps.out_ite (fun _ => ?_) fun _ => ?_
  · exact KeepsOut.next (by assumption)
  refine KeepsOut.next ?_
  refine Keeps.ite (fun _ => ?_) fun _ => ?_
  · exact State.closeBatch_keeps kV (State.signBatch_keeps kR kV kK (State.modPass_keeps kV (State.takePair_keeps kV (by assumption))))
  exact State.signBatch_keeps kR kV kK (State.modPass_keeps kV (State.takePair_keeps kV (by assumption)))

theorem execBatchClose_keeps {r s1 : State} (kV : k .passport) (h1 : Keeps k r s1) : KeepsOut k r (@execBatchClose s1) := by
  unfold execBatchClose
  refine Keeps.out_ite (fun _ => ?_) fun _ => ?_
  · exact KeepsOut.next (by assumption)
  refine Keeps.out_ite (fun _ => ?_) fun _ => ?_
  · exact KeepsOut.next (State.modPass_keeps kV (by assumption))
  refine Keeps.out_ite (fun _ => ?_) fun _ => ?_
  · exact KeepsOut.next (State.raise_keeps (State.modPass_keeps kV (by assumption)))
  exact KeepsOut.next (State.closeBatch_keeps kV (State.modPass_keeps kV (by assumption)))

theorem execVerdictHandover_keeps {r s1 : State} (kL : k .ledger) (kV : k .passport) (h1 : Keeps k r s1) : KeepsOut k r (@execVerdictHandover s1) := by
  unfold execVerdictHandover
  split
  · exact KeepsOut.next (by assumption)
  refine Keeps.out_ite (fun _ => ?_) fun _ => ?_
  · refine Keeps.out_ite (fun _ => ?_) fun _ => ?_
    · exact KeepsOut.next (by assumption)
    exact KeepsOut.next (State.raise_keeps (State.bump_keeps (State.modPass_keeps kV (by assumption))))
  refine Keeps.out_ite (fun _ => ?_) fun _ => ?_
  · exact KeepsOut.next (by assumption)
  refine Keeps.out_ite (fun _ => ?_) fun _ => ?_
  · refine KeepsOut.next ?_
    refine State.closeBatch_keeps kV ?_
    refine Keeps.each ?_ fun _ _ _ => ?_
    · exact State.modPass_keeps kV (by assumption)
    exact State.freeEntry_keeps kL (by assumption)
  refine KeepsOut.next ?_
  refine Keeps.each ?_ fun _ _ _ => ?_
  · exact State.modPass_keeps kV (by assumption)
  exact State.freeEntry_keeps kL (by assumption)

theorem State.modHandler_keeps {r s1 : State} {a2} (kF : k .faults) (h1 : Keeps k r s1) : Keeps k r (@State.modHandler s1 a2) := by
  unfold State.modHandler
  exact Keeps.put_handler kF (by assumption)

theorem State.retireCtx_keeps {r s1 : State} {a2} (kS : k .sites) (kX : k .contexts) (h1 : Keeps k r s1) : Keeps k r (@State.retireCtx s1 a2) := by
  unfold State.retireCtx
  refine Keeps.ite (fun _ => ?_) fun _ => ?_
  · exact State.rehome_keeps kS (State.raise_keeps (State.setCtx_keeps kX (by assumption)))
  assumption

theorem State.startRecovery_keeps {r s1 : State} {a2} (kD : k .device) (kS : k .sites) (kX : k .contexts) (kN : k .channels) (kK : k .link) (kF : k .faults) (h1 : Keeps k r s1) : Keeps k r (@State.startRecovery s1 a2) := by
  unfold State.startRecovery
  refine Keeps.ite (fun _ => ?_) fun _ => ?_
  · exact State.critical_keeps kD kF (by assumption)
  split
  · exact State.recoverMem_keeps kD kN kF (by assumption)
  · exact State.recoverMem_keeps kD kN kF (by assumption)
  · exact State.recoverLink_keeps kK (by assumption)
  · exact State.recoverLink_keeps kK (by assumption)
  refine Keeps.ite (fun _ => ?_) fun _ => ?_
  · exact State.retireCtx_keeps kS kX (by assumption)
  assumption

theorem State.decided_keeps {r s1 : State} {a2} (kD : k .device) (kS : k .sites) (kX : k .contexts) (kN : k .channels) (kK : k .link) (kF : k .faults) (h1 : Keeps k r s1) : Keeps k r (@State.decided s1 a2) := by
  unfold State.decided
  refine Keeps.ite (fun _ => ?_) fun _ => ?_
  · exact State.raiseWith_keeps (State.raiseWith_keeps (by assumption))
  exact State.startRecovery_keeps kD kS kX kN kK kF (State.modHandler_keeps kF (State.raiseWith_keeps (by assumption)))

theorem State.decideCurrent_keeps {r s1 : State} {a2 a3} (kD : k .device) (kS : k .sites) (kX : k .contexts) (kN : k .channels) (kK : k .link) (kF : k .faults) (h1 : Keeps k r s1) : Keeps k r (@State.decideCurrent s1 a2 a3) := by
  unfold State.decideCurrent
  refine Keeps.ite (fun _ => ?_) fun _ => ?_
  · exact State.nextFault_keeps kF (State.decided_keeps kD kS kX kN kK kF (State.modHandler_keeps kF (by assumption)))
  exact State.decided_keeps kD kS kX kN kK kF (State.modHandler_keeps kF (by assumption))

theorem State.decideByHost_keeps {r s1 : State} {a2} (kD : k .device) (kS : k .sites) (kX : k .contexts) (kN : k .channels) (kK : k .link) (kF : k .faults) (h1 : Keeps k r s1) : Keeps k r (@State.decideByHost s1 a2).2 := by
  unfold State.decideByHost
  split
  · refine Keeps.snd_ite (fun _ => ?_) fun _ => ?_
    · exact Keeps.mkSnd (State.bump_keeps (by assumption))
    exact Keeps.mkSnd (by assumption)
  refine Keeps.snd_ite (fun _ => ?_) fun _ => ?_
  · exact Keeps.mkSnd (by assumption)
  refine Keeps.snd_ite (fun _ => ?_) fun _ => ?_
  · exact Keeps.mkSnd (State.bump_keeps (by assumption))
  exact Keeps.mkSnd (State.decideCurrent_keeps kD kS kX kN kK kF (by assumption))

theorem State.tailFrom_keeps {r s1 : State} {a2} (kK : k .link) (h1 : Keeps k r s1) : Keeps k r (@State.tailFrom s1 a2) := by
  unfold State.tailFrom
  exact State.sendTail_keeps kK (by assumption)

theorem State.raiseByHost_keeps {r s1 : State} {a2 a3} (h1 : Keeps k r s1) : Keeps k r (@State.raiseByHost s1 a2 a3).2 := by
  unfold State.raiseByHost
  refine Keeps.snd_ite (fun _ => ?_) fun _ => ?_
  · exact Keeps.mkSnd (by assumption)
  refine Keeps.snd_ite (fun _ => ?_) fun _ => ?_
  · exact Keeps.mkSnd (State.raise_keeps (by assumption))
  exact Keeps.mkSnd (by assumption)

theorem State.widthByHost_keeps {r s1 : State} {a2} (kD : k .device) (kS : k .sites) (kX : k .contexts) (kN : k .channels) (kK : k .link) (kF : k .faults) (h1 : Keeps k r s1) : Keeps k r (@State.widthByHost s1 a2).2 := by
  unfold State.widthByHost
  try dsimp only
  split
  · refine Keeps.snd_ite (fun _ => ?_) fun _ => ?_
    · exact Keeps.mkSnd (by assumption)
    refine Keeps.snd_ite (fun _ => ?_) fun _ => ?_
    · exact Keeps.mkSnd (by assumption)
    exact Keeps.mkSnd (State.bump_keeps (by assumption))
  refine Keeps.snd_ite (fun _ => ?_) fun _ => ?_
  · exact Keeps.mkSnd (by assumption)
  refine Keeps.snd_ite (fun _ => ?_) fun _ => ?_
  · exact Keeps.mkSnd (State.bump_keeps (by assumption))
  try dsimp only
  split
  · refine Keeps.snd_ite (fun _ => ?_) fun _ => ?_
    · exact Keeps.mkSnd (State.decideCurrent_keeps kD kS kX kN kK kF (Keeps.put_sl kK (by assumption)))
    exact Keeps.mkSnd (Keeps.put_sl kK (by assumption))
  exact Keeps.mkSnd (Keeps.put_sl kK (by assumption))

theorem execSupplyFaultTimeout_keeps {r s2 : State} {a1} (kD : k .device) (kF : k .faults) (h2 : Keeps k r s2) : KeepsOut k r (@execSupplyFaultTimeout a1 s2) := by
  unfold execSupplyFaultTimeout
  split
  · exact KeepsOut.next (by assumption)
  refine Keeps.out_ite (fun _ => ?_) fun _ => ?_
  · exact KeepsOut.next (by assumption)
  exact KeepsOut.next (State.climb_keeps kD kF (State.modHandler_keeps kF (by assumption)))

theorem execQueuedFaultTimeout_keeps {r s1 : State} (kD : k .device) (kS : k .sites) (kX : k .contexts) (kN : k .channels) (kK : k .link) (kF : k .faults) (h1 : Keeps k r s1) : KeepsOut k r (@execQueuedFaultTimeout s1) := by
  unfold execQueuedFaultTimeout
  refine Keeps.out_ite (fun _ => ?_) fun _ => ?_
  · exact KeepsOut.next (by assumption)
  split
  · exact KeepsOut.next (by assumption)
  exact KeepsOut.next (State.decided_keeps kD kS kX kN kK kF (State.raiseWith_keeps (State.modHandler_keeps kF (by assumption))))

theorem execFaultRecovered_keeps {r s3 : State} {a1 a2} (kF : k .faults) (h3 : Keeps k r s3) : KeepsOut k r (@execFaultRecovered a1 a2 s3) := by
  unfold execFaultRecovered
  refine Keeps.out_ite (fun _ => ?_) fun _ => ?_
  · split
    · exact KeepsOut.next (State.faultEnds_keeps kF (by assumption))
    exact KeepsOut.next (by assumption)
  exact KeepsOut.next (by assumption)

theorem execFaultDecision_keeps {r s1 : State} (kD : k .device) (kS : k .sites) (kX : k .contexts) (kN : k .channels) (kK : k .link) (kF : k .faults) (h1 : Keeps k r s1) : KeepsOut k r (@execFaultDecision s1) := by
  unfold execFaultDecision
  split
  · exact KeepsOut.next (by assumption)
  refine Keeps.out_ite (fun _ => ?_) fun _ => ?_
  · exact KeepsOut.next (by assumption)
  exact KeepsOut.next (State.decideCurrent_keeps kD kS kX kN kK kF (by assumption))

theorem execHostDeadline_keeps {r s2 : State} {a1} (kD : k .device) (kS : k .sites) (kX : k .contexts) (kN : k .channels) (kK : k .link) (kF : k .faults) (h2 : Keeps k r s2) : KeepsOut k r (@execHostDeadline a1 s2) := by
  unfold execHostDeadline
  refine Keeps.out_ite (fun _ => ?_) fun _ => ?_
  · split
    · exact KeepsOut.next (by assumption)
    refine Keeps.out_ite (fun _ => ?_) fun _ => ?_
    · exact KeepsOut.next (by assumption)
    try dsimp only
    split
    · refine Keeps.out_ite (fun _ => ?_) fun _ => ?_
      · exact KeepsOut.next (State.decideCurrent_keeps kD kS kX kN kK kF (State.raiseWith_keeps (Keeps.put_sl kK (by assumption))))
      exact KeepsOut.next (State.raiseWith_keeps (Keeps.put_sl kK (by assumption)))
    exact KeepsOut.next (State.raiseWith_keeps (Keeps.put_sl kK (by assumption)))
  split
  · refine Keeps.out_ite (fun _ => ?_) fun _ => ?_
    · exact KeepsOut.next (by assumption)
    refine KeepsOut.next ?_
    exact State.decideCurrent_keeps kD kS kX kN kK kF (State.modHandler_keeps kF (State.raiseWith_keeps (by assumption)))
  exact KeepsOut.next (by assumption)

theorem State.allPinsOff_keeps {r s1 : State} (kS : k .sites) (kP : k .pins) (kN : k .channels) (h1 : Keeps k r s1) : Keeps k r (@State.allPinsOff s1) := by
  refine h1.of_wf ⟨rfl, rfl, rfl, rfl⟩ (fun c => ?_)
    (fun p hp => by cases p <;> first | exact absurd (by assumption) hp | exact ⟨rfl, rfl, rfl⟩ | exact ⟨rfl, rfl⟩ | exact rfl)
  simp only [State.allPinsOff, State.canonical, Bool.and_eq_true] at *
  simp only [c, Table.wf_map, and_self]

theorem State.modStart_keeps {r s1 : State} {a2} (kD : k .device) (h1 : Keeps k r s1) : Keeps k r (@State.modStart s1 a2) := by
  unfold State.modStart
  exact Keeps.put_start kD (by assumption)

theorem State.beginWarm_keeps {r s1 : State} {a2} (kD : k .device) (kV : k .passport) (h1 : Keeps k r s1) : Keeps k r (@State.beginWarm s1 a2) := by
  unfold State.beginWarm
  exact Keeps.put_mode_pass kD kV (State.modStart_keeps kD (by assumption))

theorem State.coldFrom_keeps {r s1 : State} {a2 a3} (kD : k .device) (kC : k .clocks) (kS : k .sites) (kP : k .pins) (kX : k .contexts) (kO : k .store) (kL : k .ledger) (kA : k .acquisition) (kM : k .measure) (kT : k .time) (kR : k .ring) (kV : k .passport) (kB : k .calibration) (kH : k .thermal) (kY : k .memory) (kN : k .channels) (kK : k .link) (kW : k .convoy) (kQ : k .rosec) (kF : k .faults) (h1 : Keeps k r s1) : Keeps k r (@State.coldFrom s1 a2 a3) := by
  unfold State.coldFrom
  refine h1.of_wf ⟨rfl, rfl, rfl, rfl⟩ (fun c => ?_)
    (fun p hp => by cases p <;> first | exact absurd (by assumption) hp | exact ⟨rfl, rfl, rfl⟩ | exact ⟨rfl, rfl⟩ | exact rfl)
  simp only [State.reset, State.evtBalls, State.canonical, Bool.and_eq_true] at *
  simp only [c, risingKeys_filter, Table.wf_map, and_true]
  decide

theorem State.request_keeps {r s1 : State} {a2} (kD : k .device) (kC : k .clocks) (kS : k .sites) (kP : k .pins) (kX : k .contexts) (kO : k .store) (kL : k .ledger) (kA : k .acquisition) (kM : k .measure) (kT : k .time) (kR : k .ring) (kV : k .passport) (kB : k .calibration) (kH : k .thermal) (kY : k .memory) (kN : k .channels) (kK : k .link) (kW : k .convoy) (kQ : k .rosec) (kF : k .faults) (h1 : Keeps k r s1) : Keeps k r (@State.request s1 a2) := by
  unfold State.request
  split
  · split
    · refine State.coldFrom_keeps kD kC kS kP kX kO kL kA kM kT kR kV kB kH kY kN kK kW kQ kF ?_
      assumption
    · exact State.beginWarm_keeps kD kV (by assumption)
    exact State.beginWarm_keeps kD kV (by assumption)
  · refine State.coldFrom_keeps kD kC kS kP kX kO kL kA kM kT kR kV kB kH kY kN kK kW kQ kF ?_
    assumption
  · refine Keeps.ite (fun _ => ?_) fun _ => ?_
    · assumption
    exact State.modStart_keeps kD (by assumption)
  · refine Keeps.ite (fun _ => ?_) fun _ => ?_
    · exact State.modStart_keeps kD (by assumption)
    assumption
  assumption

theorem State.tellFree_keeps {r s1 : State} (h1 : Keeps k r s1) : Keeps k r (@State.tellFree s1) := by
  unfold State.tellFree
  refine Keeps.each ?_ fun _ _ _ => ?_
  · assumption
  exact State.raiseWith_keeps (by assumption)

theorem State.retiredOnly_wf (s : State) (h : risingKeys s.ctxs = true) : Table.wf {} s.retiredOnly = true := by
  rw [Table.wf_iff]
  constructor
  · intro b hb
    simp only [State.retiredOnly, List.mem_filterMap] at hb
    obtain ⟨e, -, he⟩ := hb
    split at he
    · rw [← Option.some.inj he]
      exact fun h => by cases h
    · cases he
  · refine risingKeys_filterMap _ (fun e b he => ?_) h
    split at he
    · cases he
      rfl
    · cases he

theorem State.clearWarm_keeps {r s1 : State} (kD : k .device) (kC : k .clocks) (kS : k .sites) (kP : k .pins) (kX : k .contexts) (kO : k .store) (kL : k .ledger) (kA : k .acquisition) (kM : k .measure) (kT : k .time) (kV : k .passport) (kB : k .calibration) (kN : k .channels) (kK : k .link) (kW : k .convoy) (kQ : k .rosec) (kF : k .faults) (h1 : Keeps k r s1) : Keeps k r (@State.clearWarm s1) := by
  unfold State.clearWarm
  refine State.relinkBatches_keeps kV kK (State.holdOutNow_keeps kK ((State.tellFree_keeps (State.custEmpty_keeps kO (State.endRun_keeps kB h1))).of_wf ⟨rfl, rfl, rfl, rfl⟩ (fun c => ?_)
    (fun p hp => by cases p <;> first | exact absurd (by assumption) hp | exact ⟨rfl, rfl, rfl⟩ | exact ⟨rfl, rfl⟩ | exact rfl)))
  simp only [State.reset, State.evtBalls, State.canonical, Bool.and_eq_true] at *
  have k := State.retiredOnly_wf _ (Table.wf_iff (d := ({} : Ctx)) |>.1 c.1.1.1.1.1.1.1.1.1.2).2
  simp only [c, k, risingKeys_filter, Table.wf_map, and_self, and_true]
  decide

theorem State.noteFailure_keeps {r s1 : State} {a2} (h1 : Keeps k r s1) : Keeps k r (@State.noteFailure s1 a2) := by
  unfold State.noteFailure
  exact State.setNat_keeps (State.setNat_keeps (by assumption))

theorem State.failCold_keeps {r s1 : State} {a2} (kD : k .device) (kC : k .clocks) (kS : k .sites) (kP : k .pins) (kX : k .contexts) (kO : k .store) (kL : k .ledger) (kA : k .acquisition) (kM : k .measure) (kT : k .time) (kR : k .ring) (kV : k .passport) (kB : k .calibration) (kH : k .thermal) (kY : k .memory) (kN : k .channels) (kK : k .link) (kW : k .convoy) (kQ : k .rosec) (kF : k .faults) (h1 : Keeps k r s1) : Keeps k r (@State.failCold s1 a2) := by
  unfold State.failCold
  refine Keeps.ite (fun _ => ?_) fun _ => ?_
  · exact State.raise_keeps (State.modStart_keeps kD (State.noteFailure_keeps (by assumption)))
  refine State.raise_keeps ?_
  refine State.coldFrom_keeps kD kC kS kP kX kO kL kA kM kT kR kV kB kH kY kN kK kW kQ kF ?_
  exact State.noteFailure_keeps (by assumption)

theorem State.nextStep_keeps {r s1 : State} (kD : k .device) (h1 : Keeps k r s1) : Keeps k r (@State.nextStep s1) := by
  unfold State.nextStep
  exact State.modStart_keeps kD (by assumption)

theorem State.dramStep_keeps {r s1 : State} {a2} (kD : k .device) (kC : k .clocks) (kS : k .sites) (kP : k .pins) (kX : k .contexts) (kO : k .store) (kL : k .ledger) (kA : k .acquisition) (kM : k .measure) (kT : k .time) (kR : k .ring) (kV : k .passport) (kB : k .calibration) (kH : k .thermal) (kY : k .memory) (kN : k .channels) (kK : k .link) (kW : k .convoy) (kQ : k .rosec) (kF : k .faults) (h1 : Keeps k r s1) : Keeps k r (@State.dramStep s1 a2) := by
  unfold State.dramStep
  refine Keeps.ite (fun _ => ?_) fun _ => ?_
  · exact State.nextStep_keeps kD (State.trainAll_keeps kY kN (by assumption))
  refine State.failCold_keeps kD kC kS kP kX kO kL kA kM kT kR kV kB kH kY kN kK kW kQ kF ?_
  exact State.trainAll_keeps kY kN (by assumption)

theorem State.pushAll_keeps {r s1 : State} (kD : k .device) (kA : k .acquisition) (kR : k .ring) (kV : k .passport) (kN : k .channels) (kK : k .link) (kF : k .faults) (h1 : Keeps k r s1) : Keeps k r (@State.pushAll s1) := by
  unfold State.pushAll
  refine Keeps.each ?_ fun _ _ _ => ?_
  · exact State.sendTail_keeps kK (State.pushVerdicts_keeps kR kV kK (by assumption))
  exact State.sendRecord_keeps kD kA kN kK kF (by assumption)

theorem State.enterSafeHalt_keeps {r s1 : State} (kD : k .device) (kS : k .sites) (kP : k .pins) (kX : k .contexts) (kL : k .ledger) (kA : k .acquisition) (kM : k .measure) (kT : k .time) (kR : k .ring) (kV : k .passport) (kB : k .calibration) (kY : k .memory) (kN : k .channels) (kK : k .link) (kF : k .faults) (h1 : Keeps k r s1) : Keeps k r (@State.enterSafeHalt s1) := by
  unfold State.enterSafeHalt
  refine State.raise_keeps ?_
  refine Keeps.put_mode kD ?_
  refine State.modStart_keeps kD ?_
  refine Keeps.ite (fun _ => ?_) fun _ => ?_
  · refine State.setQuality_keeps kT ?_
    refine State.enterSelfRefresh_keeps kN ?_
    refine Keeps.ite (fun _ => ?_) fun _ => ?_
    · refine State.pushAll_keeps kD kA kR kV kN kK kF ?_
      refine State.allPinsOff_keeps kS kP kN ?_
      refine State.endRun_keeps kB ?_
      refine State.sealInterrupted_keeps kD kS kP kX kL kA kM kR kV kY kN kK kF ?_
      refine Keeps.ite (fun _ => ?_) fun _ => ?_
      · exact State.raise_keeps (by assumption)
      assumption
    refine State.allPinsOff_keeps kS kP kN ?_
    refine State.endRun_keeps kB ?_
    refine State.sealInterrupted_keeps kD kS kP kX kL kA kM kR kV kY kN kK kF ?_
    refine Keeps.ite (fun _ => ?_) fun _ => ?_
    · exact State.raise_keeps (by assumption)
    assumption
  refine State.enterSelfRefresh_keeps kN ?_
  refine Keeps.ite (fun _ => ?_) fun _ => ?_
  · refine State.pushAll_keeps kD kA kR kV kN kK kF ?_
    refine State.allPinsOff_keeps kS kP kN ?_
    refine State.endRun_keeps kB ?_
    refine State.sealInterrupted_keeps kD kS kP kX kL kA kM kR kV kY kN kK kF ?_
    refine Keeps.ite (fun _ => ?_) fun _ => ?_
    · exact State.raise_keeps (by assumption)
    assumption
  refine State.allPinsOff_keeps kS kP kN ?_
  refine State.endRun_keeps kB ?_
  refine State.sealInterrupted_keeps kD kS kP kX kL kA kM kR kV kY kN kK kF ?_
  refine Keeps.ite (fun _ => ?_) fun _ => ?_
  · exact State.raise_keeps (by assumption)
  assumption

theorem State.failWarm_keeps {r s1 : State} {a2} (kD : k .device) (kC : k .clocks) (kS : k .sites) (kP : k .pins) (kX : k .contexts) (kO : k .store) (kL : k .ledger) (kA : k .acquisition) (kM : k .measure) (kT : k .time) (kR : k .ring) (kV : k .passport) (kB : k .calibration) (kH : k .thermal) (kY : k .memory) (kN : k .channels) (kK : k .link) (kW : k .convoy) (kQ : k .rosec) (kF : k .faults) (h1 : Keeps k r s1) : Keeps k r (@State.failWarm s1 a2) := by
  unfold State.failWarm
  refine State.raise_keeps ?_
  refine State.coldFrom_keeps kD kC kS kP kX kO kL kA kM kT kR kV kB kH kY kN kK kW kQ kF ?_
  exact State.noteFailure_keeps (by assumption)

theorem State.modClk_keeps {r s1 : State} {a2} (kC : k .clocks) (h1 : Keeps k r s1) : Keeps k r (@State.modClk s1 a2) := by
  unfold State.modClk
  exact Keeps.put_clk kC (by assumption)

theorem State.lockPlls_keeps {r s1 : State} (kC : k .clocks) (h1 : Keeps k r s1) : Keeps k r (@State.lockPlls s1) := by
  unfold State.lockPlls
  exact State.modClk_keeps kC (by assumption)

theorem State.nightCopies_keeps {r s1 : State} (kR : k .ring) (kQ : k .rosec) (h1 : Keeps k r s1) : Keeps k r (@State.nightCopies s1) := by
  unfold State.nightCopies
  exact Keeps.put_ring_rosec kR kQ (by assumption)

theorem State.quiesceWarm_keeps {r s1 : State} (kS : k .sites) (kP : k .pins) (kX : k .contexts) (kL : k .ledger) (kN : k .channels) (h1 : Keeps k r s1) : Keeps k r (@State.quiesceWarm s1) := by
  unfold State.quiesceWarm
  refine State.enterSelfRefresh_keeps kN (State.allPinsOff_keeps kS kP kN (h1.of_wf ⟨rfl, rfl, rfl, rfl⟩ (fun c => ?_)
    (fun p hp => by cases p <;> first | exact absurd (by assumption) hp | exact ⟨rfl, rfl, rfl⟩ | exact ⟨rfl, rfl⟩ | exact rfl)))
  simp only [State.canonical, Bool.and_eq_true] at *
  have k := State.retiredOnly_wf _ (Table.wf_iff (d := ({} : Ctx)) |>.1 c.1.1.1.1.1.1.1.1.1.2).2
  simp only [c, k, and_self, and_true]
  decide

theorem State.releaseReset_keeps {r s1 : State} (kD : k .device) (kR : k .ring) (kJ : k .jtag) (h1 : Keeps k r s1) : Keeps k r (@State.releaseReset s1) := by
  unfold State.releaseReset
  exact State.startPorts_keeps kR (Keeps.put_start_jtag kD kJ (by assumption))

theorem State.resumeServo_keeps {r s1 : State} (kT : k .time) (h1 : Keeps k r s1) : Keeps k r (@State.resumeServo s1) := by
  unfold State.resumeServo
  exact State.recount_keeps kT (by assumption)

theorem State.startDone_keeps {r s1 : State} {a2} (kD : k .device) (h1 : Keeps k r s1) : Keeps k r (@State.startDone s1 a2) := by
  unfold State.startDone
  exact State.raise_keeps (Keeps.put_mode kD (State.modStart_keeps kD (State.setNat_keeps (by assumption))))

theorem State.verifyStep_keeps {r s1 : State} (kD : k .device) (kC : k .clocks) (kS : k .sites) (kP : k .pins) (kX : k .contexts) (kO : k .store) (kL : k .ledger) (kA : k .acquisition) (kM : k .measure) (kT : k .time) (kR : k .ring) (kV : k .passport) (kB : k .calibration) (kH : k .thermal) (kY : k .memory) (kN : k .channels) (kK : k .link) (kW : k .convoy) (kQ : k .rosec) (kF : k .faults) (h1 : Keeps k r s1) : Keeps k r (@State.verifyStep s1) := by
  unfold State.verifyStep
  refine Keeps.ite (fun _ => ?_) fun _ => ?_
  · refine State.startTraining_keeps kN ?_
    refine State.modStart_keeps kD ?_
    exact State.nextStep_keeps kD (State.setOct_keeps (State.setNat_keeps (Keeps.put_store kO (State.mendVendor_keeps kO (by assumption)))))
  refine State.failCold_keeps kD kC kS kP kX kO kL kA kM kT kR kV kB kH kY kN kK kW kQ kF ?_
  exact Keeps.put_store kO (State.mendVendor_keeps kO (by assumption))

theorem execPowerLoss_keeps {r s1 : State} (kD : k .device) (kC : k .clocks) (kS : k .sites) (kP : k .pins) (kX : k .contexts) (kO : k .store) (kL : k .ledger) (kA : k .acquisition) (kM : k .measure) (kT : k .time) (kR : k .ring) (kV : k .passport) (kB : k .calibration) (kH : k .thermal) (kJ : k .jtag) (kY : k .memory) (kN : k .channels) (kK : k .link) (kW : k .convoy) (kQ : k .rosec) (kF : k .faults) (h1 : Keeps k r s1) : KeepsOut k r (@execPowerLoss s1) := by
  refine KeepsOut.next (h1.of_wf ⟨rfl, rfl, rfl, rfl⟩ (fun c => ?_)
    (fun p hp => by cases p <;> first | exact absurd (by assumption) hp | exact ⟨rfl, rfl, rfl⟩ | exact ⟨rfl, rfl⟩ | exact rfl))
  simp only [State.evtBalls, State.canonical, Bool.and_eq_true] at *
  simp only [c, Table.wf_map, and_true]
  decide

theorem execRefclkPresent_keeps {r s1 : State} (kC : k .clocks) (kR : k .ring) (h1 : Keeps k r s1) : KeepsOut k r (@execRefclkPresent s1) := by
  unfold execRefclkPresent
  refine Keeps.out_ite (fun _ => ?_) fun _ => ?_
  · exact KeepsOut.next (by assumption)
  exact KeepsOut.next (State.startPorts_keeps kR (State.modClk_keeps kC (by assumption)))

theorem execWakeStepDone_keeps {r s2 : State} {a1} (kD : k .device) (kC : k .clocks) (kA : k .acquisition) (kT : k .time) (kR : k .ring) (kN : k .channels) (kK : k .link) (kQ : k .rosec) (kF : k .faults) (h2 : Keeps k r s2) : KeepsOut k r (@execWakeStepDone a1 s2) := by
  unfold execWakeStepDone
  refine Keeps.out_ite (fun _ => ?_) fun _ => ?_
  · exact KeepsOut.next (by assumption)
  try dsimp only
  split
  · refine Keeps.out_ite (fun _ => ?_) fun _ => ?_
    · exact KeepsOut.next (by assumption)
    refine KeepsOut.next ?_
    refine State.modStart_keeps kD ?_
    refine Keeps.ite (fun _ => ?_) fun _ => ?_
    · exact State.recovered_keeps kF (State.raise_keeps (State.modClk_keeps kC (State.lockPlls_keeps kC (by assumption))))
    exact State.modClk_keeps kC (State.lockPlls_keeps kC (by assumption))
  · refine KeepsOut.next ?_
    refine State.modStart_keeps kD ?_
    refine State.askRate_keeps kR ?_
    refine State.restoreLink_keeps kK kF ?_
    refine State.leaveSelfRefresh_keeps kD kA kN kK kF ?_
    split
    · exact State.failRetrain_keeps kD kN kF (by assumption)
    assumption
  · exact KeepsOut.next (State.modStart_keeps kD (by assumption))
  · refine KeepsOut.next ?_
    exact State.raise_keeps (State.resumeServo_keeps kT (Keeps.put_mode_ring_rosec kD kR kQ (State.modStart_keeps kD (by assumption))))
  exact KeepsOut.next (by assumption)

theorem execSleepAbandoned_keeps {r s1 : State} (kD : k .device) (h1 : Keeps k r s1) : KeepsOut k r (@execSleepAbandoned s1) := by
  unfold execSleepAbandoned
  split
  · refine Keeps.out_ite (fun _ => ?_) fun _ => ?_
    · exact KeepsOut.next (State.raise_keeps (State.modStart_keeps kD (by assumption)))
    exact KeepsOut.next (by assumption)
  exact KeepsOut.next (by assumption)

theorem execSleepDrainDone_keeps {r s1 : State} (kD : k .device) (kC : k .clocks) (kS : k .sites) (kP : k .pins) (kX : k .contexts) (kL : k .ledger) (kA : k .acquisition) (kM : k .measure) (kT : k .time) (kR : k .ring) (kY : k .memory) (kN : k .channels) (kK : k .link) (kW : k .convoy) (kQ : k .rosec) (kF : k .faults) (h1 : Keeps k r s1) : KeepsOut k r (@execSleepDrainDone s1) := by
  unfold execSleepDrainDone
  refine Keeps.out_ite (fun _ => ?_) fun _ => ?_
  · exact KeepsOut.next (by assumption)
  refine KeepsOut.next ?_
  refine State.raise_keeps ?_
  refine State.nightCopies_keeps kR kQ ?_
  refine Keeps.put_mode kD ?_
  refine Keeps.ite (fun _ => ?_) fun _ => ?_
  · refine State.setQuality_keeps kT ?_
    refine State.modClk_keeps kC ?_
    refine State.askRate_keeps kR ?_
    refine State.enterSelfRefresh_keeps kN ?_
    refine Keeps.ite (fun _ => ?_) fun _ => ?_
    · exact State.linkDown_keeps kK (State.modStart_keeps kD (by assumption))
    refine State.convoyDown_keeps kD kS kP kX kL kA kM kY kN kK kW kF ?_
    exact State.linkDown_keeps kK (State.modStart_keeps kD (by assumption))
  refine State.modClk_keeps kC ?_
  refine State.askRate_keeps kR ?_
  refine State.enterSelfRefresh_keeps kN ?_
  refine Keeps.ite (fun _ => ?_) fun _ => ?_
  · exact State.linkDown_keeps kK (State.modStart_keeps kD (by assumption))
  refine State.convoyDown_keeps kD kS kP kX kL kA kM kY kN kK kW kF ?_
  exact State.linkDown_keeps kK (State.modStart_keeps kD (by assumption))

theorem execSafeHaltEntry_keeps {r s1 : State} (kD : k .device) (kS : k .sites) (kP : k .pins) (kX : k .contexts) (kL : k .ledger) (kA : k .acquisition) (kM : k .measure) (kT : k .time) (kR : k .ring) (kV : k .passport) (kB : k .calibration) (kY : k .memory) (kN : k .channels) (kK : k .link) (kF : k .faults) (h1 : Keeps k r s1) : KeepsOut k r (@execSafeHaltEntry s1) := by
  unfold execSafeHaltEntry
  refine Keeps.out_ite (fun _ => ?_) fun _ => ?_
  · refine KeepsOut.next ?_
    refine State.enterSafeHalt_keeps kD kS kP kX kL kA kM kT kR kV kB kY kN kK kF ?_
    assumption
  exact KeepsOut.next (by assumption)

theorem execWarmStartStepDone_keeps {r s2 : State} {a1} (kD : k .device) (kC : k .clocks) (kS : k .sites) (kP : k .pins) (kX : k .contexts) (kO : k .store) (kL : k .ledger) (kA : k .acquisition) (kM : k .measure) (kT : k .time) (kR : k .ring) (kV : k .passport) (kB : k .calibration) (kH : k .thermal) (kY : k .memory) (kN : k .channels) (kK : k .link) (kW : k .convoy) (kQ : k .rosec) (kF : k .faults) (h2 : Keeps k r s2) : KeepsOut k r (@execWarmStartStepDone a1 s2) := by
  unfold execWarmStartStepDone
  refine Keeps.out_ite (fun _ => ?_) fun _ => ?_
  · exact KeepsOut.next (by assumption)
  split
  · refine Keeps.out_ite (fun _ => ?_) fun _ => ?_
    · exact KeepsOut.next (by assumption)
    refine KeepsOut.next ?_
    refine State.nextStep_keeps kD ?_
    refine Keeps.ite (fun _ => ?_) fun _ => ?_
    · exact State.sealInterrupted_keeps kD kS kP kX kL kA kM kR kV kY kN kK kF (by assumption)
    assumption
  · refine Keeps.out_ite (fun _ => ?_) fun _ => ?_
    · refine KeepsOut.next ?_
      refine State.failWarm_keeps kD kC kS kP kX kO kL kA kM kT kR kV kB kH kY kN kK kW kQ kF ?_
      assumption
    refine Keeps.out_ite (fun _ => ?_) fun _ => ?_
    · exact KeepsOut.next (by assumption)
    exact KeepsOut.next (State.nextStep_keeps kD (State.quiesceWarm_keeps kS kP kX kL kN (by assumption)))
  · refine KeepsOut.next ?_
    refine State.nextStep_keeps kD ?_
    refine State.clearWarm_keeps kD kC kS kP kX kO kL kA kM kT kV kB kN kK kW kQ kF ?_
    assumption
  · refine Keeps.out_ite (fun _ => ?_) fun _ => ?_
    · exact KeepsOut.next (State.nextStep_keeps kD (State.leaveSelfRefresh_keeps kD kA kN kK kF (by assumption)))
    refine KeepsOut.next ?_
    refine State.failWarm_keeps kD kC kS kP kX kO kL kA kM kT kR kV kB kH kY kN kK kW kQ kF ?_
    assumption
  · exact KeepsOut.next (State.startDone_keeps kD (by assumption))
  exact KeepsOut.next (by assumption)

theorem execColdStartStepDone_keeps {r s3 : State} {a1 a2} (kD : k .device) (kC : k .clocks) (kS : k .sites) (kP : k .pins) (kX : k .contexts) (kO : k .store) (kL : k .ledger) (kA : k .acquisition) (kM : k .measure) (kT : k .time) (kR : k .ring) (kV : k .passport) (kB : k .calibration) (kH : k .thermal) (kY : k .memory) (kN : k .channels) (kK : k .link) (kW : k .convoy) (kQ : k .rosec) (kF : k .faults) (h3 : Keeps k r s3) : KeepsOut k r (@execColdStartStepDone a1 a2 s3) := by
  unfold execColdStartStepDone
  refine Keeps.out_ite (fun _ => ?_) fun _ => ?_
  · exact KeepsOut.next (by assumption)
  split
  · refine Keeps.out_ite (fun _ => ?_) fun _ => ?_
    · exact KeepsOut.next (State.nextStep_keeps kD (State.startPorts_keeps kR (by assumption)))
    exact KeepsOut.next (by assumption)
  · refine Keeps.out_ite (fun _ => ?_) fun _ => ?_
    · exact KeepsOut.next (State.bringUp_keeps (State.nextStep_keeps kD (by assumption)))
    refine KeepsOut.next ?_
    refine State.failCold_keeps kD kC kS kP kX kO kL kA kM kT kR kV kB kH kY kN kK kW kQ kF ?_
    assumption
  · refine Keeps.out_ite (fun _ => ?_) fun _ => ?_
    · exact KeepsOut.next (by assumption)
    refine Keeps.out_ite (fun _ => ?_) fun _ => ?_
    · exact KeepsOut.next (State.nextStep_keeps kD (State.lockPlls_keeps kC (by assumption)))
    refine Keeps.out_ite (fun _ => ?_) fun _ => ?_
    · refine KeepsOut.next ?_
      refine State.failCold_keeps kD kC kS kP kX kO kL kA kM kT kR kV kB kH kY kN kK kW kQ kF ?_
      assumption
    exact KeepsOut.next (by assumption)
  · refine Keeps.out_ite (fun _ => ?_) fun _ => ?_
    · exact KeepsOut.next (State.nextStep_keeps kD (State.deriveKeys_keeps kV (by assumption)))
    refine KeepsOut.next ?_
    refine State.failCold_keeps kD kC kS kP kX kO kL kA kM kT kR kV kB kH kY kN kK kW kQ kF ?_
    exact State.failKeys_keeps (by assumption)
  · refine KeepsOut.next ?_
    refine State.verifyStep_keeps kD kC kS kP kX kO kL kA kM kT kR kV kB kH kY kN kK kW kQ kF ?_
    assumption
  · refine KeepsOut.next ?_
    refine State.dramStep_keeps kD kC kS kP kX kO kL kA kM kT kR kV kB kH kY kN kK kW kQ kF ?_
    assumption
  · exact KeepsOut.next (State.nextStep_keeps kD (State.coldCalibrate_keeps kB (by assumption)))
  · exact KeepsOut.next (State.startDone_keeps kD (by assumption))
  exact KeepsOut.next (by assumption)

theorem execPowerWarningCleared_keeps {r s1 : State} (kD : k .device) (h1 : Keeps k r s1) : KeepsOut k r (@execPowerWarningCleared s1) := by
  unfold execPowerWarningCleared
  refine Keeps.out_ite (fun _ => ?_) fun _ => ?_
  · refine KeepsOut.next ?_
    refine Keeps.ite (fun _ => ?_) fun _ => ?_
    · exact State.modStart_keeps kD (by assumption)
    exact State.raise_keeps (State.modStart_keeps kD (by assumption))
  exact KeepsOut.next (by assumption)

theorem execPwrWarnN_keeps {r s1 : State} (kD : k .device) (kV : k .passport) (h1 : Keeps k r s1) : KeepsOut k r (@execPwrWarnN s1) := by
  unfold execPwrWarnN
  refine Keeps.out_ite (fun _ => ?_) fun _ => ?_
  · exact KeepsOut.next (by assumption)
  refine Keeps.out_ite (fun _ => ?_) fun _ => ?_
  · exact KeepsOut.next (State.modStart_keeps kD (by assumption))
  exact KeepsOut.next (Keeps.put_start_pass kD kV (State.modStart_keeps kD (by assumption)))

theorem execWarmN_keeps {r s2 : State} {a1} (kD : k .device) (kC : k .clocks) (kS : k .sites) (kP : k .pins) (kX : k .contexts) (kO : k .store) (kL : k .ledger) (kA : k .acquisition) (kM : k .measure) (kT : k .time) (kR : k .ring) (kV : k .passport) (kB : k .calibration) (kH : k .thermal) (kY : k .memory) (kN : k .channels) (kK : k .link) (kW : k .convoy) (kQ : k .rosec) (kF : k .faults) (h2 : Keeps k r s2) : KeepsOut k r (@execWarmN a1 s2) := by
  unfold execWarmN
  refine Keeps.out_ite (fun _ => ?_) fun _ => ?_
  · exact KeepsOut.next (by assumption)
  refine Keeps.out_ite (fun _ => ?_) fun _ => ?_
  · exact KeepsOut.next (State.modStart_keeps kD (by assumption))
  refine Keeps.out_ite (fun _ => ?_) fun _ => ?_
  · exact KeepsOut.next (by assumption)
  split
  · exact KeepsOut.next (State.raise_keeps (by assumption))
  · exact KeepsOut.next (State.raise_keeps (by assumption))
  · refine KeepsOut.next ?_
    refine State.coldFrom_keeps kD kC kS kP kX kO kL kA kM kT kR kV kB kH kY kN kK kW kQ kF ?_
    exact Keeps.put_start kD (by assumption)
  · exact KeepsOut.next (State.modStart_keeps kD (State.beginWarm_keeps kD kV (by assumption)))
  exact KeepsOut.next (State.modStart_keeps kD (State.beginWarm_keeps kD kV (by assumption)))

theorem State.noRegs_keeps {r s : State} (kD : k .device) (h : Keeps k r s) : Keeps k r { s with regs := [], start := {} } := by
  refine h.of_wf ⟨rfl, rfl, rfl, rfl⟩ (fun c => ?_)
    (fun p hp => by cases p <;> first | exact absurd (by assumption) hp | exact ⟨rfl, rfl, rfl⟩ | exact ⟨rfl, rfl⟩ | exact rfl)
  simp only [State.canonical, Bool.and_eq_true] at *
  simp only [c, and_true]
  decide

theorem execResetN_keeps {r s3 : State} {a1 a2} (kD : k .device) (kC : k .clocks) (kS : k .sites) (kP : k .pins) (kX : k .contexts) (kO : k .store) (kL : k .ledger) (kA : k .acquisition) (kM : k .measure) (kT : k .time) (kR : k .ring) (kV : k .passport) (kB : k .calibration) (kH : k .thermal) (kJ : k .jtag) (kY : k .memory) (kN : k .channels) (kK : k .link) (kW : k .convoy) (kQ : k .rosec) (kF : k .faults) (h3 : Keeps k r s3) : KeepsOut k r (@execResetN a1 a2 s3) := by
  unfold execResetN
  refine Keeps.out_ite (fun _ => ?_) fun _ => ?_
  · refine Keeps.out_ite (fun _ => ?_) fun _ => KeepsOut.next h3
    exact KeepsOut.next (Keeps.put_start kD (State.coldFrom_keeps kD kC kS kP kX kO kL kA kM kT kR kV kB kH kY kN kK kW kQ kF (State.noRegs_keeps kD h3)))
  refine Keeps.out_ite (fun _ => KeepsOut.next h3) fun _ => ?_
  refine Keeps.out_ite (fun _ => ?_) fun _ => KeepsOut.next (State.releaseReset_keeps kD kR kJ h3)
  exact KeepsOut.next (State.coldFrom_keeps kD kC kS kP kX kO kL kA kM kT kR kV kB kH kY kN kK kW kQ kF (Keeps.put_start kD h3))

theorem execRefclkRelocked_keeps {r s1 : State} (kC : k .clocks) (kF : k .faults) (h1 : Keeps k r s1) : KeepsOut k r (@execRefclkRelocked s1) := by
  unfold execRefclkRelocked
  refine Keeps.out_ite (fun _ => ?_) fun _ => ?_
  · exact KeepsOut.next (State.recovered_keeps kF (State.raise_keeps (State.modClk_keeps kC (by assumption))))
  exact KeepsOut.next (by assumption)

theorem execLongHoldover_keeps {r s1 : State} (kC : k .clocks) (kS : k .sites) (h1 : Keeps k r s1) : KeepsOut k r (@execLongHoldover s1) := by
  unfold execLongHoldover
  refine Keeps.out_ite (fun _ => ?_) fun _ => ?_
  · exact KeepsOut.next (State.taintLive_keeps kS (State.modClk_keeps kC (by assumption)))
  exact KeepsOut.next (by assumption)

theorem execRefclkLost_keeps {r s2 : State} {a1} (kD : k .device) (kC : k .clocks) (kS : k .sites) (kP : k .pins) (kX : k .contexts) (kL : k .ledger) (kA : k .acquisition) (kM : k .measure) (kT : k .time) (kY : k .memory) (kN : k .channels) (kK : k .link) (kW : k .convoy) (kF : k .faults) (h2 : Keeps k r s2) : KeepsOut k r (@execRefclkLost a1 s2) := by
  unfold execRefclkLost
  refine Keeps.out_ite (fun _ => ?_) fun _ => ?_
  · exact KeepsOut.next (by assumption)
  refine Keeps.out_ite (fun _ => ?_) fun _ => ?_
  · exact KeepsOut.next (State.modClk_keeps kC (by assumption))
  refine KeepsOut.next ?_
  refine Keeps.each ?_ fun _ _ _ => ?_
  · refine Keeps.each ?_ fun _ _ _ => ?_
    · refine State.loseLock_keeps kT ?_
      exact State.handFault_keeps kD kF (State.raise_keeps (State.modClk_keeps kC (State.modClk_keeps kC (by assumption))))
    refine Keeps.ite (fun _ => ?_) fun _ => ?_
    · exact State.modSite_keeps kS (by assumption)
    assumption
  refine State.convoyFault_keeps kD kS kP kX kL kA kM kY kN kK kF ?_
  exact State.sendAbort_keeps kW (by assumption)

theorem State.scan_keeps {r s1 : State} {a2} (kJ : k .jtag) (h1 : Keeps k r s1) : Keeps k r (@State.scan s1 a2) := by
  unfold State.scan
  refine Keeps.ite (fun _ => ?_) fun _ => ?_
  · exact Keeps.put_jtag kJ (by assumption)
  exact State.send_keeps (Keeps.put_jtag kJ (by assumption))

theorem execExtestTrain_keeps {r s1 : State} (kJ : k .jtag) (h1 : Keeps k r s1) : KeepsOut k r (@execExtestTrain s1) := by
  unfold execExtestTrain
  exact KeepsOut.next (State.scan_keeps kJ (by assumption))

theorem execExtestPulse_keeps {r s1 : State} (kJ : k .jtag) (h1 : Keeps k r s1) : KeepsOut k r (@execExtestPulse s1) := by
  unfold execExtestPulse
  exact KeepsOut.next (State.scan_keeps kJ (by assumption))

theorem execClamp_keeps {r s1 : State} (kJ : k .jtag) (h1 : Keeps k r s1) : KeepsOut k r (@execClamp s1) := by
  unfold execClamp
  exact KeepsOut.next (State.scan_keeps kJ (by assumption))

theorem execHighz_keeps {r s1 : State} (kJ : k .jtag) (h1 : Keeps k r s1) : KeepsOut k r (@execHighz s1) := by
  unfold execHighz
  exact KeepsOut.next (State.scan_keeps kJ (by assumption))

theorem execExtest_keeps {r s1 : State} (kJ : k .jtag) (h1 : Keeps k r s1) : KeepsOut k r (@execExtest s1) := by
  unfold execExtest
  exact KeepsOut.next (State.scan_keeps kJ (by assumption))

theorem execSamplePreload_keeps {r s2 : State} {a1} (kJ : k .jtag) (h2 : Keeps k r s2) : KeepsOut k r (@execSamplePreload a1 s2) := by
  unfold execSamplePreload
  refine Keeps.out_ite (fun _ => ?_) fun _ => ?_
  · exact KeepsOut.next (State.send_keeps (Keeps.put_jtag_freeCtr kJ (by assumption)))
  exact KeepsOut.next (State.scan_keeps kJ (by assumption))

theorem execIdcode_keeps {r s1 : State} (kJ : k .jtag) (h1 : Keeps k r s1) : KeepsOut k r (@execIdcode s1) := by
  unfold execIdcode
  exact KeepsOut.next (State.send_keeps (Keeps.put_jtag kJ (by assumption)))

theorem execBypass_keeps {r s1 : State} (kJ : k .jtag) (h1 : Keeps k r s1) : KeepsOut k r (@execBypass s1) := by
  unfold execBypass
  exact KeepsOut.next (State.send_keeps (Keeps.put_jtag kJ (by assumption)))

theorem State.clearLate_keeps {r s1 : State} {a2} (kS : k .sites) (h1 : Keeps k r s1) : Keeps k r (@State.clearLate s1 a2) := by
  unfold State.clearLate
  refine Keeps.ite (fun _ => ?_) fun _ => ?_
  · exact State.setSite_keeps kS (State.setNat_keeps (by assumption))
  exact State.setNat_keeps (by assumption)

theorem State.clearRead_keeps {r s1 : State} {a2 a3} (kS : k .sites) (kA : k .acquisition) (h1 : Keeps k r s1) : Keeps k r (@State.clearRead s1 a2 a3) := by
  unfold State.clearRead
  split
  · assumption
  refine Keeps.ite (fun _ => ?_) fun _ => ?_
  · assumption
  refine Keeps.ite (fun _ => ?_) fun _ => ?_
  · exact Keeps.put_ev (by assumption)
  refine Keeps.ite (fun _ => ?_) fun _ => ?_
  · exact State.clearLate_keeps kS (by assumption)
  refine Keeps.ite (fun _ => ?_) fun _ => ?_
  · exact State.setCap_keeps kA (by assumption)
  refine Keeps.ite (fun _ => ?_) fun _ => ?_
  · exact State.setReg_keeps (by assumption)
  exact State.setOct_keeps (by assumption)

theorem State.takeValue_keeps {r s1 : State} {a2 a3} (kS : k .sites) (kA : k .acquisition) (h1 : Keeps k r s1) : Keeps k r (@State.takeValue s1 a2 a3).2 := by
  unfold State.takeValue
  refine Keeps.snd_ite (fun _ => ?_) fun _ => ?_
  · exact State.exportBlob_keeps (by assumption)
  exact Keeps.mkSnd (State.clearRead_keeps kS kA (by assumption))

theorem State.windowCommand_keeps {r s1 : State} {a2 a3} (kV : k .passport) (h1 : Keeps k r s1) : Keeps k r (@State.windowCommand s1 a2 a3).2 := by
  unfold State.windowCommand
  split
  · exact State.windowOpen_keeps kV (by assumption)
  · exact State.windowFree_keeps (by assumption)
  exact State.windowAbandon_keeps kV (by assumption)

theorem State.roleWritten_keeps {r s1 : State} (h1 : Keeps k r s1) : Keeps k r (@State.roleWritten s1) := by
  unfold State.roleWritten
  refine Keeps.ite (fun _ => ?_) fun _ => ?_
  · exact State.setNat_keeps (by assumption)
  refine Keeps.ite (fun _ => ?_) fun _ => ?_
  · exact State.setNat_keeps (by assumption)
  assumption

theorem State.unitCommand_keeps {r s1 : State} {a2 a3} (kA : k .acquisition) (h1 : Keeps k r s1) : Keeps k r (@State.unitCommand s1 a2 a3) := by
  unfold State.unitCommand
  split
  · exact State.armUnit_keeps kA (by assumption)
  · exact State.fireUnit_keeps kA (by assumption)
  exact State.disarmUnit_keeps kA (by assumption)

theorem State.custCommand_keeps {r s1 : State} {a2} (kD : k .device) (kO : k .store) (kF : k .faults) (h1 : Keeps k r s1) : Keeps k r (@State.custCommand s1 a2).2 := by
  unfold State.custCommand
  split
  · exact State.custOpen_keeps kO (by assumption)
  · exact State.custClose_keeps kD kO kF (by assumption)
  exact State.custClear_keeps kO (by assumption)

theorem State.compareWritten_keeps {r s1 : State} {a2} (kP : k .pins) (h1 : Keeps k r s1) : Keeps k r (@State.compareWritten s1 a2) := by
  unfold State.compareWritten
  refine Keeps.ite (fun _ => ?_) fun _ => ?_
  · exact State.clearHeld_keeps kP (State.setNat_keeps (by assumption))
  exact State.monRestart_keeps kP (State.setNat_keeps (by assumption))

theorem State.setLevels_keeps {r s1 : State} {a2} (kP : k .pins) (h1 : Keeps k r s1) : Keeps k r (@State.setLevels s1 a2) := by
  unfold State.setLevels
  exact State.modPin_keeps kP (by assumption)

theorem State.putNum_keeps {r s1 s2 : State} {a3 a4 a5} (kD : k .device) (kS : k .sites) (kP : k .pins) (kX : k .contexts) (kO : k .store) (kL : k .ledger) (kA : k .acquisition) (kM : k .measure) (kT : k .time) (kV : k .passport) (kB : k .calibration) (kY : k .memory) (kN : k .channels) (kK : k .link) (kW : k .convoy) (kF : k .faults) (h1 : Keeps k r s1) (h2 : Keeps k r s2) : Keeps k r (@State.putNum s1 s2 a3 a4 a5).2 := by
  unfold State.putNum
  refine Keeps.snd_ite (fun _ => ?_) fun _ => ?_
  · refine Keeps.snd_ite (fun _ => ?_) fun _ => ?_
    · exact Keeps.mkSnd (State.supplyRestart_keeps kF (by assumption))
    exact Keeps.mkSnd (by assumption)
  refine Keeps.snd_ite (fun _ => ?_) fun _ => ?_
  · try dsimp only
    split
    · exact Keeps.mkSnd (State.setLevels_keeps kP (by assumption))
    · exact Keeps.mkSnd (State.compareWritten_keeps kP (by assumption))
    · exact Keeps.mkSnd (State.compareWritten_keeps kP (by assumption))
    · refine Keeps.mkSnd ?_
      refine Keeps.ite (fun _ => ?_) fun _ => ?_
      · exact State.monEnable_keeps kP (by assumption)
      assumption
    · refine Keeps.snd_ite (fun _ => ?_) fun _ => ?_
      · exact Keeps.mkSnd (State.setExt_keeps (by assumption))
      exact Keeps.mkSnd (by assumption)
    exact Keeps.mkSnd (by assumption)
  refine Keeps.snd_ite (fun _ => ?_) fun _ => ?_
  · refine Keeps.snd_ite (fun _ => ?_) fun _ => ?_
    · exact State.siteCommand_keeps kD kS kP kX kL kA kM kV kY kN kK kF (by assumption)
    exact Keeps.mkSnd (by assumption)
  refine Keeps.snd_ite (fun _ => ?_) fun _ => ?_
  · exact State.custCommand_keeps kD kO kF (by assumption)
  refine Keeps.snd_ite (fun _ => ?_) fun _ => ?_
  · exact State.hostTrigger_keeps kA (by assumption)
  refine Keeps.snd_ite (fun _ => ?_) fun _ => ?_
  · exact Keeps.mkSnd (State.unitCommand_keeps kA (by assumption))
  refine Keeps.snd_ite (fun _ => ?_) fun _ => ?_
  · exact Keeps.mkSnd (State.setDef_keeps kM (by assumption))
  refine Keeps.snd_ite (fun _ => ?_) fun _ => ?_
  · exact Keeps.mkSnd (State.timeSet_keeps kT (by assumption))
  refine Keeps.snd_ite (fun _ => ?_) fun _ => ?_
  · exact Keeps.mkSnd (State.offsetAdj_keeps kT (by assumption))
  refine Keeps.snd_ite (fun _ => ?_) fun _ => ?_
  · exact Keeps.mkSnd (State.rateSet_keeps kT (by assumption))
  refine Keeps.snd_ite (fun _ => ?_) fun _ => ?_
  · refine Keeps.mkSnd ?_
    refine Keeps.ite (fun _ => ?_) fun _ => ?_
    · assumption
    exact State.scatter_keeps kY (by assumption)
  refine Keeps.snd_ite (fun _ => ?_) fun _ => ?_
  · exact Keeps.mkSnd (State.holdOutNow_keeps kK (by assumption))
  refine Keeps.snd_ite (fun _ => ?_) fun _ => ?_
  · exact State.widthByHost_keeps kD kS kX kN kK kF (by assumption)
  refine Keeps.snd_ite (fun _ => ?_) fun _ => ?_
  · exact Keeps.mkSnd (State.restoreLink_keeps kK kF (by assumption))
  refine Keeps.snd_ite (fun _ => ?_) fun _ => ?_
  · exact Keeps.mkSnd (State.roleWritten_keeps (by assumption))
  refine Keeps.snd_ite (fun _ => ?_) fun _ => ?_
  · exact Keeps.mkSnd (State.startAlign_keeps kW (by assumption))
  refine Keeps.snd_ite (fun _ => ?_) fun _ => ?_
  · refine Keeps.snd_ite (fun _ => ?_) fun _ => ?_
    · exact State.calStart_keeps kB (by assumption)
    exact Keeps.mkSnd (State.calCancel_keeps kB (by assumption))
  refine Keeps.snd_ite (fun _ => ?_) fun _ => ?_
  · exact Keeps.mkSnd (State.ackBatch_keeps kV (by assumption))
  refine Keeps.snd_ite (fun _ => ?_) fun _ => ?_
  · exact Keeps.mkSnd (State.advanceEpoch_keeps (by assumption))
  refine Keeps.snd_ite (fun _ => ?_) fun _ => ?_
  · exact State.windowCommand_keeps kV (by assumption)
  refine Keeps.snd_ite (fun _ => ?_) fun _ => ?_
  · exact Keeps.mkSnd (Keeps.put_ev (by assumption))
  refine Keeps.snd_ite (fun _ => ?_) fun _ => ?_
  · exact State.raiseByHost_keeps (by assumption)
  refine Keeps.snd_ite (fun _ => ?_) fun _ => ?_
  · exact Keeps.mkSnd (State.tailFrom_keeps kK (by assumption))
  refine Keeps.snd_ite (fun _ => ?_) fun _ => ?_
  · exact State.decideByHost_keeps kD kS kX kN kK kF (by assumption)
  exact Keeps.mkSnd (by assumption)

theorem State.putOct_keeps {r s1 : State} {a2 a3 a4} (kD : k .device) (kO : k .store) (kB : k .calibration) (h1 : Keeps k r s1) : Keeps k r (@State.putOct s1 a2 a3 a4).2 := by
  unfold State.putOct
  refine Keeps.snd_ite (fun _ => ?_) fun _ => ?_
  · exact State.writeHeader_keeps kD kO (by assumption)
  refine Keeps.snd_ite (fun _ => ?_) fun _ => ?_
  · refine Keeps.mkSnd ?_
    refine Keeps.ite (fun _ => ?_) fun _ => ?_
    · exact State.setOct_keeps (by assumption)
    assumption
  refine Keeps.snd_ite (fun _ => ?_) fun _ => ?_
  · exact State.importBlob_keeps kB (by assumption)
  refine Keeps.snd_ite (fun _ => ?_) fun _ => ?_
  · exact State.coeffs_keeps kB (by assumption)
  exact Keeps.mkSnd (State.setOct_keeps (by assumption))

theorem State.writeValue_keeps {r s1 : State} {a2 a3 a4 a5} (kD : k .device) (kS : k .sites) (kP : k .pins) (kX : k .contexts) (kO : k .store) (kL : k .ledger) (kA : k .acquisition) (kM : k .measure) (kT : k .time) (kV : k .passport) (kB : k .calibration) (kY : k .memory) (kN : k .channels) (kK : k .link) (kW : k .convoy) (kF : k .faults) (h1 : Keeps k r s1) : Keeps k r (@State.writeValue s1 a2 a3 a4 a5).2 := by
  unfold State.writeValue
  split
  · exact Keeps.mkSnd (by assumption)
  refine Keeps.snd_ite (fun _ => ?_) fun _ => ?_
  · exact Keeps.mkSnd (by assumption)
  refine Keeps.snd_ite (fun _ => ?_) fun _ => ?_
  · exact Keeps.mkSnd (by assumption)
  refine Keeps.snd_ite (fun _ => ?_) fun _ => ?_
  · exact Keeps.mkSnd (by assumption)
  refine Keeps.snd_ite (fun _ => ?_) fun _ => ?_
  · exact State.putOct_keeps kD kO kB (by assumption)
  refine Keeps.snd_ite (fun _ => ?_) fun _ => ?_
  · exact Keeps.mkSnd (by assumption)
  refine Keeps.snd_ite (fun _ => ?_) fun _ => ?_
  · exact Keeps.mkSnd (by assumption)
  refine Keeps.snd_ite (fun _ => ?_) fun _ => ?_
  · exact Keeps.mkSnd (by assumption)
  refine State.putNum_keeps kD kS kP kX kO kL kA kM kT kV kB kY kN kK kW kF ?_ ?_
  · assumption
  · exact State.keepForce_keeps (State.setReg_keeps (by assumption))

theorem State.modRosec_keeps {r s1 : State} {a2} (kQ : k .rosec) (h1 : Keeps k r s1) : Keeps k r (@State.modRosec s1 a2) := by
  unfold State.modRosec
  exact Keeps.put_rosec kQ (by assumption)

theorem State.forget_keeps {r s1 : State} {a2 a3 a4} (kQ : k .rosec) (h1 : Keeps k r s1) : Keeps k r (@State.forget s1 a2 a3 a4) := by
  unfold State.forget
  exact State.modRosec_keeps kQ (by assumption)

theorem State.closeTransfer_keeps {r s1 : State} {a2 a3} (kQ : k .rosec) (h1 : Keeps k r s1) : Keeps k r (@State.closeTransfer s1 a2 a3) := by
  unfold State.closeTransfer
  exact State.modRosec_keeps kQ (by assumption)

theorem State.closeUpload_keeps {r s1 : State} {a2 a3} (kQ : k .rosec) (h1 : Keeps k r s1) : Keeps k r (@State.closeUpload s1 a2 a3) := by
  unfold State.closeUpload
  exact State.modRosec_keeps kQ (by assumption)

theorem State.abortBody_keeps {r s5 : State} {a1 a2 a3 a4} (kQ : k .rosec) (h5 : Keeps k r s5) : Keeps k r (@State.abortBody a1 a2 a3 a4 s5).2 := by
  unfold State.abortBody
  refine Keeps.snd_ite (fun _ => ?_) fun _ => ?_
  · exact Keeps.mkSnd (by assumption)
  try dsimp only
  split
  · refine Keeps.snd_ite (fun _ => ?_) fun _ => ?_
    · exact Keeps.mkSnd (by assumption)
    refine Keeps.mkSnd ?_
    refine Keeps.ite (fun _ => ?_) fun _ => ?_
    · exact State.closeUpload_keeps kQ (by assumption)
    exact State.closeTransfer_keeps kQ (by assumption)
  refine Keeps.mkSnd ?_
  refine Keeps.ite (fun _ => ?_) fun _ => ?_
  · assumption
  exact State.forget_keeps kQ (by assumption)

theorem State.keep_keeps {r s1 : State} {a2 a3} (kQ : k .rosec) (h1 : Keeps k r s1) : Keeps k r (@State.keep s1 a2 a3) := by
  unfold State.keep
  exact Keeps.put_rosec kQ (by assumption)

theorem State.sendReply_keeps {r s1 : State} {a2} (kR : k .ring) (h1 : Keeps k r s1) : Keeps k r (@State.sendReply s1 a2) := by
  unfold State.sendReply
  refine State.originate_keeps kR ?_
  refine Keeps.ite (fun _ => ?_) fun _ => ?_
  · exact State.bump_keeps (by assumption)
  assumption

theorem State.answer_keeps {r s1 : State} {a2 a3 a4} (kD : k .device) (kC : k .clocks) (kS : k .sites) (kP : k .pins) (kX : k .contexts) (kO : k .store) (kL : k .ledger) (kA : k .acquisition) (kM : k .measure) (kT : k .time) (kR : k .ring) (kV : k .passport) (kB : k .calibration) (kH : k .thermal) (kY : k .memory) (kN : k .channels) (kK : k .link) (kW : k .convoy) (kQ : k .rosec) (kF : k .faults) (h1 : Keeps k r s1) (g4 : ∀ x1, Keeps k r x1 → Keeps k r (a4 x1).2) : Keeps k r (@State.answer s1 a2 a3 a4) := by
  unfold State.answer
  refine Keeps.ite (fun _ => ?_) fun _ => ?_
  · exact State.sendReply_keeps kR (by assumption)
  try dsimp only
  split
  · exact State.sendReply_keeps kR (State.bump_keeps (State.peak_keeps (by assumption)))
  refine Keeps.ite (fun _ => ?_) fun _ => ?_
  · refine State.keep_keeps kQ ?_
    refine State.sendReply_keeps kR ?_
    refine Keeps.snd_ite (fun _ => ?_) fun _ => ?_
    · exact Keeps.mkSnd (State.peak_keeps (by assumption))
    refine g4 _ ?_
    exact State.bump_keeps (State.peak_keeps (by assumption))
  refine State.request_keeps kD kC kS kP kX kO kL kA kM kT kR kV kB kH kY kN kK kW kQ kF ?_
  refine State.keep_keeps kQ ?_
  refine State.sendReply_keeps kR ?_
  refine Keeps.snd_ite (fun _ => ?_) fun _ => ?_
  · exact Keeps.mkSnd (State.peak_keeps (by assumption))
  refine g4 _ ?_
  exact State.bump_keeps (State.peak_keeps (by assumption))

theorem State.arrives_keeps {r s1 : State} {a2} (kT : k .time) (kR : k .ring) (h1 : Keeps k r s1) : Keeps k r (@State.arrives s1 a2).2 := by
  unfold State.arrives
  exact State.receiveFrame_keeps kT kR (by assumption)

theorem State.requestBody_keeps {r s2 : State} {a1} (h2 : Keeps k r s2) : Keeps k r (@State.requestBody a1 s2).2 := by
  unfold State.requestBody
  refine Keeps.snd_ite (fun _ => ?_) fun _ => ?_
  · exact Keeps.mkSnd (by assumption)
  refine Keeps.snd_ite (fun _ => ?_) fun _ => ?_
  · exact Keeps.mkSnd (by assumption)
  refine Keeps.snd_ite (fun _ => ?_) fun _ => ?_
  · exact Keeps.mkSnd (by assumption)
  exact Keeps.mkSnd (by assumption)

theorem State.putBody_keeps {r s5 : State} {a1 a2 a3 a4} (kD : k .device) (kS : k .sites) (kP : k .pins) (kX : k .contexts) (kO : k .store) (kL : k .ledger) (kA : k .acquisition) (kM : k .measure) (kT : k .time) (kV : k .passport) (kB : k .calibration) (kY : k .memory) (kN : k .channels) (kK : k .link) (kW : k .convoy) (kF : k .faults) (h5 : Keeps k r s5) : Keeps k r (@State.putBody a1 a2 a3 a4 s5).2 := by
  unfold State.putBody
  refine Keeps.snd_ite (fun _ => ?_) fun _ => ?_
  · exact State.requestBody_keeps (by assumption)
  refine Keeps.mkSnd ?_
  refine State.writeValue_keeps kD kS kP kX kO kL kA kM kT kV kB kY kN kK kW kF ?_
  assumption

theorem State.writeBody_keeps {r s5 : State} {a1 a2 a3 a4} (kD : k .device) (kS : k .sites) (kP : k .pins) (kX : k .contexts) (kO : k .store) (kL : k .ledger) (kA : k .acquisition) (kM : k .measure) (kT : k .time) (kV : k .passport) (kB : k .calibration) (kY : k .memory) (kN : k .channels) (kK : k .link) (kW : k .convoy) (kF : k .faults) (h5 : Keeps k r s5) : Keeps k r (@State.writeBody a1 a2 a3 a4 s5).2 := by
  unfold State.writeBody
  refine Keeps.snd_ite (fun _ => ?_) fun _ => ?_
  · exact Keeps.mkSnd (by assumption)
  refine Keeps.snd_ite (fun _ => ?_) fun _ => ?_
  · exact Keeps.mkSnd (by assumption)
  refine Keeps.snd_ite (fun _ => ?_) fun _ => ?_
  · exact Keeps.mkSnd (by assumption)
  refine State.putBody_keeps kD kS kP kX kO kL kA kM kT kV kB kY kN kK kW kF ?_
  assumption

theorem State.serve_keeps {r s1 : State} {a2 a3 a4} (kD : k .device) (kC : k .clocks) (kS : k .sites) (kP : k .pins) (kX : k .contexts) (kO : k .store) (kL : k .ledger) (kA : k .acquisition) (kM : k .measure) (kT : k .time) (kR : k .ring) (kV : k .passport) (kB : k .calibration) (kH : k .thermal) (kY : k .memory) (kN : k .channels) (kK : k .link) (kW : k .convoy) (kQ : k .rosec) (kF : k .faults) (h1 : Keeps k r s1) (g4 : ∀ x1, Keeps k r x1 → Keeps k r (a4 x1).2) : Keeps k r (@State.serve s1 a2 a3 a4) := by
  unfold State.serve
  refine Keeps.ite (fun _ => ?_) fun _ => ?_
  · assumption
  refine Keeps.ite (fun _ => ?_) fun _ => ?_
  · refine State.answer_keeps kD kC kS kP kX kO kL kA kM kT kR kV kB kH kY kN kK kW kQ kF ?_ (fun _ _ => ?_)
    · exact State.arrives_keeps kT kR (by assumption)
    · refine g4 _ ?_
      assumption
  exact State.arrives_keeps kT kR (by assumption)

theorem State.hostWrite_keeps {r s1 : State} {a2 a3 a4 a5} (kD : k .device) (kC : k .clocks) (kS : k .sites) (kP : k .pins) (kX : k .contexts) (kO : k .store) (kL : k .ledger) (kA : k .acquisition) (kM : k .measure) (kT : k .time) (kR : k .ring) (kV : k .passport) (kB : k .calibration) (kH : k .thermal) (kY : k .memory) (kN : k .channels) (kK : k .link) (kW : k .convoy) (kQ : k .rosec) (kF : k .faults) (h1 : Keeps k r s1) : Keeps k r (@State.hostWrite s1 a2 a3 a4 a5) := by
  unfold State.hostWrite
  refine State.serve_keeps kD kC kS kP kX kO kL kA kM kT kR kV kB kH kY kN kK kW kQ kF ?_ (fun _ _ => ?_)
  · assumption
  · refine State.writeBody_keeps kD kS kP kX kO kL kA kM kT kV kB kY kN kK kW kF ?_
    assumption

theorem State.commandSite_keeps {r s1 : State} {a2 a3 a4} (kD : k .device) (kC : k .clocks) (kS : k .sites) (kP : k .pins) (kX : k .contexts) (kO : k .store) (kL : k .ledger) (kA : k .acquisition) (kM : k .measure) (kT : k .time) (kR : k .ring) (kV : k .passport) (kB : k .calibration) (kH : k .thermal) (kY : k .memory) (kN : k .channels) (kK : k .link) (kW : k .convoy) (kQ : k .rosec) (kF : k .faults) (h1 : Keeps k r s1) : Keeps k r (@State.commandSite s1 a2 a3 a4) := by
  unfold State.commandSite
  refine State.hostWrite_keeps kD kC kS kP kX kO kL kA kM kT kR kV kB kH kY kN kK kW kQ kF ?_
  assumption

theorem State.discoverBody_keeps {r s2 : State} {a1} (h2 : Keeps k r s2) : Keeps k r (@State.discoverBody a1 s2).2 := by
  unfold State.discoverBody
  exact Keeps.mkSnd (by assumption)

theorem State.readBody_keeps {r s4 : State} {a1 a2 a3} (kS : k .sites) (kA : k .acquisition) (h4 : Keeps k r s4) : Keeps k r (@State.readBody a1 a2 a3 s4).2 := by
  unfold State.readBody
  refine Keeps.snd_ite (fun _ => ?_) fun _ => ?_
  · exact Keeps.mkSnd (by assumption)
  refine Keeps.snd_ite (fun _ => ?_) fun _ => ?_
  · exact Keeps.mkSnd (by assumption)
  refine Keeps.snd_ite (fun _ => ?_) fun _ => ?_
  · exact Keeps.mkSnd (by assumption)
  exact Keeps.mkSnd (State.takeValue_keeps kS kA (by assumption))

theorem State.hostRead_keeps {r s1 : State} {a2 a3 a4} (kD : k .device) (kC : k .clocks) (kS : k .sites) (kP : k .pins) (kX : k .contexts) (kO : k .store) (kL : k .ledger) (kA : k .acquisition) (kM : k .measure) (kT : k .time) (kR : k .ring) (kV : k .passport) (kB : k .calibration) (kH : k .thermal) (kY : k .memory) (kN : k .channels) (kK : k .link) (kW : k .convoy) (kQ : k .rosec) (kF : k .faults) (h1 : Keeps k r s1) : Keeps k r (@State.hostRead s1 a2 a3 a4) := by
  unfold State.hostRead
  refine State.serve_keeps kD kC kS kP kX kO kL kA kM kT kR kV kB kH kY kN kK kW kQ kF ?_ (fun _ _ => ?_)
  · assumption
  · exact State.readBody_keeps kS kA (by assumption)

theorem State.takeSegment_keeps {r s1 : State} {a2 a3 a4 a5} (kD : k .device) (kS : k .sites) (kP : k .pins) (kX : k .contexts) (kO : k .store) (kL : k .ledger) (kA : k .acquisition) (kM : k .measure) (kT : k .time) (kV : k .passport) (kB : k .calibration) (kY : k .memory) (kN : k .channels) (kK : k .link) (kW : k .convoy) (kQ : k .rosec) (kF : k .faults) (h1 : Keeps k r s1) : Keeps k r (@State.takeSegment s1 a2 a3 a4 a5).2 := by
  unfold State.takeSegment
  refine Keeps.snd_ite (fun _ => ?_) fun _ => ?_
  · refine State.putBody_keeps kD kS kP kX kO kL kA kM kT kV kB kY kN kK kW kF ?_
    exact State.closeTransfer_keeps kQ (by assumption)
  exact Keeps.mkSnd (State.modRosec_keeps kQ (State.closeTransfer_keeps kQ (by assumption)))

theorem State.segmentBody_keeps {r s8 : State} {a1 a2 a3 a4 a5 a6 a7} (kD : k .device) (kS : k .sites) (kP : k .pins) (kX : k .contexts) (kO : k .store) (kL : k .ledger) (kA : k .acquisition) (kM : k .measure) (kT : k .time) (kV : k .passport) (kB : k .calibration) (kY : k .memory) (kN : k .channels) (kK : k .link) (kW : k .convoy) (kQ : k .rosec) (kF : k .faults) (h8 : Keeps k r s8) : Keeps k r (@State.segmentBody a1 a2 a3 a4 a5 a6 a7 s8).2 := by
  unfold State.segmentBody
  refine Keeps.snd_ite (fun _ => ?_) fun _ => ?_
  · exact Keeps.mkSnd (by assumption)
  split
  · refine Keeps.snd_ite (fun _ => ?_) fun _ => ?_
    · exact Keeps.mkSnd (by assumption)
    refine Keeps.snd_ite (fun _ => ?_) fun _ => ?_
    · exact Keeps.mkSnd (by assumption)
    refine Keeps.snd_ite (fun _ => ?_) fun _ => ?_
    · exact Keeps.mkSnd (by assumption)
    refine State.takeSegment_keeps kD kS kP kX kO kL kA kM kT kV kB kY kN kK kW kQ kF ?_
    assumption
  refine Keeps.snd_ite (fun _ => ?_) fun _ => ?_
  · exact Keeps.mkSnd (State.forget_keeps kQ (by assumption))
  refine Keeps.snd_ite (fun _ => ?_) fun _ => ?_
  · exact Keeps.mkSnd (State.forget_keeps kQ (by assumption))
  refine Keeps.snd_ite (fun _ => ?_) fun _ => ?_
  · exact Keeps.mkSnd (State.forget_keeps kQ (by assumption))
  refine Keeps.snd_ite (fun _ => ?_) fun _ => ?_
  · exact Keeps.mkSnd (State.forget_keeps kQ (by assumption))
  refine Keeps.snd_ite (fun _ => ?_) fun _ => ?_
  · exact Keeps.mkSnd (State.forget_keeps kQ (by assumption))
  refine State.takeSegment_keeps kD kS kP kX kO kL kA kM kT kV kB kY kN kK kW kQ kF ?_
  exact State.forget_keeps kQ (State.forget_keeps kQ (by assumption))

theorem State.hostSegment_keeps {r s1 : State} {a2 a3 a4 a5 a6 a7 a8} (kD : k .device) (kC : k .clocks) (kS : k .sites) (kP : k .pins) (kX : k .contexts) (kO : k .store) (kL : k .ledger) (kA : k .acquisition) (kM : k .measure) (kT : k .time) (kR : k .ring) (kV : k .passport) (kB : k .calibration) (kH : k .thermal) (kY : k .memory) (kN : k .channels) (kK : k .link) (kW : k .convoy) (kQ : k .rosec) (kF : k .faults) (h1 : Keeps k r s1) : Keeps k r (@State.hostSegment s1 a2 a3 a4 a5 a6 a7 a8) := by
  unfold State.hostSegment
  refine State.serve_keeps kD kC kS kP kX kO kL kA kM kT kR kV kB kH kY kN kK kW kQ kF ?_ (fun _ _ => ?_)
  · assumption
  · refine State.segmentBody_keeps kD kS kP kX kO kL kA kM kT kV kB kY kN kK kW kQ kF ?_
    assumption

theorem State.hostWhole_keeps {r s1 : State} {a2 a3 a4 a5} (kD : k .device) (kC : k .clocks) (kS : k .sites) (kP : k .pins) (kX : k .contexts) (kO : k .store) (kL : k .ledger) (kA : k .acquisition) (kM : k .measure) (kT : k .time) (kR : k .ring) (kV : k .passport) (kB : k .calibration) (kH : k .thermal) (kY : k .memory) (kN : k .channels) (kK : k .link) (kW : k .convoy) (kQ : k .rosec) (kF : k .faults) (h1 : Keeps k r s1) : Keeps k r (@State.hostWhole s1 a2 a3 a4 a5) := by
  unfold State.hostWhole
  refine State.hostSegment_keeps kD kC kS kP kX kO kL kA kM kT kR kV kB kH kY kN kK kW kQ kF ?_
  assumption

theorem State.negotiateBody_keeps {r s3 : State} {a1 a2} (h3 : Keeps k r s3) : Keeps k r (@State.negotiateBody a1 a2 s3).2 := by
  unfold State.negotiateBody
  refine Keeps.snd_ite (fun _ => ?_) fun _ => ?_
  · exact Keeps.mkSnd (by assumption)
  refine Keeps.snd_ite (fun _ => ?_) fun _ => ?_
  · exact Keeps.mkSnd (by assumption)
  refine Keeps.snd_ite (fun _ => ?_) fun _ => ?_
  · exact Keeps.mkSnd (by assumption)
  refine Keeps.snd_ite (fun _ => ?_) fun _ => ?_
  · exact Keeps.mkSnd (State.setNat_keeps (by assumption))
  exact Keeps.mkSnd (State.raiseRanges_keeps (State.setNat_keeps (by assumption)))

theorem State.piece_keeps {r s1 : State} {a2 a3 a4} (kQ : k .rosec) (h1 : Keeps k r s1) : Keeps k r (@State.piece s1 a2 a3 a4).2 := by
  unfold State.piece
  refine Keeps.snd_ite (fun _ => ?_) fun _ => ?_
  · exact Keeps.mkSnd (State.modRosec_keeps kQ (State.closeUpload_keeps kQ (by assumption)))
  refine Keeps.mkSnd ?_
  refine Keeps.ite (fun _ => ?_) fun _ => ?_
  · exact State.closeUpload_keeps kQ (by assumption)
  exact State.modRosec_keeps kQ (State.closeUpload_keeps kQ (by assumption))

theorem State.subscribeBody_keeps {r s5 : State} {a1 a2 a3 a4} (kQ : k .rosec) (h5 : Keeps k r s5) : Keeps k r (@State.subscribeBody a1 a2 a3 a4 s5).2 := by
  unfold State.subscribeBody
  refine Keeps.snd_ite (fun _ => ?_) fun _ => ?_
  · exact Keeps.mkSnd (by assumption)
  refine Keeps.snd_ite (fun _ => ?_) fun _ => ?_
  · exact Keeps.mkSnd (by assumption)
  refine Keeps.snd_ite (fun _ => ?_) fun _ => ?_
  · exact Keeps.mkSnd (by assumption)
  refine Keeps.snd_ite (fun _ => ?_) fun _ => ?_
  · exact Keeps.mkSnd (by assumption)
  refine Keeps.snd_ite (fun _ => ?_) fun _ => ?_
  · exact Keeps.mkSnd (by assumption)
  refine Keeps.snd_ite (fun _ => ?_) fun _ => ?_
  · exact Keeps.mkSnd (State.modRosec_keeps kQ (by assumption))
  exact Keeps.mkSnd (State.modRosec_keeps kQ (by assumption))

theorem State.unsubscribeBody_keeps {r s4 : State} {a1 a2 a3} (kQ : k .rosec) (h4 : Keeps k r s4) : Keeps k r (@State.unsubscribeBody a1 a2 a3 s4).2 := by
  unfold State.unsubscribeBody
  refine Keeps.snd_ite (fun _ => ?_) fun _ => ?_
  · exact Keeps.mkSnd (by assumption)
  refine Keeps.snd_ite (fun _ => ?_) fun _ => ?_
  · exact Keeps.mkSnd (by assumption)
  exact Keeps.mkSnd (State.modRosec_keeps kQ (by assumption))

theorem State.uploadBody_keeps {r s6 : State} {a1 a2 a3 a4 a5} (kS : k .sites) (kA : k .acquisition) (kQ : k .rosec) (h6 : Keeps k r s6) : Keeps k r (@State.uploadBody a1 a2 a3 a4 a5 s6).2 := by
  unfold State.uploadBody
  refine Keeps.snd_ite (fun _ => ?_) fun _ => ?_
  · exact Keeps.mkSnd (by assumption)
  split
  · refine Keeps.snd_ite (fun _ => ?_) fun _ => ?_
    · exact Keeps.mkSnd (by assumption)
    exact State.piece_keeps kQ (by assumption)
  refine Keeps.snd_ite (fun _ => ?_) fun _ => ?_
  · exact Keeps.mkSnd (by assumption)
  refine Keeps.snd_ite (fun _ => ?_) fun _ => ?_
  · exact Keeps.mkSnd (by assumption)
  refine Keeps.snd_ite (fun _ => ?_) fun _ => ?_
  · exact Keeps.mkSnd (by assumption)
  exact State.piece_keeps kQ (State.modRosec_keeps kQ (State.forget_keeps kQ (State.takeValue_keeps kS kA (by assumption))))

theorem execTail_keeps {r s3 : State} {a1 a2} (kD : k .device) (kC : k .clocks) (kS : k .sites) (kP : k .pins) (kX : k .contexts) (kO : k .store) (kL : k .ledger) (kA : k .acquisition) (kM : k .measure) (kT : k .time) (kR : k .ring) (kV : k .passport) (kB : k .calibration) (kH : k .thermal) (kY : k .memory) (kN : k .channels) (kK : k .link) (kW : k .convoy) (kQ : k .rosec) (kF : k .faults) (h3 : Keeps k r s3) : KeepsOut k r (@execTail a1 a2 s3) := by
  unfold execTail
  refine KeepsOut.next ?_
  refine State.hostWrite_keeps kD kC kS kP kX kO kL kA kM kT kR kV kB kH kY kN kK kW kQ kF ?_
  assumption

theorem execRaise_keeps {r s3 : State} {a1 a2} (kD : k .device) (kC : k .clocks) (kS : k .sites) (kP : k .pins) (kX : k .contexts) (kO : k .store) (kL : k .ledger) (kA : k .acquisition) (kM : k .measure) (kT : k .time) (kR : k .ring) (kV : k .passport) (kB : k .calibration) (kH : k .thermal) (kY : k .memory) (kN : k .channels) (kK : k .link) (kW : k .convoy) (kQ : k .rosec) (kF : k .faults) (h3 : Keeps k r s3) : KeepsOut k r (@execRaise a1 a2 s3) := by
  unfold execRaise
  refine Keeps.out_ite (fun _ => ?_) fun _ => ?_
  · refine KeepsOut.next ?_
    refine State.hostWrite_keeps kD kC kS kP kX kO kL kA kM kT kR kV kB kH kY kN kK kW kQ kF ?_
    assumption
  exact KeepsOut.next (by assumption)

theorem execDecision_keeps {r s3 : State} {a1 a2} (kD : k .device) (kC : k .clocks) (kS : k .sites) (kP : k .pins) (kX : k .contexts) (kO : k .store) (kL : k .ledger) (kA : k .acquisition) (kM : k .measure) (kT : k .time) (kR : k .ring) (kV : k .passport) (kB : k .calibration) (kH : k .thermal) (kY : k .memory) (kN : k .channels) (kK : k .link) (kW : k .convoy) (kQ : k .rosec) (kF : k .faults) (h3 : Keeps k r s3) : KeepsOut k r (@execDecision a1 a2 s3) := by
  unfold execDecision
  refine KeepsOut.next ?_
  refine State.hostWrite_keeps kD kC kS kP kX kO kL kA kM kT kR kV kB kH kY kN kK kW kQ kF ?_
  assumption

theorem execAdvance_keeps {r s2 : State} {a1} (kD : k .device) (kC : k .clocks) (kS : k .sites) (kP : k .pins) (kX : k .contexts) (kO : k .store) (kL : k .ledger) (kA : k .acquisition) (kM : k .measure) (kT : k .time) (kR : k .ring) (kV : k .passport) (kB : k .calibration) (kH : k .thermal) (kY : k .memory) (kN : k .channels) (kK : k .link) (kW : k .convoy) (kQ : k .rosec) (kF : k .faults) (h2 : Keeps k r s2) : KeepsOut k r (@execAdvance a1 s2) := by
  unfold execAdvance
  refine KeepsOut.next ?_
  refine State.hostWrite_keeps kD kC kS kP kX kO kL kA kM kT kR kV kB kH kY kN kK kW kQ kF ?_
  assumption

theorem execWindowAbandon_keeps {r s3 : State} {a1 a2} (kD : k .device) (kC : k .clocks) (kS : k .sites) (kP : k .pins) (kX : k .contexts) (kO : k .store) (kL : k .ledger) (kA : k .acquisition) (kM : k .measure) (kT : k .time) (kR : k .ring) (kV : k .passport) (kB : k .calibration) (kH : k .thermal) (kY : k .memory) (kN : k .channels) (kK : k .link) (kW : k .convoy) (kQ : k .rosec) (kF : k .faults) (h3 : Keeps k r s3) : KeepsOut k r (@execWindowAbandon a1 a2 s3) := by
  unfold execWindowAbandon
  refine KeepsOut.next ?_
  refine State.hostWrite_keeps kD kC kS kP kX kO kL kA kM kT kR kV kB kH kY kN kK kW kQ kF ?_
  assumption

theorem execWindowFree_keeps {r s3 : State} {a1 a2} (kD : k .device) (kC : k .clocks) (kS : k .sites) (kP : k .pins) (kX : k .contexts) (kO : k .store) (kL : k .ledger) (kA : k .acquisition) (kM : k .measure) (kT : k .time) (kR : k .ring) (kV : k .passport) (kB : k .calibration) (kH : k .thermal) (kY : k .memory) (kN : k .channels) (kK : k .link) (kW : k .convoy) (kQ : k .rosec) (kF : k .faults) (h3 : Keeps k r s3) : KeepsOut k r (@execWindowFree a1 a2 s3) := by
  unfold execWindowFree
  refine KeepsOut.next ?_
  refine State.hostWrite_keeps kD kC kS kP kX kO kL kA kM kT kR kV kB kH kY kN kK kW kQ kF ?_
  assumption

theorem execWindowOpen_keeps {r s3 : State} {a1 a2} (kD : k .device) (kC : k .clocks) (kS : k .sites) (kP : k .pins) (kX : k .contexts) (kO : k .store) (kL : k .ledger) (kA : k .acquisition) (kM : k .measure) (kT : k .time) (kR : k .ring) (kV : k .passport) (kB : k .calibration) (kH : k .thermal) (kY : k .memory) (kN : k .channels) (kK : k .link) (kW : k .convoy) (kQ : k .rosec) (kF : k .faults) (h3 : Keeps k r s3) : KeepsOut k r (@execWindowOpen a1 a2 s3) := by
  unfold execWindowOpen
  refine KeepsOut.next ?_
  refine State.hostWrite_keeps kD kC kS kP kX kO kL kA kM kT kR kV kB kH kY kN kK kW kQ kF ?_
  assumption

theorem execAckBatch_keeps {r s3 : State} {a1 a2} (kD : k .device) (kC : k .clocks) (kS : k .sites) (kP : k .pins) (kX : k .contexts) (kO : k .store) (kL : k .ledger) (kA : k .acquisition) (kM : k .measure) (kT : k .time) (kR : k .ring) (kV : k .passport) (kB : k .calibration) (kH : k .thermal) (kY : k .memory) (kN : k .channels) (kK : k .link) (kW : k .convoy) (kQ : k .rosec) (kF : k .faults) (h3 : Keeps k r s3) : KeepsOut k r (@execAckBatch a1 a2 s3) := by
  unfold execAckBatch
  refine KeepsOut.next ?_
  refine State.hostWrite_keeps kD kC kS kP kX kO kL kA kM kT kR kV kB kH kY kN kK kW kQ kF ?_
  assumption

theorem execCoeffs_keeps {r s3 : State} {a1 a2} (kD : k .device) (kC : k .clocks) (kS : k .sites) (kP : k .pins) (kX : k .contexts) (kO : k .store) (kL : k .ledger) (kA : k .acquisition) (kM : k .measure) (kT : k .time) (kR : k .ring) (kV : k .passport) (kB : k .calibration) (kH : k .thermal) (kY : k .memory) (kN : k .channels) (kK : k .link) (kW : k .convoy) (kQ : k .rosec) (kF : k .faults) (h3 : Keeps k r s3) : KeepsOut k r (@execCoeffs a1 a2 s3) := by
  unfold execCoeffs
  refine KeepsOut.next ?_
  refine State.hostWhole_keeps kD kC kS kP kX kO kL kA kM kT kR kV kB kH kY kN kK kW kQ kF ?_
  assumption

theorem execBlobImport_keeps {r s3 : State} {a1 a2} (kD : k .device) (kC : k .clocks) (kS : k .sites) (kP : k .pins) (kX : k .contexts) (kO : k .store) (kL : k .ledger) (kA : k .acquisition) (kM : k .measure) (kT : k .time) (kR : k .ring) (kV : k .passport) (kB : k .calibration) (kH : k .thermal) (kY : k .memory) (kN : k .channels) (kK : k .link) (kW : k .convoy) (kQ : k .rosec) (kF : k .faults) (h3 : Keeps k r s3) : KeepsOut k r (@execBlobImport a1 a2 s3) := by
  unfold execBlobImport
  refine KeepsOut.next ?_
  refine State.hostWhole_keeps kD kC kS kP kX kO kL kA kM kT kR kV kB kH kY kN kK kW kQ kF ?_
  assumption

theorem execBlobExport_keeps {r s2 : State} {a1} (kD : k .device) (kC : k .clocks) (kS : k .sites) (kP : k .pins) (kX : k .contexts) (kO : k .store) (kL : k .ledger) (kA : k .acquisition) (kM : k .measure) (kT : k .time) (kR : k .ring) (kV : k .passport) (kB : k .calibration) (kH : k .thermal) (kY : k .memory) (kN : k .channels) (kK : k .link) (kW : k .convoy) (kQ : k .rosec) (kF : k .faults) (h2 : Keeps k r s2) : KeepsOut k r (@execBlobExport a1 s2) := by
  unfold execBlobExport
  refine KeepsOut.next ?_
  refine State.serve_keeps kD kC kS kP kX kO kL kA kM kT kR kV kB kH kY kN kK kW kQ kF ?_ (fun _ _ => ?_)
  · assumption
  · exact State.uploadBody_keeps kS kA kQ (by assumption)

theorem execCalCancel_keeps {r s2 : State} {a1} (kD : k .device) (kC : k .clocks) (kS : k .sites) (kP : k .pins) (kX : k .contexts) (kO : k .store) (kL : k .ledger) (kA : k .acquisition) (kM : k .measure) (kT : k .time) (kR : k .ring) (kV : k .passport) (kB : k .calibration) (kH : k .thermal) (kY : k .memory) (kN : k .channels) (kK : k .link) (kW : k .convoy) (kQ : k .rosec) (kF : k .faults) (h2 : Keeps k r s2) : KeepsOut k r (@execCalCancel a1 s2) := by
  unfold execCalCancel
  refine KeepsOut.next ?_
  refine State.hostWrite_keeps kD kC kS kP kX kO kL kA kM kT kR kV kB kH kY kN kK kW kQ kF ?_
  assumption

theorem execCalStart_keeps {r s2 : State} {a1} (kD : k .device) (kC : k .clocks) (kS : k .sites) (kP : k .pins) (kX : k .contexts) (kO : k .store) (kL : k .ledger) (kA : k .acquisition) (kM : k .measure) (kT : k .time) (kR : k .ring) (kV : k .passport) (kB : k .calibration) (kH : k .thermal) (kY : k .memory) (kN : k .channels) (kK : k .link) (kW : k .convoy) (kQ : k .rosec) (kF : k .faults) (h2 : Keeps k r s2) : KeepsOut k r (@execCalStart a1 s2) := by
  unfold execCalStart
  refine KeepsOut.next ?_
  refine State.hostWrite_keeps kD kC kS kP kX kO kL kA kM kT kR kV kB kH kY kN kK kW kQ kF ?_
  assumption

theorem execTimeSet_keeps {r s3 : State} {a1 a2} (kD : k .device) (kC : k .clocks) (kS : k .sites) (kP : k .pins) (kX : k .contexts) (kO : k .store) (kL : k .ledger) (kA : k .acquisition) (kM : k .measure) (kT : k .time) (kR : k .ring) (kV : k .passport) (kB : k .calibration) (kH : k .thermal) (kY : k .memory) (kN : k .channels) (kK : k .link) (kW : k .convoy) (kQ : k .rosec) (kF : k .faults) (h3 : Keeps k r s3) : KeepsOut k r (@execTimeSet a1 a2 s3) := by
  unfold execTimeSet
  refine KeepsOut.next ?_
  refine State.hostWhole_keeps kD kC kS kP kX kO kL kA kM kT kR kV kB kH kY kN kK kW kQ kF ?_
  assumption

theorem execRateSet_keeps {r s3 : State} {a1 a2} (kD : k .device) (kC : k .clocks) (kS : k .sites) (kP : k .pins) (kX : k .contexts) (kO : k .store) (kL : k .ledger) (kA : k .acquisition) (kM : k .measure) (kT : k .time) (kR : k .ring) (kV : k .passport) (kB : k .calibration) (kH : k .thermal) (kY : k .memory) (kN : k .channels) (kK : k .link) (kW : k .convoy) (kQ : k .rosec) (kF : k .faults) (h3 : Keeps k r s3) : KeepsOut k r (@execRateSet a1 a2 s3) := by
  unfold execRateSet
  refine KeepsOut.next ?_
  refine State.hostWrite_keeps kD kC kS kP kX kO kL kA kM kT kR kV kB kH kY kN kK kW kQ kF ?_
  assumption

theorem execOffsetAdj_keeps {r s3 : State} {a1 a2} (kD : k .device) (kC : k .clocks) (kS : k .sites) (kP : k .pins) (kX : k .contexts) (kO : k .store) (kL : k .ledger) (kA : k .acquisition) (kM : k .measure) (kT : k .time) (kR : k .ring) (kV : k .passport) (kB : k .calibration) (kH : k .thermal) (kY : k .memory) (kN : k .channels) (kK : k .link) (kW : k .convoy) (kQ : k .rosec) (kF : k .faults) (h3 : Keeps k r s3) : KeepsOut k r (@execOffsetAdj a1 a2 s3) := by
  unfold execOffsetAdj
  refine KeepsOut.next ?_
  refine State.hostWrite_keeps kD kC kS kP kX kO kL kA kM kT kR kV kB kH kY kN kK kW kQ kF ?_
  assumption

theorem execWake_keeps {r s2 : State} {a1} (kD : k .device) (kC : k .clocks) (kS : k .sites) (kP : k .pins) (kX : k .contexts) (kO : k .store) (kL : k .ledger) (kA : k .acquisition) (kM : k .measure) (kT : k .time) (kR : k .ring) (kV : k .passport) (kB : k .calibration) (kH : k .thermal) (kY : k .memory) (kN : k .channels) (kK : k .link) (kW : k .convoy) (kQ : k .rosec) (kF : k .faults) (h2 : Keeps k r s2) : KeepsOut k r (@execWake a1 s2) := by
  unfold execWake
  refine KeepsOut.next ?_
  refine State.hostWrite_keeps kD kC kS kP kX kO kL kA kM kT kR kV kB kH kY kN kK kW kQ kF ?_
  assumption

theorem execSleep_keeps {r s2 : State} {a1} (kD : k .device) (kC : k .clocks) (kS : k .sites) (kP : k .pins) (kX : k .contexts) (kO : k .store) (kL : k .ledger) (kA : k .acquisition) (kM : k .measure) (kT : k .time) (kR : k .ring) (kV : k .passport) (kB : k .calibration) (kH : k .thermal) (kY : k .memory) (kN : k .channels) (kK : k .link) (kW : k .convoy) (kQ : k .rosec) (kF : k .faults) (h2 : Keeps k r s2) : KeepsOut k r (@execSleep a1 s2) := by
  unfold execSleep
  refine KeepsOut.next ?_
  refine State.hostWrite_keeps kD kC kS kP kX kO kL kA kM kT kR kV kB kH kY kN kK kW kQ kF ?_
  assumption

theorem execWarmStart_keeps {r s2 : State} {a1} (kD : k .device) (kC : k .clocks) (kS : k .sites) (kP : k .pins) (kX : k .contexts) (kO : k .store) (kL : k .ledger) (kA : k .acquisition) (kM : k .measure) (kT : k .time) (kR : k .ring) (kV : k .passport) (kB : k .calibration) (kH : k .thermal) (kY : k .memory) (kN : k .channels) (kK : k .link) (kW : k .convoy) (kQ : k .rosec) (kF : k .faults) (h2 : Keeps k r s2) : KeepsOut k r (@execWarmStart a1 s2) := by
  unfold execWarmStart
  refine KeepsOut.next ?_
  refine State.hostWrite_keeps kD kC kS kP kX kO kL kA kM kT kR kV kB kH kY kN kK kW kQ kF ?_
  assumption

theorem execColdStart_keeps {r s2 : State} {a1} (kD : k .device) (kC : k .clocks) (kS : k .sites) (kP : k .pins) (kX : k .contexts) (kO : k .store) (kL : k .ledger) (kA : k .acquisition) (kM : k .measure) (kT : k .time) (kR : k .ring) (kV : k .passport) (kB : k .calibration) (kH : k .thermal) (kY : k .memory) (kN : k .channels) (kK : k .link) (kW : k .convoy) (kQ : k .rosec) (kF : k .faults) (h2 : Keeps k r s2) : KeepsOut k r (@execColdStart a1 s2) := by
  unfold execColdStart
  refine KeepsOut.next ?_
  refine State.hostWrite_keeps kD kC kS kP kX kO kL kA kM kT kR kV kB kH kY kN kK kW kQ kF ?_
  assumption

theorem execDiscover_keeps {r s2 : State} {a1} (kD : k .device) (kC : k .clocks) (kS : k .sites) (kP : k .pins) (kX : k .contexts) (kO : k .store) (kL : k .ledger) (kA : k .acquisition) (kM : k .measure) (kT : k .time) (kR : k .ring) (kV : k .passport) (kB : k .calibration) (kH : k .thermal) (kY : k .memory) (kN : k .channels) (kK : k .link) (kW : k .convoy) (kQ : k .rosec) (kF : k .faults) (h2 : Keeps k r s2) : KeepsOut k r (@execDiscover a1 s2) := by
  unfold execDiscover
  refine KeepsOut.next ?_
  refine State.serve_keeps kD kC kS kP kX kO kL kA kM kT kR kV kB kH kY kN kK kW kQ kF ?_ (fun _ _ => ?_)
  · assumption
  · exact State.discoverBody_keeps (by assumption)

theorem execNegotiate_keeps {r s3 : State} {a1 a2} (kD : k .device) (kC : k .clocks) (kS : k .sites) (kP : k .pins) (kX : k .contexts) (kO : k .store) (kL : k .ledger) (kA : k .acquisition) (kM : k .measure) (kT : k .time) (kR : k .ring) (kV : k .passport) (kB : k .calibration) (kH : k .thermal) (kY : k .memory) (kN : k .channels) (kK : k .link) (kW : k .convoy) (kQ : k .rosec) (kF : k .faults) (h3 : Keeps k r s3) : KeepsOut k r (@execNegotiate a1 a2 s3) := by
  unfold execNegotiate
  refine KeepsOut.next ?_
  refine State.serve_keeps kD kC kS kP kX kO kL kA kM kT kR kV kB kH kY kN kK kW kQ kF ?_ (fun _ _ => ?_)
  · assumption
  · exact State.negotiateBody_keeps (by assumption)

theorem execNotifyRetry_keeps {r s2 : State} {a1} (kR : k .ring) (kQ : k .rosec) (h2 : Keeps k r s2) : KeepsOut k r (@execNotifyRetry a1 s2) := by
  unfold execNotifyRetry
  split
  · refine Keeps.out_ite (fun _ => ?_) fun _ => ?_
    · exact KeepsOut.next (by assumption)
    refine Keeps.out_ite (fun _ => ?_) fun _ => ?_
    · exact KeepsOut.next (State.sendNotify_keeps kR (State.modRosec_keeps kQ (by assumption)))
    exact KeepsOut.next (State.raise_keeps (State.bump_keeps (State.modRosec_keeps kQ (by assumption))))
  exact KeepsOut.next (by assumption)

theorem execNotifyConfirm_keeps {r s3 : State} {a1 a2} (kQ : k .rosec) (h3 : Keeps k r s3) : KeepsOut k r (@execNotifyConfirm a1 a2 s3) := by
  unfold execNotifyConfirm
  refine Keeps.out_ite (fun _ => ?_) fun _ => ?_
  · exact KeepsOut.next (by assumption)
  refine Keeps.out_ite (fun _ => ?_) fun _ => ?_
  · exact KeepsOut.next (State.modRosec_keeps kQ (by assumption))
  exact KeepsOut.next (State.bump_keeps (by assumption))

theorem execPublication_keeps {r s2 : State} {a1} (kR : k .ring) (kQ : k .rosec) (h2 : Keeps k r s2) : KeepsOut k r (@execPublication a1 s2) := by
  unfold execPublication
  split
  · refine Keeps.out_ite (fun _ => ?_) fun _ => ?_
    · exact KeepsOut.next (by assumption)
    exact KeepsOut.next (State.originate_keeps kR (State.modRosec_keeps kQ (by assumption)))
  exact KeepsOut.next (by assumption)

theorem execUnsubscribe_keeps {r s4 : State} {a1 a2 a3} (kD : k .device) (kC : k .clocks) (kS : k .sites) (kP : k .pins) (kX : k .contexts) (kO : k .store) (kL : k .ledger) (kA : k .acquisition) (kM : k .measure) (kT : k .time) (kR : k .ring) (kV : k .passport) (kB : k .calibration) (kH : k .thermal) (kY : k .memory) (kN : k .channels) (kK : k .link) (kW : k .convoy) (kQ : k .rosec) (kF : k .faults) (h4 : Keeps k r s4) : KeepsOut k r (@execUnsubscribe a1 a2 a3 s4) := by
  unfold execUnsubscribe
  refine KeepsOut.next ?_
  refine State.serve_keeps kD kC kS kP kX kO kL kA kM kT kR kV kB kH kY kN kK kW kQ kF ?_ (fun _ _ => ?_)
  · assumption
  · exact State.unsubscribeBody_keeps kQ (by assumption)

theorem execSubscribe_keeps {r s5 : State} {a1 a2 a3 a4} (kD : k .device) (kC : k .clocks) (kS : k .sites) (kP : k .pins) (kX : k .contexts) (kO : k .store) (kL : k .ledger) (kA : k .acquisition) (kM : k .measure) (kT : k .time) (kR : k .ring) (kV : k .passport) (kB : k .calibration) (kH : k .thermal) (kY : k .memory) (kN : k .channels) (kK : k .link) (kW : k .convoy) (kQ : k .rosec) (kF : k .faults) (h5 : Keeps k r s5) : KeepsOut k r (@execSubscribe a1 a2 a3 a4 s5) := by
  unfold execSubscribe
  refine KeepsOut.next (State.serve_keeps kD kC kS kP kX kO kL kA kM kT kR kV kB kH kY kN kK kW kQ kF h5 fun _ h => ?_)
  split
  · exact State.unsubscribeBody_keeps kQ h
  · exact State.subscribeBody_keeps kQ h

theorem execUploadRelease_keeps {r s3 : State} {a1 a2} (kQ : k .rosec) (h3 : Keeps k r s3) : KeepsOut k r (@execUploadRelease a1 a2 s3) := by
  unfold execUploadRelease
  split
  · refine Keeps.out_ite (fun _ => ?_) fun _ => ?_
    · exact KeepsOut.next (State.modRosec_keeps kQ (State.closeUpload_keeps kQ (by assumption)))
    exact KeepsOut.next (by assumption)
  exact KeepsOut.next (by assumption)

theorem execSegmentAbandon_keeps {r s3 : State} {a1 a2} (kQ : k .rosec) (h3 : Keeps k r s3) : KeepsOut k r (@execSegmentAbandon a1 a2 s3) := by
  unfold execSegmentAbandon
  split
  · refine Keeps.out_ite (fun _ => ?_) fun _ => ?_
    · exact KeepsOut.next (State.modRosec_keeps kQ (State.bump_keeps (State.forget_keeps kQ (State.closeTransfer_keeps kQ (by assumption)))))
    exact KeepsOut.next (by assumption)
  exact KeepsOut.next (by assumption)

theorem execAbort_keeps {r s5 : State} {a1 a2 a3 a4} (kD : k .device) (kC : k .clocks) (kS : k .sites) (kP : k .pins) (kX : k .contexts) (kO : k .store) (kL : k .ledger) (kA : k .acquisition) (kM : k .measure) (kT : k .time) (kR : k .ring) (kV : k .passport) (kB : k .calibration) (kH : k .thermal) (kY : k .memory) (kN : k .channels) (kK : k .link) (kW : k .convoy) (kQ : k .rosec) (kF : k .faults) (h5 : Keeps k r s5) : KeepsOut k r (@execAbort a1 a2 a3 a4 s5) := by
  unfold execAbort
  refine KeepsOut.next ?_
  refine State.serve_keeps kD kC kS kP kX kO kL kA kM kT kR kV kB kH kY kN kK kW kQ kF ?_ (fun _ _ => ?_)
  · assumption
  · exact State.abortBody_keeps kQ (by assumption)

theorem execSegmentUpload_keeps {r s6 : State} {a1 a2 a3 a4 a5} (kD : k .device) (kC : k .clocks) (kS : k .sites) (kP : k .pins) (kX : k .contexts) (kO : k .store) (kL : k .ledger) (kA : k .acquisition) (kM : k .measure) (kT : k .time) (kR : k .ring) (kV : k .passport) (kB : k .calibration) (kH : k .thermal) (kY : k .memory) (kN : k .channels) (kK : k .link) (kW : k .convoy) (kQ : k .rosec) (kF : k .faults) (h6 : Keeps k r s6) : KeepsOut k r (@execSegmentUpload a1 a2 a3 a4 a5 s6) := by
  unfold execSegmentUpload
  refine KeepsOut.next ?_
  refine State.serve_keeps kD kC kS kP kX kO kL kA kM kT kR kV kB kH kY kN kK kW kQ kF ?_ (fun _ _ => ?_)
  · assumption
  · exact State.uploadBody_keeps kS kA kQ (by assumption)

theorem execSegment_keeps {r s8 : State} {a1 a2 a3 a4 a5 a6 a7} (kD : k .device) (kC : k .clocks) (kS : k .sites) (kP : k .pins) (kX : k .contexts) (kO : k .store) (kL : k .ledger) (kA : k .acquisition) (kM : k .measure) (kT : k .time) (kR : k .ring) (kV : k .passport) (kB : k .calibration) (kH : k .thermal) (kY : k .memory) (kN : k .channels) (kK : k .link) (kW : k .convoy) (kQ : k .rosec) (kF : k .faults) (h8 : Keeps k r s8) : KeepsOut k r (@execSegment a1 a2 a3 a4 a5 a6 a7 s8) := by
  unfold execSegment
  refine KeepsOut.next ?_
  refine State.hostSegment_keeps kD kC kS kP kX kO kL kA kM kT kR kV kB kH kY kN kK kW kQ kF ?_
  assumption

theorem execWrite_keeps {r s5 : State} {a1 a2 a3 a4} (kD : k .device) (kC : k .clocks) (kS : k .sites) (kP : k .pins) (kX : k .contexts) (kO : k .store) (kL : k .ledger) (kA : k .acquisition) (kM : k .measure) (kT : k .time) (kR : k .ring) (kV : k .passport) (kB : k .calibration) (kH : k .thermal) (kY : k .memory) (kN : k .channels) (kK : k .link) (kW : k .convoy) (kQ : k .rosec) (kF : k .faults) (h5 : Keeps k r s5) : KeepsOut k r (@execWrite a1 a2 a3 a4 s5) := by
  unfold execWrite
  refine KeepsOut.next ?_
  refine State.hostWrite_keeps kD kC kS kP kX kO kL kA kM kT kR kV kB kH kY kN kK kW kQ kF ?_
  assumption

theorem execRead_keeps {r s4 : State} {a1 a2 a3} (kD : k .device) (kC : k .clocks) (kS : k .sites) (kP : k .pins) (kX : k .contexts) (kO : k .store) (kL : k .ledger) (kA : k .acquisition) (kM : k .measure) (kT : k .time) (kR : k .ring) (kV : k .passport) (kB : k .calibration) (kH : k .thermal) (kY : k .memory) (kN : k .channels) (kK : k .link) (kW : k .convoy) (kQ : k .rosec) (kF : k .faults) (h4 : Keeps k r s4) : KeepsOut k r (@execRead a1 a2 a3 s4) := by
  unfold execRead
  refine KeepsOut.next ?_
  refine State.hostRead_keeps kD kC kS kP kX kO kL kA kM kT kR kV kB kH kY kN kK kW kQ kF ?_
  assumption

theorem execAlign_keeps {r s2 : State} {a1} (kD : k .device) (kC : k .clocks) (kS : k .sites) (kP : k .pins) (kX : k .contexts) (kO : k .store) (kL : k .ledger) (kA : k .acquisition) (kM : k .measure) (kT : k .time) (kR : k .ring) (kV : k .passport) (kB : k .calibration) (kH : k .thermal) (kY : k .memory) (kN : k .channels) (kK : k .link) (kW : k .convoy) (kQ : k .rosec) (kF : k .faults) (h2 : Keeps k r s2) : KeepsOut k r (@execAlign a1 s2) := by
  unfold execAlign
  refine KeepsOut.next ?_
  refine State.hostWrite_keeps kD kC kS kP kX kO kL kA kM kT kR kV kB kH kY kN kK kW kQ kF ?_
  assumption

theorem execWidthChoice_keeps {r s3 : State} {a1 a2} (kD : k .device) (kC : k .clocks) (kS : k .sites) (kP : k .pins) (kX : k .contexts) (kO : k .store) (kL : k .ledger) (kA : k .acquisition) (kM : k .measure) (kT : k .time) (kR : k .ring) (kV : k .passport) (kB : k .calibration) (kH : k .thermal) (kY : k .memory) (kN : k .channels) (kK : k .link) (kW : k .convoy) (kQ : k .rosec) (kF : k .faults) (h3 : Keeps k r s3) : KeepsOut k r (@execWidthChoice a1 a2 s3) := by
  unfold execWidthChoice
  refine KeepsOut.next ?_
  refine State.hostWrite_keeps kD kC kS kP kX kO kL kA kM kT kR kV kB kH kY kN kK kW kQ kF ?_
  assumption

theorem execRestore_keeps {r s3 : State} {a1 a2} (kD : k .device) (kC : k .clocks) (kS : k .sites) (kP : k .pins) (kX : k .contexts) (kO : k .store) (kL : k .ledger) (kA : k .acquisition) (kM : k .measure) (kT : k .time) (kR : k .ring) (kV : k .passport) (kB : k .calibration) (kH : k .thermal) (kY : k .memory) (kN : k .channels) (kK : k .link) (kW : k .convoy) (kQ : k .rosec) (kF : k .faults) (h3 : Keeps k r s3) : KeepsOut k r (@execRestore a1 a2 s3) := by
  unfold execRestore
  refine KeepsOut.next ?_
  refine State.hostWrite_keeps kD kC kS kP kX kO kL kA kM kT kR kV kB kH kY kN kK kW kQ kF ?_
  assumption

theorem execTraining_keeps {r s4 : State} {a1 a2 a3} (kD : k .device) (kC : k .clocks) (kS : k .sites) (kP : k .pins) (kX : k .contexts) (kO : k .store) (kL : k .ledger) (kA : k .acquisition) (kM : k .measure) (kT : k .time) (kR : k .ring) (kV : k .passport) (kB : k .calibration) (kH : k .thermal) (kY : k .memory) (kN : k .channels) (kK : k .link) (kW : k .convoy) (kQ : k .rosec) (kF : k .faults) (h4 : Keeps k r s4) : KeepsOut k r (@execTraining a1 a2 a3 s4) := by
  unfold execTraining
  refine KeepsOut.next ?_
  refine State.hostWhole_keeps kD kC kS kP kX kO kL kA kM kT kR kV kB kH kY kN kK kW kQ kF ?_
  assumption

theorem execHostTrigger_keeps {r s4 : State} {a1 a2 a3} (kD : k .device) (kC : k .clocks) (kS : k .sites) (kP : k .pins) (kX : k .contexts) (kO : k .store) (kL : k .ledger) (kA : k .acquisition) (kM : k .measure) (kT : k .time) (kR : k .ring) (kV : k .passport) (kB : k .calibration) (kH : k .thermal) (kY : k .memory) (kN : k .channels) (kK : k .link) (kW : k .convoy) (kQ : k .rosec) (kF : k .faults) (h4 : Keeps k r s4) : KeepsOut k r (@execHostTrigger a1 a2 a3 s4) := by
  unfold execHostTrigger
  refine KeepsOut.next ?_
  refine State.hostWrite_keeps kD kC kS kP kX kO kL kA kM kT kR kV kB kH kY kN kK kW kQ kF ?_
  assumption

theorem execTuDisarm_keeps {r s3 : State} {a1 a2} (kD : k .device) (kC : k .clocks) (kS : k .sites) (kP : k .pins) (kX : k .contexts) (kO : k .store) (kL : k .ledger) (kA : k .acquisition) (kM : k .measure) (kT : k .time) (kR : k .ring) (kV : k .passport) (kB : k .calibration) (kH : k .thermal) (kY : k .memory) (kN : k .channels) (kK : k .link) (kW : k .convoy) (kQ : k .rosec) (kF : k .faults) (h3 : Keeps k r s3) : KeepsOut k r (@execTuDisarm a1 a2 s3) := by
  unfold execTuDisarm
  refine KeepsOut.next ?_
  refine State.hostWrite_keeps kD kC kS kP kX kO kL kA kM kT kR kV kB kH kY kN kK kW kQ kF ?_
  assumption

theorem execTuFire_keeps {r s3 : State} {a1 a2} (kD : k .device) (kC : k .clocks) (kS : k .sites) (kP : k .pins) (kX : k .contexts) (kO : k .store) (kL : k .ledger) (kA : k .acquisition) (kM : k .measure) (kT : k .time) (kR : k .ring) (kV : k .passport) (kB : k .calibration) (kH : k .thermal) (kY : k .memory) (kN : k .channels) (kK : k .link) (kW : k .convoy) (kQ : k .rosec) (kF : k .faults) (h3 : Keeps k r s3) : KeepsOut k r (@execTuFire a1 a2 s3) := by
  unfold execTuFire
  refine KeepsOut.next ?_
  refine State.hostWrite_keeps kD kC kS kP kX kO kL kA kM kT kR kV kB kH kY kN kK kW kQ kF ?_
  assumption

theorem execTuArm_keeps {r s3 : State} {a1 a2} (kD : k .device) (kC : k .clocks) (kS : k .sites) (kP : k .pins) (kX : k .contexts) (kO : k .store) (kL : k .ledger) (kA : k .acquisition) (kM : k .measure) (kT : k .time) (kR : k .ring) (kV : k .passport) (kB : k .calibration) (kH : k .thermal) (kY : k .memory) (kN : k .channels) (kK : k .link) (kW : k .convoy) (kQ : k .rosec) (kF : k .faults) (h3 : Keeps k r s3) : KeepsOut k r (@execTuArm a1 a2 s3) := by
  unfold execTuArm
  refine KeepsOut.next ?_
  refine State.hostWrite_keeps kD kC kS kP kX kO kL kA kM kT kR kV kB kH kY kN kK kW kQ kF ?_
  assumption

theorem execMonEnable_keeps {r s3 : State} {a1 a2} (kD : k .device) (kC : k .clocks) (kS : k .sites) (kP : k .pins) (kX : k .contexts) (kO : k .store) (kL : k .ledger) (kA : k .acquisition) (kM : k .measure) (kT : k .time) (kR : k .ring) (kV : k .passport) (kB : k .calibration) (kH : k .thermal) (kY : k .memory) (kN : k .channels) (kK : k .link) (kW : k .convoy) (kQ : k .rosec) (kF : k .faults) (h3 : Keeps k r s3) : KeepsOut k r (@execMonEnable a1 a2 s3) := by
  unfold execMonEnable
  refine KeepsOut.next ?_
  refine State.hostWrite_keeps kD kC kS kP kX kO kL kA kM kT kR kV kB kH kY kN kK kW kQ kF ?_
  assumption

theorem execCustClear_keeps {r s2 : State} {a1} (kD : k .device) (kC : k .clocks) (kS : k .sites) (kP : k .pins) (kX : k .contexts) (kO : k .store) (kL : k .ledger) (kA : k .acquisition) (kM : k .measure) (kT : k .time) (kR : k .ring) (kV : k .passport) (kB : k .calibration) (kH : k .thermal) (kY : k .memory) (kN : k .channels) (kK : k .link) (kW : k .convoy) (kQ : k .rosec) (kF : k .faults) (h2 : Keeps k r s2) : KeepsOut k r (@execCustClear a1 s2) := by
  unfold execCustClear
  refine KeepsOut.next ?_
  refine State.hostWrite_keeps kD kC kS kP kX kO kL kA kM kT kR kV kB kH kY kN kK kW kQ kF ?_
  assumption

theorem execCustClose_keeps {r s2 : State} {a1} (kD : k .device) (kC : k .clocks) (kS : k .sites) (kP : k .pins) (kX : k .contexts) (kO : k .store) (kL : k .ledger) (kA : k .acquisition) (kM : k .measure) (kT : k .time) (kR : k .ring) (kV : k .passport) (kB : k .calibration) (kH : k .thermal) (kY : k .memory) (kN : k .channels) (kK : k .link) (kW : k .convoy) (kQ : k .rosec) (kF : k .faults) (h2 : Keeps k r s2) : KeepsOut k r (@execCustClose a1 s2) := by
  unfold execCustClose
  refine KeepsOut.next ?_
  refine State.hostWrite_keeps kD kC kS kP kX kO kL kA kM kT kR kV kB kH kY kN kK kW kQ kF ?_
  assumption

theorem execCustOpen_keeps {r s2 : State} {a1} (kD : k .device) (kC : k .clocks) (kS : k .sites) (kP : k .pins) (kX : k .contexts) (kO : k .store) (kL : k .ledger) (kA : k .acquisition) (kM : k .measure) (kT : k .time) (kR : k .ring) (kV : k .passport) (kB : k .calibration) (kH : k .thermal) (kY : k .memory) (kN : k .channels) (kK : k .link) (kW : k .convoy) (kQ : k .rosec) (kF : k .faults) (h2 : Keeps k r s2) : KeepsOut k r (@execCustOpen a1 s2) := by
  unfold execCustOpen
  refine KeepsOut.next ?_
  refine State.hostWrite_keeps kD kC kS kP kX kO kL kA kM kT kR kV kB kH kY kN kK kW kQ kF ?_
  assumption

theorem execHeader_keeps {r s3 : State} {a1 a2} (kD : k .device) (kC : k .clocks) (kS : k .sites) (kP : k .pins) (kX : k .contexts) (kO : k .store) (kL : k .ledger) (kA : k .acquisition) (kM : k .measure) (kT : k .time) (kR : k .ring) (kV : k .passport) (kB : k .calibration) (kH : k .thermal) (kY : k .memory) (kN : k .channels) (kK : k .link) (kW : k .convoy) (kQ : k .rosec) (kF : k .faults) (h3 : Keeps k r s3) : KeepsOut k r (@execHeader a1 a2 s3) := by
  unfold execHeader
  refine KeepsOut.next ?_
  refine State.hostWhole_keeps kD kC kS kP kX kO kL kA kM kT kR kV kB kH kY kN kK kW kQ kF ?_
  assumption

theorem execDisarm_keeps {r s3 : State} {a1 a2} (kD : k .device) (kC : k .clocks) (kS : k .sites) (kP : k .pins) (kX : k .contexts) (kO : k .store) (kL : k .ledger) (kA : k .acquisition) (kM : k .measure) (kT : k .time) (kR : k .ring) (kV : k .passport) (kB : k .calibration) (kH : k .thermal) (kY : k .memory) (kN : k .channels) (kK : k .link) (kW : k .convoy) (kQ : k .rosec) (kF : k .faults) (h3 : Keeps k r s3) : KeepsOut k r (@execDisarm a1 a2 s3) := by
  unfold execDisarm
  refine KeepsOut.next ?_
  refine State.commandSite_keeps kD kC kS kP kX kO kL kA kM kT kR kV kB kH kY kN kK kW kQ kF ?_
  assumption

theorem execSealHalted_keeps {r s3 : State} {a1 a2} (kD : k .device) (kC : k .clocks) (kS : k .sites) (kP : k .pins) (kX : k .contexts) (kO : k .store) (kL : k .ledger) (kA : k .acquisition) (kM : k .measure) (kT : k .time) (kR : k .ring) (kV : k .passport) (kB : k .calibration) (kH : k .thermal) (kY : k .memory) (kN : k .channels) (kK : k .link) (kW : k .convoy) (kQ : k .rosec) (kF : k .faults) (h3 : Keeps k r s3) : KeepsOut k r (@execSealHalted a1 a2 s3) := by
  unfold execSealHalted
  refine KeepsOut.next ?_
  refine State.commandSite_keeps kD kC kS kP kX kO kL kA kM kT kR kV kB kH kY kN kK kW kQ kF ?_
  assumption

theorem execRelease_keeps {r s3 : State} {a1 a2} (kD : k .device) (kC : k .clocks) (kS : k .sites) (kP : k .pins) (kX : k .contexts) (kO : k .store) (kL : k .ledger) (kA : k .acquisition) (kM : k .measure) (kT : k .time) (kR : k .ring) (kV : k .passport) (kB : k .calibration) (kH : k .thermal) (kY : k .memory) (kN : k .channels) (kK : k .link) (kW : k .convoy) (kQ : k .rosec) (kF : k .faults) (h3 : Keeps k r s3) : KeepsOut k r (@execRelease a1 a2 s3) := by
  unfold execRelease
  refine KeepsOut.next ?_
  refine State.commandSite_keeps kD kC kS kP kX kO kL kA kM kT kR kV kB kH kY kN kK kW kQ kF ?_
  assumption

theorem execReset_keeps {r s3 : State} {a1 a2} (kD : k .device) (kC : k .clocks) (kS : k .sites) (kP : k .pins) (kX : k .contexts) (kO : k .store) (kL : k .ledger) (kA : k .acquisition) (kM : k .measure) (kT : k .time) (kR : k .ring) (kV : k .passport) (kB : k .calibration) (kH : k .thermal) (kY : k .memory) (kN : k .channels) (kK : k .link) (kW : k .convoy) (kQ : k .rosec) (kF : k .faults) (h3 : Keeps k r s3) : KeepsOut k r (@execReset a1 a2 s3) := by
  unfold execReset
  refine KeepsOut.next ?_
  refine State.commandSite_keeps kD kC kS kP kX kO kL kA kM kT kR kV kB kH kY kN kK kW kQ kF ?_
  assumption

theorem execHaltCommand_keeps {r s3 : State} {a1 a2} (kD : k .device) (kC : k .clocks) (kS : k .sites) (kP : k .pins) (kX : k .contexts) (kO : k .store) (kL : k .ledger) (kA : k .acquisition) (kM : k .measure) (kT : k .time) (kR : k .ring) (kV : k .passport) (kB : k .calibration) (kH : k .thermal) (kY : k .memory) (kN : k .channels) (kK : k .link) (kW : k .convoy) (kQ : k .rosec) (kF : k .faults) (h3 : Keeps k r s3) : KeepsOut k r (@execHaltCommand a1 a2 s3) := by
  unfold execHaltCommand
  refine KeepsOut.next ?_
  refine State.commandSite_keeps kD kC kS kP kX kO kL kA kM kT kR kV kB kH kY kN kK kW kQ kF ?_
  assumption

theorem execStart_keeps {r s3 : State} {a1 a2} (kD : k .device) (kC : k .clocks) (kS : k .sites) (kP : k .pins) (kX : k .contexts) (kO : k .store) (kL : k .ledger) (kA : k .acquisition) (kM : k .measure) (kT : k .time) (kR : k .ring) (kV : k .passport) (kB : k .calibration) (kH : k .thermal) (kY : k .memory) (kN : k .channels) (kK : k .link) (kW : k .convoy) (kQ : k .rosec) (kF : k .faults) (h3 : Keeps k r s3) : KeepsOut k r (@execStart a1 a2 s3) := by
  unfold execStart
  refine KeepsOut.next ?_
  refine State.commandSite_keeps kD kC kS kP kX kO kL kA kM kT kR kV kB kH kY kN kK kW kQ kF ?_
  assumption

theorem execArm_keeps {r s3 : State} {a1 a2} (kD : k .device) (kC : k .clocks) (kS : k .sites) (kP : k .pins) (kX : k .contexts) (kO : k .store) (kL : k .ledger) (kA : k .acquisition) (kM : k .measure) (kT : k .time) (kR : k .ring) (kV : k .passport) (kB : k .calibration) (kH : k .thermal) (kY : k .memory) (kN : k .channels) (kK : k .link) (kW : k .convoy) (kQ : k .rosec) (kF : k .faults) (h3 : Keeps k r s3) : KeepsOut k r (@execArm a1 a2 s3) := by
  unfold execArm
  refine KeepsOut.next ?_
  refine State.commandSite_keeps kD kC kS kP kX kO kL kA kM kT kR kV kB kH kY kN kK kW kQ kF ?_
  assumption

theorem execLoad_keeps {r s3 : State} {a1 a2} (kD : k .device) (kC : k .clocks) (kS : k .sites) (kP : k .pins) (kX : k .contexts) (kO : k .store) (kL : k .ledger) (kA : k .acquisition) (kM : k .measure) (kT : k .time) (kR : k .ring) (kV : k .passport) (kB : k .calibration) (kH : k .thermal) (kY : k .memory) (kN : k .channels) (kK : k .link) (kW : k .convoy) (kQ : k .rosec) (kF : k .faults) (h3 : Keeps k r s3) : KeepsOut k r (@execLoad a1 a2 s3) := by
  unfold execLoad
  refine KeepsOut.next ?_
  refine State.commandSite_keeps kD kC kS kP kX kO kL kA kM kT kR kV kB kH kY kN kK kW kQ kF ?_
  assumption

theorem State.haltTick_keeps {r s1 : State} {a2} (kD : k .device) (kS : k .sites) (kP : k .pins) (kX : k .contexts) (kL : k .ledger) (kA : k .acquisition) (kM : k .measure) (kY : k .memory) (kN : k .channels) (kK : k .link) (kF : k .faults) (h1 : Keeps k r s1) : Keeps k r (@State.haltTick s1 a2) := by
  unfold State.haltTick
  refine Keeps.ite (fun _ => ?_) fun _ => ?_
  · refine Keeps.ite (fun _ => ?_) fun _ => ?_
    · refine Keeps.ite (fun _ => ?_) fun _ => ?_
      · refine State.cutWait_keeps kX ?_
        exact State.modSite_keeps kS (State.modSite_keeps kS (State.cutSite_keeps kS kP kM kN (by assumption)))
      refine State.haltSite_keeps kD kS kP kX kL kA kM kY kN kK kF ?_
      exact State.modSite_keeps kS (State.cutSite_keeps kS kP kM kN (by assumption))
    exact State.modSite_keeps kS (State.cutSite_keeps kS kP kM kN (by assumption))
  assumption

theorem State.deferredTick_keeps {r s1 : State} {a2} (kS : k .sites) (kP : k .pins) (kL : k .ledger) (kA : k .acquisition) (kM : k .measure) (kV : k .passport) (kN : k .channels) (h1 : Keeps k r s1) : Keeps k r (@State.deferredTick s1 a2) := by
  unfold State.deferredTick
  split
  · refine Keeps.ite (fun _ => ?_) fun _ => ?_
    · refine State.releaseNow_keeps kS kP kL kA kV kN ?_
      exact State.modSite_keeps kS (State.cutSite_keeps kS kP kM kN (by assumption))
    refine State.resetNow_keeps kS kP kL kA kV kN ?_
    exact State.modSite_keeps kS (State.cutSite_keeps kS kP kM kN (by assumption))
  assumption

theorem State.actTick_keeps {r s1 : State} {a2} (kD : k .device) (kS : k .sites) (kP : k .pins) (kX : k .contexts) (kL : k .ledger) (kA : k .acquisition) (kM : k .measure) (kV : k .passport) (kY : k .memory) (kN : k .channels) (kK : k .link) (kW : k .convoy) (kF : k .faults) (h1 : Keeps k r s1) : Keeps k r (@State.actTick s1 a2) := by
  unfold State.actTick
  refine State.judgeLead_keeps kD kS kP kX kL kA kM kY kN kK kW kF ?_
  refine State.deferredTick_keeps kS kP kL kA kM kV kN ?_
  exact State.haltTick_keeps kD kS kP kX kL kA kM kY kN kK kF (by assumption)

theorem State.takeStrobes_keeps {r s1 : State} {a2} (kS : k .sites) (kA : k .acquisition) (h1 : Keeps k r s1) : Keeps k r (@State.takeStrobes s1 a2) := by
  unfold State.takeStrobes
  refine State.modSite_keeps kS ?_
  refine Keeps.ite (fun _ => ?_) fun _ => ?_
  · assumption
  exact State.setCap_keeps kA (by assumption)

theorem State.commitFrame_keeps {r s1 : State} {a2} (kD : k .device) (kS : k .sites) (kP : k .pins) (kL : k .ledger) (kA : k .acquisition) (kT : k .time) (kY : k .memory) (kN : k .channels) (kK : k .link) (kF : k .faults) (h1 : Keeps k r s1) : Keeps k r (@State.commitFrame s1 a2) := by
  unfold State.commitFrame
  refine State.captureTick_keeps kD kS kP kL kA kT kY kN kK kF ?_
  exact State.takeStrobes_keeps kS kA (State.commitSite_keeps kS kP (by assumption))

theorem State.postFaults_keeps {r s1 : State} (kL : k .ledger) (kF : k .faults) (h1 : Keeps k r s1) : Keeps k r (@State.postFaults s1) := by
  unfold State.postFaults
  refine State.modHandler_keeps kF ?_
  refine Keeps.each ?_ fun _ _ _ => ?_
  · assumption
  exact State.postFault_keeps kL (State.free_keeps (by assumption))

theorem State.writeBook_keeps {r s1 : State} {a2 a3 a4 a5} (kR : k .ring) (kQ : k .rosec) (h1 : Keeps k r s1) : Keeps k r (@State.writeBook s1 a2 a3 a4 a5) := by
  unfold State.writeBook
  refine Keeps.ite (fun _ => ?_) fun _ => ?_
  · refine State.sendNotify_keeps kR ?_
    refine State.modRosec_keeps kQ ?_
    refine Keeps.put_ev ?_
    refine Keeps.ite (fun _ => ?_) fun _ => ?_
    · exact State.bump_keeps (by assumption)
    assumption
  refine Keeps.put_ev ?_
  refine Keeps.ite (fun _ => ?_) fun _ => ?_
  · exact State.bump_keeps (by assumption)
  assumption

theorem State.sampleSource_keeps {r s1 : State} {a2 a3} (kS : k .sites) (kA : k .acquisition) (kT : k .time) (kR : k .ring) (kQ : k .rosec) (h1 : Keeps k r s1) : Keeps k r (@State.sampleSource s1 a2 a3) := by
  unfold State.sampleSource
  refine Keeps.each ?_ fun _ _ _ => ?_
  · refine State.captureAll_keeps kT ?_
    refine Keeps.ite (fun _ => ?_) fun _ => ?_
    · refine State.modThread_keeps kS ?_
      refine Keeps.ite (fun _ => ?_) fun _ => ?_
      · exact Keeps.put_ev (by assumption)
      refine Keeps.ite (fun _ => ?_) fun _ => ?_
      · refine Keeps.each ?_ fun _ _ _ => ?_
        · exact Keeps.put_ev (by assumption)
        exact State.writeBook_keeps kR kQ (by assumption)
      exact State.writeBook_keeps kR kQ (Keeps.put_ev (by assumption))
    refine Keeps.ite (fun _ => ?_) fun _ => ?_
    · exact Keeps.put_ev (by assumption)
    refine Keeps.ite (fun _ => ?_) fun _ => ?_
    · refine Keeps.each ?_ fun _ _ _ => ?_
      · exact Keeps.put_ev (by assumption)
      exact State.writeBook_keeps kR kQ (by assumption)
    exact State.writeBook_keeps kR kQ (Keeps.put_ev (by assumption))
  refine Keeps.ite (fun _ => ?_) fun _ => ?_
  · exact State.setTu_keeps kA (by assumption)
  assumption

theorem State.sampleEvents_keeps {r s1 : State} (kS : k .sites) (kA : k .acquisition) (kT : k .time) (kR : k .ring) (kQ : k .rosec) (h1 : Keeps k r s1) : Keeps k r (@State.sampleEvents s1) := by
  unfold State.sampleEvents
  refine Keeps.each ?_ fun _ _ _ => ?_
  · exact Keeps.put_ev (by assumption)
  exact State.sampleSource_keeps kS kA kT kR kQ (by assumption)

theorem State.commitTick_keeps {r s1 : State} (kD : k .device) (kS : k .sites) (kP : k .pins) (kX : k .contexts) (kL : k .ledger) (kA : k .acquisition) (kM : k .measure) (kT : k .time) (kR : k .ring) (kV : k .passport) (kB : k .calibration) (kY : k .memory) (kN : k .channels) (kK : k .link) (kW : k .convoy) (kQ : k .rosec) (kF : k .faults) (h1 : Keeps k r s1) : Keeps k r (@State.commitTick s1) := by
  unfold State.commitTick
  refine State.convoyTick_keeps kD kS kP kX kL kA kM kY kN kK kW kF ?_
  refine State.calTick_keeps kB ?_
  refine State.innkeeperTick_keeps kD kS kP kX kL kA kM kV kY kN kK kF ?_
  refine State.postFaults_keeps kL kF ?_
  refine Keeps.each ?_ fun _ _ _ => ?_
  · refine State.sampleEvents_keeps kS kA kT kR kQ ?_
    refine State.timeTick_keeps kT ?_
    refine Keeps.each ?_ fun _ _ _ => ?_
    · refine State.publishAll_keeps kS kL kM ?_
      refine Keeps.each ?_ fun _ _ _ => ?_
      · assumption
      exact State.commitFrame_keeps kD kS kP kL kA kT kY kN kK kF (by assumption)
    exact State.formPending_keeps kS kL kV (by assumption)
  exact State.actTick_keeps kD kS kP kX kL kA kM kV kY kN kK kW kF (by assumption)

theorem State.holdInBeats_keeps {r s1 : State} (kK : k .link) (h1 : Keeps k r s1) : Keeps k r (@State.holdInBeats s1) := by
  unfold State.holdInBeats
  refine Keeps.ite (fun _ => ?_) fun _ => ?_
  · exact Keeps.put_sl kK (State.count_keeps (State.free_keeps (by assumption)))
  refine Keeps.ite (fun _ => ?_) fun _ => ?_
  · exact State.count_keeps (by assumption)
  assumption

theorem State.idleGroups_keeps {r s1 : State} (h1 : Keeps k r s1) : Keeps k r (@State.idleGroups s1) := by
  unfold State.idleGroups
  refine Keeps.ite (fun _ => ?_) fun _ => ?_
  · refine State.crossed_keeps ?_
    refine Keeps.ite (fun _ => ?_) fun _ => ?_
    · exact State.crossed_keeps (by assumption)
    assumption
  refine Keeps.ite (fun _ => ?_) fun _ => ?_
  · exact State.crossed_keeps (by assumption)
  assumption

theorem State.deviceTick_keeps {r s1 : State} (kD : k .device) (kP : k .pins) (kO : k .store) (kA : k .acquisition) (kV : k .passport) (kY : k .memory) (kN : k .channels) (kK : k .link) (kF : k .faults) (h1 : Keeps k r s1) : Keeps k r (@State.deviceTick s1) := by
  unfold State.deviceTick
  refine Keeps.ite (fun _ => ?_) fun _ => ?_
  · refine State.sendWaiting_keeps kD kA kN kK kF ?_
    refine State.pump_keeps kD kP kO kV kY kN kK kF ?_
    exact State.idleGroups_keeps (State.holdInBeats_keeps kK (State.setNat_keeps (by assumption)))
  refine State.refillPool_keeps kV ?_
  refine State.scrub_keeps kD kO kF ?_
  refine State.sendWaiting_keeps kD kA kN kK kF ?_
  refine State.pump_keeps kD kP kO kV kY kN kK kF ?_
  exact State.idleGroups_keeps (State.holdInBeats_keeps kK (State.setNat_keeps (by assumption)))

theorem State.serialFrame_keeps {r s1 : State} {a2 a3} (kS : k .sites) (kP : k .pins) (h1 : Keeps k r s1) : Keeps k r (@State.serialFrame s1 a2 a3) := by
  unfold State.serialFrame
  try dsimp only
  split
  · split
    · exact State.serialStart_keeps kS kP (by assumption)
    assumption
  split
  · refine Keeps.ite (fun _ => ?_) fun _ => ?_
    · refine State.serialEnd_keeps kS kP ?_
      split
      · exact State.serialStart_keeps kS kP (by assumption)
      assumption
    refine State.serialAdvance_keeps kS kP ?_
    split
    · exact State.serialStart_keeps kS kP (by assumption)
    assumption
  refine State.serialAdvance_keeps kS kP ?_
  split
  · exact State.serialStart_keeps kS kP (by assumption)
  assumption

theorem State.endFrame_keeps {r s1 : State} {a2} (kD : k .device) (kS : k .sites) (kP : k .pins) (kL : k .ledger) (kA : k .acquisition) (kM : k .measure) (kY : k .memory) (kN : k .channels) (kK : k .link) (kF : k .faults) (h1 : Keeps k r s1) : Keeps k r (@State.endFrame s1 a2) := by
  unfold State.endFrame
  refine Keeps.ite (fun _ => ?_) fun _ => ?_
  · refine State.takeBeats_keeps kA ?_
    refine Keeps.each ?_ fun _ _ _ => ?_
    · exact State.judgeUntil_keeps kS kP (State.catchUp_keeps kD kS kP kL kA kM kY kN kK kF (by assumption))
    exact State.settlePin_keeps kP (State.serialFrame_keeps kS kP (by assumption))
  assumption

theorem State.evtTick_keeps {r s1 : State} {a2} (kP : k .pins) (kT : k .time) (h1 : Keeps k r s1) : Keeps k r (@State.evtTick s1 a2) := by
  unfold State.evtTick
  exact State.setEvt_keeps kP (State.evtFall_keeps kP kT (by assumption))

theorem State.frameEnds_keeps {r s1 : State} (kW : k .convoy) (h1 : Keeps k r s1) : Keeps k r (@State.frameEnds s1) := by
  refine h1.of_wf ⟨rfl, rfl, rfl, rfl⟩ (fun c => ?_)
    (fun p hp => by cases p <;> first | exact absurd (by assumption) hp | exact ⟨rfl, rfl, rfl⟩ | exact ⟨rfl, rfl⟩ | exact rfl)
  simp only [State.frameEnds, State.canonical, Bool.and_eq_true] at *
  simp only [c, true_and]
  decide

theorem State.leadTick_keeps {r s1 : State} {a2} (kS : k .sites) (kP : k .pins) (h1 : Keeps k r s1) : Keeps k r (@State.leadTick s1 a2) := by
  unfold State.leadTick
  refine Keeps.ite (fun _ => ?_) fun _ => ?_
  · refine Keeps.ite (fun _ => ?_) fun _ => ?_
    · refine State.raise_keeps ?_
      refine State.modSite_keeps kS ?_
      refine State.noteFetch_keeps kS kP ?_
      refine Keeps.each ?_ fun _ _ _ => ?_
      · refine Keeps.ite (fun _ => ?_) fun _ => ?_
        · exact State.setNat_keeps (State.modSite_keeps kS (by assumption))
        exact State.modSite_keeps kS (by assumption)
      refine Keeps.ite (fun _ => ?_) fun _ => ?_
      · assumption
      exact State.modPin_keeps kP (by assumption)
    refine State.noteFetch_keeps kS kP ?_
    refine Keeps.each ?_ fun _ _ _ => ?_
    · refine Keeps.ite (fun _ => ?_) fun _ => ?_
      · exact State.setNat_keeps (State.modSite_keeps kS (by assumption))
      exact State.modSite_keeps kS (by assumption)
    refine Keeps.ite (fun _ => ?_) fun _ => ?_
    · assumption
    exact State.modPin_keeps kP (by assumption)
  assumption

theorem State.moveClocks_keeps {r s1 : State} (kC : k .clocks) (kW : k .convoy) (h1 : Keeps k r s1) : Keeps k r (@State.moveClocks s1) := by
  unfold State.moveClocks
  split
  · refine Keeps.ite (fun _ => ?_) fun _ => ?_
    · exact State.alignEnds_keeps (Keeps.put_clk kC (Keeps.put_convoy kW (by assumption)))
    exact State.alignEnds_keeps (Keeps.put_clk kC (Keeps.put_convoy kW (by assumption)))
  exact Keeps.put_clk kC (by assumption)

theorem State.timeStart_keeps {r s1 : State} (kD : k .device) (h1 : Keeps k r s1) : Keeps k r (@State.timeStart s1) := by
  unfold State.timeStart
  refine Keeps.ite (fun _ => ?_) fun _ => ?_
  · exact Keeps.put_start kD (by assumption)
  assumption

theorem State.nextTick_keeps {r s1 : State} (kD : k .device) (kC : k .clocks) (kW : k .convoy) (h1 : Keeps k r s1) : Keeps k r (@State.nextTick s1) := by
  unfold State.nextTick
  exact State.timeStart_keeps kD (State.moveClocks_keeps kC kW (State.frameEnds_keeps kW (by assumption)))

theorem State.publishDue_keeps {r s1 : State} (kQ : k .rosec) (h1 : Keeps k r s1) : Keeps k r (@State.publishDue s1) := by
  unfold State.publishDue
  refine State.modRosec_keeps kQ ?_
  refine Keeps.ite (fun _ => ?_) fun _ => ?_
  · exact State.count_keeps (by assumption)
  assumption

theorem State.pinTick_keeps {r s1 : State} {a2} (kP : k .pins) (h1 : Keeps k r s1) : Keeps k r (@State.pinTick s1 a2) := by
  unfold State.pinTick
  exact State.modPin_keeps kP (by assumption)

theorem State.showTick_keeps {r s1 : State} {a2} (kS : k .sites) (h1 : Keeps k r s1) : Keeps k r (@State.showTick s1 a2) := by
  unfold State.showTick
  exact State.showSite_keeps kS (State.modSite_keeps kS (by assumption))

theorem State.openFrame_keeps {r s1 : State} (kD : k .device) (kS : k .sites) (kP : k .pins) (kO : k .store) (kA : k .acquisition) (kT : k .time) (kV : k .passport) (kY : k .memory) (kN : k .channels) (kK : k .link) (kQ : k .rosec) (kF : k .faults) (h1 : Keeps k r s1) : Keeps k r (@State.openFrame s1) := by
  unfold State.openFrame
  refine State.publishDue_keeps kQ ?_
  refine State.deviceTick_keeps kD kP kO kA kV kY kN kK kF ?_
  refine State.publishTime_keeps ?_
  refine Keeps.each ?_ fun _ _ _ => ?_
  · refine Keeps.each ?_ fun _ _ _ => ?_
    · refine Keeps.each ?_ fun _ _ _ => ?_
      · assumption
      exact State.showTick_keeps kS (State.leadTick_keeps kS kP (by assumption))
    exact State.pinTick_keeps kP (by assumption)
  exact State.evtTick_keeps kP kT (by assumption)

theorem execFrameTick_keeps {r s1 : State} (kD : k .device) (kC : k .clocks) (kS : k .sites) (kP : k .pins) (kX : k .contexts) (kO : k .store) (kL : k .ledger) (kA : k .acquisition) (kM : k .measure) (kT : k .time) (kR : k .ring) (kV : k .passport) (kB : k .calibration) (kY : k .memory) (kN : k .channels) (kK : k .link) (kW : k .convoy) (kQ : k .rosec) (kF : k .faults) (h1 : Keeps k r s1) : KeepsOut k r (@execFrameTick s1) := by
  unfold execFrameTick
  refine Keeps.out_ite (fun _ => ?_) fun _ => ?_
  · exact KeepsOut.next (by assumption)
  refine KeepsOut.next ?_
  refine State.openFrame_keeps kD kS kP kO kA kT kV kY kN kK kQ kF ?_
  refine State.commitTick_keeps kD kS kP kX kL kA kM kT kR kV kB kY kN kK kW kQ kF ?_
  refine State.nextTick_keeps kD kC kW ?_
  refine Keeps.each ?_ fun _ _ _ => ?_
  · assumption
  exact State.endFrame_keeps kD kS kP kL kA kM kY kN kK kF (by assumption)

end Sys2Proof.Machine
end

