-- ==== Sys2Proof/Laws/Reads.lean ====
section
/-! SUPPORT. Laws of reading vector memory: what a read asks of the state, and a sealed line read back. -/

namespace Sys2Proof.Machine

/-- The channels in use are channels. -/
theorem State.memPlace_lt (s : State) (addr : Nat) : (s.memPlace addr).1 < 2 := by
  have used : ∀ c ∈ s.chansUsed, c < 2 := by
    intro c h
    unfold State.chansUsed at h
    have := List.mem_of_mem_filter h
    simp only [List.mem_cons, List.not_mem_nil, or_false] at this
    omega
  have one : ∀ x i, natBits x i i < 2 := fun x i => by unfold natBits; simp; omega
  have head : s.chansUsed.headD 0 < 2 := by
    cases h : s.chansUsed with
    | nil => simp
    | cons c l => exact used c (by simp [h])
  unfold State.memPlace
  dsimp only
  repeat' split
  all_goals first | exact head | exact one _ _

/-- What a read of a line asks of the state: memory, BOOT_NONCE, the seal epoch and its floor. -/
structure SameSeals (s u : State) : Prop where
  mem : u.mem = s.mem
  held : u.held = s.held
  octs : u.octs = s.octs
  epoch : u.reg 0xC010 1 = s.reg 0xC010 1
  floor : u.reg 0xC010 2 = s.reg 0xC010 2

theorem SameSeals.refl (s : State) : SameSeals s s := ⟨rfl, rfl, rfl, rfl, rfl⟩

theorem SameSeals.trans {s t u : State} (h : SameSeals s t) (g : SameSeals t u) : SameSeals s u :=
  ⟨g.mem.trans h.mem, g.held.trans h.held, g.octs.trans h.octs, g.epoch.trans h.epoch, g.floor.trans h.floor⟩

/-- An attempt at a line asks nothing else. -/
theorem SameSeals.tryLine {s u : State} (h : SameSeals s u) (addr : Nat) (e : BitVec 640) : u.tryLine addr e = s.tryLine addr e := by
  unfold State.tryLine State.lineAt State.sealOk State.epochOf State.sealEpoch State.nInForce State.inForce State.nreg State.sealOf
    State.bootNonce State.oct
  simp only [h.mem, h.held, h.octs, h.epoch, h.floor]

/-- A counter of a subchannel is none of theirs. -/
theorem SameSeals.count (s : State) {i : Nat} (h : i < 0xC00F) (n : Nat) : SameSeals s (s.count i 8 n) :=
  have other : ∀ j, (s.count i 8 n).reg 0xC010 j = s.reg 0xC010 j := fun j => by
    have ne : objKey i 8 ≠ objKey 0xC010 j := by unfold objKey; omega
    show Table.get _ (Table.set _ s.regs (objKey i 8) _) (objKey 0xC010 j) = Table.get _ s.regs (objKey 0xC010 j)
    unfold Table.set
    split
    · exact Table.get_erase_of_ne _ ne _
    · exact Table.get_insert_of_ne _ _ ne _
  ⟨rfl, rfl, rfl, other 1, other 2⟩

theorem SameSeals.chan (s : State) (c : Nat) (x : Channel) : SameSeals s (s.setChan c x) := ⟨rfl, rfl, rfl, rfl, rfl⟩

theorem SameSeals.command (s : State) (c rank : Nat) (x : DramCmd) : SameSeals s (s.command c rank x) := ⟨rfl, rfl, rfl, rfl, rfl⟩

/-- A command to a row changes nothing that a read asks. -/
theorem SameSeals.touch (s : State) (addr : Nat) : SameSeals s (s.touch addr) := by
  unfold State.touch
  dsimp only
  refine SameSeals.trans ?_ (SameSeals.command _ _ _ _)
  have hc := s.memPlace_lt addr
  have each : ∀ (l : List (Nat × Nat)) (c : Nat) (u : State),
      SameSeals u (State.each l (fun s e => s.command c (e.1 / 32) (.precharge e.1)) u) := by
    intro l c
    induction l with
    | nil => exact SameSeals.refl
    | cons e l ih => exact fun u => (SameSeals.command u _ _ _).trans (ih _)
  unfold State.activate
  split
  · exact SameSeals.refl s
  · dsimp only
    have mark : ∀ (u : State) c b, SameSeals u (u.markRow c b) := by
      intro u c b
      unfold State.markRow
      dsimp only
      repeat' split
      all_goals exact ⟨rfl, rfl, rfl, rfl, rfl⟩
    refine SameSeals.trans ?_ (mark _ _ _)
    refine SameSeals.trans (SameSeals.trans ?_ (SameSeals.command _ _ _ _)) (SameSeals.chan _ _ _)
    unfold State.precharge
    dsimp only
    refine SameSeals.trans (SameSeals.trans ?_ (SameSeals.count _ (by omega) _)) (SameSeals.count _ (by omega) _)
    exact (each _ _ _).trans (SameSeals.chan _ _ _)

@[simp] theorem State.tryLine_touch (s : State) (a addr : Nat) (e : BitVec 640) : (s.touch a).tryLine addr e = s.tryLine addr e :=
  (SameSeals.touch s a).tryLine addr e

/-- A line read whose first attempt finds nothing to correct (R270). -/
theorem State.readLine_good {s : State} {addr : Nat} {flips : Flips} {ws : List Codeword} (hc : addr < s.memCapacity)
    (hf : s.fenced addr = false) (h : s.tryLine addr (flips.getD 0 0) = .good ws 0) : s.readLine addr flips = (ws, s.touch addr) := by
  unfold State.readLine
  rw [if_neg (by omega), if_neg (by simp [hf])]
  dsimp only
  rw [State.tryLine_touch, h]
  exact congrArg (Prod.mk ws) (if_neg (Nat.lt_irrefl 0))

/-- A codeword read from such a line. -/
theorem State.readWord_good {s : State} {addr : Nat} {ws : List Codeword} (hc : 64 * (addr / 64) < s.memCapacity)
    (hf : s.fenced (64 * (addr / 64)) = false) (h : s.tryLine (64 * (addr / 64)) 0 = .good ws 0) :
    s.readWord addr = (ws.getD (addr / 8 % 8) {}, s.touch (64 * (addr / 64))) := by
  unfold State.readWord
  rw [State.readLine_good (flips := []) hc hf (by rw [List.getD_nil]; exact h)]

/-- A sealed line of eight sound codewords is found good (R269, R270). -/
theorem State.tryLine_sealed {s : State} {addr e : Nat} {l : Line} (h : s.lineAt addr = some l)
    (hw : (List.range 8).map (fun k => { (l.flip 0).words.getD k {} with poison := natBit (l.flip 0).md.toNat k }) = l.words)
    (hg : (l.words.all fun w => !w.poison && syndrome w == 0) = true)
    (hm : (l.flip 0).md = l.md) (hk : (l.flip 0).tag = l.tag) (he : s.epochOf (bits l.md 23 16) = some e) (ht : l.tag = s.sealOf addr e l.md l.words) :
    s.tryLine addr 0 = .good l.words 0 := by
  have hg' : ∀ w ∈ l.words, w.poison = false ∧ syndrome w = 0 := by simpa using hg
  have hs : ∀ w ∈ l.words, checkWord w = .good w.data := fun w h => by simp [checkWord, hg' w h]
  have hf : l.words.map fixWord = l.words := by
    conv_rhs => rw [← List.map_id l.words]
    exact List.map_congr_left fun w h => by simp [fixWord, hs w h]
  unfold State.tryLine
  rw [h]
  dsimp only
  rw [hw, if_neg, hf, if_pos, List.filter_eq_nil_iff.mpr]
  · rfl
  · intro w h
    simp [hs w h]
  · unfold State.sealOk
    rw [hm, he, hk]
    simp only [ht]
    exact beq_self_eq_true _
  · simp only [Bool.not_eq_true, List.any_eq_false]
    intro w h
    simp [hs w h, Checked.ok]

/-- With no error, an attempt sees the seal and the metadata as they stand. -/
theorem Line.flip_zero (l : Line) : (l.flip 0).tag = l.tag ∧ (l.flip 0).md = l.md := by
  constructor
  · show l.tag ^^^ _ = l.tag
    rw [show (BitVec.ofNat 32 ((List.range 4).map fun k => 256 ^ (3 - k) * ((0 : BitVec 640).toNat / 2 ^ (80 * (0 + k) + 72) % 2 ^ 8)).sum) = 0 by
      decide +kernel]
    exact BitVec.xor_zero
  · show l.md ^^^ _ = l.md
    rw [show (BitVec.ofNat 32 ((List.range 4).map fun k => 256 ^ (3 - k) * ((0 : BitVec 640).toNat / 2 ^ (80 * (4 + k) + 72) % 2 ^ 8)).sum) = 0 by
      decide +kernel]
    exact BitVec.xor_zero

/-- A codeword of a line as an attempt sees it. -/
def flippedAt (k : Nat) (e : BitVec 640) (w : Codeword) : Codeword :=
  let field (lo n : Nat) : Nat := e.toNat / 2 ^ (80 * k + lo) % 2 ^ n
  { w with data := w.data ^^^ BitVec.ofNat 64 (field 0 32 + 2 ^ 32 * field 40 32), check := w.check ^^^ BitVec.ofNat 8 (field 32 8) }

theorem Line.flip_words (l : Line) (e : BitVec 640) : (l.flip e).words = (List.range 8).map fun k => flippedAt k e (l.words.getD k {}) := rfl

theorem flippedAt_zero (w : Codeword) (k : Nat) : flippedAt k 0 w = w := by
  have z : ∀ x n : Nat, (0 : BitVec 640).toNat / x % n = 0 := fun x n => by
    have : (0 : BitVec 640).toNat = 0 := by decide +kernel
    rw [this, Nat.zero_div, Nat.zero_mod]
  unfold flippedAt
  dsimp only
  rw [z, z, z]
  have a : w.data ^^^ BitVec.ofNat 64 (0 + 2 ^ 32 * 0) = w.data := BitVec.xor_zero
  have b : w.check ^^^ BitVec.ofNat 8 0 = w.check := BitVec.xor_zero
  rw [a, b]

/-- A line just written, of eight sound codewords, is found good while the epoch it was sealed under is in force (R269, R270, R435). -/
theorem State.tryLine_writeLine {s : State} {addr cls site : Nat} {ws : List Codeword} (n : ws.length = 8)
    (hg : (ws.all fun w => !w.poison && syndrome w == 0) = true)
    (hw : (List.range 8).map (fun k => { (ws.getD k ({} : Codeword)) with poison := natBit (metaOf cls s.sealEpoch site (poisonBits ws)).toNat k })
      = ws)
    (he : (s.writeLine addr cls site ws).epochOf (bits (metaOf cls s.sealEpoch site (poisonBits ws)) 23 16) = some s.sealEpoch) :
    (s.writeLine addr cls site ws).tryLine addr 0 = .good ws 0 := by
  have hg' : ∀ w ∈ ws, w.poison = false ∧ syndrome w = 0 := by simpa using hg
  have hp : (ws.map fun w => { w with poison := false }) = ws := by
    conv_rhs => rw [← List.map_id ws]
    exact List.map_congr_left fun w h => by obtain ⟨d, c, p⟩ := w; have := (hg' _ h).1; simp_all
  have h := s.lineAt_writeLine addr cls site ws n
  simp only [hp] at h
  set l : Line := { words := ws, md := metaOf cls s.sealEpoch site (poisonBits ws),
                    tag := s.sealOf addr s.sealEpoch (metaOf cls s.sealEpoch site (poisonBits ws)) ws }
  refine State.tryLine_sealed (l := l) h ?_ hg l.flip_zero.2 l.flip_zero.1 he rfl
  rw [l.flip_zero.2]
  refine Eq.trans (List.map_congr_left fun k hk => ?_) hw
  have hk' : k < 8 := by simpa using hk
  have z : (l.flip 0).words.getD k ({} : Codeword) = l.words.getD k ({} : Codeword) := by
    rw [Line.flip_words, List.getD_eq_getElem?_getD, List.getElem?_map, List.getElem?_range hk']
    exact flippedAt_zero _ k
  rw [z]

end Sys2Proof.Machine
end

