-- ==== Sys2Proof/Laws/Run.lean ====
section
/-! SUPPORT. What an instruction and a microword that execute come down to. -/

namespace Sys2Proof.Machine

/-- An instruction that executes: its body at the state it acts on, and the boundary after it. -/
theorem State.instr_executes {s : State} {n op cost : Nat} {w : Word64} {early : Bool} {body : State → Nat → Done}
    (h : s.Executes n w op) (listed : opcodeListed op = true) :
    s.instr n w op cost early body =
      match body (s.begun n w cost early) (s.seat n) with
      | .fault code => .next ((s.met n cost).instrFault n (s.seat n) code (s.site n).thread.idx)
      | .failed t code => .next (t.instrFault n (s.seat n) code (s.site n).thread.idx)
      | .full => .next ((s.met n cost).boundary n (s.seat n) (s.site n).thread.idx none true true)
      | .next t => .next (t.boundary n (s.seat n) (s.site n).thread.idx none false false)
      | .yields t => .next (t.boundary n (s.seat n) (s.site n).thread.idx none true false)
      | .partly t => .next (t.boundary n (s.seat n) (s.site n).thread.idx none true true)
      | .custom t => .next t
      | .drain t k =>
        if (t.ctx (s.seat n)).fault.isSome ∨ (t.site n).abort.isSome ∨ (t.site n).halted then
          .next (t.boundary n (s.seat n) (s.site n).thread.idx none false false)
        else .next (t.enterDrain n (s.seat n) k) := by
  obtain ⟨h1, h2, h3, h4, h5, h6⟩ := h
  have site : ∀ (c : Nat) (g : Ctx → Ctx), (s.modCtx c g).site n = s.site n := fun _ _ => rfl
  have h5' : ¬((!(s.site n).thread.reached) = true ∧ (s.site n).thread.vecLeft.isNone = true ∧ (!siteCond (s.site n).flags (condOf w)) = true) := by
    rintro ⟨c, a, b⟩
    rcases h5 with h | h | h
    · rw [h] at c
      cases c
    · rw [Option.isNone_iff_eq_none] at a
      rw [a] at h
      cases h
    · rw [h] at b
      cases b
  unfold State.instr
  rw [if_neg (by simp [h1, h2])]
  dsimp only
  rw [site, if_neg (by omega), if_neg (by simp [h2, listed]), if_neg h4, if_neg h5', if_neg (by simp [h6])]
  unfold State.begun State.met State.seat
  rw [h2] <;> rfl

/-- A microword that issues: its body at the state it acts on. -/
theorem State.micro_issues {s : State} {c op : Nat} {f : BitVec 26} {taken : Bool} {body : State → State}
    (h : s.Issues c op f (microCost taken)) :
    s.micro c op f taken body = .next (body (s.issued c (microCost taken))) := by
  obtain ⟨h1, h2, h3, h4, h5, h6, h7⟩ := h
  unfold State.micro State.issued
  cases hk : s.knownPc c with
  | true =>
    have h4 := h4 hk
    have h5 := h5 hk
    simp [h1, h2, h4, h5, h6, Nat.not_lt.mpr h3]
  | false => simp [h1, h2, h6, Nat.not_lt.mpr h3]

theorem State.ctx_setCtx_of_ne {s : State} {c : Nat} {x : Ctx} (h : x ≠ {}) : (s.setCtx c x).ctx c = x := by
  unfold State.ctx State.setCtx Table.set
  rw [if_neg h]
  exact Table.get_insert_self _ _ _ _

/-- What leaves the contexts alone leaves each as it was. -/
theorem Keeps.ctx {k : Part → Prop} {s t : State} (h : Keeps k s t) (n : ¬k .contexts) (c : Nat) : t.ctx c = s.ctx c := by
  unfold State.ctx
  rw [h.parts .contexts n]

/-- Holding a fault in a context that waits for nothing leaves its registers. -/
theorem State.holdFault_ms {s : State} {c code : Nat} {pc : BitVec 16} (h : (s.ctx c).wait = none) :
    ((s.holdFault c code pc).ctx c).ms = (s.ctx c).ms := by
  have cut : ∀ t : State, (t.ctx c).wait = none → (t.ctx c).fault ≠ none → ((t.cutWait c).ctx c).ms = (t.ctx c).ms := by
    intro t ht hf
    unfold State.cutWait State.modCtx
    beta_reduce
    rw [ht]
    dsimp only
    rw [State.ctx_setCtx_of_ne (fun e => by rw [e] at hf; exact hf rfl)]
  have marked : ∀ t : State, t.ctx c = (match (t.ctx c).owner with
      | some i => if (t.entry i).work.ofSite then t.taint (t.entry i).site else t
      | none => t).ctx c := by
    intro t
    split
    · split <;> rfl
    · rfl
  have one : ∀ t : State, (t.ctx c).wait = none → (t.ctx c).fault ≠ none → (t.ctx c).owner = (s.ctx c).owner → (t.ctx c).ms = (s.ctx c).ms →
      (((match (s.ctx c).owner with
        | some i => if (t.entry i).work.ofSite then t.taint (t.entry i).site else t
        | none => t).cutWait c).ctx c).ms = (s.ctx c).ms := by
    intro t h1 h2 h3 h4
    have m := marked t
    rw [h3] at m
    rw [cut _ (by rw [← m]; exact h1) (by rw [← m]; exact h2), ← m, h4]
  unfold State.holdFault
  dsimp only
  cases hf : (s.ctx c).fault with
  | some e =>
    have b : (s.bump 0xD200 9).ctx c = s.ctx c := rfl
    exact one _ (by rw [b, h]) (by rw [b, hf]; exact fun e => by cases e) (by rw [b]) (by rw [b])
  | none =>
    have b := State.ctx_setCtx_of_ne (s := s) (c := c) (x := { s.ctx c with fault := some (code, pc), taint := true }) (fun e => by cases congrArg Ctx.fault e)
    exact one _ (by rw [b]; exact h) (by rw [b]; exact fun e => by cases e) (by rw [b]) (by rw [b])

/-- Counting cycles leaves the registers of a context that waits for nothing. -/
theorem State.charge_ms {s : State} {c k : Nat} (h : (s.ctx c).wait = none) : ((s.charge c k).ctx c).ms = (s.ctx c).ms := by
  have count : ∀ (t : State) (i j n : Nat), (t.count i j n).ctx c = t.ctx c := fun _ _ _ _ => rfl
  have mod : ∀ (t : State) (n : Nat) (g : Site → Site), (t.modSite n g).ctx c = t.ctx c := fun _ _ _ => rfl
  have pass : ∀ b : Bool, ((s.passCycles k).engineCycles (c / 8) k b).ctx c = s.ctx c := by
    intro b
    unfold State.engineCycles
    split <;> rfl
  have addr : ∀ t : State, ((t.addressOf c).2).ctx c = t.ctx c := by
    intro t
    unfold State.addressOf
    split <;> rfl
  have abort : ∀ (t : State) (n j a : Nat), (t.sendAbort n j a).ctx c = t.ctx c := by
    intro t n j a
    unfold State.sendAbort
    split
    · split <;> rfl
    · rfl
  unfold State.charge
  cases (s.ctx c).owner with
  | none =>
    dsimp only
    split
    · rw [pass]
    · rfl
  | some i =>
    dsimp only
    generalize hu : (s.passCycles k).engineCycles (c / 8) k (s.ctx c).task = u
    have e : u.ctx c = s.ctx c := by rw [← hu, pass]
    split
    · rw [e]
    · split
      · rw [count, mod, e]
      · split
        · rw [abort, count, State.holdFault_ms (by rw [addr, mod, mod, e]; exact h), addr, mod, mod, e]
        · rw [mod, e]

/-- The registers a microword acts on are those of its context. -/
theorem State.issued_ms {s : State} {c k : Nat} (h : (s.ctx c).wait = none) : ((s.issued c k).ctx c).ms = (s.ctx c).ms := by
  have read : (if s.knownPc c then s.readStore ((s.ctx c).ms.pc.toNat / 2) else s).ctx c = s.ctx c := by
    split
    · exact Keeps.ctx (State.readStore_keeps (k := fun p => p ≠ .contexts) (by simp) (by simp) (by simp) Keeps.refl) (by simp) c
    · rfl
  have ne : ({ s.ctx c with st := .issuing, run := (s.ctx c).run + k } : Ctx) ≠ {} := fun e => by injection e; simp_all
  unfold State.issued State.modCtx
  dsimp only
  rw [read]
  rw [State.charge_ms (by rw [State.ctx_setCtx_of_ne ne]; exact h), State.ctx_setCtx_of_ne ne]

/-- Another site is as it was. -/
theorem State.site_setSite_of_ne {s : State} {n m : Nat} {x : Site} (h : n ≠ m) : (s.setSite n x).site m = s.site m :=
  Table.get_set_of_ne _ _ h _

/-- The site that was set. -/
theorem State.site_setSite_self {s : State} {n : Nat} {x : Site} (h : x ≠ {}) : (s.setSite n x).site n = x := by
  unfold State.site State.setSite Table.set
  rw [if_neg h]
  exact Table.get_insert_self _ _ _ _

/-- Another context is as it was. -/
theorem State.ctx_setCtx_other {s : State} {c d : Nat} {x : Ctx} (h : c ≠ d) : (s.setCtx c x).ctx d = s.ctx d :=
  Table.get_set_of_ne _ _ h _

/-- A site that is busy is listed. -/
theorem Site.ne_default {x : Site} (h : x.st.busy = true) : x ≠ {} := fun e => by rw [e] at h; cases h

/-- What the body of an instruction finds where nothing stops its thread: its cycles counted, its context ISSUING, all else as it was. -/
theorem State.begun_unstopped {s : State} {n op cost : Nat} {w : Word64} {clrf : Bool} (h : s.Executes n w op) (g : s.Unstopped n cost) :
    let t := s.begun n w cost clrf
    (∃ k j, t.site n = (if clrfOf w ∧ clrf then fun x : Site => { x.flag flagFail false with thread := { x.thread with epoch := (x.thread.epoch + 1) % 2 ^ 32 } } else id)
        { s.site n with cycles := k, issued := j, thread := (s.site n).thread.pass (opcodeOf w) })
      ∧ t.ctx (s.seat n) = { s.ctx (s.seat n) with st := .issuing } ∧ (∀ d, d ≠ s.seat n → t.ctx d = s.ctx d)
      ∧ t.pins = s.pins ∧ t.mem = s.mem ∧ t.clk = s.clk ∧ t.regs = s.regs ∧ t.held = s.held := by
  dsimp only
  have busy : (s.site n).st.busy = true := by
    have := h.runs
    unfold State.mayRun at this
    simp only [Bool.and_eq_true] at this
    exact this.1.1.1.1
  generalize hc : s.seat n = c
  have g1 := g.paid
  rw [hc] at g1
  have ne : ({ s.ctx c with st := .issuing } : Ctx) ≠ {} := fun e => by cases congrArg Ctx.st e
  let a := s.modCtx c fun y => { y with st := .issuing }
  have a1 : a.ctx c = { s.ctx c with st := .issuing } := State.ctx_setCtx_of_ne ne
  have a2 : ∀ d, d ≠ c → a.ctx d = s.ctx d := fun d hd => State.ctx_setCtx_other (Ne.symm hd)
  have ch : (∃ k j, (a.charge c cost).site n = { s.site n with cycles := k, issued := j }) ∧ (a.charge c cost).ctxs = a.ctxs
      ∧ (a.charge c cost).pins = s.pins ∧ (a.charge c cost).mem = s.mem ∧ (a.charge c cost).clk = s.clk ∧ (a.charge c cost).regs = s.regs
      ∧ (a.charge c cost).held = s.held := by
    unfold State.charge
    rw [a1]
    dsimp only
    cases ho : (s.ctx c).owner with
    | none =>
      dsimp only
      unfold State.engineCycles
      split
      · split <;> exact ⟨⟨_, _, rfl⟩, rfl, rfl, rfl, rfl, rfl, rfl⟩
      · exact ⟨⟨_, _, rfl⟩, rfl, rfl, rfl, rfl, rfl, rfl⟩
    | some i =>
      dsimp only
      have p := g1 i ho
      generalize hu : (a.passCycles cost).engineCycles (c / 8) cost (s.ctx c).task = u
      have e : u.sites = s.sites ∧ u.ctxs = a.ctxs ∧ u.pins = s.pins ∧ u.mem = s.mem ∧ u.clk = s.clk ∧ u.regs = s.regs ∧ u.held = s.held := by
        rw [← hu]
        unfold State.engineCycles
        split <;> exact ⟨rfl, rfl, rfl, rfl, rfl, rfl, rfl⟩
      obtain ⟨e1, e2, e3, e4, e5, e6, e7⟩ := e
      have es : ∀ m, u.site m = s.site m := fun m => by unfold State.site; rw [e1]
      split
      · exact ⟨⟨_, _, es n⟩, e2, e3, e4, e5, e6, e7⟩
      · have en : (a.entry i) = s.entry i := rfl
        rw [en, es, if_neg (by rw [p.1]; simp)]
        have bud : ∀ (t : State) m, t.regs = s.regs → t.budget m = s.budget m := fun t m ht => by
          unfold State.budget State.nreg State.reg
          rw [ht]
        rw [if_neg (by rw [bud _ _ (by exact e6)]; omega)]
        refine ⟨?_, e2, e3, e4, e5, e6, e7⟩
        unfold State.modSite
        by_cases hm : (s.entry i).site = n
        · rw [hm, State.site_setSite_self (by exact Site.ne_default (by rw [es]; exact busy)), es]
          exact ⟨_, _, rfl⟩
        · rw [State.site_setSite_of_ne hm, es]
          exact ⟨_, _, rfl⟩
  obtain ⟨⟨k, j, c1⟩, c2, c3, c4, c5, c6, c7⟩ := ch
  unfold State.begun
  rw [hc]
  change (∃ k j, (if clrfOf w = true ∧ clrf = true then ((a.charge c cost).modThread n (·.pass (opcodeOf w))).newEpoch n
    else ((a.charge c cost).modThread n (·.pass (opcodeOf w)))).site n = _) ∧ _
  have x1 : ∀ d, (a.charge c cost).ctx d = a.ctx d := fun d => by unfold State.ctx; rw [c2]
  generalize a.charge c cost = b at *
  have d1 : (b.modThread n (·.pass (opcodeOf w))).site n
      = { s.site n with cycles := k, issued := j, thread := (s.site n).thread.pass (opcodeOf w) } := by
    unfold State.modThread State.modSite
    rw [State.site_setSite_self (by exact Site.ne_default (by rw [c1]; exact busy)), c1]
  generalize hf : (b.modThread n (·.pass (opcodeOf w))) = f at *
  have f1 : ∀ d, f.ctx d = b.ctx d := fun d => by rw [← hf]; rfl
  have f2 : f.pins = b.pins ∧ f.mem = b.mem ∧ f.clk = b.clk ∧ f.regs = b.regs ∧ f.held = b.held := by rw [← hf]; exact ⟨rfl, rfl, rfl, rfl, rfl⟩
  obtain ⟨f3, f4, f5, f6, f7⟩ := f2
  by_cases hk : (clrfOf w = true ∧ clrf = true)
  · rw [if_pos hk, if_pos hk]
    have e1 : ∀ d, (f.newEpoch n).ctx d = f.ctx d := fun d => rfl
    have e2 : (f.newEpoch n).pins = f.pins ∧ (f.newEpoch n).mem = f.mem ∧ (f.newEpoch n).clk = f.clk ∧ (f.newEpoch n).regs = f.regs
      ∧ (f.newEpoch n).held = f.held := ⟨rfl, rfl, rfl, rfl, rfl⟩
    obtain ⟨e3, e4, e5, e6, e7⟩ := e2
    refine ⟨⟨k, j, ?_⟩, by rw [e1, f1, x1, a1], fun d hd => by rw [e1, f1, x1, a2 d hd], by rw [e3, f3, c3], by rw [e4, f4, c4], by rw [e5, f5, c5],
      by rw [e6, f6, c6], by rw [e7, f7, c7]⟩
    unfold State.newEpoch State.modSite
    rw [State.site_setSite_self (by exact Site.ne_default (by rw [d1]; exact busy)), d1]
  · rw [if_neg hk, if_neg hk]
    exact ⟨⟨k, j, d1⟩, by rw [f1, x1, a1], fun d hd => by rw [f1, x1, a2 d hd], by rw [f3, c3], by rw [f4, c4], by rw [f5, c5], by rw [f6, c6],
      by rw [f7, c7]⟩

/-- Entering a drain point changes the drain and the state of the site, and its context. -/
theorem State.enterDrain_holds {t : State} {n c : Nat} {k : DrainKind} (busy : (t.site n).st.busy = true) :
    let u := t.enterDrain n c k
    u.site n = { t.site n with drain := some { kind := k, entered := t.clk.frames, index := (t.site n).thread.idx },
                               st := if (t.site n).st = .running then .waiting else (t.site n).st }
      ∧ u.ctx c = { t.ctx c with st := .waiting, run := 0, snap := (t.ctx c).ms, restarted := false, taint := false, tainted := 0, effects := false }
      ∧ (∀ d, d ≠ c → u.ctx d = t.ctx d) ∧ u.pins = t.pins ∧ u.mem = t.mem ∧ u.clk = t.clk := by
  dsimp only
  unfold State.enterDrain
  dsimp only
  generalize ha : (t.modSite n fun x => { x with drain := some { kind := k, entered := t.now, index := x.thread.idx } }) = a
  have a1 : a.site n = { t.site n with drain := some { kind := k, entered := t.now, index := (t.site n).thread.idx } } := by
    rw [← ha]
    exact State.site_setSite_self (Site.ne_default (by exact busy))
  have a2 : ∀ d, a.ctx d = t.ctx d := fun d => by rw [← ha]; rfl
  have a3 : a.pins = t.pins ∧ a.mem = t.mem ∧ a.clk = t.clk := by rw [← ha]; exact ⟨rfl, rfl, rfl⟩
  generalize hb : (a.modCtx c fun y => { y with st := .waiting, run := 0, snap := y.ms, restarted := false, taint := false, tainted := 0, effects := false }) = b
  have b1 : b.ctx c = { t.ctx c with st := .waiting, run := 0, snap := (t.ctx c).ms, restarted := false, taint := false, tainted := 0, effects := false } := by
    rw [← hb]
    unfold State.modCtx
    rw [State.ctx_setCtx_of_ne (fun e => by cases congrArg Ctx.st e), a2]
  have b2 : ∀ d, d ≠ c → b.ctx d = t.ctx d := fun d hd => by rw [← hb]; exact (State.ctx_setCtx_other (Ne.symm hd)).trans (a2 d)
  have b3 : b.site n = a.site n := by rw [← hb]; rfl
  have b4 : b.pins = a.pins ∧ b.mem = a.mem ∧ b.clk = a.clk := by rw [← hb]; exact ⟨rfl, rfl, rfl⟩
  rw [b3, a1]
  dsimp only
  by_cases hr : (t.site n).st = .running
  · rw [if_pos hr, if_pos hr]
    have e1 : (b.enter n .waiting).site n = { b.site n with st := .waiting } := by
      show ((b.modSite n fun x => { x with st := .waiting }).site n) = _
      exact State.site_setSite_self (fun e => by cases congrArg Site.st e)
    refine ⟨by rw [e1, b3, a1]; rfl, b1, b2, b4.1.trans a3.1, b4.2.1.trans a3.2.1, b4.2.2.trans a3.2.2⟩
  · rw [if_neg hr, if_neg hr]
    exact ⟨by rw [b3, a1]; rfl, b1, b2, b4.1.trans a3.1, b4.2.1.trans a3.2.1, b4.2.2.trans a3.2.2⟩

end Sys2Proof.Machine
end

