-- ==== Sys2Proof/Laws/State.lean ====
section
/-! SUPPORT. What each update of the state leaves as it was, field by field, so that no proof unfolds one. -/

namespace Sys2Proof.Machine

variable (s : State)

/-! ### setSite -/

@[simp] theorem State.setSite_mode (n : Nat) (x : Site) : (s.setSite n x).mode = s.mode := rfl
@[simp] theorem State.setSite_clk (n : Nat) (x : Site) : (s.setSite n x).clk = s.clk := rfl
@[simp] theorem State.setSite_start (n : Nat) (x : Site) : (s.setSite n x).start = s.start := rfl
@[simp] theorem State.setSite_grade (n : Nat) (x : Site) : (s.setSite n x).grade = s.grade := rfl
@[simp] theorem State.setSite_step (n : Nat) (x : Site) : (s.setSite n x).step = s.step := rfl
@[simp] theorem State.setSite_uid (n : Nat) (x : Site) : (s.setSite n x).uid = s.uid := rfl
@[simp] theorem State.setSite_regs (n : Nat) (x : Site) : (s.setSite n x).regs = s.regs := rfl
@[simp] theorem State.setSite_octs (n : Nat) (x : Site) : (s.setSite n x).octs = s.octs := rfl
@[simp] theorem State.setSite_held (n : Nat) (x : Site) : (s.setSite n x).held = s.held := rfl
@[simp] theorem State.setSite_pins (n : Nat) (x : Site) : (s.setSite n x).pins = s.pins := rfl
@[simp] theorem State.setSite_ctxs (n : Nat) (x : Site) : (s.setSite n x).ctxs = s.ctxs := rfl
@[simp] theorem State.setSite_store (n : Nat) (x : Site) : (s.setSite n x).store = s.store := rfl
@[simp] theorem State.setSite_ledger (n : Nat) (x : Site) : (s.setSite n x).ledger = s.ledger := rfl
@[simp] theorem State.setSite_inn (n : Nat) (x : Site) : (s.setSite n x).inn = s.inn := rfl
@[simp] theorem State.setSite_caravans (n : Nat) (x : Site) : (s.setSite n x).caravans = s.caravans := rfl
@[simp] theorem State.setSite_caps (n : Nat) (x : Site) : (s.setSite n x).caps = s.caps := rfl
@[simp] theorem State.setSite_recs (n : Nat) (x : Site) : (s.setSite n x).recs = s.recs := rfl
@[simp] theorem State.setSite_units (n : Nat) (x : Site) : (s.setSite n x).units = s.units := rfl
@[simp] theorem State.setSite_defs (n : Nat) (x : Site) : (s.setSite n x).defs = s.defs := rfl
@[simp] theorem State.setSite_evts (n : Nat) (x : Site) : (s.setSite n x).evts = s.evts := rfl
@[simp] theorem State.setSite_time (n : Nat) (x : Site) : (s.setSite n x).time = s.time := rfl
@[simp] theorem State.setSite_ring (n : Nat) (x : Site) : (s.setSite n x).ring = s.ring := rfl
@[simp] theorem State.setSite_pass (n : Nat) (x : Site) : (s.setSite n x).pass = s.pass := rfl
@[simp] theorem State.setSite_cal (n : Nat) (x : Site) : (s.setSite n x).cal = s.cal := rfl
@[simp] theorem State.setSite_therm (n : Nat) (x : Site) : (s.setSite n x).therm = s.therm := rfl
@[simp] theorem State.setSite_jtag (n : Nat) (x : Site) : (s.setSite n x).jtag = s.jtag := rfl
@[simp] theorem State.setSite_mem (n : Nat) (x : Site) : (s.setSite n x).mem = s.mem := rfl
@[simp] theorem State.setSite_reads (n : Nat) (x : Site) : (s.setSite n x).reads = s.reads := rfl
@[simp] theorem State.setSite_chans (n : Nat) (x : Site) : (s.setSite n x).chans = s.chans := rfl
@[simp] theorem State.setSite_sl (n : Nat) (x : Site) : (s.setSite n x).sl = s.sl := rfl
@[simp] theorem State.setSite_convoy (n : Nat) (x : Site) : (s.setSite n x).convoy = s.convoy := rfl
@[simp] theorem State.setSite_rosec (n : Nat) (x : Site) : (s.setSite n x).rosec = s.rosec := rfl
@[simp] theorem State.setSite_ev (n : Nat) (x : Site) : (s.setSite n x).ev = s.ev := rfl
@[simp] theorem State.setSite_handler (n : Nat) (x : Site) : (s.setSite n x).handler = s.handler := rfl
@[simp] theorem State.setSite_freeCtr (n : Nat) (x : Site) : (s.setSite n x).freeCtr = s.freeCtr := rfl
@[simp] theorem State.setSite_sent (n : Nat) (x : Site) : (s.setSite n x).sent = s.sent := rfl
@[simp] theorem State.setSite_pending (n : Nat) (x : Site) : (s.setSite n x).pending = s.pending := rfl

/-! ### modSite -/

@[simp] theorem State.modSite_mode (n : Nat) (f : Site → Site) : (s.modSite n f).mode = s.mode := rfl
@[simp] theorem State.modSite_clk (n : Nat) (f : Site → Site) : (s.modSite n f).clk = s.clk := rfl
@[simp] theorem State.modSite_start (n : Nat) (f : Site → Site) : (s.modSite n f).start = s.start := rfl
@[simp] theorem State.modSite_grade (n : Nat) (f : Site → Site) : (s.modSite n f).grade = s.grade := rfl
@[simp] theorem State.modSite_step (n : Nat) (f : Site → Site) : (s.modSite n f).step = s.step := rfl
@[simp] theorem State.modSite_uid (n : Nat) (f : Site → Site) : (s.modSite n f).uid = s.uid := rfl
@[simp] theorem State.modSite_regs (n : Nat) (f : Site → Site) : (s.modSite n f).regs = s.regs := rfl
@[simp] theorem State.modSite_octs (n : Nat) (f : Site → Site) : (s.modSite n f).octs = s.octs := rfl
@[simp] theorem State.modSite_held (n : Nat) (f : Site → Site) : (s.modSite n f).held = s.held := rfl
@[simp] theorem State.modSite_pins (n : Nat) (f : Site → Site) : (s.modSite n f).pins = s.pins := rfl
@[simp] theorem State.modSite_ctxs (n : Nat) (f : Site → Site) : (s.modSite n f).ctxs = s.ctxs := rfl
@[simp] theorem State.modSite_store (n : Nat) (f : Site → Site) : (s.modSite n f).store = s.store := rfl
@[simp] theorem State.modSite_ledger (n : Nat) (f : Site → Site) : (s.modSite n f).ledger = s.ledger := rfl
@[simp] theorem State.modSite_inn (n : Nat) (f : Site → Site) : (s.modSite n f).inn = s.inn := rfl
@[simp] theorem State.modSite_caravans (n : Nat) (f : Site → Site) : (s.modSite n f).caravans = s.caravans := rfl
@[simp] theorem State.modSite_caps (n : Nat) (f : Site → Site) : (s.modSite n f).caps = s.caps := rfl
@[simp] theorem State.modSite_recs (n : Nat) (f : Site → Site) : (s.modSite n f).recs = s.recs := rfl
@[simp] theorem State.modSite_units (n : Nat) (f : Site → Site) : (s.modSite n f).units = s.units := rfl
@[simp] theorem State.modSite_defs (n : Nat) (f : Site → Site) : (s.modSite n f).defs = s.defs := rfl
@[simp] theorem State.modSite_evts (n : Nat) (f : Site → Site) : (s.modSite n f).evts = s.evts := rfl
@[simp] theorem State.modSite_time (n : Nat) (f : Site → Site) : (s.modSite n f).time = s.time := rfl
@[simp] theorem State.modSite_ring (n : Nat) (f : Site → Site) : (s.modSite n f).ring = s.ring := rfl
@[simp] theorem State.modSite_pass (n : Nat) (f : Site → Site) : (s.modSite n f).pass = s.pass := rfl
@[simp] theorem State.modSite_cal (n : Nat) (f : Site → Site) : (s.modSite n f).cal = s.cal := rfl
@[simp] theorem State.modSite_therm (n : Nat) (f : Site → Site) : (s.modSite n f).therm = s.therm := rfl
@[simp] theorem State.modSite_jtag (n : Nat) (f : Site → Site) : (s.modSite n f).jtag = s.jtag := rfl
@[simp] theorem State.modSite_mem (n : Nat) (f : Site → Site) : (s.modSite n f).mem = s.mem := rfl
@[simp] theorem State.modSite_reads (n : Nat) (f : Site → Site) : (s.modSite n f).reads = s.reads := rfl
@[simp] theorem State.modSite_chans (n : Nat) (f : Site → Site) : (s.modSite n f).chans = s.chans := rfl
@[simp] theorem State.modSite_sl (n : Nat) (f : Site → Site) : (s.modSite n f).sl = s.sl := rfl
@[simp] theorem State.modSite_convoy (n : Nat) (f : Site → Site) : (s.modSite n f).convoy = s.convoy := rfl
@[simp] theorem State.modSite_rosec (n : Nat) (f : Site → Site) : (s.modSite n f).rosec = s.rosec := rfl
@[simp] theorem State.modSite_ev (n : Nat) (f : Site → Site) : (s.modSite n f).ev = s.ev := rfl
@[simp] theorem State.modSite_handler (n : Nat) (f : Site → Site) : (s.modSite n f).handler = s.handler := rfl
@[simp] theorem State.modSite_freeCtr (n : Nat) (f : Site → Site) : (s.modSite n f).freeCtr = s.freeCtr := rfl
@[simp] theorem State.modSite_sent (n : Nat) (f : Site → Site) : (s.modSite n f).sent = s.sent := rfl
@[simp] theorem State.modSite_pending (n : Nat) (f : Site → Site) : (s.modSite n f).pending = s.pending := rfl

/-! ### setPin -/

@[simp] theorem State.setPin_mode (n : Nat) (x : Pin) : (s.setPin n x).mode = s.mode := rfl
@[simp] theorem State.setPin_clk (n : Nat) (x : Pin) : (s.setPin n x).clk = s.clk := rfl
@[simp] theorem State.setPin_start (n : Nat) (x : Pin) : (s.setPin n x).start = s.start := rfl
@[simp] theorem State.setPin_grade (n : Nat) (x : Pin) : (s.setPin n x).grade = s.grade := rfl
@[simp] theorem State.setPin_step (n : Nat) (x : Pin) : (s.setPin n x).step = s.step := rfl
@[simp] theorem State.setPin_uid (n : Nat) (x : Pin) : (s.setPin n x).uid = s.uid := rfl
@[simp] theorem State.setPin_regs (n : Nat) (x : Pin) : (s.setPin n x).regs = s.regs := rfl
@[simp] theorem State.setPin_octs (n : Nat) (x : Pin) : (s.setPin n x).octs = s.octs := rfl
@[simp] theorem State.setPin_held (n : Nat) (x : Pin) : (s.setPin n x).held = s.held := rfl
@[simp] theorem State.setPin_sites (n : Nat) (x : Pin) : (s.setPin n x).sites = s.sites := rfl
@[simp] theorem State.setPin_ctxs (n : Nat) (x : Pin) : (s.setPin n x).ctxs = s.ctxs := rfl
@[simp] theorem State.setPin_store (n : Nat) (x : Pin) : (s.setPin n x).store = s.store := rfl
@[simp] theorem State.setPin_ledger (n : Nat) (x : Pin) : (s.setPin n x).ledger = s.ledger := rfl
@[simp] theorem State.setPin_inn (n : Nat) (x : Pin) : (s.setPin n x).inn = s.inn := rfl
@[simp] theorem State.setPin_caravans (n : Nat) (x : Pin) : (s.setPin n x).caravans = s.caravans := rfl
@[simp] theorem State.setPin_caps (n : Nat) (x : Pin) : (s.setPin n x).caps = s.caps := rfl
@[simp] theorem State.setPin_recs (n : Nat) (x : Pin) : (s.setPin n x).recs = s.recs := rfl
@[simp] theorem State.setPin_units (n : Nat) (x : Pin) : (s.setPin n x).units = s.units := rfl
@[simp] theorem State.setPin_defs (n : Nat) (x : Pin) : (s.setPin n x).defs = s.defs := rfl
@[simp] theorem State.setPin_evts (n : Nat) (x : Pin) : (s.setPin n x).evts = s.evts := rfl
@[simp] theorem State.setPin_time (n : Nat) (x : Pin) : (s.setPin n x).time = s.time := rfl
@[simp] theorem State.setPin_ring (n : Nat) (x : Pin) : (s.setPin n x).ring = s.ring := rfl
@[simp] theorem State.setPin_pass (n : Nat) (x : Pin) : (s.setPin n x).pass = s.pass := rfl
@[simp] theorem State.setPin_cal (n : Nat) (x : Pin) : (s.setPin n x).cal = s.cal := rfl
@[simp] theorem State.setPin_therm (n : Nat) (x : Pin) : (s.setPin n x).therm = s.therm := rfl
@[simp] theorem State.setPin_jtag (n : Nat) (x : Pin) : (s.setPin n x).jtag = s.jtag := rfl
@[simp] theorem State.setPin_mem (n : Nat) (x : Pin) : (s.setPin n x).mem = s.mem := rfl
@[simp] theorem State.setPin_reads (n : Nat) (x : Pin) : (s.setPin n x).reads = s.reads := rfl
@[simp] theorem State.setPin_chans (n : Nat) (x : Pin) : (s.setPin n x).chans = s.chans := rfl
@[simp] theorem State.setPin_sl (n : Nat) (x : Pin) : (s.setPin n x).sl = s.sl := rfl
@[simp] theorem State.setPin_convoy (n : Nat) (x : Pin) : (s.setPin n x).convoy = s.convoy := rfl
@[simp] theorem State.setPin_rosec (n : Nat) (x : Pin) : (s.setPin n x).rosec = s.rosec := rfl
@[simp] theorem State.setPin_ev (n : Nat) (x : Pin) : (s.setPin n x).ev = s.ev := rfl
@[simp] theorem State.setPin_handler (n : Nat) (x : Pin) : (s.setPin n x).handler = s.handler := rfl
@[simp] theorem State.setPin_freeCtr (n : Nat) (x : Pin) : (s.setPin n x).freeCtr = s.freeCtr := rfl
@[simp] theorem State.setPin_sent (n : Nat) (x : Pin) : (s.setPin n x).sent = s.sent := rfl
@[simp] theorem State.setPin_pending (n : Nat) (x : Pin) : (s.setPin n x).pending = s.pending := rfl

/-! ### modPin -/

@[simp] theorem State.modPin_mode (n : Nat) (f : Pin → Pin) : (s.modPin n f).mode = s.mode := rfl
@[simp] theorem State.modPin_clk (n : Nat) (f : Pin → Pin) : (s.modPin n f).clk = s.clk := rfl
@[simp] theorem State.modPin_start (n : Nat) (f : Pin → Pin) : (s.modPin n f).start = s.start := rfl
@[simp] theorem State.modPin_grade (n : Nat) (f : Pin → Pin) : (s.modPin n f).grade = s.grade := rfl
@[simp] theorem State.modPin_step (n : Nat) (f : Pin → Pin) : (s.modPin n f).step = s.step := rfl
@[simp] theorem State.modPin_uid (n : Nat) (f : Pin → Pin) : (s.modPin n f).uid = s.uid := rfl
@[simp] theorem State.modPin_regs (n : Nat) (f : Pin → Pin) : (s.modPin n f).regs = s.regs := rfl
@[simp] theorem State.modPin_octs (n : Nat) (f : Pin → Pin) : (s.modPin n f).octs = s.octs := rfl
@[simp] theorem State.modPin_held (n : Nat) (f : Pin → Pin) : (s.modPin n f).held = s.held := rfl
@[simp] theorem State.modPin_sites (n : Nat) (f : Pin → Pin) : (s.modPin n f).sites = s.sites := rfl
@[simp] theorem State.modPin_ctxs (n : Nat) (f : Pin → Pin) : (s.modPin n f).ctxs = s.ctxs := rfl
@[simp] theorem State.modPin_store (n : Nat) (f : Pin → Pin) : (s.modPin n f).store = s.store := rfl
@[simp] theorem State.modPin_ledger (n : Nat) (f : Pin → Pin) : (s.modPin n f).ledger = s.ledger := rfl
@[simp] theorem State.modPin_inn (n : Nat) (f : Pin → Pin) : (s.modPin n f).inn = s.inn := rfl
@[simp] theorem State.modPin_caravans (n : Nat) (f : Pin → Pin) : (s.modPin n f).caravans = s.caravans := rfl
@[simp] theorem State.modPin_caps (n : Nat) (f : Pin → Pin) : (s.modPin n f).caps = s.caps := rfl
@[simp] theorem State.modPin_recs (n : Nat) (f : Pin → Pin) : (s.modPin n f).recs = s.recs := rfl
@[simp] theorem State.modPin_units (n : Nat) (f : Pin → Pin) : (s.modPin n f).units = s.units := rfl
@[simp] theorem State.modPin_defs (n : Nat) (f : Pin → Pin) : (s.modPin n f).defs = s.defs := rfl
@[simp] theorem State.modPin_evts (n : Nat) (f : Pin → Pin) : (s.modPin n f).evts = s.evts := rfl
@[simp] theorem State.modPin_time (n : Nat) (f : Pin → Pin) : (s.modPin n f).time = s.time := rfl
@[simp] theorem State.modPin_ring (n : Nat) (f : Pin → Pin) : (s.modPin n f).ring = s.ring := rfl
@[simp] theorem State.modPin_pass (n : Nat) (f : Pin → Pin) : (s.modPin n f).pass = s.pass := rfl
@[simp] theorem State.modPin_cal (n : Nat) (f : Pin → Pin) : (s.modPin n f).cal = s.cal := rfl
@[simp] theorem State.modPin_therm (n : Nat) (f : Pin → Pin) : (s.modPin n f).therm = s.therm := rfl
@[simp] theorem State.modPin_jtag (n : Nat) (f : Pin → Pin) : (s.modPin n f).jtag = s.jtag := rfl
@[simp] theorem State.modPin_mem (n : Nat) (f : Pin → Pin) : (s.modPin n f).mem = s.mem := rfl
@[simp] theorem State.modPin_reads (n : Nat) (f : Pin → Pin) : (s.modPin n f).reads = s.reads := rfl
@[simp] theorem State.modPin_chans (n : Nat) (f : Pin → Pin) : (s.modPin n f).chans = s.chans := rfl
@[simp] theorem State.modPin_sl (n : Nat) (f : Pin → Pin) : (s.modPin n f).sl = s.sl := rfl
@[simp] theorem State.modPin_convoy (n : Nat) (f : Pin → Pin) : (s.modPin n f).convoy = s.convoy := rfl
@[simp] theorem State.modPin_rosec (n : Nat) (f : Pin → Pin) : (s.modPin n f).rosec = s.rosec := rfl
@[simp] theorem State.modPin_ev (n : Nat) (f : Pin → Pin) : (s.modPin n f).ev = s.ev := rfl
@[simp] theorem State.modPin_handler (n : Nat) (f : Pin → Pin) : (s.modPin n f).handler = s.handler := rfl
@[simp] theorem State.modPin_freeCtr (n : Nat) (f : Pin → Pin) : (s.modPin n f).freeCtr = s.freeCtr := rfl
@[simp] theorem State.modPin_sent (n : Nat) (f : Pin → Pin) : (s.modPin n f).sent = s.sent := rfl
@[simp] theorem State.modPin_pending (n : Nat) (f : Pin → Pin) : (s.modPin n f).pending = s.pending := rfl

/-! ### setCtx -/

@[simp] theorem State.setCtx_mode (n : Nat) (x : Ctx) : (s.setCtx n x).mode = s.mode := rfl
@[simp] theorem State.setCtx_clk (n : Nat) (x : Ctx) : (s.setCtx n x).clk = s.clk := rfl
@[simp] theorem State.setCtx_start (n : Nat) (x : Ctx) : (s.setCtx n x).start = s.start := rfl
@[simp] theorem State.setCtx_grade (n : Nat) (x : Ctx) : (s.setCtx n x).grade = s.grade := rfl
@[simp] theorem State.setCtx_step (n : Nat) (x : Ctx) : (s.setCtx n x).step = s.step := rfl
@[simp] theorem State.setCtx_uid (n : Nat) (x : Ctx) : (s.setCtx n x).uid = s.uid := rfl
@[simp] theorem State.setCtx_regs (n : Nat) (x : Ctx) : (s.setCtx n x).regs = s.regs := rfl
@[simp] theorem State.setCtx_octs (n : Nat) (x : Ctx) : (s.setCtx n x).octs = s.octs := rfl
@[simp] theorem State.setCtx_held (n : Nat) (x : Ctx) : (s.setCtx n x).held = s.held := rfl
@[simp] theorem State.setCtx_sites (n : Nat) (x : Ctx) : (s.setCtx n x).sites = s.sites := rfl
@[simp] theorem State.setCtx_pins (n : Nat) (x : Ctx) : (s.setCtx n x).pins = s.pins := rfl
@[simp] theorem State.setCtx_store (n : Nat) (x : Ctx) : (s.setCtx n x).store = s.store := rfl
@[simp] theorem State.setCtx_ledger (n : Nat) (x : Ctx) : (s.setCtx n x).ledger = s.ledger := rfl
@[simp] theorem State.setCtx_inn (n : Nat) (x : Ctx) : (s.setCtx n x).inn = s.inn := rfl
@[simp] theorem State.setCtx_caravans (n : Nat) (x : Ctx) : (s.setCtx n x).caravans = s.caravans := rfl
@[simp] theorem State.setCtx_caps (n : Nat) (x : Ctx) : (s.setCtx n x).caps = s.caps := rfl
@[simp] theorem State.setCtx_recs (n : Nat) (x : Ctx) : (s.setCtx n x).recs = s.recs := rfl
@[simp] theorem State.setCtx_units (n : Nat) (x : Ctx) : (s.setCtx n x).units = s.units := rfl
@[simp] theorem State.setCtx_defs (n : Nat) (x : Ctx) : (s.setCtx n x).defs = s.defs := rfl
@[simp] theorem State.setCtx_evts (n : Nat) (x : Ctx) : (s.setCtx n x).evts = s.evts := rfl
@[simp] theorem State.setCtx_time (n : Nat) (x : Ctx) : (s.setCtx n x).time = s.time := rfl
@[simp] theorem State.setCtx_ring (n : Nat) (x : Ctx) : (s.setCtx n x).ring = s.ring := rfl
@[simp] theorem State.setCtx_pass (n : Nat) (x : Ctx) : (s.setCtx n x).pass = s.pass := rfl
@[simp] theorem State.setCtx_cal (n : Nat) (x : Ctx) : (s.setCtx n x).cal = s.cal := rfl
@[simp] theorem State.setCtx_therm (n : Nat) (x : Ctx) : (s.setCtx n x).therm = s.therm := rfl
@[simp] theorem State.setCtx_jtag (n : Nat) (x : Ctx) : (s.setCtx n x).jtag = s.jtag := rfl
@[simp] theorem State.setCtx_mem (n : Nat) (x : Ctx) : (s.setCtx n x).mem = s.mem := rfl
@[simp] theorem State.setCtx_reads (n : Nat) (x : Ctx) : (s.setCtx n x).reads = s.reads := rfl
@[simp] theorem State.setCtx_chans (n : Nat) (x : Ctx) : (s.setCtx n x).chans = s.chans := rfl
@[simp] theorem State.setCtx_sl (n : Nat) (x : Ctx) : (s.setCtx n x).sl = s.sl := rfl
@[simp] theorem State.setCtx_convoy (n : Nat) (x : Ctx) : (s.setCtx n x).convoy = s.convoy := rfl
@[simp] theorem State.setCtx_rosec (n : Nat) (x : Ctx) : (s.setCtx n x).rosec = s.rosec := rfl
@[simp] theorem State.setCtx_ev (n : Nat) (x : Ctx) : (s.setCtx n x).ev = s.ev := rfl
@[simp] theorem State.setCtx_handler (n : Nat) (x : Ctx) : (s.setCtx n x).handler = s.handler := rfl
@[simp] theorem State.setCtx_freeCtr (n : Nat) (x : Ctx) : (s.setCtx n x).freeCtr = s.freeCtr := rfl
@[simp] theorem State.setCtx_sent (n : Nat) (x : Ctx) : (s.setCtx n x).sent = s.sent := rfl
@[simp] theorem State.setCtx_pending (n : Nat) (x : Ctx) : (s.setCtx n x).pending = s.pending := rfl

/-! ### modCtx -/

@[simp] theorem State.modCtx_mode (n : Nat) (f : Ctx → Ctx) : (s.modCtx n f).mode = s.mode := rfl
@[simp] theorem State.modCtx_clk (n : Nat) (f : Ctx → Ctx) : (s.modCtx n f).clk = s.clk := rfl
@[simp] theorem State.modCtx_start (n : Nat) (f : Ctx → Ctx) : (s.modCtx n f).start = s.start := rfl
@[simp] theorem State.modCtx_grade (n : Nat) (f : Ctx → Ctx) : (s.modCtx n f).grade = s.grade := rfl
@[simp] theorem State.modCtx_step (n : Nat) (f : Ctx → Ctx) : (s.modCtx n f).step = s.step := rfl
@[simp] theorem State.modCtx_uid (n : Nat) (f : Ctx → Ctx) : (s.modCtx n f).uid = s.uid := rfl
@[simp] theorem State.modCtx_regs (n : Nat) (f : Ctx → Ctx) : (s.modCtx n f).regs = s.regs := rfl
@[simp] theorem State.modCtx_octs (n : Nat) (f : Ctx → Ctx) : (s.modCtx n f).octs = s.octs := rfl
@[simp] theorem State.modCtx_held (n : Nat) (f : Ctx → Ctx) : (s.modCtx n f).held = s.held := rfl
@[simp] theorem State.modCtx_sites (n : Nat) (f : Ctx → Ctx) : (s.modCtx n f).sites = s.sites := rfl
@[simp] theorem State.modCtx_pins (n : Nat) (f : Ctx → Ctx) : (s.modCtx n f).pins = s.pins := rfl
@[simp] theorem State.modCtx_store (n : Nat) (f : Ctx → Ctx) : (s.modCtx n f).store = s.store := rfl
@[simp] theorem State.modCtx_ledger (n : Nat) (f : Ctx → Ctx) : (s.modCtx n f).ledger = s.ledger := rfl
@[simp] theorem State.modCtx_inn (n : Nat) (f : Ctx → Ctx) : (s.modCtx n f).inn = s.inn := rfl
@[simp] theorem State.modCtx_caravans (n : Nat) (f : Ctx → Ctx) : (s.modCtx n f).caravans = s.caravans := rfl
@[simp] theorem State.modCtx_caps (n : Nat) (f : Ctx → Ctx) : (s.modCtx n f).caps = s.caps := rfl
@[simp] theorem State.modCtx_recs (n : Nat) (f : Ctx → Ctx) : (s.modCtx n f).recs = s.recs := rfl
@[simp] theorem State.modCtx_units (n : Nat) (f : Ctx → Ctx) : (s.modCtx n f).units = s.units := rfl
@[simp] theorem State.modCtx_defs (n : Nat) (f : Ctx → Ctx) : (s.modCtx n f).defs = s.defs := rfl
@[simp] theorem State.modCtx_evts (n : Nat) (f : Ctx → Ctx) : (s.modCtx n f).evts = s.evts := rfl
@[simp] theorem State.modCtx_time (n : Nat) (f : Ctx → Ctx) : (s.modCtx n f).time = s.time := rfl
@[simp] theorem State.modCtx_ring (n : Nat) (f : Ctx → Ctx) : (s.modCtx n f).ring = s.ring := rfl
@[simp] theorem State.modCtx_pass (n : Nat) (f : Ctx → Ctx) : (s.modCtx n f).pass = s.pass := rfl
@[simp] theorem State.modCtx_cal (n : Nat) (f : Ctx → Ctx) : (s.modCtx n f).cal = s.cal := rfl
@[simp] theorem State.modCtx_therm (n : Nat) (f : Ctx → Ctx) : (s.modCtx n f).therm = s.therm := rfl
@[simp] theorem State.modCtx_jtag (n : Nat) (f : Ctx → Ctx) : (s.modCtx n f).jtag = s.jtag := rfl
@[simp] theorem State.modCtx_mem (n : Nat) (f : Ctx → Ctx) : (s.modCtx n f).mem = s.mem := rfl
@[simp] theorem State.modCtx_reads (n : Nat) (f : Ctx → Ctx) : (s.modCtx n f).reads = s.reads := rfl
@[simp] theorem State.modCtx_chans (n : Nat) (f : Ctx → Ctx) : (s.modCtx n f).chans = s.chans := rfl
@[simp] theorem State.modCtx_sl (n : Nat) (f : Ctx → Ctx) : (s.modCtx n f).sl = s.sl := rfl
@[simp] theorem State.modCtx_convoy (n : Nat) (f : Ctx → Ctx) : (s.modCtx n f).convoy = s.convoy := rfl
@[simp] theorem State.modCtx_rosec (n : Nat) (f : Ctx → Ctx) : (s.modCtx n f).rosec = s.rosec := rfl
@[simp] theorem State.modCtx_ev (n : Nat) (f : Ctx → Ctx) : (s.modCtx n f).ev = s.ev := rfl
@[simp] theorem State.modCtx_handler (n : Nat) (f : Ctx → Ctx) : (s.modCtx n f).handler = s.handler := rfl
@[simp] theorem State.modCtx_freeCtr (n : Nat) (f : Ctx → Ctx) : (s.modCtx n f).freeCtr = s.freeCtr := rfl
@[simp] theorem State.modCtx_sent (n : Nat) (f : Ctx → Ctx) : (s.modCtx n f).sent = s.sent := rfl
@[simp] theorem State.modCtx_pending (n : Nat) (f : Ctx → Ctx) : (s.modCtx n f).pending = s.pending := rfl

/-! ### setEntry -/

@[simp] theorem State.setEntry_mode (n : Nat) (x : Entry) : (s.setEntry n x).mode = s.mode := rfl
@[simp] theorem State.setEntry_clk (n : Nat) (x : Entry) : (s.setEntry n x).clk = s.clk := rfl
@[simp] theorem State.setEntry_start (n : Nat) (x : Entry) : (s.setEntry n x).start = s.start := rfl
@[simp] theorem State.setEntry_grade (n : Nat) (x : Entry) : (s.setEntry n x).grade = s.grade := rfl
@[simp] theorem State.setEntry_step (n : Nat) (x : Entry) : (s.setEntry n x).step = s.step := rfl
@[simp] theorem State.setEntry_uid (n : Nat) (x : Entry) : (s.setEntry n x).uid = s.uid := rfl
@[simp] theorem State.setEntry_regs (n : Nat) (x : Entry) : (s.setEntry n x).regs = s.regs := rfl
@[simp] theorem State.setEntry_octs (n : Nat) (x : Entry) : (s.setEntry n x).octs = s.octs := rfl
@[simp] theorem State.setEntry_held (n : Nat) (x : Entry) : (s.setEntry n x).held = s.held := rfl
@[simp] theorem State.setEntry_sites (n : Nat) (x : Entry) : (s.setEntry n x).sites = s.sites := rfl
@[simp] theorem State.setEntry_pins (n : Nat) (x : Entry) : (s.setEntry n x).pins = s.pins := rfl
@[simp] theorem State.setEntry_ctxs (n : Nat) (x : Entry) : (s.setEntry n x).ctxs = s.ctxs := rfl
@[simp] theorem State.setEntry_store (n : Nat) (x : Entry) : (s.setEntry n x).store = s.store := rfl
@[simp] theorem State.setEntry_inn (n : Nat) (x : Entry) : (s.setEntry n x).inn = s.inn := rfl
@[simp] theorem State.setEntry_caravans (n : Nat) (x : Entry) : (s.setEntry n x).caravans = s.caravans := rfl
@[simp] theorem State.setEntry_caps (n : Nat) (x : Entry) : (s.setEntry n x).caps = s.caps := rfl
@[simp] theorem State.setEntry_recs (n : Nat) (x : Entry) : (s.setEntry n x).recs = s.recs := rfl
@[simp] theorem State.setEntry_units (n : Nat) (x : Entry) : (s.setEntry n x).units = s.units := rfl
@[simp] theorem State.setEntry_defs (n : Nat) (x : Entry) : (s.setEntry n x).defs = s.defs := rfl
@[simp] theorem State.setEntry_evts (n : Nat) (x : Entry) : (s.setEntry n x).evts = s.evts := rfl
@[simp] theorem State.setEntry_time (n : Nat) (x : Entry) : (s.setEntry n x).time = s.time := rfl
@[simp] theorem State.setEntry_ring (n : Nat) (x : Entry) : (s.setEntry n x).ring = s.ring := rfl
@[simp] theorem State.setEntry_pass (n : Nat) (x : Entry) : (s.setEntry n x).pass = s.pass := rfl
@[simp] theorem State.setEntry_cal (n : Nat) (x : Entry) : (s.setEntry n x).cal = s.cal := rfl
@[simp] theorem State.setEntry_therm (n : Nat) (x : Entry) : (s.setEntry n x).therm = s.therm := rfl
@[simp] theorem State.setEntry_jtag (n : Nat) (x : Entry) : (s.setEntry n x).jtag = s.jtag := rfl
@[simp] theorem State.setEntry_mem (n : Nat) (x : Entry) : (s.setEntry n x).mem = s.mem := rfl
@[simp] theorem State.setEntry_reads (n : Nat) (x : Entry) : (s.setEntry n x).reads = s.reads := rfl
@[simp] theorem State.setEntry_chans (n : Nat) (x : Entry) : (s.setEntry n x).chans = s.chans := rfl
@[simp] theorem State.setEntry_sl (n : Nat) (x : Entry) : (s.setEntry n x).sl = s.sl := rfl
@[simp] theorem State.setEntry_convoy (n : Nat) (x : Entry) : (s.setEntry n x).convoy = s.convoy := rfl
@[simp] theorem State.setEntry_rosec (n : Nat) (x : Entry) : (s.setEntry n x).rosec = s.rosec := rfl
@[simp] theorem State.setEntry_ev (n : Nat) (x : Entry) : (s.setEntry n x).ev = s.ev := rfl
@[simp] theorem State.setEntry_handler (n : Nat) (x : Entry) : (s.setEntry n x).handler = s.handler := rfl
@[simp] theorem State.setEntry_freeCtr (n : Nat) (x : Entry) : (s.setEntry n x).freeCtr = s.freeCtr := rfl
@[simp] theorem State.setEntry_sent (n : Nat) (x : Entry) : (s.setEntry n x).sent = s.sent := rfl
@[simp] theorem State.setEntry_pending (n : Nat) (x : Entry) : (s.setEntry n x).pending = s.pending := rfl

/-! ### setCaravan -/

@[simp] theorem State.setCaravan_mode (n : Nat) (x : Caravan) : (s.setCaravan n x).mode = s.mode := rfl
@[simp] theorem State.setCaravan_clk (n : Nat) (x : Caravan) : (s.setCaravan n x).clk = s.clk := rfl
@[simp] theorem State.setCaravan_start (n : Nat) (x : Caravan) : (s.setCaravan n x).start = s.start := rfl
@[simp] theorem State.setCaravan_grade (n : Nat) (x : Caravan) : (s.setCaravan n x).grade = s.grade := rfl
@[simp] theorem State.setCaravan_step (n : Nat) (x : Caravan) : (s.setCaravan n x).step = s.step := rfl
@[simp] theorem State.setCaravan_uid (n : Nat) (x : Caravan) : (s.setCaravan n x).uid = s.uid := rfl
@[simp] theorem State.setCaravan_regs (n : Nat) (x : Caravan) : (s.setCaravan n x).regs = s.regs := rfl
@[simp] theorem State.setCaravan_octs (n : Nat) (x : Caravan) : (s.setCaravan n x).octs = s.octs := rfl
@[simp] theorem State.setCaravan_held (n : Nat) (x : Caravan) : (s.setCaravan n x).held = s.held := rfl
@[simp] theorem State.setCaravan_sites (n : Nat) (x : Caravan) : (s.setCaravan n x).sites = s.sites := rfl
@[simp] theorem State.setCaravan_pins (n : Nat) (x : Caravan) : (s.setCaravan n x).pins = s.pins := rfl
@[simp] theorem State.setCaravan_ctxs (n : Nat) (x : Caravan) : (s.setCaravan n x).ctxs = s.ctxs := rfl
@[simp] theorem State.setCaravan_store (n : Nat) (x : Caravan) : (s.setCaravan n x).store = s.store := rfl
@[simp] theorem State.setCaravan_ledger (n : Nat) (x : Caravan) : (s.setCaravan n x).ledger = s.ledger := rfl
@[simp] theorem State.setCaravan_inn (n : Nat) (x : Caravan) : (s.setCaravan n x).inn = s.inn := rfl
@[simp] theorem State.setCaravan_caps (n : Nat) (x : Caravan) : (s.setCaravan n x).caps = s.caps := rfl
@[simp] theorem State.setCaravan_recs (n : Nat) (x : Caravan) : (s.setCaravan n x).recs = s.recs := rfl
@[simp] theorem State.setCaravan_units (n : Nat) (x : Caravan) : (s.setCaravan n x).units = s.units := rfl
@[simp] theorem State.setCaravan_defs (n : Nat) (x : Caravan) : (s.setCaravan n x).defs = s.defs := rfl
@[simp] theorem State.setCaravan_evts (n : Nat) (x : Caravan) : (s.setCaravan n x).evts = s.evts := rfl
@[simp] theorem State.setCaravan_time (n : Nat) (x : Caravan) : (s.setCaravan n x).time = s.time := rfl
@[simp] theorem State.setCaravan_ring (n : Nat) (x : Caravan) : (s.setCaravan n x).ring = s.ring := rfl
@[simp] theorem State.setCaravan_pass (n : Nat) (x : Caravan) : (s.setCaravan n x).pass = s.pass := rfl
@[simp] theorem State.setCaravan_cal (n : Nat) (x : Caravan) : (s.setCaravan n x).cal = s.cal := rfl
@[simp] theorem State.setCaravan_therm (n : Nat) (x : Caravan) : (s.setCaravan n x).therm = s.therm := rfl
@[simp] theorem State.setCaravan_jtag (n : Nat) (x : Caravan) : (s.setCaravan n x).jtag = s.jtag := rfl
@[simp] theorem State.setCaravan_mem (n : Nat) (x : Caravan) : (s.setCaravan n x).mem = s.mem := rfl
@[simp] theorem State.setCaravan_reads (n : Nat) (x : Caravan) : (s.setCaravan n x).reads = s.reads := rfl
@[simp] theorem State.setCaravan_chans (n : Nat) (x : Caravan) : (s.setCaravan n x).chans = s.chans := rfl
@[simp] theorem State.setCaravan_sl (n : Nat) (x : Caravan) : (s.setCaravan n x).sl = s.sl := rfl
@[simp] theorem State.setCaravan_convoy (n : Nat) (x : Caravan) : (s.setCaravan n x).convoy = s.convoy := rfl
@[simp] theorem State.setCaravan_rosec (n : Nat) (x : Caravan) : (s.setCaravan n x).rosec = s.rosec := rfl
@[simp] theorem State.setCaravan_ev (n : Nat) (x : Caravan) : (s.setCaravan n x).ev = s.ev := rfl
@[simp] theorem State.setCaravan_handler (n : Nat) (x : Caravan) : (s.setCaravan n x).handler = s.handler := rfl
@[simp] theorem State.setCaravan_freeCtr (n : Nat) (x : Caravan) : (s.setCaravan n x).freeCtr = s.freeCtr := rfl
@[simp] theorem State.setCaravan_sent (n : Nat) (x : Caravan) : (s.setCaravan n x).sent = s.sent := rfl
@[simp] theorem State.setCaravan_pending (n : Nat) (x : Caravan) : (s.setCaravan n x).pending = s.pending := rfl

/-! ### setCap -/

@[simp] theorem State.setCap_mode (n : Nat) (x : Capture) : (s.setCap n x).mode = s.mode := rfl
@[simp] theorem State.setCap_clk (n : Nat) (x : Capture) : (s.setCap n x).clk = s.clk := rfl
@[simp] theorem State.setCap_start (n : Nat) (x : Capture) : (s.setCap n x).start = s.start := rfl
@[simp] theorem State.setCap_grade (n : Nat) (x : Capture) : (s.setCap n x).grade = s.grade := rfl
@[simp] theorem State.setCap_step (n : Nat) (x : Capture) : (s.setCap n x).step = s.step := rfl
@[simp] theorem State.setCap_uid (n : Nat) (x : Capture) : (s.setCap n x).uid = s.uid := rfl
@[simp] theorem State.setCap_regs (n : Nat) (x : Capture) : (s.setCap n x).regs = s.regs := rfl
@[simp] theorem State.setCap_octs (n : Nat) (x : Capture) : (s.setCap n x).octs = s.octs := rfl
@[simp] theorem State.setCap_held (n : Nat) (x : Capture) : (s.setCap n x).held = s.held := rfl
@[simp] theorem State.setCap_sites (n : Nat) (x : Capture) : (s.setCap n x).sites = s.sites := rfl
@[simp] theorem State.setCap_pins (n : Nat) (x : Capture) : (s.setCap n x).pins = s.pins := rfl
@[simp] theorem State.setCap_ctxs (n : Nat) (x : Capture) : (s.setCap n x).ctxs = s.ctxs := rfl
@[simp] theorem State.setCap_store (n : Nat) (x : Capture) : (s.setCap n x).store = s.store := rfl
@[simp] theorem State.setCap_ledger (n : Nat) (x : Capture) : (s.setCap n x).ledger = s.ledger := rfl
@[simp] theorem State.setCap_inn (n : Nat) (x : Capture) : (s.setCap n x).inn = s.inn := rfl
@[simp] theorem State.setCap_caravans (n : Nat) (x : Capture) : (s.setCap n x).caravans = s.caravans := rfl
@[simp] theorem State.setCap_recs (n : Nat) (x : Capture) : (s.setCap n x).recs = s.recs := rfl
@[simp] theorem State.setCap_units (n : Nat) (x : Capture) : (s.setCap n x).units = s.units := rfl
@[simp] theorem State.setCap_defs (n : Nat) (x : Capture) : (s.setCap n x).defs = s.defs := rfl
@[simp] theorem State.setCap_evts (n : Nat) (x : Capture) : (s.setCap n x).evts = s.evts := rfl
@[simp] theorem State.setCap_time (n : Nat) (x : Capture) : (s.setCap n x).time = s.time := rfl
@[simp] theorem State.setCap_ring (n : Nat) (x : Capture) : (s.setCap n x).ring = s.ring := rfl
@[simp] theorem State.setCap_pass (n : Nat) (x : Capture) : (s.setCap n x).pass = s.pass := rfl
@[simp] theorem State.setCap_cal (n : Nat) (x : Capture) : (s.setCap n x).cal = s.cal := rfl
@[simp] theorem State.setCap_therm (n : Nat) (x : Capture) : (s.setCap n x).therm = s.therm := rfl
@[simp] theorem State.setCap_jtag (n : Nat) (x : Capture) : (s.setCap n x).jtag = s.jtag := rfl
@[simp] theorem State.setCap_mem (n : Nat) (x : Capture) : (s.setCap n x).mem = s.mem := rfl
@[simp] theorem State.setCap_reads (n : Nat) (x : Capture) : (s.setCap n x).reads = s.reads := rfl
@[simp] theorem State.setCap_chans (n : Nat) (x : Capture) : (s.setCap n x).chans = s.chans := rfl
@[simp] theorem State.setCap_sl (n : Nat) (x : Capture) : (s.setCap n x).sl = s.sl := rfl
@[simp] theorem State.setCap_convoy (n : Nat) (x : Capture) : (s.setCap n x).convoy = s.convoy := rfl
@[simp] theorem State.setCap_rosec (n : Nat) (x : Capture) : (s.setCap n x).rosec = s.rosec := rfl
@[simp] theorem State.setCap_ev (n : Nat) (x : Capture) : (s.setCap n x).ev = s.ev := rfl
@[simp] theorem State.setCap_handler (n : Nat) (x : Capture) : (s.setCap n x).handler = s.handler := rfl
@[simp] theorem State.setCap_freeCtr (n : Nat) (x : Capture) : (s.setCap n x).freeCtr = s.freeCtr := rfl
@[simp] theorem State.setCap_sent (n : Nat) (x : Capture) : (s.setCap n x).sent = s.sent := rfl
@[simp] theorem State.setCap_pending (n : Nat) (x : Capture) : (s.setCap n x).pending = s.pending := rfl

/-! ### setRec -/

@[simp] theorem State.setRec_mode (n : Nat) (x : Rec) : (s.setRec n x).mode = s.mode := rfl
@[simp] theorem State.setRec_clk (n : Nat) (x : Rec) : (s.setRec n x).clk = s.clk := rfl
@[simp] theorem State.setRec_start (n : Nat) (x : Rec) : (s.setRec n x).start = s.start := rfl
@[simp] theorem State.setRec_grade (n : Nat) (x : Rec) : (s.setRec n x).grade = s.grade := rfl
@[simp] theorem State.setRec_step (n : Nat) (x : Rec) : (s.setRec n x).step = s.step := rfl
@[simp] theorem State.setRec_uid (n : Nat) (x : Rec) : (s.setRec n x).uid = s.uid := rfl
@[simp] theorem State.setRec_regs (n : Nat) (x : Rec) : (s.setRec n x).regs = s.regs := rfl
@[simp] theorem State.setRec_octs (n : Nat) (x : Rec) : (s.setRec n x).octs = s.octs := rfl
@[simp] theorem State.setRec_held (n : Nat) (x : Rec) : (s.setRec n x).held = s.held := rfl
@[simp] theorem State.setRec_sites (n : Nat) (x : Rec) : (s.setRec n x).sites = s.sites := rfl
@[simp] theorem State.setRec_pins (n : Nat) (x : Rec) : (s.setRec n x).pins = s.pins := rfl
@[simp] theorem State.setRec_ctxs (n : Nat) (x : Rec) : (s.setRec n x).ctxs = s.ctxs := rfl
@[simp] theorem State.setRec_store (n : Nat) (x : Rec) : (s.setRec n x).store = s.store := rfl
@[simp] theorem State.setRec_ledger (n : Nat) (x : Rec) : (s.setRec n x).ledger = s.ledger := rfl
@[simp] theorem State.setRec_inn (n : Nat) (x : Rec) : (s.setRec n x).inn = s.inn := rfl
@[simp] theorem State.setRec_caravans (n : Nat) (x : Rec) : (s.setRec n x).caravans = s.caravans := rfl
@[simp] theorem State.setRec_caps (n : Nat) (x : Rec) : (s.setRec n x).caps = s.caps := rfl
@[simp] theorem State.setRec_units (n : Nat) (x : Rec) : (s.setRec n x).units = s.units := rfl
@[simp] theorem State.setRec_defs (n : Nat) (x : Rec) : (s.setRec n x).defs = s.defs := rfl
@[simp] theorem State.setRec_evts (n : Nat) (x : Rec) : (s.setRec n x).evts = s.evts := rfl
@[simp] theorem State.setRec_time (n : Nat) (x : Rec) : (s.setRec n x).time = s.time := rfl
@[simp] theorem State.setRec_ring (n : Nat) (x : Rec) : (s.setRec n x).ring = s.ring := rfl
@[simp] theorem State.setRec_pass (n : Nat) (x : Rec) : (s.setRec n x).pass = s.pass := rfl
@[simp] theorem State.setRec_cal (n : Nat) (x : Rec) : (s.setRec n x).cal = s.cal := rfl
@[simp] theorem State.setRec_therm (n : Nat) (x : Rec) : (s.setRec n x).therm = s.therm := rfl
@[simp] theorem State.setRec_jtag (n : Nat) (x : Rec) : (s.setRec n x).jtag = s.jtag := rfl
@[simp] theorem State.setRec_mem (n : Nat) (x : Rec) : (s.setRec n x).mem = s.mem := rfl
@[simp] theorem State.setRec_reads (n : Nat) (x : Rec) : (s.setRec n x).reads = s.reads := rfl
@[simp] theorem State.setRec_chans (n : Nat) (x : Rec) : (s.setRec n x).chans = s.chans := rfl
@[simp] theorem State.setRec_sl (n : Nat) (x : Rec) : (s.setRec n x).sl = s.sl := rfl
@[simp] theorem State.setRec_convoy (n : Nat) (x : Rec) : (s.setRec n x).convoy = s.convoy := rfl
@[simp] theorem State.setRec_rosec (n : Nat) (x : Rec) : (s.setRec n x).rosec = s.rosec := rfl
@[simp] theorem State.setRec_ev (n : Nat) (x : Rec) : (s.setRec n x).ev = s.ev := rfl
@[simp] theorem State.setRec_handler (n : Nat) (x : Rec) : (s.setRec n x).handler = s.handler := rfl
@[simp] theorem State.setRec_freeCtr (n : Nat) (x : Rec) : (s.setRec n x).freeCtr = s.freeCtr := rfl
@[simp] theorem State.setRec_sent (n : Nat) (x : Rec) : (s.setRec n x).sent = s.sent := rfl
@[simp] theorem State.setRec_pending (n : Nat) (x : Rec) : (s.setRec n x).pending = s.pending := rfl

/-! ### setTu -/

@[simp] theorem State.setTu_mode (n : Nat) (x : TrigUnit) : (s.setTu n x).mode = s.mode := rfl
@[simp] theorem State.setTu_clk (n : Nat) (x : TrigUnit) : (s.setTu n x).clk = s.clk := rfl
@[simp] theorem State.setTu_start (n : Nat) (x : TrigUnit) : (s.setTu n x).start = s.start := rfl
@[simp] theorem State.setTu_grade (n : Nat) (x : TrigUnit) : (s.setTu n x).grade = s.grade := rfl
@[simp] theorem State.setTu_step (n : Nat) (x : TrigUnit) : (s.setTu n x).step = s.step := rfl
@[simp] theorem State.setTu_uid (n : Nat) (x : TrigUnit) : (s.setTu n x).uid = s.uid := rfl
@[simp] theorem State.setTu_regs (n : Nat) (x : TrigUnit) : (s.setTu n x).regs = s.regs := rfl
@[simp] theorem State.setTu_octs (n : Nat) (x : TrigUnit) : (s.setTu n x).octs = s.octs := rfl
@[simp] theorem State.setTu_held (n : Nat) (x : TrigUnit) : (s.setTu n x).held = s.held := rfl
@[simp] theorem State.setTu_sites (n : Nat) (x : TrigUnit) : (s.setTu n x).sites = s.sites := rfl
@[simp] theorem State.setTu_pins (n : Nat) (x : TrigUnit) : (s.setTu n x).pins = s.pins := rfl
@[simp] theorem State.setTu_ctxs (n : Nat) (x : TrigUnit) : (s.setTu n x).ctxs = s.ctxs := rfl
@[simp] theorem State.setTu_store (n : Nat) (x : TrigUnit) : (s.setTu n x).store = s.store := rfl
@[simp] theorem State.setTu_ledger (n : Nat) (x : TrigUnit) : (s.setTu n x).ledger = s.ledger := rfl
@[simp] theorem State.setTu_inn (n : Nat) (x : TrigUnit) : (s.setTu n x).inn = s.inn := rfl
@[simp] theorem State.setTu_caravans (n : Nat) (x : TrigUnit) : (s.setTu n x).caravans = s.caravans := rfl
@[simp] theorem State.setTu_caps (n : Nat) (x : TrigUnit) : (s.setTu n x).caps = s.caps := rfl
@[simp] theorem State.setTu_recs (n : Nat) (x : TrigUnit) : (s.setTu n x).recs = s.recs := rfl
@[simp] theorem State.setTu_defs (n : Nat) (x : TrigUnit) : (s.setTu n x).defs = s.defs := rfl
@[simp] theorem State.setTu_evts (n : Nat) (x : TrigUnit) : (s.setTu n x).evts = s.evts := rfl
@[simp] theorem State.setTu_time (n : Nat) (x : TrigUnit) : (s.setTu n x).time = s.time := rfl
@[simp] theorem State.setTu_ring (n : Nat) (x : TrigUnit) : (s.setTu n x).ring = s.ring := rfl
@[simp] theorem State.setTu_pass (n : Nat) (x : TrigUnit) : (s.setTu n x).pass = s.pass := rfl
@[simp] theorem State.setTu_cal (n : Nat) (x : TrigUnit) : (s.setTu n x).cal = s.cal := rfl
@[simp] theorem State.setTu_therm (n : Nat) (x : TrigUnit) : (s.setTu n x).therm = s.therm := rfl
@[simp] theorem State.setTu_jtag (n : Nat) (x : TrigUnit) : (s.setTu n x).jtag = s.jtag := rfl
@[simp] theorem State.setTu_mem (n : Nat) (x : TrigUnit) : (s.setTu n x).mem = s.mem := rfl
@[simp] theorem State.setTu_reads (n : Nat) (x : TrigUnit) : (s.setTu n x).reads = s.reads := rfl
@[simp] theorem State.setTu_chans (n : Nat) (x : TrigUnit) : (s.setTu n x).chans = s.chans := rfl
@[simp] theorem State.setTu_sl (n : Nat) (x : TrigUnit) : (s.setTu n x).sl = s.sl := rfl
@[simp] theorem State.setTu_convoy (n : Nat) (x : TrigUnit) : (s.setTu n x).convoy = s.convoy := rfl
@[simp] theorem State.setTu_rosec (n : Nat) (x : TrigUnit) : (s.setTu n x).rosec = s.rosec := rfl
@[simp] theorem State.setTu_ev (n : Nat) (x : TrigUnit) : (s.setTu n x).ev = s.ev := rfl
@[simp] theorem State.setTu_handler (n : Nat) (x : TrigUnit) : (s.setTu n x).handler = s.handler := rfl
@[simp] theorem State.setTu_freeCtr (n : Nat) (x : TrigUnit) : (s.setTu n x).freeCtr = s.freeCtr := rfl
@[simp] theorem State.setTu_sent (n : Nat) (x : TrigUnit) : (s.setTu n x).sent = s.sent := rfl
@[simp] theorem State.setTu_pending (n : Nat) (x : TrigUnit) : (s.setTu n x).pending = s.pending := rfl

/-! ### send -/

@[simp] theorem State.send_mode (m : Sent) : (s.send m).mode = s.mode := rfl
@[simp] theorem State.send_clk (m : Sent) : (s.send m).clk = s.clk := rfl
@[simp] theorem State.send_start (m : Sent) : (s.send m).start = s.start := rfl
@[simp] theorem State.send_grade (m : Sent) : (s.send m).grade = s.grade := rfl
@[simp] theorem State.send_step (m : Sent) : (s.send m).step = s.step := rfl
@[simp] theorem State.send_uid (m : Sent) : (s.send m).uid = s.uid := rfl
@[simp] theorem State.send_regs (m : Sent) : (s.send m).regs = s.regs := rfl
@[simp] theorem State.send_octs (m : Sent) : (s.send m).octs = s.octs := rfl
@[simp] theorem State.send_held (m : Sent) : (s.send m).held = s.held := rfl
@[simp] theorem State.send_sites (m : Sent) : (s.send m).sites = s.sites := rfl
@[simp] theorem State.send_pins (m : Sent) : (s.send m).pins = s.pins := rfl
@[simp] theorem State.send_ctxs (m : Sent) : (s.send m).ctxs = s.ctxs := rfl
@[simp] theorem State.send_store (m : Sent) : (s.send m).store = s.store := rfl
@[simp] theorem State.send_ledger (m : Sent) : (s.send m).ledger = s.ledger := rfl
@[simp] theorem State.send_inn (m : Sent) : (s.send m).inn = s.inn := rfl
@[simp] theorem State.send_caravans (m : Sent) : (s.send m).caravans = s.caravans := rfl
@[simp] theorem State.send_caps (m : Sent) : (s.send m).caps = s.caps := rfl
@[simp] theorem State.send_recs (m : Sent) : (s.send m).recs = s.recs := rfl
@[simp] theorem State.send_units (m : Sent) : (s.send m).units = s.units := rfl
@[simp] theorem State.send_defs (m : Sent) : (s.send m).defs = s.defs := rfl
@[simp] theorem State.send_evts (m : Sent) : (s.send m).evts = s.evts := rfl
@[simp] theorem State.send_time (m : Sent) : (s.send m).time = s.time := rfl
@[simp] theorem State.send_ring (m : Sent) : (s.send m).ring = s.ring := rfl
@[simp] theorem State.send_pass (m : Sent) : (s.send m).pass = s.pass := rfl
@[simp] theorem State.send_cal (m : Sent) : (s.send m).cal = s.cal := rfl
@[simp] theorem State.send_therm (m : Sent) : (s.send m).therm = s.therm := rfl
@[simp] theorem State.send_jtag (m : Sent) : (s.send m).jtag = s.jtag := rfl
@[simp] theorem State.send_mem (m : Sent) : (s.send m).mem = s.mem := rfl
@[simp] theorem State.send_reads (m : Sent) : (s.send m).reads = s.reads := rfl
@[simp] theorem State.send_chans (m : Sent) : (s.send m).chans = s.chans := rfl
@[simp] theorem State.send_sl (m : Sent) : (s.send m).sl = s.sl := rfl
@[simp] theorem State.send_convoy (m : Sent) : (s.send m).convoy = s.convoy := rfl
@[simp] theorem State.send_rosec (m : Sent) : (s.send m).rosec = s.rosec := rfl
@[simp] theorem State.send_ev (m : Sent) : (s.send m).ev = s.ev := rfl
@[simp] theorem State.send_handler (m : Sent) : (s.send m).handler = s.handler := rfl
@[simp] theorem State.send_freeCtr (m : Sent) : (s.send m).freeCtr = s.freeCtr := rfl
@[simp] theorem State.send_pending (m : Sent) : (s.send m).pending = s.pending := rfl

/-! ### setReg -/

@[simp] theorem State.setReg_mode (i j : Nat) (v : Int) : (s.setReg i j v).mode = s.mode := rfl
@[simp] theorem State.setReg_clk (i j : Nat) (v : Int) : (s.setReg i j v).clk = s.clk := rfl
@[simp] theorem State.setReg_start (i j : Nat) (v : Int) : (s.setReg i j v).start = s.start := rfl
@[simp] theorem State.setReg_grade (i j : Nat) (v : Int) : (s.setReg i j v).grade = s.grade := rfl
@[simp] theorem State.setReg_step (i j : Nat) (v : Int) : (s.setReg i j v).step = s.step := rfl
@[simp] theorem State.setReg_uid (i j : Nat) (v : Int) : (s.setReg i j v).uid = s.uid := rfl
@[simp] theorem State.setReg_octs (i j : Nat) (v : Int) : (s.setReg i j v).octs = s.octs := rfl
@[simp] theorem State.setReg_held (i j : Nat) (v : Int) : (s.setReg i j v).held = s.held := rfl
@[simp] theorem State.setReg_sites (i j : Nat) (v : Int) : (s.setReg i j v).sites = s.sites := rfl
@[simp] theorem State.setReg_pins (i j : Nat) (v : Int) : (s.setReg i j v).pins = s.pins := rfl
@[simp] theorem State.setReg_ctxs (i j : Nat) (v : Int) : (s.setReg i j v).ctxs = s.ctxs := rfl
@[simp] theorem State.setReg_store (i j : Nat) (v : Int) : (s.setReg i j v).store = s.store := rfl
@[simp] theorem State.setReg_ledger (i j : Nat) (v : Int) : (s.setReg i j v).ledger = s.ledger := rfl
@[simp] theorem State.setReg_inn (i j : Nat) (v : Int) : (s.setReg i j v).inn = s.inn := rfl
@[simp] theorem State.setReg_caravans (i j : Nat) (v : Int) : (s.setReg i j v).caravans = s.caravans := rfl
@[simp] theorem State.setReg_caps (i j : Nat) (v : Int) : (s.setReg i j v).caps = s.caps := rfl
@[simp] theorem State.setReg_recs (i j : Nat) (v : Int) : (s.setReg i j v).recs = s.recs := rfl
@[simp] theorem State.setReg_units (i j : Nat) (v : Int) : (s.setReg i j v).units = s.units := rfl
@[simp] theorem State.setReg_defs (i j : Nat) (v : Int) : (s.setReg i j v).defs = s.defs := rfl
@[simp] theorem State.setReg_evts (i j : Nat) (v : Int) : (s.setReg i j v).evts = s.evts := rfl
@[simp] theorem State.setReg_time (i j : Nat) (v : Int) : (s.setReg i j v).time = s.time := rfl
@[simp] theorem State.setReg_ring (i j : Nat) (v : Int) : (s.setReg i j v).ring = s.ring := rfl
@[simp] theorem State.setReg_pass (i j : Nat) (v : Int) : (s.setReg i j v).pass = s.pass := rfl
@[simp] theorem State.setReg_cal (i j : Nat) (v : Int) : (s.setReg i j v).cal = s.cal := rfl
@[simp] theorem State.setReg_therm (i j : Nat) (v : Int) : (s.setReg i j v).therm = s.therm := rfl
@[simp] theorem State.setReg_jtag (i j : Nat) (v : Int) : (s.setReg i j v).jtag = s.jtag := rfl
@[simp] theorem State.setReg_mem (i j : Nat) (v : Int) : (s.setReg i j v).mem = s.mem := rfl
@[simp] theorem State.setReg_reads (i j : Nat) (v : Int) : (s.setReg i j v).reads = s.reads := rfl
@[simp] theorem State.setReg_chans (i j : Nat) (v : Int) : (s.setReg i j v).chans = s.chans := rfl
@[simp] theorem State.setReg_sl (i j : Nat) (v : Int) : (s.setReg i j v).sl = s.sl := rfl
@[simp] theorem State.setReg_convoy (i j : Nat) (v : Int) : (s.setReg i j v).convoy = s.convoy := rfl
@[simp] theorem State.setReg_rosec (i j : Nat) (v : Int) : (s.setReg i j v).rosec = s.rosec := rfl
@[simp] theorem State.setReg_ev (i j : Nat) (v : Int) : (s.setReg i j v).ev = s.ev := rfl
@[simp] theorem State.setReg_handler (i j : Nat) (v : Int) : (s.setReg i j v).handler = s.handler := rfl
@[simp] theorem State.setReg_freeCtr (i j : Nat) (v : Int) : (s.setReg i j v).freeCtr = s.freeCtr := rfl
@[simp] theorem State.setReg_sent (i j : Nat) (v : Int) : (s.setReg i j v).sent = s.sent := rfl
@[simp] theorem State.setReg_pending (i j : Nat) (v : Int) : (s.setReg i j v).pending = s.pending := rfl

/-! ### setNat -/

@[simp] theorem State.setNat_mode (i j v : Nat) : (s.setNat i j v).mode = s.mode := rfl
@[simp] theorem State.setNat_clk (i j v : Nat) : (s.setNat i j v).clk = s.clk := rfl
@[simp] theorem State.setNat_start (i j v : Nat) : (s.setNat i j v).start = s.start := rfl
@[simp] theorem State.setNat_grade (i j v : Nat) : (s.setNat i j v).grade = s.grade := rfl
@[simp] theorem State.setNat_step (i j v : Nat) : (s.setNat i j v).step = s.step := rfl
@[simp] theorem State.setNat_uid (i j v : Nat) : (s.setNat i j v).uid = s.uid := rfl
@[simp] theorem State.setNat_octs (i j v : Nat) : (s.setNat i j v).octs = s.octs := rfl
@[simp] theorem State.setNat_held (i j v : Nat) : (s.setNat i j v).held = s.held := rfl
@[simp] theorem State.setNat_sites (i j v : Nat) : (s.setNat i j v).sites = s.sites := rfl
@[simp] theorem State.setNat_pins (i j v : Nat) : (s.setNat i j v).pins = s.pins := rfl
@[simp] theorem State.setNat_ctxs (i j v : Nat) : (s.setNat i j v).ctxs = s.ctxs := rfl
@[simp] theorem State.setNat_store (i j v : Nat) : (s.setNat i j v).store = s.store := rfl
@[simp] theorem State.setNat_ledger (i j v : Nat) : (s.setNat i j v).ledger = s.ledger := rfl
@[simp] theorem State.setNat_inn (i j v : Nat) : (s.setNat i j v).inn = s.inn := rfl
@[simp] theorem State.setNat_caravans (i j v : Nat) : (s.setNat i j v).caravans = s.caravans := rfl
@[simp] theorem State.setNat_caps (i j v : Nat) : (s.setNat i j v).caps = s.caps := rfl
@[simp] theorem State.setNat_recs (i j v : Nat) : (s.setNat i j v).recs = s.recs := rfl
@[simp] theorem State.setNat_units (i j v : Nat) : (s.setNat i j v).units = s.units := rfl
@[simp] theorem State.setNat_defs (i j v : Nat) : (s.setNat i j v).defs = s.defs := rfl
@[simp] theorem State.setNat_evts (i j v : Nat) : (s.setNat i j v).evts = s.evts := rfl
@[simp] theorem State.setNat_time (i j v : Nat) : (s.setNat i j v).time = s.time := rfl
@[simp] theorem State.setNat_ring (i j v : Nat) : (s.setNat i j v).ring = s.ring := rfl
@[simp] theorem State.setNat_pass (i j v : Nat) : (s.setNat i j v).pass = s.pass := rfl
@[simp] theorem State.setNat_cal (i j v : Nat) : (s.setNat i j v).cal = s.cal := rfl
@[simp] theorem State.setNat_therm (i j v : Nat) : (s.setNat i j v).therm = s.therm := rfl
@[simp] theorem State.setNat_jtag (i j v : Nat) : (s.setNat i j v).jtag = s.jtag := rfl
@[simp] theorem State.setNat_mem (i j v : Nat) : (s.setNat i j v).mem = s.mem := rfl
@[simp] theorem State.setNat_reads (i j v : Nat) : (s.setNat i j v).reads = s.reads := rfl
@[simp] theorem State.setNat_chans (i j v : Nat) : (s.setNat i j v).chans = s.chans := rfl
@[simp] theorem State.setNat_sl (i j v : Nat) : (s.setNat i j v).sl = s.sl := rfl
@[simp] theorem State.setNat_convoy (i j v : Nat) : (s.setNat i j v).convoy = s.convoy := rfl
@[simp] theorem State.setNat_rosec (i j v : Nat) : (s.setNat i j v).rosec = s.rosec := rfl
@[simp] theorem State.setNat_ev (i j v : Nat) : (s.setNat i j v).ev = s.ev := rfl
@[simp] theorem State.setNat_handler (i j v : Nat) : (s.setNat i j v).handler = s.handler := rfl
@[simp] theorem State.setNat_freeCtr (i j v : Nat) : (s.setNat i j v).freeCtr = s.freeCtr := rfl
@[simp] theorem State.setNat_sent (i j v : Nat) : (s.setNat i j v).sent = s.sent := rfl
@[simp] theorem State.setNat_pending (i j v : Nat) : (s.setNat i j v).pending = s.pending := rfl

/-! ### setOct -/

@[simp] theorem State.setOct_mode (i j : Nat) (b : List Byte) : (s.setOct i j b).mode = s.mode := rfl
@[simp] theorem State.setOct_clk (i j : Nat) (b : List Byte) : (s.setOct i j b).clk = s.clk := rfl
@[simp] theorem State.setOct_start (i j : Nat) (b : List Byte) : (s.setOct i j b).start = s.start := rfl
@[simp] theorem State.setOct_grade (i j : Nat) (b : List Byte) : (s.setOct i j b).grade = s.grade := rfl
@[simp] theorem State.setOct_step (i j : Nat) (b : List Byte) : (s.setOct i j b).step = s.step := rfl
@[simp] theorem State.setOct_uid (i j : Nat) (b : List Byte) : (s.setOct i j b).uid = s.uid := rfl
@[simp] theorem State.setOct_regs (i j : Nat) (b : List Byte) : (s.setOct i j b).regs = s.regs := rfl
@[simp] theorem State.setOct_held (i j : Nat) (b : List Byte) : (s.setOct i j b).held = s.held := rfl
@[simp] theorem State.setOct_sites (i j : Nat) (b : List Byte) : (s.setOct i j b).sites = s.sites := rfl
@[simp] theorem State.setOct_pins (i j : Nat) (b : List Byte) : (s.setOct i j b).pins = s.pins := rfl
@[simp] theorem State.setOct_ctxs (i j : Nat) (b : List Byte) : (s.setOct i j b).ctxs = s.ctxs := rfl
@[simp] theorem State.setOct_store (i j : Nat) (b : List Byte) : (s.setOct i j b).store = s.store := rfl
@[simp] theorem State.setOct_ledger (i j : Nat) (b : List Byte) : (s.setOct i j b).ledger = s.ledger := rfl
@[simp] theorem State.setOct_inn (i j : Nat) (b : List Byte) : (s.setOct i j b).inn = s.inn := rfl
@[simp] theorem State.setOct_caravans (i j : Nat) (b : List Byte) : (s.setOct i j b).caravans = s.caravans := rfl
@[simp] theorem State.setOct_caps (i j : Nat) (b : List Byte) : (s.setOct i j b).caps = s.caps := rfl
@[simp] theorem State.setOct_recs (i j : Nat) (b : List Byte) : (s.setOct i j b).recs = s.recs := rfl
@[simp] theorem State.setOct_units (i j : Nat) (b : List Byte) : (s.setOct i j b).units = s.units := rfl
@[simp] theorem State.setOct_defs (i j : Nat) (b : List Byte) : (s.setOct i j b).defs = s.defs := rfl
@[simp] theorem State.setOct_evts (i j : Nat) (b : List Byte) : (s.setOct i j b).evts = s.evts := rfl
@[simp] theorem State.setOct_time (i j : Nat) (b : List Byte) : (s.setOct i j b).time = s.time := rfl
@[simp] theorem State.setOct_ring (i j : Nat) (b : List Byte) : (s.setOct i j b).ring = s.ring := rfl
@[simp] theorem State.setOct_pass (i j : Nat) (b : List Byte) : (s.setOct i j b).pass = s.pass := rfl
@[simp] theorem State.setOct_cal (i j : Nat) (b : List Byte) : (s.setOct i j b).cal = s.cal := rfl
@[simp] theorem State.setOct_therm (i j : Nat) (b : List Byte) : (s.setOct i j b).therm = s.therm := rfl
@[simp] theorem State.setOct_jtag (i j : Nat) (b : List Byte) : (s.setOct i j b).jtag = s.jtag := rfl
@[simp] theorem State.setOct_mem (i j : Nat) (b : List Byte) : (s.setOct i j b).mem = s.mem := rfl
@[simp] theorem State.setOct_reads (i j : Nat) (b : List Byte) : (s.setOct i j b).reads = s.reads := rfl
@[simp] theorem State.setOct_chans (i j : Nat) (b : List Byte) : (s.setOct i j b).chans = s.chans := rfl
@[simp] theorem State.setOct_sl (i j : Nat) (b : List Byte) : (s.setOct i j b).sl = s.sl := rfl
@[simp] theorem State.setOct_convoy (i j : Nat) (b : List Byte) : (s.setOct i j b).convoy = s.convoy := rfl
@[simp] theorem State.setOct_rosec (i j : Nat) (b : List Byte) : (s.setOct i j b).rosec = s.rosec := rfl
@[simp] theorem State.setOct_ev (i j : Nat) (b : List Byte) : (s.setOct i j b).ev = s.ev := rfl
@[simp] theorem State.setOct_handler (i j : Nat) (b : List Byte) : (s.setOct i j b).handler = s.handler := rfl
@[simp] theorem State.setOct_freeCtr (i j : Nat) (b : List Byte) : (s.setOct i j b).freeCtr = s.freeCtr := rfl
@[simp] theorem State.setOct_sent (i j : Nat) (b : List Byte) : (s.setOct i j b).sent = s.sent := rfl
@[simp] theorem State.setOct_pending (i j : Nat) (b : List Byte) : (s.setOct i j b).pending = s.pending := rfl

/-! ### count -/

@[simp] theorem State.count_mode (i j n : Nat) : (s.count i j n).mode = s.mode := rfl
@[simp] theorem State.count_clk (i j n : Nat) : (s.count i j n).clk = s.clk := rfl
@[simp] theorem State.count_start (i j n : Nat) : (s.count i j n).start = s.start := rfl
@[simp] theorem State.count_grade (i j n : Nat) : (s.count i j n).grade = s.grade := rfl
@[simp] theorem State.count_step (i j n : Nat) : (s.count i j n).step = s.step := rfl
@[simp] theorem State.count_uid (i j n : Nat) : (s.count i j n).uid = s.uid := rfl
@[simp] theorem State.count_octs (i j n : Nat) : (s.count i j n).octs = s.octs := rfl
@[simp] theorem State.count_held (i j n : Nat) : (s.count i j n).held = s.held := rfl
@[simp] theorem State.count_sites (i j n : Nat) : (s.count i j n).sites = s.sites := rfl
@[simp] theorem State.count_pins (i j n : Nat) : (s.count i j n).pins = s.pins := rfl
@[simp] theorem State.count_ctxs (i j n : Nat) : (s.count i j n).ctxs = s.ctxs := rfl
@[simp] theorem State.count_store (i j n : Nat) : (s.count i j n).store = s.store := rfl
@[simp] theorem State.count_ledger (i j n : Nat) : (s.count i j n).ledger = s.ledger := rfl
@[simp] theorem State.count_inn (i j n : Nat) : (s.count i j n).inn = s.inn := rfl
@[simp] theorem State.count_caravans (i j n : Nat) : (s.count i j n).caravans = s.caravans := rfl
@[simp] theorem State.count_caps (i j n : Nat) : (s.count i j n).caps = s.caps := rfl
@[simp] theorem State.count_recs (i j n : Nat) : (s.count i j n).recs = s.recs := rfl
@[simp] theorem State.count_units (i j n : Nat) : (s.count i j n).units = s.units := rfl
@[simp] theorem State.count_defs (i j n : Nat) : (s.count i j n).defs = s.defs := rfl
@[simp] theorem State.count_evts (i j n : Nat) : (s.count i j n).evts = s.evts := rfl
@[simp] theorem State.count_time (i j n : Nat) : (s.count i j n).time = s.time := rfl
@[simp] theorem State.count_ring (i j n : Nat) : (s.count i j n).ring = s.ring := rfl
@[simp] theorem State.count_pass (i j n : Nat) : (s.count i j n).pass = s.pass := rfl
@[simp] theorem State.count_cal (i j n : Nat) : (s.count i j n).cal = s.cal := rfl
@[simp] theorem State.count_therm (i j n : Nat) : (s.count i j n).therm = s.therm := rfl
@[simp] theorem State.count_jtag (i j n : Nat) : (s.count i j n).jtag = s.jtag := rfl
@[simp] theorem State.count_mem (i j n : Nat) : (s.count i j n).mem = s.mem := rfl
@[simp] theorem State.count_reads (i j n : Nat) : (s.count i j n).reads = s.reads := rfl
@[simp] theorem State.count_chans (i j n : Nat) : (s.count i j n).chans = s.chans := rfl
@[simp] theorem State.count_sl (i j n : Nat) : (s.count i j n).sl = s.sl := rfl
@[simp] theorem State.count_convoy (i j n : Nat) : (s.count i j n).convoy = s.convoy := rfl
@[simp] theorem State.count_rosec (i j n : Nat) : (s.count i j n).rosec = s.rosec := rfl
@[simp] theorem State.count_ev (i j n : Nat) : (s.count i j n).ev = s.ev := rfl
@[simp] theorem State.count_handler (i j n : Nat) : (s.count i j n).handler = s.handler := rfl
@[simp] theorem State.count_freeCtr (i j n : Nat) : (s.count i j n).freeCtr = s.freeCtr := rfl
@[simp] theorem State.count_sent (i j n : Nat) : (s.count i j n).sent = s.sent := rfl
@[simp] theorem State.count_pending (i j n : Nat) : (s.count i j n).pending = s.pending := rfl

/-! ### bump -/

@[simp] theorem State.bump_mode (i j : Nat) : (s.bump i j).mode = s.mode := rfl
@[simp] theorem State.bump_clk (i j : Nat) : (s.bump i j).clk = s.clk := rfl
@[simp] theorem State.bump_start (i j : Nat) : (s.bump i j).start = s.start := rfl
@[simp] theorem State.bump_grade (i j : Nat) : (s.bump i j).grade = s.grade := rfl
@[simp] theorem State.bump_step (i j : Nat) : (s.bump i j).step = s.step := rfl
@[simp] theorem State.bump_uid (i j : Nat) : (s.bump i j).uid = s.uid := rfl
@[simp] theorem State.bump_octs (i j : Nat) : (s.bump i j).octs = s.octs := rfl
@[simp] theorem State.bump_held (i j : Nat) : (s.bump i j).held = s.held := rfl
@[simp] theorem State.bump_sites (i j : Nat) : (s.bump i j).sites = s.sites := rfl
@[simp] theorem State.bump_pins (i j : Nat) : (s.bump i j).pins = s.pins := rfl
@[simp] theorem State.bump_ctxs (i j : Nat) : (s.bump i j).ctxs = s.ctxs := rfl
@[simp] theorem State.bump_store (i j : Nat) : (s.bump i j).store = s.store := rfl
@[simp] theorem State.bump_ledger (i j : Nat) : (s.bump i j).ledger = s.ledger := rfl
@[simp] theorem State.bump_inn (i j : Nat) : (s.bump i j).inn = s.inn := rfl
@[simp] theorem State.bump_caravans (i j : Nat) : (s.bump i j).caravans = s.caravans := rfl
@[simp] theorem State.bump_caps (i j : Nat) : (s.bump i j).caps = s.caps := rfl
@[simp] theorem State.bump_recs (i j : Nat) : (s.bump i j).recs = s.recs := rfl
@[simp] theorem State.bump_units (i j : Nat) : (s.bump i j).units = s.units := rfl
@[simp] theorem State.bump_defs (i j : Nat) : (s.bump i j).defs = s.defs := rfl
@[simp] theorem State.bump_evts (i j : Nat) : (s.bump i j).evts = s.evts := rfl
@[simp] theorem State.bump_time (i j : Nat) : (s.bump i j).time = s.time := rfl
@[simp] theorem State.bump_ring (i j : Nat) : (s.bump i j).ring = s.ring := rfl
@[simp] theorem State.bump_pass (i j : Nat) : (s.bump i j).pass = s.pass := rfl
@[simp] theorem State.bump_cal (i j : Nat) : (s.bump i j).cal = s.cal := rfl
@[simp] theorem State.bump_therm (i j : Nat) : (s.bump i j).therm = s.therm := rfl
@[simp] theorem State.bump_jtag (i j : Nat) : (s.bump i j).jtag = s.jtag := rfl
@[simp] theorem State.bump_mem (i j : Nat) : (s.bump i j).mem = s.mem := rfl
@[simp] theorem State.bump_reads (i j : Nat) : (s.bump i j).reads = s.reads := rfl
@[simp] theorem State.bump_chans (i j : Nat) : (s.bump i j).chans = s.chans := rfl
@[simp] theorem State.bump_sl (i j : Nat) : (s.bump i j).sl = s.sl := rfl
@[simp] theorem State.bump_convoy (i j : Nat) : (s.bump i j).convoy = s.convoy := rfl
@[simp] theorem State.bump_rosec (i j : Nat) : (s.bump i j).rosec = s.rosec := rfl
@[simp] theorem State.bump_ev (i j : Nat) : (s.bump i j).ev = s.ev := rfl
@[simp] theorem State.bump_handler (i j : Nat) : (s.bump i j).handler = s.handler := rfl
@[simp] theorem State.bump_freeCtr (i j : Nat) : (s.bump i j).freeCtr = s.freeCtr := rfl
@[simp] theorem State.bump_sent (i j : Nat) : (s.bump i j).sent = s.sent := rfl
@[simp] theorem State.bump_pending (i j : Nat) : (s.bump i j).pending = s.pending := rfl

/-! ### raiseWith -/

@[simp] theorem State.raiseWith_mode (e : Nat) (d : List (List Byte)) : (s.raiseWith e d).mode = s.mode := rfl
@[simp] theorem State.raiseWith_clk (e : Nat) (d : List (List Byte)) : (s.raiseWith e d).clk = s.clk := rfl
@[simp] theorem State.raiseWith_start (e : Nat) (d : List (List Byte)) : (s.raiseWith e d).start = s.start := rfl
@[simp] theorem State.raiseWith_grade (e : Nat) (d : List (List Byte)) : (s.raiseWith e d).grade = s.grade := rfl
@[simp] theorem State.raiseWith_step (e : Nat) (d : List (List Byte)) : (s.raiseWith e d).step = s.step := rfl
@[simp] theorem State.raiseWith_uid (e : Nat) (d : List (List Byte)) : (s.raiseWith e d).uid = s.uid := rfl
@[simp] theorem State.raiseWith_regs (e : Nat) (d : List (List Byte)) : (s.raiseWith e d).regs = s.regs := rfl
@[simp] theorem State.raiseWith_octs (e : Nat) (d : List (List Byte)) : (s.raiseWith e d).octs = s.octs := rfl
@[simp] theorem State.raiseWith_held (e : Nat) (d : List (List Byte)) : (s.raiseWith e d).held = s.held := rfl
@[simp] theorem State.raiseWith_sites (e : Nat) (d : List (List Byte)) : (s.raiseWith e d).sites = s.sites := rfl
@[simp] theorem State.raiseWith_pins (e : Nat) (d : List (List Byte)) : (s.raiseWith e d).pins = s.pins := rfl
@[simp] theorem State.raiseWith_ctxs (e : Nat) (d : List (List Byte)) : (s.raiseWith e d).ctxs = s.ctxs := rfl
@[simp] theorem State.raiseWith_store (e : Nat) (d : List (List Byte)) : (s.raiseWith e d).store = s.store := rfl
@[simp] theorem State.raiseWith_ledger (e : Nat) (d : List (List Byte)) : (s.raiseWith e d).ledger = s.ledger := rfl
@[simp] theorem State.raiseWith_inn (e : Nat) (d : List (List Byte)) : (s.raiseWith e d).inn = s.inn := rfl
@[simp] theorem State.raiseWith_caravans (e : Nat) (d : List (List Byte)) : (s.raiseWith e d).caravans = s.caravans := rfl
@[simp] theorem State.raiseWith_caps (e : Nat) (d : List (List Byte)) : (s.raiseWith e d).caps = s.caps := rfl
@[simp] theorem State.raiseWith_recs (e : Nat) (d : List (List Byte)) : (s.raiseWith e d).recs = s.recs := rfl
@[simp] theorem State.raiseWith_units (e : Nat) (d : List (List Byte)) : (s.raiseWith e d).units = s.units := rfl
@[simp] theorem State.raiseWith_defs (e : Nat) (d : List (List Byte)) : (s.raiseWith e d).defs = s.defs := rfl
@[simp] theorem State.raiseWith_evts (e : Nat) (d : List (List Byte)) : (s.raiseWith e d).evts = s.evts := rfl
@[simp] theorem State.raiseWith_time (e : Nat) (d : List (List Byte)) : (s.raiseWith e d).time = s.time := rfl
@[simp] theorem State.raiseWith_ring (e : Nat) (d : List (List Byte)) : (s.raiseWith e d).ring = s.ring := rfl
@[simp] theorem State.raiseWith_pass (e : Nat) (d : List (List Byte)) : (s.raiseWith e d).pass = s.pass := rfl
@[simp] theorem State.raiseWith_cal (e : Nat) (d : List (List Byte)) : (s.raiseWith e d).cal = s.cal := rfl
@[simp] theorem State.raiseWith_therm (e : Nat) (d : List (List Byte)) : (s.raiseWith e d).therm = s.therm := rfl
@[simp] theorem State.raiseWith_jtag (e : Nat) (d : List (List Byte)) : (s.raiseWith e d).jtag = s.jtag := rfl
@[simp] theorem State.raiseWith_mem (e : Nat) (d : List (List Byte)) : (s.raiseWith e d).mem = s.mem := rfl
@[simp] theorem State.raiseWith_reads (e : Nat) (d : List (List Byte)) : (s.raiseWith e d).reads = s.reads := rfl
@[simp] theorem State.raiseWith_chans (e : Nat) (d : List (List Byte)) : (s.raiseWith e d).chans = s.chans := rfl
@[simp] theorem State.raiseWith_sl (e : Nat) (d : List (List Byte)) : (s.raiseWith e d).sl = s.sl := rfl
@[simp] theorem State.raiseWith_convoy (e : Nat) (d : List (List Byte)) : (s.raiseWith e d).convoy = s.convoy := rfl
@[simp] theorem State.raiseWith_rosec (e : Nat) (d : List (List Byte)) : (s.raiseWith e d).rosec = s.rosec := rfl
@[simp] theorem State.raiseWith_handler (e : Nat) (d : List (List Byte)) : (s.raiseWith e d).handler = s.handler := rfl
@[simp] theorem State.raiseWith_freeCtr (e : Nat) (d : List (List Byte)) : (s.raiseWith e d).freeCtr = s.freeCtr := rfl
@[simp] theorem State.raiseWith_sent (e : Nat) (d : List (List Byte)) : (s.raiseWith e d).sent = s.sent := rfl
@[simp] theorem State.raiseWith_pending (e : Nat) (d : List (List Byte)) : (s.raiseWith e d).pending = s.pending := rfl

/-! ### raise -/

@[simp] theorem State.raise_mode (e : Nat) : (s.raise e).mode = s.mode := rfl
@[simp] theorem State.raise_clk (e : Nat) : (s.raise e).clk = s.clk := rfl
@[simp] theorem State.raise_start (e : Nat) : (s.raise e).start = s.start := rfl
@[simp] theorem State.raise_grade (e : Nat) : (s.raise e).grade = s.grade := rfl
@[simp] theorem State.raise_step (e : Nat) : (s.raise e).step = s.step := rfl
@[simp] theorem State.raise_uid (e : Nat) : (s.raise e).uid = s.uid := rfl
@[simp] theorem State.raise_regs (e : Nat) : (s.raise e).regs = s.regs := rfl
@[simp] theorem State.raise_octs (e : Nat) : (s.raise e).octs = s.octs := rfl
@[simp] theorem State.raise_held (e : Nat) : (s.raise e).held = s.held := rfl
@[simp] theorem State.raise_sites (e : Nat) : (s.raise e).sites = s.sites := rfl
@[simp] theorem State.raise_pins (e : Nat) : (s.raise e).pins = s.pins := rfl
@[simp] theorem State.raise_ctxs (e : Nat) : (s.raise e).ctxs = s.ctxs := rfl
@[simp] theorem State.raise_store (e : Nat) : (s.raise e).store = s.store := rfl
@[simp] theorem State.raise_ledger (e : Nat) : (s.raise e).ledger = s.ledger := rfl
@[simp] theorem State.raise_inn (e : Nat) : (s.raise e).inn = s.inn := rfl
@[simp] theorem State.raise_caravans (e : Nat) : (s.raise e).caravans = s.caravans := rfl
@[simp] theorem State.raise_caps (e : Nat) : (s.raise e).caps = s.caps := rfl
@[simp] theorem State.raise_recs (e : Nat) : (s.raise e).recs = s.recs := rfl
@[simp] theorem State.raise_units (e : Nat) : (s.raise e).units = s.units := rfl
@[simp] theorem State.raise_defs (e : Nat) : (s.raise e).defs = s.defs := rfl
@[simp] theorem State.raise_evts (e : Nat) : (s.raise e).evts = s.evts := rfl
@[simp] theorem State.raise_time (e : Nat) : (s.raise e).time = s.time := rfl
@[simp] theorem State.raise_ring (e : Nat) : (s.raise e).ring = s.ring := rfl
@[simp] theorem State.raise_pass (e : Nat) : (s.raise e).pass = s.pass := rfl
@[simp] theorem State.raise_cal (e : Nat) : (s.raise e).cal = s.cal := rfl
@[simp] theorem State.raise_therm (e : Nat) : (s.raise e).therm = s.therm := rfl
@[simp] theorem State.raise_jtag (e : Nat) : (s.raise e).jtag = s.jtag := rfl
@[simp] theorem State.raise_mem (e : Nat) : (s.raise e).mem = s.mem := rfl
@[simp] theorem State.raise_reads (e : Nat) : (s.raise e).reads = s.reads := rfl
@[simp] theorem State.raise_chans (e : Nat) : (s.raise e).chans = s.chans := rfl
@[simp] theorem State.raise_sl (e : Nat) : (s.raise e).sl = s.sl := rfl
@[simp] theorem State.raise_convoy (e : Nat) : (s.raise e).convoy = s.convoy := rfl
@[simp] theorem State.raise_rosec (e : Nat) : (s.raise e).rosec = s.rosec := rfl
@[simp] theorem State.raise_handler (e : Nat) : (s.raise e).handler = s.handler := rfl
@[simp] theorem State.raise_freeCtr (e : Nat) : (s.raise e).freeCtr = s.freeCtr := rfl
@[simp] theorem State.raise_sent (e : Nat) : (s.raise e).sent = s.sent := rfl
@[simp] theorem State.raise_pending (e : Nat) : (s.raise e).pending = s.pending := rfl

/-! ### modTime -/

@[simp] theorem State.modTime_mode (f : NetTime → NetTime) : (s.modTime f).mode = s.mode := rfl
@[simp] theorem State.modTime_clk (f : NetTime → NetTime) : (s.modTime f).clk = s.clk := rfl
@[simp] theorem State.modTime_start (f : NetTime → NetTime) : (s.modTime f).start = s.start := rfl
@[simp] theorem State.modTime_grade (f : NetTime → NetTime) : (s.modTime f).grade = s.grade := rfl
@[simp] theorem State.modTime_step (f : NetTime → NetTime) : (s.modTime f).step = s.step := rfl
@[simp] theorem State.modTime_uid (f : NetTime → NetTime) : (s.modTime f).uid = s.uid := rfl
@[simp] theorem State.modTime_regs (f : NetTime → NetTime) : (s.modTime f).regs = s.regs := rfl
@[simp] theorem State.modTime_octs (f : NetTime → NetTime) : (s.modTime f).octs = s.octs := rfl
@[simp] theorem State.modTime_held (f : NetTime → NetTime) : (s.modTime f).held = s.held := rfl
@[simp] theorem State.modTime_sites (f : NetTime → NetTime) : (s.modTime f).sites = s.sites := rfl
@[simp] theorem State.modTime_pins (f : NetTime → NetTime) : (s.modTime f).pins = s.pins := rfl
@[simp] theorem State.modTime_ctxs (f : NetTime → NetTime) : (s.modTime f).ctxs = s.ctxs := rfl
@[simp] theorem State.modTime_store (f : NetTime → NetTime) : (s.modTime f).store = s.store := rfl
@[simp] theorem State.modTime_ledger (f : NetTime → NetTime) : (s.modTime f).ledger = s.ledger := rfl
@[simp] theorem State.modTime_inn (f : NetTime → NetTime) : (s.modTime f).inn = s.inn := rfl
@[simp] theorem State.modTime_caravans (f : NetTime → NetTime) : (s.modTime f).caravans = s.caravans := rfl
@[simp] theorem State.modTime_caps (f : NetTime → NetTime) : (s.modTime f).caps = s.caps := rfl
@[simp] theorem State.modTime_recs (f : NetTime → NetTime) : (s.modTime f).recs = s.recs := rfl
@[simp] theorem State.modTime_units (f : NetTime → NetTime) : (s.modTime f).units = s.units := rfl
@[simp] theorem State.modTime_defs (f : NetTime → NetTime) : (s.modTime f).defs = s.defs := rfl
@[simp] theorem State.modTime_evts (f : NetTime → NetTime) : (s.modTime f).evts = s.evts := rfl
@[simp] theorem State.modTime_ring (f : NetTime → NetTime) : (s.modTime f).ring = s.ring := rfl
@[simp] theorem State.modTime_pass (f : NetTime → NetTime) : (s.modTime f).pass = s.pass := rfl
@[simp] theorem State.modTime_cal (f : NetTime → NetTime) : (s.modTime f).cal = s.cal := rfl
@[simp] theorem State.modTime_therm (f : NetTime → NetTime) : (s.modTime f).therm = s.therm := rfl
@[simp] theorem State.modTime_jtag (f : NetTime → NetTime) : (s.modTime f).jtag = s.jtag := rfl
@[simp] theorem State.modTime_mem (f : NetTime → NetTime) : (s.modTime f).mem = s.mem := rfl
@[simp] theorem State.modTime_reads (f : NetTime → NetTime) : (s.modTime f).reads = s.reads := rfl
@[simp] theorem State.modTime_chans (f : NetTime → NetTime) : (s.modTime f).chans = s.chans := rfl
@[simp] theorem State.modTime_sl (f : NetTime → NetTime) : (s.modTime f).sl = s.sl := rfl
@[simp] theorem State.modTime_convoy (f : NetTime → NetTime) : (s.modTime f).convoy = s.convoy := rfl
@[simp] theorem State.modTime_rosec (f : NetTime → NetTime) : (s.modTime f).rosec = s.rosec := rfl
@[simp] theorem State.modTime_ev (f : NetTime → NetTime) : (s.modTime f).ev = s.ev := rfl
@[simp] theorem State.modTime_handler (f : NetTime → NetTime) : (s.modTime f).handler = s.handler := rfl
@[simp] theorem State.modTime_freeCtr (f : NetTime → NetTime) : (s.modTime f).freeCtr = s.freeCtr := rfl
@[simp] theorem State.modTime_sent (f : NetTime → NetTime) : (s.modTime f).sent = s.sent := rfl
@[simp] theorem State.modTime_pending (f : NetTime → NetTime) : (s.modTime f).pending = s.pending := rfl

/-! ### modCal -/

@[simp] theorem State.modCal_mode (f : Cal → Cal) : (s.modCal f).mode = s.mode := rfl
@[simp] theorem State.modCal_clk (f : Cal → Cal) : (s.modCal f).clk = s.clk := rfl
@[simp] theorem State.modCal_start (f : Cal → Cal) : (s.modCal f).start = s.start := rfl
@[simp] theorem State.modCal_grade (f : Cal → Cal) : (s.modCal f).grade = s.grade := rfl
@[simp] theorem State.modCal_step (f : Cal → Cal) : (s.modCal f).step = s.step := rfl
@[simp] theorem State.modCal_uid (f : Cal → Cal) : (s.modCal f).uid = s.uid := rfl
@[simp] theorem State.modCal_regs (f : Cal → Cal) : (s.modCal f).regs = s.regs := rfl
@[simp] theorem State.modCal_octs (f : Cal → Cal) : (s.modCal f).octs = s.octs := rfl
@[simp] theorem State.modCal_held (f : Cal → Cal) : (s.modCal f).held = s.held := rfl
@[simp] theorem State.modCal_sites (f : Cal → Cal) : (s.modCal f).sites = s.sites := rfl
@[simp] theorem State.modCal_pins (f : Cal → Cal) : (s.modCal f).pins = s.pins := rfl
@[simp] theorem State.modCal_ctxs (f : Cal → Cal) : (s.modCal f).ctxs = s.ctxs := rfl
@[simp] theorem State.modCal_store (f : Cal → Cal) : (s.modCal f).store = s.store := rfl
@[simp] theorem State.modCal_ledger (f : Cal → Cal) : (s.modCal f).ledger = s.ledger := rfl
@[simp] theorem State.modCal_inn (f : Cal → Cal) : (s.modCal f).inn = s.inn := rfl
@[simp] theorem State.modCal_caravans (f : Cal → Cal) : (s.modCal f).caravans = s.caravans := rfl
@[simp] theorem State.modCal_caps (f : Cal → Cal) : (s.modCal f).caps = s.caps := rfl
@[simp] theorem State.modCal_recs (f : Cal → Cal) : (s.modCal f).recs = s.recs := rfl
@[simp] theorem State.modCal_units (f : Cal → Cal) : (s.modCal f).units = s.units := rfl
@[simp] theorem State.modCal_defs (f : Cal → Cal) : (s.modCal f).defs = s.defs := rfl
@[simp] theorem State.modCal_evts (f : Cal → Cal) : (s.modCal f).evts = s.evts := rfl
@[simp] theorem State.modCal_time (f : Cal → Cal) : (s.modCal f).time = s.time := rfl
@[simp] theorem State.modCal_ring (f : Cal → Cal) : (s.modCal f).ring = s.ring := rfl
@[simp] theorem State.modCal_pass (f : Cal → Cal) : (s.modCal f).pass = s.pass := rfl
@[simp] theorem State.modCal_therm (f : Cal → Cal) : (s.modCal f).therm = s.therm := rfl
@[simp] theorem State.modCal_jtag (f : Cal → Cal) : (s.modCal f).jtag = s.jtag := rfl
@[simp] theorem State.modCal_mem (f : Cal → Cal) : (s.modCal f).mem = s.mem := rfl
@[simp] theorem State.modCal_reads (f : Cal → Cal) : (s.modCal f).reads = s.reads := rfl
@[simp] theorem State.modCal_chans (f : Cal → Cal) : (s.modCal f).chans = s.chans := rfl
@[simp] theorem State.modCal_sl (f : Cal → Cal) : (s.modCal f).sl = s.sl := rfl
@[simp] theorem State.modCal_convoy (f : Cal → Cal) : (s.modCal f).convoy = s.convoy := rfl
@[simp] theorem State.modCal_rosec (f : Cal → Cal) : (s.modCal f).rosec = s.rosec := rfl
@[simp] theorem State.modCal_ev (f : Cal → Cal) : (s.modCal f).ev = s.ev := rfl
@[simp] theorem State.modCal_handler (f : Cal → Cal) : (s.modCal f).handler = s.handler := rfl
@[simp] theorem State.modCal_freeCtr (f : Cal → Cal) : (s.modCal f).freeCtr = s.freeCtr := rfl
@[simp] theorem State.modCal_sent (f : Cal → Cal) : (s.modCal f).sent = s.sent := rfl
@[simp] theorem State.modCal_pending (f : Cal → Cal) : (s.modCal f).pending = s.pending := rfl

/-! ### modPass -/

@[simp] theorem State.modPass_mode (f : Passport → Passport) : (s.modPass f).mode = s.mode := rfl
@[simp] theorem State.modPass_clk (f : Passport → Passport) : (s.modPass f).clk = s.clk := rfl
@[simp] theorem State.modPass_start (f : Passport → Passport) : (s.modPass f).start = s.start := rfl
@[simp] theorem State.modPass_grade (f : Passport → Passport) : (s.modPass f).grade = s.grade := rfl
@[simp] theorem State.modPass_step (f : Passport → Passport) : (s.modPass f).step = s.step := rfl
@[simp] theorem State.modPass_uid (f : Passport → Passport) : (s.modPass f).uid = s.uid := rfl
@[simp] theorem State.modPass_regs (f : Passport → Passport) : (s.modPass f).regs = s.regs := rfl
@[simp] theorem State.modPass_octs (f : Passport → Passport) : (s.modPass f).octs = s.octs := rfl
@[simp] theorem State.modPass_held (f : Passport → Passport) : (s.modPass f).held = s.held := rfl
@[simp] theorem State.modPass_sites (f : Passport → Passport) : (s.modPass f).sites = s.sites := rfl
@[simp] theorem State.modPass_pins (f : Passport → Passport) : (s.modPass f).pins = s.pins := rfl
@[simp] theorem State.modPass_ctxs (f : Passport → Passport) : (s.modPass f).ctxs = s.ctxs := rfl
@[simp] theorem State.modPass_store (f : Passport → Passport) : (s.modPass f).store = s.store := rfl
@[simp] theorem State.modPass_ledger (f : Passport → Passport) : (s.modPass f).ledger = s.ledger := rfl
@[simp] theorem State.modPass_inn (f : Passport → Passport) : (s.modPass f).inn = s.inn := rfl
@[simp] theorem State.modPass_caravans (f : Passport → Passport) : (s.modPass f).caravans = s.caravans := rfl
@[simp] theorem State.modPass_caps (f : Passport → Passport) : (s.modPass f).caps = s.caps := rfl
@[simp] theorem State.modPass_recs (f : Passport → Passport) : (s.modPass f).recs = s.recs := rfl
@[simp] theorem State.modPass_units (f : Passport → Passport) : (s.modPass f).units = s.units := rfl
@[simp] theorem State.modPass_defs (f : Passport → Passport) : (s.modPass f).defs = s.defs := rfl
@[simp] theorem State.modPass_evts (f : Passport → Passport) : (s.modPass f).evts = s.evts := rfl
@[simp] theorem State.modPass_time (f : Passport → Passport) : (s.modPass f).time = s.time := rfl
@[simp] theorem State.modPass_ring (f : Passport → Passport) : (s.modPass f).ring = s.ring := rfl
@[simp] theorem State.modPass_cal (f : Passport → Passport) : (s.modPass f).cal = s.cal := rfl
@[simp] theorem State.modPass_therm (f : Passport → Passport) : (s.modPass f).therm = s.therm := rfl
@[simp] theorem State.modPass_jtag (f : Passport → Passport) : (s.modPass f).jtag = s.jtag := rfl
@[simp] theorem State.modPass_mem (f : Passport → Passport) : (s.modPass f).mem = s.mem := rfl
@[simp] theorem State.modPass_reads (f : Passport → Passport) : (s.modPass f).reads = s.reads := rfl
@[simp] theorem State.modPass_chans (f : Passport → Passport) : (s.modPass f).chans = s.chans := rfl
@[simp] theorem State.modPass_sl (f : Passport → Passport) : (s.modPass f).sl = s.sl := rfl
@[simp] theorem State.modPass_convoy (f : Passport → Passport) : (s.modPass f).convoy = s.convoy := rfl
@[simp] theorem State.modPass_rosec (f : Passport → Passport) : (s.modPass f).rosec = s.rosec := rfl
@[simp] theorem State.modPass_ev (f : Passport → Passport) : (s.modPass f).ev = s.ev := rfl
@[simp] theorem State.modPass_handler (f : Passport → Passport) : (s.modPass f).handler = s.handler := rfl
@[simp] theorem State.modPass_freeCtr (f : Passport → Passport) : (s.modPass f).freeCtr = s.freeCtr := rfl
@[simp] theorem State.modPass_sent (f : Passport → Passport) : (s.modPass f).sent = s.sent := rfl
@[simp] theorem State.modPass_pending (f : Passport → Passport) : (s.modPass f).pending = s.pending := rfl

/-! ### modStart -/

@[simp] theorem State.modStart_mode (f : Start → Start) : (s.modStart f).mode = s.mode := rfl
@[simp] theorem State.modStart_clk (f : Start → Start) : (s.modStart f).clk = s.clk := rfl
@[simp] theorem State.modStart_grade (f : Start → Start) : (s.modStart f).grade = s.grade := rfl
@[simp] theorem State.modStart_step (f : Start → Start) : (s.modStart f).step = s.step := rfl
@[simp] theorem State.modStart_uid (f : Start → Start) : (s.modStart f).uid = s.uid := rfl
@[simp] theorem State.modStart_regs (f : Start → Start) : (s.modStart f).regs = s.regs := rfl
@[simp] theorem State.modStart_octs (f : Start → Start) : (s.modStart f).octs = s.octs := rfl
@[simp] theorem State.modStart_held (f : Start → Start) : (s.modStart f).held = s.held := rfl
@[simp] theorem State.modStart_sites (f : Start → Start) : (s.modStart f).sites = s.sites := rfl
@[simp] theorem State.modStart_pins (f : Start → Start) : (s.modStart f).pins = s.pins := rfl
@[simp] theorem State.modStart_ctxs (f : Start → Start) : (s.modStart f).ctxs = s.ctxs := rfl
@[simp] theorem State.modStart_store (f : Start → Start) : (s.modStart f).store = s.store := rfl
@[simp] theorem State.modStart_ledger (f : Start → Start) : (s.modStart f).ledger = s.ledger := rfl
@[simp] theorem State.modStart_inn (f : Start → Start) : (s.modStart f).inn = s.inn := rfl
@[simp] theorem State.modStart_caravans (f : Start → Start) : (s.modStart f).caravans = s.caravans := rfl
@[simp] theorem State.modStart_caps (f : Start → Start) : (s.modStart f).caps = s.caps := rfl
@[simp] theorem State.modStart_recs (f : Start → Start) : (s.modStart f).recs = s.recs := rfl
@[simp] theorem State.modStart_units (f : Start → Start) : (s.modStart f).units = s.units := rfl
@[simp] theorem State.modStart_defs (f : Start → Start) : (s.modStart f).defs = s.defs := rfl
@[simp] theorem State.modStart_evts (f : Start → Start) : (s.modStart f).evts = s.evts := rfl
@[simp] theorem State.modStart_time (f : Start → Start) : (s.modStart f).time = s.time := rfl
@[simp] theorem State.modStart_ring (f : Start → Start) : (s.modStart f).ring = s.ring := rfl
@[simp] theorem State.modStart_pass (f : Start → Start) : (s.modStart f).pass = s.pass := rfl
@[simp] theorem State.modStart_cal (f : Start → Start) : (s.modStart f).cal = s.cal := rfl
@[simp] theorem State.modStart_therm (f : Start → Start) : (s.modStart f).therm = s.therm := rfl
@[simp] theorem State.modStart_jtag (f : Start → Start) : (s.modStart f).jtag = s.jtag := rfl
@[simp] theorem State.modStart_mem (f : Start → Start) : (s.modStart f).mem = s.mem := rfl
@[simp] theorem State.modStart_reads (f : Start → Start) : (s.modStart f).reads = s.reads := rfl
@[simp] theorem State.modStart_chans (f : Start → Start) : (s.modStart f).chans = s.chans := rfl
@[simp] theorem State.modStart_sl (f : Start → Start) : (s.modStart f).sl = s.sl := rfl
@[simp] theorem State.modStart_convoy (f : Start → Start) : (s.modStart f).convoy = s.convoy := rfl
@[simp] theorem State.modStart_rosec (f : Start → Start) : (s.modStart f).rosec = s.rosec := rfl
@[simp] theorem State.modStart_ev (f : Start → Start) : (s.modStart f).ev = s.ev := rfl
@[simp] theorem State.modStart_handler (f : Start → Start) : (s.modStart f).handler = s.handler := rfl
@[simp] theorem State.modStart_freeCtr (f : Start → Start) : (s.modStart f).freeCtr = s.freeCtr := rfl
@[simp] theorem State.modStart_sent (f : Start → Start) : (s.modStart f).sent = s.sent := rfl
@[simp] theorem State.modStart_pending (f : Start → Start) : (s.modStart f).pending = s.pending := rfl

/-! ### modClk -/

@[simp] theorem State.modClk_mode (f : Clocks → Clocks) : (s.modClk f).mode = s.mode := rfl
@[simp] theorem State.modClk_start (f : Clocks → Clocks) : (s.modClk f).start = s.start := rfl
@[simp] theorem State.modClk_grade (f : Clocks → Clocks) : (s.modClk f).grade = s.grade := rfl
@[simp] theorem State.modClk_step (f : Clocks → Clocks) : (s.modClk f).step = s.step := rfl
@[simp] theorem State.modClk_uid (f : Clocks → Clocks) : (s.modClk f).uid = s.uid := rfl
@[simp] theorem State.modClk_regs (f : Clocks → Clocks) : (s.modClk f).regs = s.regs := rfl
@[simp] theorem State.modClk_octs (f : Clocks → Clocks) : (s.modClk f).octs = s.octs := rfl
@[simp] theorem State.modClk_held (f : Clocks → Clocks) : (s.modClk f).held = s.held := rfl
@[simp] theorem State.modClk_sites (f : Clocks → Clocks) : (s.modClk f).sites = s.sites := rfl
@[simp] theorem State.modClk_pins (f : Clocks → Clocks) : (s.modClk f).pins = s.pins := rfl
@[simp] theorem State.modClk_ctxs (f : Clocks → Clocks) : (s.modClk f).ctxs = s.ctxs := rfl
@[simp] theorem State.modClk_store (f : Clocks → Clocks) : (s.modClk f).store = s.store := rfl
@[simp] theorem State.modClk_ledger (f : Clocks → Clocks) : (s.modClk f).ledger = s.ledger := rfl
@[simp] theorem State.modClk_inn (f : Clocks → Clocks) : (s.modClk f).inn = s.inn := rfl
@[simp] theorem State.modClk_caravans (f : Clocks → Clocks) : (s.modClk f).caravans = s.caravans := rfl
@[simp] theorem State.modClk_caps (f : Clocks → Clocks) : (s.modClk f).caps = s.caps := rfl
@[simp] theorem State.modClk_recs (f : Clocks → Clocks) : (s.modClk f).recs = s.recs := rfl
@[simp] theorem State.modClk_units (f : Clocks → Clocks) : (s.modClk f).units = s.units := rfl
@[simp] theorem State.modClk_defs (f : Clocks → Clocks) : (s.modClk f).defs = s.defs := rfl
@[simp] theorem State.modClk_evts (f : Clocks → Clocks) : (s.modClk f).evts = s.evts := rfl
@[simp] theorem State.modClk_time (f : Clocks → Clocks) : (s.modClk f).time = s.time := rfl
@[simp] theorem State.modClk_ring (f : Clocks → Clocks) : (s.modClk f).ring = s.ring := rfl
@[simp] theorem State.modClk_pass (f : Clocks → Clocks) : (s.modClk f).pass = s.pass := rfl
@[simp] theorem State.modClk_cal (f : Clocks → Clocks) : (s.modClk f).cal = s.cal := rfl
@[simp] theorem State.modClk_therm (f : Clocks → Clocks) : (s.modClk f).therm = s.therm := rfl
@[simp] theorem State.modClk_jtag (f : Clocks → Clocks) : (s.modClk f).jtag = s.jtag := rfl
@[simp] theorem State.modClk_mem (f : Clocks → Clocks) : (s.modClk f).mem = s.mem := rfl
@[simp] theorem State.modClk_reads (f : Clocks → Clocks) : (s.modClk f).reads = s.reads := rfl
@[simp] theorem State.modClk_chans (f : Clocks → Clocks) : (s.modClk f).chans = s.chans := rfl
@[simp] theorem State.modClk_sl (f : Clocks → Clocks) : (s.modClk f).sl = s.sl := rfl
@[simp] theorem State.modClk_convoy (f : Clocks → Clocks) : (s.modClk f).convoy = s.convoy := rfl
@[simp] theorem State.modClk_rosec (f : Clocks → Clocks) : (s.modClk f).rosec = s.rosec := rfl
@[simp] theorem State.modClk_ev (f : Clocks → Clocks) : (s.modClk f).ev = s.ev := rfl
@[simp] theorem State.modClk_handler (f : Clocks → Clocks) : (s.modClk f).handler = s.handler := rfl
@[simp] theorem State.modClk_freeCtr (f : Clocks → Clocks) : (s.modClk f).freeCtr = s.freeCtr := rfl
@[simp] theorem State.modClk_sent (f : Clocks → Clocks) : (s.modClk f).sent = s.sent := rfl
@[simp] theorem State.modClk_pending (f : Clocks → Clocks) : (s.modClk f).pending = s.pending := rfl

/-! ### modHandler -/

@[simp] theorem State.modHandler_mode (f : Handler → Handler) : (s.modHandler f).mode = s.mode := rfl
@[simp] theorem State.modHandler_clk (f : Handler → Handler) : (s.modHandler f).clk = s.clk := rfl
@[simp] theorem State.modHandler_start (f : Handler → Handler) : (s.modHandler f).start = s.start := rfl
@[simp] theorem State.modHandler_grade (f : Handler → Handler) : (s.modHandler f).grade = s.grade := rfl
@[simp] theorem State.modHandler_step (f : Handler → Handler) : (s.modHandler f).step = s.step := rfl
@[simp] theorem State.modHandler_uid (f : Handler → Handler) : (s.modHandler f).uid = s.uid := rfl
@[simp] theorem State.modHandler_regs (f : Handler → Handler) : (s.modHandler f).regs = s.regs := rfl
@[simp] theorem State.modHandler_octs (f : Handler → Handler) : (s.modHandler f).octs = s.octs := rfl
@[simp] theorem State.modHandler_held (f : Handler → Handler) : (s.modHandler f).held = s.held := rfl
@[simp] theorem State.modHandler_sites (f : Handler → Handler) : (s.modHandler f).sites = s.sites := rfl
@[simp] theorem State.modHandler_pins (f : Handler → Handler) : (s.modHandler f).pins = s.pins := rfl
@[simp] theorem State.modHandler_ctxs (f : Handler → Handler) : (s.modHandler f).ctxs = s.ctxs := rfl
@[simp] theorem State.modHandler_store (f : Handler → Handler) : (s.modHandler f).store = s.store := rfl
@[simp] theorem State.modHandler_ledger (f : Handler → Handler) : (s.modHandler f).ledger = s.ledger := rfl
@[simp] theorem State.modHandler_inn (f : Handler → Handler) : (s.modHandler f).inn = s.inn := rfl
@[simp] theorem State.modHandler_caravans (f : Handler → Handler) : (s.modHandler f).caravans = s.caravans := rfl
@[simp] theorem State.modHandler_caps (f : Handler → Handler) : (s.modHandler f).caps = s.caps := rfl
@[simp] theorem State.modHandler_recs (f : Handler → Handler) : (s.modHandler f).recs = s.recs := rfl
@[simp] theorem State.modHandler_units (f : Handler → Handler) : (s.modHandler f).units = s.units := rfl
@[simp] theorem State.modHandler_defs (f : Handler → Handler) : (s.modHandler f).defs = s.defs := rfl
@[simp] theorem State.modHandler_evts (f : Handler → Handler) : (s.modHandler f).evts = s.evts := rfl
@[simp] theorem State.modHandler_time (f : Handler → Handler) : (s.modHandler f).time = s.time := rfl
@[simp] theorem State.modHandler_ring (f : Handler → Handler) : (s.modHandler f).ring = s.ring := rfl
@[simp] theorem State.modHandler_pass (f : Handler → Handler) : (s.modHandler f).pass = s.pass := rfl
@[simp] theorem State.modHandler_cal (f : Handler → Handler) : (s.modHandler f).cal = s.cal := rfl
@[simp] theorem State.modHandler_therm (f : Handler → Handler) : (s.modHandler f).therm = s.therm := rfl
@[simp] theorem State.modHandler_jtag (f : Handler → Handler) : (s.modHandler f).jtag = s.jtag := rfl
@[simp] theorem State.modHandler_mem (f : Handler → Handler) : (s.modHandler f).mem = s.mem := rfl
@[simp] theorem State.modHandler_reads (f : Handler → Handler) : (s.modHandler f).reads = s.reads := rfl
@[simp] theorem State.modHandler_chans (f : Handler → Handler) : (s.modHandler f).chans = s.chans := rfl
@[simp] theorem State.modHandler_sl (f : Handler → Handler) : (s.modHandler f).sl = s.sl := rfl
@[simp] theorem State.modHandler_convoy (f : Handler → Handler) : (s.modHandler f).convoy = s.convoy := rfl
@[simp] theorem State.modHandler_rosec (f : Handler → Handler) : (s.modHandler f).rosec = s.rosec := rfl
@[simp] theorem State.modHandler_ev (f : Handler → Handler) : (s.modHandler f).ev = s.ev := rfl
@[simp] theorem State.modHandler_freeCtr (f : Handler → Handler) : (s.modHandler f).freeCtr = s.freeCtr := rfl
@[simp] theorem State.modHandler_sent (f : Handler → Handler) : (s.modHandler f).sent = s.sent := rfl
@[simp] theorem State.modHandler_pending (f : Handler → Handler) : (s.modHandler f).pending = s.pending := rfl

/-! ### modRosec -/

@[simp] theorem State.modRosec_mode (f : Rosec → Rosec) : (s.modRosec f).mode = s.mode := rfl
@[simp] theorem State.modRosec_clk (f : Rosec → Rosec) : (s.modRosec f).clk = s.clk := rfl
@[simp] theorem State.modRosec_start (f : Rosec → Rosec) : (s.modRosec f).start = s.start := rfl
@[simp] theorem State.modRosec_grade (f : Rosec → Rosec) : (s.modRosec f).grade = s.grade := rfl
@[simp] theorem State.modRosec_step (f : Rosec → Rosec) : (s.modRosec f).step = s.step := rfl
@[simp] theorem State.modRosec_uid (f : Rosec → Rosec) : (s.modRosec f).uid = s.uid := rfl
@[simp] theorem State.modRosec_regs (f : Rosec → Rosec) : (s.modRosec f).regs = s.regs := rfl
@[simp] theorem State.modRosec_octs (f : Rosec → Rosec) : (s.modRosec f).octs = s.octs := rfl
@[simp] theorem State.modRosec_held (f : Rosec → Rosec) : (s.modRosec f).held = s.held := rfl
@[simp] theorem State.modRosec_sites (f : Rosec → Rosec) : (s.modRosec f).sites = s.sites := rfl
@[simp] theorem State.modRosec_pins (f : Rosec → Rosec) : (s.modRosec f).pins = s.pins := rfl
@[simp] theorem State.modRosec_ctxs (f : Rosec → Rosec) : (s.modRosec f).ctxs = s.ctxs := rfl
@[simp] theorem State.modRosec_store (f : Rosec → Rosec) : (s.modRosec f).store = s.store := rfl
@[simp] theorem State.modRosec_ledger (f : Rosec → Rosec) : (s.modRosec f).ledger = s.ledger := rfl
@[simp] theorem State.modRosec_inn (f : Rosec → Rosec) : (s.modRosec f).inn = s.inn := rfl
@[simp] theorem State.modRosec_caravans (f : Rosec → Rosec) : (s.modRosec f).caravans = s.caravans := rfl
@[simp] theorem State.modRosec_caps (f : Rosec → Rosec) : (s.modRosec f).caps = s.caps := rfl
@[simp] theorem State.modRosec_recs (f : Rosec → Rosec) : (s.modRosec f).recs = s.recs := rfl
@[simp] theorem State.modRosec_units (f : Rosec → Rosec) : (s.modRosec f).units = s.units := rfl
@[simp] theorem State.modRosec_defs (f : Rosec → Rosec) : (s.modRosec f).defs = s.defs := rfl
@[simp] theorem State.modRosec_evts (f : Rosec → Rosec) : (s.modRosec f).evts = s.evts := rfl
@[simp] theorem State.modRosec_time (f : Rosec → Rosec) : (s.modRosec f).time = s.time := rfl
@[simp] theorem State.modRosec_ring (f : Rosec → Rosec) : (s.modRosec f).ring = s.ring := rfl
@[simp] theorem State.modRosec_pass (f : Rosec → Rosec) : (s.modRosec f).pass = s.pass := rfl
@[simp] theorem State.modRosec_cal (f : Rosec → Rosec) : (s.modRosec f).cal = s.cal := rfl
@[simp] theorem State.modRosec_therm (f : Rosec → Rosec) : (s.modRosec f).therm = s.therm := rfl
@[simp] theorem State.modRosec_jtag (f : Rosec → Rosec) : (s.modRosec f).jtag = s.jtag := rfl
@[simp] theorem State.modRosec_mem (f : Rosec → Rosec) : (s.modRosec f).mem = s.mem := rfl
@[simp] theorem State.modRosec_reads (f : Rosec → Rosec) : (s.modRosec f).reads = s.reads := rfl
@[simp] theorem State.modRosec_chans (f : Rosec → Rosec) : (s.modRosec f).chans = s.chans := rfl
@[simp] theorem State.modRosec_sl (f : Rosec → Rosec) : (s.modRosec f).sl = s.sl := rfl
@[simp] theorem State.modRosec_convoy (f : Rosec → Rosec) : (s.modRosec f).convoy = s.convoy := rfl
@[simp] theorem State.modRosec_ev (f : Rosec → Rosec) : (s.modRosec f).ev = s.ev := rfl
@[simp] theorem State.modRosec_handler (f : Rosec → Rosec) : (s.modRosec f).handler = s.handler := rfl
@[simp] theorem State.modRosec_freeCtr (f : Rosec → Rosec) : (s.modRosec f).freeCtr = s.freeCtr := rfl
@[simp] theorem State.modRosec_sent (f : Rosec → Rosec) : (s.modRosec f).sent = s.sent := rfl
@[simp] theorem State.modRosec_pending (f : Rosec → Rosec) : (s.modRosec f).pending = s.pending := rfl

/-! ### modThread -/

@[simp] theorem State.modThread_mode (n : Nat) (f : Thread → Thread) : (s.modThread n f).mode = s.mode := rfl
@[simp] theorem State.modThread_clk (n : Nat) (f : Thread → Thread) : (s.modThread n f).clk = s.clk := rfl
@[simp] theorem State.modThread_start (n : Nat) (f : Thread → Thread) : (s.modThread n f).start = s.start := rfl
@[simp] theorem State.modThread_grade (n : Nat) (f : Thread → Thread) : (s.modThread n f).grade = s.grade := rfl
@[simp] theorem State.modThread_step (n : Nat) (f : Thread → Thread) : (s.modThread n f).step = s.step := rfl
@[simp] theorem State.modThread_uid (n : Nat) (f : Thread → Thread) : (s.modThread n f).uid = s.uid := rfl
@[simp] theorem State.modThread_regs (n : Nat) (f : Thread → Thread) : (s.modThread n f).regs = s.regs := rfl
@[simp] theorem State.modThread_octs (n : Nat) (f : Thread → Thread) : (s.modThread n f).octs = s.octs := rfl
@[simp] theorem State.modThread_held (n : Nat) (f : Thread → Thread) : (s.modThread n f).held = s.held := rfl
@[simp] theorem State.modThread_pins (n : Nat) (f : Thread → Thread) : (s.modThread n f).pins = s.pins := rfl
@[simp] theorem State.modThread_ctxs (n : Nat) (f : Thread → Thread) : (s.modThread n f).ctxs = s.ctxs := rfl
@[simp] theorem State.modThread_store (n : Nat) (f : Thread → Thread) : (s.modThread n f).store = s.store := rfl
@[simp] theorem State.modThread_ledger (n : Nat) (f : Thread → Thread) : (s.modThread n f).ledger = s.ledger := rfl
@[simp] theorem State.modThread_inn (n : Nat) (f : Thread → Thread) : (s.modThread n f).inn = s.inn := rfl
@[simp] theorem State.modThread_caravans (n : Nat) (f : Thread → Thread) : (s.modThread n f).caravans = s.caravans := rfl
@[simp] theorem State.modThread_caps (n : Nat) (f : Thread → Thread) : (s.modThread n f).caps = s.caps := rfl
@[simp] theorem State.modThread_recs (n : Nat) (f : Thread → Thread) : (s.modThread n f).recs = s.recs := rfl
@[simp] theorem State.modThread_units (n : Nat) (f : Thread → Thread) : (s.modThread n f).units = s.units := rfl
@[simp] theorem State.modThread_defs (n : Nat) (f : Thread → Thread) : (s.modThread n f).defs = s.defs := rfl
@[simp] theorem State.modThread_evts (n : Nat) (f : Thread → Thread) : (s.modThread n f).evts = s.evts := rfl
@[simp] theorem State.modThread_time (n : Nat) (f : Thread → Thread) : (s.modThread n f).time = s.time := rfl
@[simp] theorem State.modThread_ring (n : Nat) (f : Thread → Thread) : (s.modThread n f).ring = s.ring := rfl
@[simp] theorem State.modThread_pass (n : Nat) (f : Thread → Thread) : (s.modThread n f).pass = s.pass := rfl
@[simp] theorem State.modThread_cal (n : Nat) (f : Thread → Thread) : (s.modThread n f).cal = s.cal := rfl
@[simp] theorem State.modThread_therm (n : Nat) (f : Thread → Thread) : (s.modThread n f).therm = s.therm := rfl
@[simp] theorem State.modThread_jtag (n : Nat) (f : Thread → Thread) : (s.modThread n f).jtag = s.jtag := rfl
@[simp] theorem State.modThread_mem (n : Nat) (f : Thread → Thread) : (s.modThread n f).mem = s.mem := rfl
@[simp] theorem State.modThread_reads (n : Nat) (f : Thread → Thread) : (s.modThread n f).reads = s.reads := rfl
@[simp] theorem State.modThread_chans (n : Nat) (f : Thread → Thread) : (s.modThread n f).chans = s.chans := rfl
@[simp] theorem State.modThread_sl (n : Nat) (f : Thread → Thread) : (s.modThread n f).sl = s.sl := rfl
@[simp] theorem State.modThread_convoy (n : Nat) (f : Thread → Thread) : (s.modThread n f).convoy = s.convoy := rfl
@[simp] theorem State.modThread_rosec (n : Nat) (f : Thread → Thread) : (s.modThread n f).rosec = s.rosec := rfl
@[simp] theorem State.modThread_ev (n : Nat) (f : Thread → Thread) : (s.modThread n f).ev = s.ev := rfl
@[simp] theorem State.modThread_handler (n : Nat) (f : Thread → Thread) : (s.modThread n f).handler = s.handler := rfl
@[simp] theorem State.modThread_freeCtr (n : Nat) (f : Thread → Thread) : (s.modThread n f).freeCtr = s.freeCtr := rfl
@[simp] theorem State.modThread_sent (n : Nat) (f : Thread → Thread) : (s.modThread n f).sent = s.sent := rfl
@[simp] theorem State.modThread_pending (n : Nat) (f : Thread → Thread) : (s.modThread n f).pending = s.pending := rfl

/-! ### modMs -/

@[simp] theorem State.modMs_mode (n : Nat) (f : MicroState → MicroState) : (s.modMs n f).mode = s.mode := rfl
@[simp] theorem State.modMs_clk (n : Nat) (f : MicroState → MicroState) : (s.modMs n f).clk = s.clk := rfl
@[simp] theorem State.modMs_start (n : Nat) (f : MicroState → MicroState) : (s.modMs n f).start = s.start := rfl
@[simp] theorem State.modMs_grade (n : Nat) (f : MicroState → MicroState) : (s.modMs n f).grade = s.grade := rfl
@[simp] theorem State.modMs_step (n : Nat) (f : MicroState → MicroState) : (s.modMs n f).step = s.step := rfl
@[simp] theorem State.modMs_uid (n : Nat) (f : MicroState → MicroState) : (s.modMs n f).uid = s.uid := rfl
@[simp] theorem State.modMs_regs (n : Nat) (f : MicroState → MicroState) : (s.modMs n f).regs = s.regs := rfl
@[simp] theorem State.modMs_octs (n : Nat) (f : MicroState → MicroState) : (s.modMs n f).octs = s.octs := rfl
@[simp] theorem State.modMs_held (n : Nat) (f : MicroState → MicroState) : (s.modMs n f).held = s.held := rfl
@[simp] theorem State.modMs_sites (n : Nat) (f : MicroState → MicroState) : (s.modMs n f).sites = s.sites := rfl
@[simp] theorem State.modMs_pins (n : Nat) (f : MicroState → MicroState) : (s.modMs n f).pins = s.pins := rfl
@[simp] theorem State.modMs_store (n : Nat) (f : MicroState → MicroState) : (s.modMs n f).store = s.store := rfl
@[simp] theorem State.modMs_ledger (n : Nat) (f : MicroState → MicroState) : (s.modMs n f).ledger = s.ledger := rfl
@[simp] theorem State.modMs_inn (n : Nat) (f : MicroState → MicroState) : (s.modMs n f).inn = s.inn := rfl
@[simp] theorem State.modMs_caravans (n : Nat) (f : MicroState → MicroState) : (s.modMs n f).caravans = s.caravans := rfl
@[simp] theorem State.modMs_caps (n : Nat) (f : MicroState → MicroState) : (s.modMs n f).caps = s.caps := rfl
@[simp] theorem State.modMs_recs (n : Nat) (f : MicroState → MicroState) : (s.modMs n f).recs = s.recs := rfl
@[simp] theorem State.modMs_units (n : Nat) (f : MicroState → MicroState) : (s.modMs n f).units = s.units := rfl
@[simp] theorem State.modMs_defs (n : Nat) (f : MicroState → MicroState) : (s.modMs n f).defs = s.defs := rfl
@[simp] theorem State.modMs_evts (n : Nat) (f : MicroState → MicroState) : (s.modMs n f).evts = s.evts := rfl
@[simp] theorem State.modMs_time (n : Nat) (f : MicroState → MicroState) : (s.modMs n f).time = s.time := rfl
@[simp] theorem State.modMs_ring (n : Nat) (f : MicroState → MicroState) : (s.modMs n f).ring = s.ring := rfl
@[simp] theorem State.modMs_pass (n : Nat) (f : MicroState → MicroState) : (s.modMs n f).pass = s.pass := rfl
@[simp] theorem State.modMs_cal (n : Nat) (f : MicroState → MicroState) : (s.modMs n f).cal = s.cal := rfl
@[simp] theorem State.modMs_therm (n : Nat) (f : MicroState → MicroState) : (s.modMs n f).therm = s.therm := rfl
@[simp] theorem State.modMs_jtag (n : Nat) (f : MicroState → MicroState) : (s.modMs n f).jtag = s.jtag := rfl
@[simp] theorem State.modMs_mem (n : Nat) (f : MicroState → MicroState) : (s.modMs n f).mem = s.mem := rfl
@[simp] theorem State.modMs_reads (n : Nat) (f : MicroState → MicroState) : (s.modMs n f).reads = s.reads := rfl
@[simp] theorem State.modMs_chans (n : Nat) (f : MicroState → MicroState) : (s.modMs n f).chans = s.chans := rfl
@[simp] theorem State.modMs_sl (n : Nat) (f : MicroState → MicroState) : (s.modMs n f).sl = s.sl := rfl
@[simp] theorem State.modMs_convoy (n : Nat) (f : MicroState → MicroState) : (s.modMs n f).convoy = s.convoy := rfl
@[simp] theorem State.modMs_rosec (n : Nat) (f : MicroState → MicroState) : (s.modMs n f).rosec = s.rosec := rfl
@[simp] theorem State.modMs_ev (n : Nat) (f : MicroState → MicroState) : (s.modMs n f).ev = s.ev := rfl
@[simp] theorem State.modMs_handler (n : Nat) (f : MicroState → MicroState) : (s.modMs n f).handler = s.handler := rfl
@[simp] theorem State.modMs_freeCtr (n : Nat) (f : MicroState → MicroState) : (s.modMs n f).freeCtr = s.freeCtr := rfl
@[simp] theorem State.modMs_sent (n : Nat) (f : MicroState → MicroState) : (s.modMs n f).sent = s.sent := rfl
@[simp] theorem State.modMs_pending (n : Nat) (f : MicroState → MicroState) : (s.modMs n f).pending = s.pending := rfl

/-! ### setDef -/

@[simp] theorem State.setDef_mode (n : Nat) (x : MeasDef) : (s.setDef n x).mode = s.mode := rfl
@[simp] theorem State.setDef_clk (n : Nat) (x : MeasDef) : (s.setDef n x).clk = s.clk := rfl
@[simp] theorem State.setDef_start (n : Nat) (x : MeasDef) : (s.setDef n x).start = s.start := rfl
@[simp] theorem State.setDef_grade (n : Nat) (x : MeasDef) : (s.setDef n x).grade = s.grade := rfl
@[simp] theorem State.setDef_step (n : Nat) (x : MeasDef) : (s.setDef n x).step = s.step := rfl
@[simp] theorem State.setDef_uid (n : Nat) (x : MeasDef) : (s.setDef n x).uid = s.uid := rfl
@[simp] theorem State.setDef_regs (n : Nat) (x : MeasDef) : (s.setDef n x).regs = s.regs := rfl
@[simp] theorem State.setDef_octs (n : Nat) (x : MeasDef) : (s.setDef n x).octs = s.octs := rfl
@[simp] theorem State.setDef_held (n : Nat) (x : MeasDef) : (s.setDef n x).held = s.held := rfl
@[simp] theorem State.setDef_sites (n : Nat) (x : MeasDef) : (s.setDef n x).sites = s.sites := rfl
@[simp] theorem State.setDef_pins (n : Nat) (x : MeasDef) : (s.setDef n x).pins = s.pins := rfl
@[simp] theorem State.setDef_ctxs (n : Nat) (x : MeasDef) : (s.setDef n x).ctxs = s.ctxs := rfl
@[simp] theorem State.setDef_store (n : Nat) (x : MeasDef) : (s.setDef n x).store = s.store := rfl
@[simp] theorem State.setDef_ledger (n : Nat) (x : MeasDef) : (s.setDef n x).ledger = s.ledger := rfl
@[simp] theorem State.setDef_inn (n : Nat) (x : MeasDef) : (s.setDef n x).inn = s.inn := rfl
@[simp] theorem State.setDef_caravans (n : Nat) (x : MeasDef) : (s.setDef n x).caravans = s.caravans := rfl
@[simp] theorem State.setDef_caps (n : Nat) (x : MeasDef) : (s.setDef n x).caps = s.caps := rfl
@[simp] theorem State.setDef_recs (n : Nat) (x : MeasDef) : (s.setDef n x).recs = s.recs := rfl
@[simp] theorem State.setDef_units (n : Nat) (x : MeasDef) : (s.setDef n x).units = s.units := rfl
@[simp] theorem State.setDef_evts (n : Nat) (x : MeasDef) : (s.setDef n x).evts = s.evts := rfl
@[simp] theorem State.setDef_time (n : Nat) (x : MeasDef) : (s.setDef n x).time = s.time := rfl
@[simp] theorem State.setDef_ring (n : Nat) (x : MeasDef) : (s.setDef n x).ring = s.ring := rfl
@[simp] theorem State.setDef_pass (n : Nat) (x : MeasDef) : (s.setDef n x).pass = s.pass := rfl
@[simp] theorem State.setDef_cal (n : Nat) (x : MeasDef) : (s.setDef n x).cal = s.cal := rfl
@[simp] theorem State.setDef_therm (n : Nat) (x : MeasDef) : (s.setDef n x).therm = s.therm := rfl
@[simp] theorem State.setDef_jtag (n : Nat) (x : MeasDef) : (s.setDef n x).jtag = s.jtag := rfl
@[simp] theorem State.setDef_mem (n : Nat) (x : MeasDef) : (s.setDef n x).mem = s.mem := rfl
@[simp] theorem State.setDef_reads (n : Nat) (x : MeasDef) : (s.setDef n x).reads = s.reads := rfl
@[simp] theorem State.setDef_chans (n : Nat) (x : MeasDef) : (s.setDef n x).chans = s.chans := rfl
@[simp] theorem State.setDef_sl (n : Nat) (x : MeasDef) : (s.setDef n x).sl = s.sl := rfl
@[simp] theorem State.setDef_convoy (n : Nat) (x : MeasDef) : (s.setDef n x).convoy = s.convoy := rfl
@[simp] theorem State.setDef_rosec (n : Nat) (x : MeasDef) : (s.setDef n x).rosec = s.rosec := rfl
@[simp] theorem State.setDef_ev (n : Nat) (x : MeasDef) : (s.setDef n x).ev = s.ev := rfl
@[simp] theorem State.setDef_handler (n : Nat) (x : MeasDef) : (s.setDef n x).handler = s.handler := rfl
@[simp] theorem State.setDef_freeCtr (n : Nat) (x : MeasDef) : (s.setDef n x).freeCtr = s.freeCtr := rfl
@[simp] theorem State.setDef_sent (n : Nat) (x : MeasDef) : (s.setDef n x).sent = s.sent := rfl
@[simp] theorem State.setDef_pending (n : Nat) (x : MeasDef) : (s.setDef n x).pending = s.pending := rfl

/-! ### setEvt -/

@[simp] theorem State.setEvt_mode (n : Nat) (x : Evt) : (s.setEvt n x).mode = s.mode := rfl
@[simp] theorem State.setEvt_clk (n : Nat) (x : Evt) : (s.setEvt n x).clk = s.clk := rfl
@[simp] theorem State.setEvt_start (n : Nat) (x : Evt) : (s.setEvt n x).start = s.start := rfl
@[simp] theorem State.setEvt_grade (n : Nat) (x : Evt) : (s.setEvt n x).grade = s.grade := rfl
@[simp] theorem State.setEvt_step (n : Nat) (x : Evt) : (s.setEvt n x).step = s.step := rfl
@[simp] theorem State.setEvt_uid (n : Nat) (x : Evt) : (s.setEvt n x).uid = s.uid := rfl
@[simp] theorem State.setEvt_regs (n : Nat) (x : Evt) : (s.setEvt n x).regs = s.regs := rfl
@[simp] theorem State.setEvt_octs (n : Nat) (x : Evt) : (s.setEvt n x).octs = s.octs := rfl
@[simp] theorem State.setEvt_held (n : Nat) (x : Evt) : (s.setEvt n x).held = s.held := rfl
@[simp] theorem State.setEvt_sites (n : Nat) (x : Evt) : (s.setEvt n x).sites = s.sites := rfl
@[simp] theorem State.setEvt_pins (n : Nat) (x : Evt) : (s.setEvt n x).pins = s.pins := rfl
@[simp] theorem State.setEvt_ctxs (n : Nat) (x : Evt) : (s.setEvt n x).ctxs = s.ctxs := rfl
@[simp] theorem State.setEvt_store (n : Nat) (x : Evt) : (s.setEvt n x).store = s.store := rfl
@[simp] theorem State.setEvt_ledger (n : Nat) (x : Evt) : (s.setEvt n x).ledger = s.ledger := rfl
@[simp] theorem State.setEvt_inn (n : Nat) (x : Evt) : (s.setEvt n x).inn = s.inn := rfl
@[simp] theorem State.setEvt_caravans (n : Nat) (x : Evt) : (s.setEvt n x).caravans = s.caravans := rfl
@[simp] theorem State.setEvt_caps (n : Nat) (x : Evt) : (s.setEvt n x).caps = s.caps := rfl
@[simp] theorem State.setEvt_recs (n : Nat) (x : Evt) : (s.setEvt n x).recs = s.recs := rfl
@[simp] theorem State.setEvt_units (n : Nat) (x : Evt) : (s.setEvt n x).units = s.units := rfl
@[simp] theorem State.setEvt_defs (n : Nat) (x : Evt) : (s.setEvt n x).defs = s.defs := rfl
@[simp] theorem State.setEvt_time (n : Nat) (x : Evt) : (s.setEvt n x).time = s.time := rfl
@[simp] theorem State.setEvt_ring (n : Nat) (x : Evt) : (s.setEvt n x).ring = s.ring := rfl
@[simp] theorem State.setEvt_pass (n : Nat) (x : Evt) : (s.setEvt n x).pass = s.pass := rfl
@[simp] theorem State.setEvt_cal (n : Nat) (x : Evt) : (s.setEvt n x).cal = s.cal := rfl
@[simp] theorem State.setEvt_therm (n : Nat) (x : Evt) : (s.setEvt n x).therm = s.therm := rfl
@[simp] theorem State.setEvt_jtag (n : Nat) (x : Evt) : (s.setEvt n x).jtag = s.jtag := rfl
@[simp] theorem State.setEvt_mem (n : Nat) (x : Evt) : (s.setEvt n x).mem = s.mem := rfl
@[simp] theorem State.setEvt_reads (n : Nat) (x : Evt) : (s.setEvt n x).reads = s.reads := rfl
@[simp] theorem State.setEvt_chans (n : Nat) (x : Evt) : (s.setEvt n x).chans = s.chans := rfl
@[simp] theorem State.setEvt_sl (n : Nat) (x : Evt) : (s.setEvt n x).sl = s.sl := rfl
@[simp] theorem State.setEvt_convoy (n : Nat) (x : Evt) : (s.setEvt n x).convoy = s.convoy := rfl
@[simp] theorem State.setEvt_rosec (n : Nat) (x : Evt) : (s.setEvt n x).rosec = s.rosec := rfl
@[simp] theorem State.setEvt_ev (n : Nat) (x : Evt) : (s.setEvt n x).ev = s.ev := rfl
@[simp] theorem State.setEvt_handler (n : Nat) (x : Evt) : (s.setEvt n x).handler = s.handler := rfl
@[simp] theorem State.setEvt_freeCtr (n : Nat) (x : Evt) : (s.setEvt n x).freeCtr = s.freeCtr := rfl
@[simp] theorem State.setEvt_sent (n : Nat) (x : Evt) : (s.setEvt n x).sent = s.sent := rfl
@[simp] theorem State.setEvt_pending (n : Nat) (x : Evt) : (s.setEvt n x).pending = s.pending := rfl

/-! ### setChan -/

@[simp] theorem State.setChan_mode (n : Nat) (x : Channel) : (s.setChan n x).mode = s.mode := rfl
@[simp] theorem State.setChan_clk (n : Nat) (x : Channel) : (s.setChan n x).clk = s.clk := rfl
@[simp] theorem State.setChan_start (n : Nat) (x : Channel) : (s.setChan n x).start = s.start := rfl
@[simp] theorem State.setChan_grade (n : Nat) (x : Channel) : (s.setChan n x).grade = s.grade := rfl
@[simp] theorem State.setChan_step (n : Nat) (x : Channel) : (s.setChan n x).step = s.step := rfl
@[simp] theorem State.setChan_uid (n : Nat) (x : Channel) : (s.setChan n x).uid = s.uid := rfl
@[simp] theorem State.setChan_regs (n : Nat) (x : Channel) : (s.setChan n x).regs = s.regs := rfl
@[simp] theorem State.setChan_octs (n : Nat) (x : Channel) : (s.setChan n x).octs = s.octs := rfl
@[simp] theorem State.setChan_held (n : Nat) (x : Channel) : (s.setChan n x).held = s.held := rfl
@[simp] theorem State.setChan_sites (n : Nat) (x : Channel) : (s.setChan n x).sites = s.sites := rfl
@[simp] theorem State.setChan_pins (n : Nat) (x : Channel) : (s.setChan n x).pins = s.pins := rfl
@[simp] theorem State.setChan_ctxs (n : Nat) (x : Channel) : (s.setChan n x).ctxs = s.ctxs := rfl
@[simp] theorem State.setChan_store (n : Nat) (x : Channel) : (s.setChan n x).store = s.store := rfl
@[simp] theorem State.setChan_ledger (n : Nat) (x : Channel) : (s.setChan n x).ledger = s.ledger := rfl
@[simp] theorem State.setChan_inn (n : Nat) (x : Channel) : (s.setChan n x).inn = s.inn := rfl
@[simp] theorem State.setChan_caravans (n : Nat) (x : Channel) : (s.setChan n x).caravans = s.caravans := rfl
@[simp] theorem State.setChan_caps (n : Nat) (x : Channel) : (s.setChan n x).caps = s.caps := rfl
@[simp] theorem State.setChan_recs (n : Nat) (x : Channel) : (s.setChan n x).recs = s.recs := rfl
@[simp] theorem State.setChan_units (n : Nat) (x : Channel) : (s.setChan n x).units = s.units := rfl
@[simp] theorem State.setChan_defs (n : Nat) (x : Channel) : (s.setChan n x).defs = s.defs := rfl
@[simp] theorem State.setChan_evts (n : Nat) (x : Channel) : (s.setChan n x).evts = s.evts := rfl
@[simp] theorem State.setChan_time (n : Nat) (x : Channel) : (s.setChan n x).time = s.time := rfl
@[simp] theorem State.setChan_ring (n : Nat) (x : Channel) : (s.setChan n x).ring = s.ring := rfl
@[simp] theorem State.setChan_pass (n : Nat) (x : Channel) : (s.setChan n x).pass = s.pass := rfl
@[simp] theorem State.setChan_cal (n : Nat) (x : Channel) : (s.setChan n x).cal = s.cal := rfl
@[simp] theorem State.setChan_therm (n : Nat) (x : Channel) : (s.setChan n x).therm = s.therm := rfl
@[simp] theorem State.setChan_jtag (n : Nat) (x : Channel) : (s.setChan n x).jtag = s.jtag := rfl
@[simp] theorem State.setChan_mem (n : Nat) (x : Channel) : (s.setChan n x).mem = s.mem := rfl
@[simp] theorem State.setChan_reads (n : Nat) (x : Channel) : (s.setChan n x).reads = s.reads := rfl
@[simp] theorem State.setChan_sl (n : Nat) (x : Channel) : (s.setChan n x).sl = s.sl := rfl
@[simp] theorem State.setChan_convoy (n : Nat) (x : Channel) : (s.setChan n x).convoy = s.convoy := rfl
@[simp] theorem State.setChan_rosec (n : Nat) (x : Channel) : (s.setChan n x).rosec = s.rosec := rfl
@[simp] theorem State.setChan_ev (n : Nat) (x : Channel) : (s.setChan n x).ev = s.ev := rfl
@[simp] theorem State.setChan_handler (n : Nat) (x : Channel) : (s.setChan n x).handler = s.handler := rfl
@[simp] theorem State.setChan_freeCtr (n : Nat) (x : Channel) : (s.setChan n x).freeCtr = s.freeCtr := rfl
@[simp] theorem State.setChan_sent (n : Nat) (x : Channel) : (s.setChan n x).sent = s.sent := rfl
@[simp] theorem State.setChan_pending (n : Nat) (x : Channel) : (s.setChan n x).pending = s.pending := rfl

/-! ### modChan -/

@[simp] theorem State.modChan_mode (n : Nat) (f : Channel → Channel) : (s.modChan n f).mode = s.mode := rfl
@[simp] theorem State.modChan_clk (n : Nat) (f : Channel → Channel) : (s.modChan n f).clk = s.clk := rfl
@[simp] theorem State.modChan_start (n : Nat) (f : Channel → Channel) : (s.modChan n f).start = s.start := rfl
@[simp] theorem State.modChan_grade (n : Nat) (f : Channel → Channel) : (s.modChan n f).grade = s.grade := rfl
@[simp] theorem State.modChan_step (n : Nat) (f : Channel → Channel) : (s.modChan n f).step = s.step := rfl
@[simp] theorem State.modChan_uid (n : Nat) (f : Channel → Channel) : (s.modChan n f).uid = s.uid := rfl
@[simp] theorem State.modChan_regs (n : Nat) (f : Channel → Channel) : (s.modChan n f).regs = s.regs := rfl
@[simp] theorem State.modChan_octs (n : Nat) (f : Channel → Channel) : (s.modChan n f).octs = s.octs := rfl
@[simp] theorem State.modChan_held (n : Nat) (f : Channel → Channel) : (s.modChan n f).held = s.held := rfl
@[simp] theorem State.modChan_sites (n : Nat) (f : Channel → Channel) : (s.modChan n f).sites = s.sites := rfl
@[simp] theorem State.modChan_pins (n : Nat) (f : Channel → Channel) : (s.modChan n f).pins = s.pins := rfl
@[simp] theorem State.modChan_ctxs (n : Nat) (f : Channel → Channel) : (s.modChan n f).ctxs = s.ctxs := rfl
@[simp] theorem State.modChan_store (n : Nat) (f : Channel → Channel) : (s.modChan n f).store = s.store := rfl
@[simp] theorem State.modChan_ledger (n : Nat) (f : Channel → Channel) : (s.modChan n f).ledger = s.ledger := rfl
@[simp] theorem State.modChan_inn (n : Nat) (f : Channel → Channel) : (s.modChan n f).inn = s.inn := rfl
@[simp] theorem State.modChan_caravans (n : Nat) (f : Channel → Channel) : (s.modChan n f).caravans = s.caravans := rfl
@[simp] theorem State.modChan_caps (n : Nat) (f : Channel → Channel) : (s.modChan n f).caps = s.caps := rfl
@[simp] theorem State.modChan_recs (n : Nat) (f : Channel → Channel) : (s.modChan n f).recs = s.recs := rfl
@[simp] theorem State.modChan_units (n : Nat) (f : Channel → Channel) : (s.modChan n f).units = s.units := rfl
@[simp] theorem State.modChan_defs (n : Nat) (f : Channel → Channel) : (s.modChan n f).defs = s.defs := rfl
@[simp] theorem State.modChan_evts (n : Nat) (f : Channel → Channel) : (s.modChan n f).evts = s.evts := rfl
@[simp] theorem State.modChan_time (n : Nat) (f : Channel → Channel) : (s.modChan n f).time = s.time := rfl
@[simp] theorem State.modChan_ring (n : Nat) (f : Channel → Channel) : (s.modChan n f).ring = s.ring := rfl
@[simp] theorem State.modChan_pass (n : Nat) (f : Channel → Channel) : (s.modChan n f).pass = s.pass := rfl
@[simp] theorem State.modChan_cal (n : Nat) (f : Channel → Channel) : (s.modChan n f).cal = s.cal := rfl
@[simp] theorem State.modChan_therm (n : Nat) (f : Channel → Channel) : (s.modChan n f).therm = s.therm := rfl
@[simp] theorem State.modChan_jtag (n : Nat) (f : Channel → Channel) : (s.modChan n f).jtag = s.jtag := rfl
@[simp] theorem State.modChan_mem (n : Nat) (f : Channel → Channel) : (s.modChan n f).mem = s.mem := rfl
@[simp] theorem State.modChan_reads (n : Nat) (f : Channel → Channel) : (s.modChan n f).reads = s.reads := rfl
@[simp] theorem State.modChan_sl (n : Nat) (f : Channel → Channel) : (s.modChan n f).sl = s.sl := rfl
@[simp] theorem State.modChan_convoy (n : Nat) (f : Channel → Channel) : (s.modChan n f).convoy = s.convoy := rfl
@[simp] theorem State.modChan_rosec (n : Nat) (f : Channel → Channel) : (s.modChan n f).rosec = s.rosec := rfl
@[simp] theorem State.modChan_ev (n : Nat) (f : Channel → Channel) : (s.modChan n f).ev = s.ev := rfl
@[simp] theorem State.modChan_handler (n : Nat) (f : Channel → Channel) : (s.modChan n f).handler = s.handler := rfl
@[simp] theorem State.modChan_freeCtr (n : Nat) (f : Channel → Channel) : (s.modChan n f).freeCtr = s.freeCtr := rfl
@[simp] theorem State.modChan_sent (n : Nat) (f : Channel → Channel) : (s.modChan n f).sent = s.sent := rfl
@[simp] theorem State.modChan_pending (n : Nat) (f : Channel → Channel) : (s.modChan n f).pending = s.pending := rfl

/-! ### ownFrame -/

@[simp] theorem State.ownFrame_mode : (s.ownFrame).mode = s.mode := rfl
@[simp] theorem State.ownFrame_clk : (s.ownFrame).clk = s.clk := rfl
@[simp] theorem State.ownFrame_start : (s.ownFrame).start = s.start := rfl
@[simp] theorem State.ownFrame_grade : (s.ownFrame).grade = s.grade := rfl
@[simp] theorem State.ownFrame_step : (s.ownFrame).step = s.step := rfl
@[simp] theorem State.ownFrame_uid : (s.ownFrame).uid = s.uid := rfl
@[simp] theorem State.ownFrame_regs : (s.ownFrame).regs = s.regs := rfl
@[simp] theorem State.ownFrame_octs : (s.ownFrame).octs = s.octs := rfl
@[simp] theorem State.ownFrame_held : (s.ownFrame).held = s.held := rfl
@[simp] theorem State.ownFrame_sites : (s.ownFrame).sites = s.sites := rfl
@[simp] theorem State.ownFrame_pins : (s.ownFrame).pins = s.pins := rfl
@[simp] theorem State.ownFrame_ctxs : (s.ownFrame).ctxs = s.ctxs := rfl
@[simp] theorem State.ownFrame_store : (s.ownFrame).store = s.store := rfl
@[simp] theorem State.ownFrame_ledger : (s.ownFrame).ledger = s.ledger := rfl
@[simp] theorem State.ownFrame_inn : (s.ownFrame).inn = s.inn := rfl
@[simp] theorem State.ownFrame_caravans : (s.ownFrame).caravans = s.caravans := rfl
@[simp] theorem State.ownFrame_caps : (s.ownFrame).caps = s.caps := rfl
@[simp] theorem State.ownFrame_recs : (s.ownFrame).recs = s.recs := rfl
@[simp] theorem State.ownFrame_units : (s.ownFrame).units = s.units := rfl
@[simp] theorem State.ownFrame_defs : (s.ownFrame).defs = s.defs := rfl
@[simp] theorem State.ownFrame_evts : (s.ownFrame).evts = s.evts := rfl
@[simp] theorem State.ownFrame_time : (s.ownFrame).time = s.time := rfl
@[simp] theorem State.ownFrame_pass : (s.ownFrame).pass = s.pass := rfl
@[simp] theorem State.ownFrame_cal : (s.ownFrame).cal = s.cal := rfl
@[simp] theorem State.ownFrame_therm : (s.ownFrame).therm = s.therm := rfl
@[simp] theorem State.ownFrame_jtag : (s.ownFrame).jtag = s.jtag := rfl
@[simp] theorem State.ownFrame_mem : (s.ownFrame).mem = s.mem := rfl
@[simp] theorem State.ownFrame_reads : (s.ownFrame).reads = s.reads := rfl
@[simp] theorem State.ownFrame_chans : (s.ownFrame).chans = s.chans := rfl
@[simp] theorem State.ownFrame_sl : (s.ownFrame).sl = s.sl := rfl
@[simp] theorem State.ownFrame_convoy : (s.ownFrame).convoy = s.convoy := rfl
@[simp] theorem State.ownFrame_rosec : (s.ownFrame).rosec = s.rosec := rfl
@[simp] theorem State.ownFrame_ev : (s.ownFrame).ev = s.ev := rfl
@[simp] theorem State.ownFrame_handler : (s.ownFrame).handler = s.handler := rfl
@[simp] theorem State.ownFrame_freeCtr : (s.ownFrame).freeCtr = s.freeCtr := rfl
@[simp] theorem State.ownFrame_sent : (s.ownFrame).sent = s.sent := rfl
@[simp] theorem State.ownFrame_pending : (s.ownFrame).pending = s.pending := rfl

/-! ### modPort -/

@[simp] theorem State.modPort_mode (p : Nat) (f : Port → Port) : (s.modPort p f).mode = s.mode := rfl
@[simp] theorem State.modPort_clk (p : Nat) (f : Port → Port) : (s.modPort p f).clk = s.clk := rfl
@[simp] theorem State.modPort_start (p : Nat) (f : Port → Port) : (s.modPort p f).start = s.start := rfl
@[simp] theorem State.modPort_grade (p : Nat) (f : Port → Port) : (s.modPort p f).grade = s.grade := rfl
@[simp] theorem State.modPort_step (p : Nat) (f : Port → Port) : (s.modPort p f).step = s.step := rfl
@[simp] theorem State.modPort_uid (p : Nat) (f : Port → Port) : (s.modPort p f).uid = s.uid := rfl
@[simp] theorem State.modPort_regs (p : Nat) (f : Port → Port) : (s.modPort p f).regs = s.regs := rfl
@[simp] theorem State.modPort_octs (p : Nat) (f : Port → Port) : (s.modPort p f).octs = s.octs := rfl
@[simp] theorem State.modPort_held (p : Nat) (f : Port → Port) : (s.modPort p f).held = s.held := rfl
@[simp] theorem State.modPort_sites (p : Nat) (f : Port → Port) : (s.modPort p f).sites = s.sites := rfl
@[simp] theorem State.modPort_pins (p : Nat) (f : Port → Port) : (s.modPort p f).pins = s.pins := rfl
@[simp] theorem State.modPort_ctxs (p : Nat) (f : Port → Port) : (s.modPort p f).ctxs = s.ctxs := rfl
@[simp] theorem State.modPort_store (p : Nat) (f : Port → Port) : (s.modPort p f).store = s.store := rfl
@[simp] theorem State.modPort_ledger (p : Nat) (f : Port → Port) : (s.modPort p f).ledger = s.ledger := rfl
@[simp] theorem State.modPort_inn (p : Nat) (f : Port → Port) : (s.modPort p f).inn = s.inn := rfl
@[simp] theorem State.modPort_caravans (p : Nat) (f : Port → Port) : (s.modPort p f).caravans = s.caravans := rfl
@[simp] theorem State.modPort_caps (p : Nat) (f : Port → Port) : (s.modPort p f).caps = s.caps := rfl
@[simp] theorem State.modPort_recs (p : Nat) (f : Port → Port) : (s.modPort p f).recs = s.recs := rfl
@[simp] theorem State.modPort_units (p : Nat) (f : Port → Port) : (s.modPort p f).units = s.units := rfl
@[simp] theorem State.modPort_defs (p : Nat) (f : Port → Port) : (s.modPort p f).defs = s.defs := rfl
@[simp] theorem State.modPort_evts (p : Nat) (f : Port → Port) : (s.modPort p f).evts = s.evts := rfl
@[simp] theorem State.modPort_time (p : Nat) (f : Port → Port) : (s.modPort p f).time = s.time := rfl
@[simp] theorem State.modPort_pass (p : Nat) (f : Port → Port) : (s.modPort p f).pass = s.pass := rfl
@[simp] theorem State.modPort_cal (p : Nat) (f : Port → Port) : (s.modPort p f).cal = s.cal := rfl
@[simp] theorem State.modPort_therm (p : Nat) (f : Port → Port) : (s.modPort p f).therm = s.therm := rfl
@[simp] theorem State.modPort_jtag (p : Nat) (f : Port → Port) : (s.modPort p f).jtag = s.jtag := rfl
@[simp] theorem State.modPort_mem (p : Nat) (f : Port → Port) : (s.modPort p f).mem = s.mem := rfl
@[simp] theorem State.modPort_reads (p : Nat) (f : Port → Port) : (s.modPort p f).reads = s.reads := rfl
@[simp] theorem State.modPort_chans (p : Nat) (f : Port → Port) : (s.modPort p f).chans = s.chans := rfl
@[simp] theorem State.modPort_sl (p : Nat) (f : Port → Port) : (s.modPort p f).sl = s.sl := rfl
@[simp] theorem State.modPort_convoy (p : Nat) (f : Port → Port) : (s.modPort p f).convoy = s.convoy := rfl
@[simp] theorem State.modPort_rosec (p : Nat) (f : Port → Port) : (s.modPort p f).rosec = s.rosec := rfl
@[simp] theorem State.modPort_ev (p : Nat) (f : Port → Port) : (s.modPort p f).ev = s.ev := rfl
@[simp] theorem State.modPort_handler (p : Nat) (f : Port → Port) : (s.modPort p f).handler = s.handler := rfl
@[simp] theorem State.modPort_freeCtr (p : Nat) (f : Port → Port) : (s.modPort p f).freeCtr = s.freeCtr := rfl
@[simp] theorem State.modPort_sent (p : Nat) (f : Port → Port) : (s.modPort p f).sent = s.sent := rfl
@[simp] theorem State.modPort_pending (p : Nat) (f : Port → Port) : (s.modPort p f).pending = s.pending := rfl

end Sys2Proof.Machine
end

