-- ==== Sys2Proof/Tests/Slice0.lean ====
section
/-! SUPPORT. The model's own tests: ill-formed commands refused, one step each on small states with results from the spec, and for every
statement a state and operands that meet its hypotheses. -/

namespace Sys2Proof.Tests
open Sys2Proof Sys2Proof.Machine
set_option Elab.async false

/-! ### Helpers -/

theorem executes_of {s : State} {n : Nat} {w : Word64} {op : Nat}
    (h : (s.mayRun n && opcodeOf w == op && decide ((s.site n).thread.idx < (s.site n).length) && condOf w != 7
      && ((s.site n).thread.reached || (s.site n).thread.vecLeft.isSome || siteCond (s.site n).flags (condOf w)) && reservedClear w) = true) :
    s.Executes n w op := by
  simp only [Bool.and_eq_true, Bool.or_eq_true, decide_eq_true_eq, beq_iff_eq, bne_iff_ne] at h
  exact ⟨h.1.1.1.1.1, h.1.1.1.1.2, h.1.1.1.2, h.1.1.2, or_assoc.mp h.1.2, h.2⟩

theorem unstopped_of {s : State} {n cost : Nat}
    (h : ((s.ctx (s.seat n)).fault == none && (s.site n).abort == none && !(s.site n).halted && (s.ctx (s.seat n)).owner == some n
      && !(s.site (s.entry n).site).overran && decide ((s.site (s.entry n).site).cycles + cost ≤ s.budget (s.entry n).site)) = true) :
    s.Unstopped n cost := by
  simp only [Bool.and_eq_true, decide_eq_true_eq, beq_iff_eq, Bool.not_eq_true'] at h
  refine ⟨h.1.1.1.1.1, h.1.1.1.1.2, h.1.1.1.2, fun i hi => ?_⟩
  rw [h.1.1.2] at hi
  cases hi
  exact ⟨h.1.2, h.2⟩

theorem issues_of {s : State} {c op cost : Nat} {f : BitVec 26}
    (h : (s.mayIssue c && s.inMicro c && decide ((s.ctx c).run + cost ≤ (s.ctx c).limit)
      && (!s.knownPc c || !s.store.needsRepair ((s.ctx c).ms.pc.toNat / 2)
        && s.store.micro (s.ctx c).ms.pc.toNat == some (BitVec.ofNat 32 (op * 2 ^ 26 + f.toNat)))
      && !(s.ctx c).stallsOn op f && (s.ctx c).wait == none) = true) : s.Issues c op f cost := by
  simp only [Bool.and_eq_true, Bool.or_eq_true, decide_eq_true_eq, beq_iff_eq, Bool.not_eq_true'] at h
  obtain ⟨⟨⟨⟨⟨h1, h2⟩, h3⟩, h4⟩, h5⟩, h6⟩ := h
  refine ⟨h1, h2, h3, fun k => ?_, fun k => ?_, h5, h6⟩
  · rcases h4 with h4 | h4
    · rw [h4] at k; cases k
    · exact h4.1
  · rcases h4 with h4 | h4
    · rw [h4] at k; cases k
    · exact h4.2

theorem carries_of {s : State} {r : Req} {q : Ask}
    (h : (s.responds && (s.arrives r).1 && decide (r.ahead < (s.arrives r).2.queueLimit) && (s.queuedOne r).keptFor r q == none && (s.queuedOne r).gate r q == 0) = true) :
    s.Carries r q := by
  simp only [Bool.and_eq_true, decide_eq_true_eq, beq_iff_eq] at h
  exact ⟨h.1.1.1.1, h.1.1.1.2, h.1.1.2, h.1.2, h.2⟩

theorem writes_of {s : State} {r : Req} {i j : Nat}
    (h : (s.responds && (s.arrives r).1 && decide (r.ahead < (s.arrives r).2.queueLimit) && (s.queuedOne r).keptFor r (writeAsk i j) == none
      && (s.queuedOne r).gate r (writeAsk i j) == 0 && !(s.taken r).snapshotOf r.sa i j) = true) : s.Writes r i j := by
  rw [Bool.and_eq_true, Bool.not_eq_true'] at h
  exact ⟨carries_of h.1, h.2⟩

/-- An instruction word: opcode, COND 0, CLRF 0, operand. -/
def word (op operand : Nat) : Word64 := BitVec.ofNat 64 (op * 2 ^ 56 + operand)

/-- The engine in SERVICE, site 0 RUNNING with an itinerary of 100 words and its thread at word 10, READY in context 0, a budget of 1,000. -/
def atWork : State :=
  ({ State.reset with
     mode := .service
     sites := [(0, { st := .running, length := 100, thread := { idx := 10, period := some 5000, checked := some (5000, 0) } })]
     ctxs := [(0, { st := .ready, owner := some 0 })]
     ledger := [(0, { state := .placed })] } : State).setNat 0x3401 7 1000

/-- The thread of site 0 changed. -/
def atWork.with (f : Thread → Thread) : State := atWork.modThread 0 f

/-- Eight codewords, the fifth an ENDL. -/
def endlLine : List Codeword := [encodeWord 0, encodeWord 0, encodeWord 0, encodeWord 0, encodeWord (word 0x04 0), encodeWord 0, encodeWord 0, encodeWord 0]

/-- Site 0 at work on an itinerary at address 0 whose word 20 is an ENDL. -/
def looping : State := (atWork.setNat 0x9000 8 65536).writeLine 128 1 255 endlLine

theorem looping_line : looping.tryLine 128 0 = .good endlLine 0 :=
  State.tryLine_writeLine (by decide +kernel) (by decide +kernel) (by decide +kernel) (by decide +kernel)

/-- Word 20 of that itinerary read once LOOP has begun. -/
def loopRead : Codeword × State := (looping.begun 0 (word 0x03 (20 * 2 ^ 24 + 1)) 7 true).readWord 160

theorem looping_word : loopRead.1 = encodeWord (word 0x04 0) := by
  have kept : Keeps (· ≠ .memory) looping (looping.begun 0 (word 0x03 (20 * 2 ^ 24 + 1)) 7 true) := by
    unfold State.begun
    rw [if_neg (by decide +kernel)]
    exact State.modThread_keeps (by simp) (State.charge_keeps (by simp) (by simp) (by simp) (by simp) (State.modCtx_keeps (by simp) Keeps.refl))
  have same : SameSeals looping (looping.begun 0 (word 0x03 (20 * 2 ^ 24 + 1)) 7 true) :=
    ⟨kept.parts .memory (by simp), by decide +kernel, by decide +kernel, by decide +kernel, by decide +kernel⟩
  have h := (same.tryLine 128 0).trans looping_line
  have r := State.readWord_good (s := looping.begun 0 (word 0x03 (20 * 2 ^ 24 + 1)) 7 true) (addr := 160) (ws := endlLine) (by decide +kernel)
    (by decide +kernel) h
  unfold loopRead
  rw [r]
  decide +kernel
/-! ### Steps -/

theorem witness_StepRunsFront : ({ State.reset with pending := [.bypass, .idcode] } : State).pending = Instr.bypass :: [.idcode] := rfl

/-- A canonical state with a command waiting, and the state after it. -/
theorem witness_EveryStepKeepsCanonical :
    ({ State.reset with pending := [.bypass] } : State).canonical = true
    ∧ step { State.reset with pending := [.bypass] }
      = .next ({ State.reset with jtag := { State.reset.jtag with instr := .bypass } }.send (.tdo [false])) := ⟨by decide +kernel, rfl⟩

theorem witness_EveryCommandKeepsFusesAndQueue :
    exec .bypass State.reset = .next ({ State.reset with jtag := { State.reset.jtag with instr := .bypass } }.send (.tdo [false])) := rfl

theorem witness_OnlyItsPartsChange :
    exec .bypass State.reset = .next ({ State.reset with jtag := { State.reset.jtag with instr := .bypass } }.send (.tdo [false]))
    ∧ Part.memory ∉ mayChange .bypass := ⟨rfl, by decide +kernel⟩
/-! ### Itinerary instructions -/

/-- ENDL with two loops open, RET within a call, and LOOP and CALL at the bounds of their targets. -/
theorem witness_LoopsAndCalls :
    (looping.Executes 0 (word 0x03 (20 * 2 ^ 24)) 0x03 ∧ ((looping.begun 0 (word 0x03 (20 * 2 ^ 24)) 7 true).site 0).thread.idx < 20)
    ∧ looping.Executes 0 (word 0x03 (20 * 2 ^ 24 + 1)) 0x03
    ∧ (looping.begun 0 (word 0x03 (20 * 2 ^ 24 + 1)) 7 true).itinAddr 0 20 = 160
    ∧ (checkWord loopRead.1).ok = true ∧ opcodeOf (checkWord loopRead.1).data = 0x04
    ∧ ((atWork.with fun t => { t with loops := [(5, 2)] }).Executes 0 (word 0x04 0) 0x04
      ∧ (((atWork.with fun t => { t with loops := [(5, 2)] }).begun 0 (word 0x04 0) 5 true).site 0).thread.loops = [(5, 2)])
    ∧ ((atWork.with fun t => { t with loops := [(5, 1)] }).Executes 0 (word 0x04 0) 0x04
      ∧ (((atWork.with fun t => { t with loops := [(5, 1)] }).begun 0 (word 0x04 0) 5 true).site 0).thread.loops = [(5, 1)])
    ∧ (atWork.Executes 0 (word 0x05 99) 0x05 ∧ 99 < ((atWork.begun 0 (word 0x05 99) 7 true).site 0).length)
    ∧ ((atWork.with fun t => { t with calls := [(7, 0)] }).Executes 0 (word 0x06 0) 0x06
      ∧ (((atWork.with fun t => { t with calls := [(7, 0)] }).begun 0 (word 0x06 0) 6 true).site 0).thread.calls = [(7, 0)]
      ∧ (((atWork.with fun t => { t with calls := [(7, 0)] }).begun 0 (word 0x06 0) 6 true).site 0).thread.loops.length = 0) := by
  rw [looping_word]
  repeat' first | apply And.intro | apply executes_of | decide +kernel

theorem witness_Jumps :
    (atWork.Executes 0 (word 0x07 99) 0x07 ∧ 99 < ((atWork.begun 0 (word 0x07 99) 5 true).site 0).length)
    ∧ ((atWork.with fun t => { t with loops := [(3, 2)] }).Executes 0 (word 0x08 (1 + 2 ^ 44)) 0x08
      ∧ 1 ≤ (((atWork.with fun t => { t with loops := [(3, 2)] }).begun 0 (word 0x08 (1 + 2 ^ 44)) 8 false).site 0).thread.ownLoops
      ∧ bit (word 0x08 (1 + 2 ^ 44)) 43 = false)
    ∧ atWork.Executes 0 (word 0x09 (1 + 0xFF * 2 ^ 32)) 0x09 := by
  repeat' first | apply And.intro | apply executes_of | decide +kernel

theorem witness_EventAndYield : atWork.Executes 0 (word 0x12 (2 ^ 14 + 63 * 2 ^ 8 + 3)) 0x12 ∧ atWork.Executes 0 (word 0x16 0) 0x16 := by
  repeat' first | apply And.intro | apply executes_of | decide +kernel

/-- The customer half with entry 0 of its table valid, at 0x9000 with a RUN_LIMIT of 100. -/
def withRoutine : State := { atWork with store := { primary := [(0x4000, encodeWord (BitVec.ofNat 64 (100 * 2 ^ 32 + 0x80009000)))] } }

theorem witness_CustEntersItsRoutine : withRoutine.Executes 0 (word 0x20 5) 0x20
    ∧ withRoutine.store.needsRepair (custKey 0) = false
    ∧ (let u := (withRoutine.begun 0 (word 0x20 5) 5 true).readStore (custKey 0);
      (u.store.word (custKey 0)).isSome = true ∧ u.store.custEntry 0 = some (0x9000, 100)) := by
  repeat' first | apply And.intro | apply executes_of | decide +kernel

/-- Pattern: site 0 with pin 0, a pattern of 8,192 vectors, of which it has emitted some. -/
def patterned : State := ((atWork.with fun t => { t with anyPattern := true }).setNat 0x3401 1 1).setNat 0x3401 5 8192

theorem witness_PatternInstructions :
    (patterned.Executes 0 (word 0x01 0) 0x01 ∧ (patterned.site 0).thread.vecLeft = none)
    ∧ (patterned.Executes 0 (word 0x01 8192) 0x01
      ∧ (((patterned.begun 0 (word 0x01 8192) 6 true).modThread 0 fun t => { t with vp := 0 }).emitRun 0 0 64 0 8192).1 = 0)
    ∧ ((patterned.begun 0 (word 0x01 8192) 6 true).queueRoom 0 = true ∧ (patterned.begun 0 (word 0x01 8192) 6 true).stagingOk 0 = true
      ∧ 8192 ≤ (patterned.begun 0 (word 0x01 8192) 6 true).nreg (siteObj 0 1) 5)
    ∧ (let s := patterned.modSite 0 fun x => { x with queue := List.replicate 63 { kind := .tset 0 } }
      s.Executes 0 (word 0x01 8192) 0x01 ∧ (((s.begun 0 (word 0x01 8192) 6 true).modThread 0 fun t => { t with vp := 0 }).emitRun 0 0 64 0 8192).1 ≠ 0
        ∧ (s.begun 0 (word 0x01 8192) 6 true).queueRoom 0 = true)
    ∧ (patterned.Executes 0 (word 0x02 0) 0x02 ∧ ((patterned.begun 0 (word 0x02 0) 6 true).site 0).thread.anyPattern = true)
    ∧ (patterned.Executes 0 (word 0x02 1) 0x02 ∧ (patterned.begun 0 (word 0x02 1) 6 true).stagingOk 0 = true)
    ∧ (patterned.Executes 0 (word 0x0B 0) 0x0B ∧ bit (word 0x0B 0) 47 = false)
    ∧ (patterned.Executes 0 (word 0x0B 1) 0x0B ∧ (patterned.begun 0 (word 0x0B 1) 8 true).queueRoom 0 = true)
    ∧ (patterned.Executes 0 (word 0x0B (2 ^ 47)) 0x0B ∧ bit (word 0x0B (2 ^ 47)) 47 = true)
    ∧ (atWork.Executes 0 (word 0x0C 63) 0x0C ∧ (atWork.begun 0 (word 0x0C 63) 6 true).setValid 0 63 = true)
    ∧ (patterned.Executes 0 (word 0x0D 2500) 0x0D ∧ (patterned.begun 0 (word 0x0D 2500) 6 true).queueRoom 0 = true)
    ∧ (let w := word 0x0A (2 ^ 30 + 2 ^ 14 + 31 * 2 ^ 9)
      let u := patterned.begun 0 w 14 true
      let v := u.emitVectors 0 0 (.block 0 32)
      patterned.Executes 0 w 0x0A ∧ u.matchPins 0 (bits w 47 46) (bits w 45 30) (bits w 29 14) = some [(0, 2)] ∧ bits w 13 9 + 1 = 32
        ∧ u.queueRoom 0 = true ∧ u.stagingOk 0 = true ∧ (v.ctx 0).fault = none ∧ (v.site 0).abort = none ∧ (v.site 0).halted = false) := by
  repeat' first | apply And.intro | apply executes_of | decide +kernel

/-- Site 0 with pin 0 as SE slot 0 of configuration 0, owner of definition 0 and of trigger unit 0. -/
def riding : State :=
  ((({ atWork with defs := [(0, { vals := [(2, 0)] })] } : State).setNat 0x3401 1 1).setNat 0x7300 1 0).setOct 0x3402 3 (beBytes 8 1 ++ List.replicate 40 0)

theorem witness_RidingInstructions :
    (riding.Executes 0 (word 0x0E 0) 0x0E ∧ riding.Executes 0 (word 0x0E 1) 0x0E ∧ riding.Executes 0 (word 0x0E 2) 0x0E
      ∧ riding.Executes 0 (word 0x0E 3) 0x0E ∧ riding.Executes 0 (word 0x0E (4 + 255 * 2 ^ 8)) 0x0E)
    ∧ (riding.Executes 0 (word 0x0F (2 ^ 12)) 0x0F ∧ (riding.begun 0 (word 0x0F (2 ^ 12)) 11 true).ownsDef 0 0 = true)
    ∧ (riding.Executes 0 (word 0x10 0) 0x10 ∧ riding.Executes 0 (word 0x10 16) 0x10 ∧ riding.Executes 0 (word 0x10 32) 0x10
      ∧ (riding.begun 0 (word 0x10 0) 8 true).nreg (tuObj 0) 1 = 0)
    ∧ (riding.Executes 0 (word 0x13 1) 0x13 ∧ ((riding.begun 0 (word 0x13 1) 16 true).serialCfg 0 0).isSome = true
      ∧ ((riding.begun 0 (word 0x13 1) 16 true).site 0).thread.inSerial = [])
    ∧ riding.Executes 0 (word 0x13 0) 0x13 := by
  repeat' first | apply And.intro | apply executes_of | decide +kernel

theorem witness_DrainPoints :
    (let w := word 0x11 (2 ^ 32 + 3 * 2 ^ 16);
      atWork.Executes 0 w 0x11 ∧ atWork.Unstopped 0 12 ∧ bits w 18 16 ≤ 3 ∧ bits w 47 32 ≠ 0)
    ∧ (atWork.Executes 0 (word 0x14 0) 0x14 ∧ atWork.Unstopped 0 28)
    ∧ (atWork.Executes 0 (word 0x15 0) 0x15 ∧ atWork.Unstopped 0 9)
    ∧ (let w := word 0x08 (2 ^ 43 + 99);
      atWork.Executes 0 w 0x08 ∧ atWork.Unstopped 0 8 ∧ bit w 43 = true ∧ bits w 23 0 = 99 ∧ 99 < (atWork.site 0).length
        ∧ bits w 47 44 ≤ (atWork.site 0).thread.ownLoops)
    ∧ (let w := word 0x0A (2 ^ 30 + 2 ^ 14 + 31 * 2 ^ 9)
      patterned.Executes 0 w 0x0A ∧ patterned.Unstopped 0 14 ∧ patterned.matchPins 0 (bits w 47 46) (bits w 45 30) (bits w 29 14) = some [(0, 2)]
        ∧ bits w 45 30 ≠ 0 ∧ (patterned.site 0).thread.vp + (bits w 13 9 + 1) ≤ patterned.nreg (siteObj 0 1) 5
        ∧ patterned.queueRoom 0 = true ∧ patterned.stagingOk 0 = true) := by
  repeat' first | apply And.intro | apply executes_of | apply unstopped_of | decide +kernel

theorem witness_CalmBoundaryGoesOn : atWork.Calm 0 0 := ⟨rfl, rfl, rfl, rfl, by decide +kernel⟩

theorem witness_InstructionChecks :
    (let s := atWork.with fun t => { t with idx := 100 };
      s.mayRun 0 = true ∧ (s.site 0).length ≤ (s.site 0).thread.idx)
    ∧ (atWork.mayRun 0 = true ∧ opcodeOf (word 0x02 0) = 0x02 ∧ (atWork.site 0).thread.idx < (atWork.site 0).length
      ∧ condOf (word 0x02 (7 * 2 ^ 53)) = 7)
    ∧ (condOf (word 0x07 (1 * 2 ^ 53)) ≠ 7 ∧ opcodeOf (word 0x07 (2 ^ 53)) = 0x07 ∧ (atWork.site 0).thread.vecLeft = none
      ∧ siteCond (atWork.site 0).flags (condOf (word 0x07 (2 ^ 53))) = false)
    ∧ (opcodeOf (word 0x12 (2 ^ 15)) = 0x12 ∧ siteCond (atWork.site 0).flags (condOf (word 0x12 (2 ^ 15))) = true
      ∧ reservedClear (word 0x12 (2 ^ 15)) = false) := by
  decide +kernel
/-! ### Microcode -/

/-- Context 0 in a task of the engine for site 0, its registers and its state changed. -/
def inTask (m : List Word32) (f : Ctx → Ctx) : State :=
  ({ patterned with ledger := [(0, { state := .placed, work := .packaging 0 })] } : State).setCtx 0 (f { st := .ready, owner := some 0, task := true, ms := { m := m ++ List.replicate (16 - m.length) 0 } })

/-- A microword's fields: D, A, and B with its bits. -/
def fields (d a b : Nat) : BitVec 26 := BitVec.ofNat 26 (d * 2 ^ 22 + a * 2 ^ 18 + b)

/-- The immediate form. -/
def immed (b : Nat) : Nat := 2 ^ 17 + b

/-- Context 0 of site 0's thread at the start of a customer routine whose first microword is `w`. -/
def inRoutine (w : Nat) : State :=
  ({ patterned with store := { primary := [(0x4000, encodeWord (BitVec.ofNat 64 w))] } } : State).setCtx 0
      { st := .ready, owner := some 0, ms := { pc := 0x8000 } } |>.modThread 0 fun t => { t with custom := true }

/-- A microword of a routine stands in the store. -/
theorem witness_stored : (inRoutine (0x03 * 2 ^ 26 + (fields 2 0 1).toNat)).Issues 0 0x03 (fields 2 0 1) 1
    ∧ (inRoutine (0x03 * 2 ^ 26 + (fields 2 0 1).toNat)).knownPc 0 = true := by
  repeat' first | apply And.intro | apply issues_of | decide +kernel

theorem witness_MicroArithmetic :
    (let s := inTask [5, 3] id;
      s.Issues 0 0x03 (fields 2 0 1) 1 ∧ s.Issues 0 0x04 (fields 2 0 1) 1 ∧ s.Issues 0 0x05 (fields 2 0 1) 1 ∧ s.Issues 0 0x06 (fields 2 0 1) 1
        ∧ s.Issues 0 0x07 (fields 2 0 1) 1 ∧ sourceB (s.ctx 0).ms (fields 2 0 1) = some 3
        ∧ s.Issues 0 0x01 (fields 2 0 (immed 7)) 1 ∧ fA (fields 2 0 (immed 7)) = 0 ∧ s.Issues 0 0x09 (fields 0 0 1) 1 ∧ fD (fields 0 0 1) = 0
        ∧ s.Issues 0 0x02 (fields 2 0 (immed 0x7FFF)) 1 ∧ bits (fields 2 0 (immed 0x7FFF)) 16 15 = 0
        ∧ s.Issues 0 0x0A (fields 2 0 (1 + 31 * 2 ^ 4 + 31 * 2 ^ 9)) 1 ∧ (crcForm (s.ctx 0).ms (fields 2 0 (1 + 31 * 2 ^ 4 + 31 * 2 ^ 9))).isSome = true
        ∧ s.Issues 0 0x00 0 1)
    ∧ (let s := inTask [5, 3] id;
      s.Issues 0 0x03 (fields 2 0 16) 1 ∧ fImm (fields 2 0 16) = false ∧ bits (fields 2 0 16) 16 4 ≠ 0 ∧ s.Issues 0 0x09 (fields 0 0 16) 1) := by
  repeat' first | apply And.intro | apply issues_of | decide +kernel

/-- A microword of a routine: its opcode and fields. -/
def inRoutineOf (op : Nat) (f : BitVec 26) : State := inRoutine (op * 2 ^ 26 + f.toNat)

theorem witness_MicroReservedOperand :
    (let s := inTask [] id;
      s.Issues 0 0x01 (fields 0 1 (immed 0)) 1 ∧ fA (fields 0 1 (immed 0)) ≠ 0 ∧ s.Issues 0 0x09 (fields 1 0 (immed 0)) 1 ∧ fD (fields 1 0 (immed 0)) ≠ 0
        ∧ s.Issues 0 0x02 (fields 0 0 0) 1 ∧ fImm (fields 0 0 0) = false ∧ bits (fields 0 0 (immed 0x8000)) 16 15 ≠ 0
        ∧ s.Issues 0 0x08 (fields 0 0 128) 1 ∧ bits (fields 0 0 128) 16 7 ≠ 0
        ∧ s.Issues 0 0x0A (fields 0 0 16384) 1 ∧ crcForm (s.ctx 0).ms (fields 0 0 16384) = none
        ∧ s.Issues 0 0x0B (fields 15 0 (immed 0)) 1 ∧ fD (fields 15 0 (immed 0)) = 15 ∧ s.Issues 0 0x0C (fields 1 0 (immed 0)) 1
        ∧ s.Issues 0 0x0D 1 1 ∧ s.Issues 0 0x0E (fields 1 0 (immed 0)) 1 ∧ fD (fields 1 0 (immed 0)) % 2 = 1
        ∧ s.Issues 0 0x0F (fields 0 0 (immed (5 * 2 ^ 14))) 1 ∧ 4 < bits (fields 0 0 (immed (5 * 2 ^ 14))) 16 14
        ∧ s.Issues 0 0x10 (fields 0 0 (immed (7 * 2 ^ 14))) 1 ∧ 4 < bits (fields 0 0 (immed (7 * 2 ^ 14))) 16 14
        ∧ s.Issues 0 0x11 (fields 6 0 0) 1 ∧ s.Issues 0 0x11 (fields 0 0 16) 1 ∧ s.Issues 0 0x11 (fields 2 0 (immed 0)) 1 ∧ s.Issues 0 0x11 (fields 5 0 1) 1
        ∧ s.Issues 0 0x12 (fields 9 0 (immed 0)) 1 ∧ 8 < fD (fields 9 0 (immed 0)))
    ∧ (let s := inTask [] id;
      s.Issues 0 0x13 (fields 0 0 (immed 4)) 1 ∧ bit (fields 0 0 (immed 4)) 11 = false ∧ bits (fields 0 0 (immed 4)) 10 2 ≠ 0
        ∧ s.Issues 0 0x14 (fields 5 0 (immed 0)) 1 ∧ s.Issues 0 0x15 (fields 0 0 (immed 4096)) 1 ∧ bits (fields 0 0 (immed 4096)) 16 12 ≠ 0
        ∧ s.Issues 0 0 1 1 ∧ bits (1 : Word32) 31 26 = 0 ∧ s.Issues 0 0x3E 0 1 ∧ bits (0xF8000000 : Word32) 31 26 = 0x3E
        ∧ s.Issues 0 0x16 0 1 ∧ bits (0x58000000 : Word32) 31 26 = 0x16) := by
  repeat' first | apply And.intro | apply issues_of | decide +kernel

theorem witness_ShiftsFollowTheirType :
    (let s := inTask [5, 31] id;
      s.Issues 0 0x08 (fields 2 0 (immed 0)) 1 ∧ s.Issues 0 0x08 (fields 2 0 (immed 31)) 1 ∧ bits (fields 2 0 (immed (31 + 3 * 32))) 6 5 = 3
        ∧ s.Issues 0 0x08 (fields 2 0 (1 + 2 * 32)) 1 ∧ bit (fields 2 0 (1 + 2 * 32)) 4 = false ∧ bits (fields 2 0 (1 + 2 * 32)) 16 7 = 0
        ∧ s.Issues 0 0x08 (fields 2 0 (1 + 32)) 1 ∧ bits (fields 2 0 (1 + 32)) 6 5 = 1)
    ∧ (let s := inTask [5, 31] id;
      s.Issues 0 0x08 (fields 2 0 16) 1 ∧ bit (fields 2 0 16) 4 = true ∧ fImm (fields 2 0 16) = false) := by
  repeat' first | apply And.intro | apply issues_of | decide +kernel

theorem witness_MicroBranches :
    (let s := inTask [] fun x => { x with ms := { x.ms with z := true } };
      condHolds (s.ctx 0).ms 1 = true ∧ s.Issues 0 0x0B (fields 1 0 (immed 0xFFFF)) 2 ∧ branchTarget (s.ctx 0).ms (fields 1 0 (immed 0xFFFF)) = some 0xFFFF
        ∧ condHolds (s.ctx 0).ms 2 = false ∧ s.Issues 0 0x0B (fields 2 0 (immed 0)) 1
        ∧ s.Issues 0 0x0C (fields 0 0 (immed 5)) 2 ∧ branchTarget (s.ctx 0).ms (fields 0 0 (immed 5)) = some 5)
    ∧ (let s := inTask [] fun x => { x with ms := { x.ms with stack := [7] } };
      s.Issues 0 0x0D 0 2 ∧ (s.ctx 0).ms.stack = [7])
    ∧ (let s := inTask [] fun x => { x with ms := { x.ms with stack := List.replicate 8 0 } };
      s.Issues 0 0x0C (fields 0 0 (immed 5)) 1 ∧ 8 ≤ (s.ctx 0).ms.stack.length)
    ∧ ((inTask [] id).Issues 0 0x0D 0 1 ∧ ((inTask [] id).ctx 0).ms.stack = [])
    ∧ (let f := fields 0 0 0;
      (inRoutineOf 0x0B f).Issues 0 0x0B f 1 ∧ branchTarget ((inRoutineOf 0x0B f).ctx 0).ms f = some 0 ∧ condHolds ((inRoutineOf 0x0B f).ctx 0).ms 0 = true
        ∧ 0x8000 ≤ ((inRoutineOf 0x0B f).ctx 0).ms.pc.toNat ∧ (inRoutineOf 0x0C f).Issues 0 0x0C f 2)
    ∧ (let s := (inRoutineOf 0x0D 0).setCtx 0 { st := .ready, owner := some 0, ms := { pc := 0x8000, stack := [7] } };
      s.Issues 0 0x0D 0 2 ∧ (7 : BitVec 16).toNat < 0x8000) := by
  repeat' first | apply And.intro | apply issues_of | decide +kernel

theorem witness_MicroTables :
    (let s := inTask [] id;
      s.Issues 0 0x0E (fields 2 0 (immed 99)) 1 ∧ 99 < ((s.issued 0 1).site ((s.issued 0 1).owningSite 0)).length
        ∧ s.Issues 0 0x0E (fields 2 0 (immed 100)) 1 ∧ ((s.issued 0 1).site ((s.issued 0 1).owningSite 0)).length ≤ 100
        ∧ s.Issues 0 0x0F (fields 1 0 (immed 63)) 1 ∧ s.Issues 0 0x0F (fields 1 0 (immed (2 ^ 14 + 7))) 1
        ∧ s.Issues 0 0x0F (fields 1 0 (immed (2 * 2 ^ 14 + 6))) 1 ∧ s.Issues 0 0x0F (fields 1 0 (immed (3 * 2 ^ 14 + 255))) 1
        ∧ ((s.issued 0 1).site 0).thread.aux.any (·.1 = 255) = false ∧ s.Issues 0 0x0F (fields 1 0 (immed 64)) 1
        ∧ s.Issues 0 0x10 (fields 1 0 (immed 63)) 1 ∧ s.Issues 0 0x10 (fields 1 0 (immed (2 ^ 14 + 7))) 1
        ∧ s.Issues 0 0x10 (fields 1 0 (immed (3 * 2 ^ 14 + 255))) 1)
    ∧ (let s := (inTask [] id).modThread 0 fun t => { t with aux := [(255, 1)] };
      s.Issues 0 0x0F (fields 1 0 (immed (3 * 2 ^ 14 + 255))) 1 ∧ ((s.issued 0 1).site 0).thread.aux.any (·.1 = 255) = true)
    ∧ (let s := { inTask [] id with store := withRoutine.store };
      s.Issues 0 0x0F (fields 1 0 (immed (4 * 2 ^ 14 + 0))) 1 ∧ s.store.needsRepair (0x8000 / 2) = false
        ∧ ((s.issued 0 1).readStore (0x8000 / 2)).store.micro 0x8000 = some 0x80009000)
    ∧ (let s := { inTask [] id with store := {} };
      s.Issues 0 0x0F (fields 1 0 (immed (4 * 2 ^ 14 + 0))) 1 ∧ s.store.needsRepair (0x8000 / 2) = false)
    ∧ (let f := fields 1 0 (immed (3 * 2 ^ 14 + 255));
      (inRoutineOf 0x0F f).Issues 0 0x0F f 1 ∧ bits f 16 14 = 3 ∧ (inRoutineOf 0x10 f).Issues 0 0x10 f 1)
    ∧ (let f := fields 1 0 (immed (4 * 2 ^ 14 + 16383));
      (inRoutineOf 0x0F f).Issues 0 0x0F f 1 ∧ bits f 16 14 = 4 ∧ bits f 13 0 + (((inRoutineOf 0x0F f).ctx 0).ms.reg (fA f)).toNat % 65536 < 0x8000)
    ∧ (let s := inTask [256] id;
      s.Issues 0 0x0F (fields 1 0 (immed (3 * 2 ^ 14))) 1 ∧ spaceSize 3 ≤ bits (fields 1 0 (immed (3 * 2 ^ 14))) 13 0 + ((s.ctx 0).ms.reg 0).toNat % 65536
        ∧ s.Issues 0 0x10 (fields 1 0 (immed (2 * 2 ^ 14))) 1 ∧ s.Issues 0 0x10 (fields 1 0 (immed (2 ^ 14 + 8))) 1 ∧ spaceSize 1 ≤ 8) := by
  repeat' first | apply And.intro | apply issues_of | decide +kernel

theorem witness_MicroEmit :
    (let s := inTask [4096, 4096] id;
      s.Issues 0 0x11 (fields 0 0 1) 1 ∧ fImm (fields 0 0 1) = false ∧ (s.issued 0 1).queueRoom 0 = true ∧ (s.issued 0 1).stagingOk 0 = true
        ∧ (s.issued 0 1).owningSite 0 = 0 ∧ 8192 ≤ (s.issued 0 1).nreg (siteObj 0 1) 5
        ∧ s.Issues 0 0x11 (fields 1 0 0) 1 ∧ ((s.issued 0 1).site 0).thread.anyPattern = true
        ∧ s.Issues 0 0x11 (fields 3 0 0) 1 ∧ s.Issues 0 0x11 (fields 4 0 0) 1)
    ∧ (let s := inTask [0xFFFF, 31 * 2 ^ 6] id;
      s.Issues 0 0x11 (fields 2 0 1) 1 ∧ ((s.issued 0 1).sitePins 0)[0]? = some 0 ∧ bits ((s.ctx 0).ms.reg 1) 10 6 = 31
        ∧ bits ((s.ctx 0).ms.reg 1) 31 20 = 0 ∧ bit ((s.ctx 0).ms.reg 1) 11 = false)
    ∧ (let s := (inTask [63] id).setNat 0x3401 1 0;
      s.Issues 0 0x11 (fields 5 0 0) 1 ∧ (s.issued 0 1).setValid 0 63 = true)
    ∧ (let s := (inTask [1, 0] id).modSite 0 fun x => { x with queue := List.replicate 64 { kind := .tset 0, released := true } };
      (s.issued 0 1).queueRoom 0 = false ∧ s.Issues 0 0x11 (fields 0 0 1) 1 ∧ s.Issues 0 0x11 (fields 1 0 0) 1 ∧ s.Issues 0 0x11 (fields 3 0 0) 1)
    ∧ (let s := inTask [0, 0x100000] id;
      s.Issues 0 0x11 (fields 0 0 0) 1 ∧ s.Issues 0 0x11 (fields 1 0 0) 1 ∧ s.Issues 0 0x11 (fields 2 0 1) 1 ∧ bits ((s.ctx 0).ms.reg 1) 31 20 ≠ 0
        ∧ s.Issues 0 0x11 (fields 3 0 0) 1 ∧ s.Issues 0 0x11 (fields 4 0 0) 1 ∧ s.Issues 0 0x11 (fields 5 1 0) 1 ∧ 64 ≤ ((s.ctx 0).ms.reg 1).toNat) := by
  repeat' first | apply And.intro | apply issues_of | decide +kernel

theorem witness_MicroWaitsAndRequests :
    (let s := inTask [1] id;
      s.Issues 0 0x12 (fields 1 0 (immed 0)) 1 ∧ (s.issued 0 1).waitOwned 0 1 1 false = true ∧ ((s.issued 0 1).ctx 0).fault = none
        ∧ ((s.issued 0 1).ctx 0).orphan = none ∧ ((s.issued 0 1).ctx 0).task = true ∧ (s.issued 0 1).waitTrue 0 1 1 0 false = true
        ∧ s.Issues 0 0x12 (fields 0 0 (immed 1)) 1 ∧ (s.issued 0 1).waitTrue 0 0 1 0 false = false)
    ∧ (let s := inTask [1] fun x => { x with task := false, orphan := some 0 };
      (s.modThread 0 fun t => { t with custom := true }).Issues 0 0x12 (fields 1 0 (immed 0)) 1 ∧ ((s.issued 0 1).ctx 0).orphan.isSome = true
        ∧ (s.issued 0 1).waitOwned 0 1 1 false = true)
    ∧ (let s := inTask [1] id;
      s.Issues 0 0x12 (fields 6 0 (immed 0)) 1 ∧ (s.issued 0 1).waitOwned 0 6 1 false = false)
    ∧ (let f := fields 0 0 (immed 2048);
      (inRoutineOf 0x13 f).Issues 0 0x13 f 1 ∧ bit f 11 = true ∧ 0x8000 ≤ ((inRoutineOf 0x13 f).ctx 0).ms.pc.toNat)
    ∧ (let f := fields 0 0 (immed 3);
      (inRoutineOf 0x15 f).Issues 0 0x15 f 1 ∧ (((inRoutineOf 0x15 f).issued 0 1).ctx 0).customer = true
        ∧ (((inRoutineOf 0x15 f).ctx 0).ms.reg 0).toNat % 65536 < 0x8000)
    ∧ (let s := inTask [] fun x => { x with st := .waiting, wait := some { cond := 1, arg := 1, since := 0, deadline := none } };
      (s.ctx 0).wait.isSome = true ∧ s.waitTrue 0 1 1 0 true = true)
    ∧ (let s := inTask [] fun x => { x with st := .waiting, wait := some { cond := 0, arg := 0, since := 0, deadline := some 0 } };
      s.waitTrue (s.owningSite 0) 0 0 0 false = false ∧ 0 ≤ s.clk.frames)
    ∧ (let s := inTask [] id;
      s.Issues 0 0x13 (fields 0 0 (immed (2 ^ 11 + 2047))) 1 ∧ s.Issues 0 0x13 (fields 0 0 (immed 3)) 1 ∧ bits (fields 0 0 (immed 3)) 10 2 = 0
        ∧ s.Issues 0 0x14 (fields 0 0 (immed 255)) 1 ∧ s.Issues 0 0x14 (fields 1 0 (immed 0)) 1 ∧ s.Issues 0 0x14 (fields 2 0 (immed 0)) 1
        ∧ s.Issues 0 0x14 (fields 3 0 (immed 0)) 1 ∧ s.Issues 0 0x14 (fields 4 0 (immed 0)) 1 ∧ s.Issues 0 0x14 (fields 8 0 (immed 0)) 1
        ∧ s.Issues 0 0x15 (fields 1 0 (immed 0)) 1 ∧ ((s.issued 0 1).ctx 0).customer = false) := by
  repeat' first | apply And.intro | apply issues_of | decide +kernel
/-! ### The tick, the reference and runs -/

theorem witness_TickAdvancesTheClocks : atWork.mode ≠ .off ∧ atWork.start.resetLow = false
    ∧ ({ atWork with clk := { atWork.clk with beat := .holdover } } : State).clk.beat = .holdover
    ∧ ({ atWork with clk := { atWork.clk with ref := .present } } : State).clk.ref = .present ∧ atWork.convoy.newPhase = none
    ∧ (let k : Clocks := { c := 60, phase := 4 }; let x : Convoy := { newPhase := some 63 }; (k.c + k.phase) % 64 = 0 ∧ (∀ p, x.newPhase = some p → p < 64)) := by
  refine ⟨by decide +kernel, by decide +kernel, by decide +kernel, by decide +kernel, by decide +kernel, by decide +kernel, ?_⟩
  intro p h
  cases h
  decide

/-- The clocks of a state changed. -/
def ticking (f : Clocks → Clocks) : State := { State.reset with clk := f {} }

theorem witness_ReferenceLostAndFound :
    (State.reset.mode ≠ .off ∧ State.reset.clk.ref ≠ .present)
    ∧ (let s := ticking fun k => { k with ref := .present, beat := .locked }; s.mode ≠ .off ∧ s.clk.ref = .present ∧ s.clk.beat = .locked)
    ∧ (let s := ticking fun k => { k with ref := .present }; s.mode ≠ .off ∧ s.clk.ref = .present ∧ s.clk.beat = .unlocked)
    ∧ (let s := ticking fun k => { k with beat := .holdover, lostFor := 1250000 };
      s.clk.beat = .holdover ∧ 1250000 ≤ s.clk.lostFor ∧ s.clk.longHoldover = false)
    ∧ (let s := ticking fun k => { k with beat := .holdover, ref := .present, presentFor := 125000 };
      s.clk.beat = .holdover ∧ s.refSteady = true ∧ s.anyBusy = false) := by decide +kernel

theorem witness_RunsEndAndGoOn :
    (let s := inTask [] fun x => { x with stalled := true, fetch := [{ pair := 2, addr := 40, pc := 0 }] };
      ((s.ctx 0).fetch.zipIdx.find? fun e => s.serves 4 (256 * 0 + e.2) e.1.addr) = some ({ pair := 2, addr := 40, pc := 0 }, 0))
    ∧ ((inTask [] id).Issues 0 0x3F (fields 0 0 0) 1 ∧ (((inTask [] id).issued 0 1).ctx 0).task = true
      ∧ (((inTask [] id).issued 0 1).ctx 0).orphan = none ∧ bits (fields 0 0 0) 15 0 = 0)
    ∧ (let s := (inTask [] fun x => { x with task := false, orphan := some 0 }).modThread 0 fun t => { t with custom := true };
      s.Issues 0 0x3F (fields 0 0 0) 1 ∧ ((s.issued 0 1).ctx 0).orphan.isSome = true)
    ∧ (let s := inTask [] fun x => { x with task := false };
      (s.modThread 0 fun t => { t with custom := true }).Issues 0 0x3F (fields 4 0 0) 1 ∧ ((s.issued 0 1).ctx 0).task = false ∧ ((s.issued 0 1).ctx 0).orphan = none
        ∧ (s.modThread 0 fun t => { t with custom := true }).Issues 0 0x3F (fields 8 0 (immed 0xFFFF)) 1
        ∧ bit (fields 8 0 (immed 0xFFFF)) 25 = true ∧ bits (fields 8 0 (immed 0xFFFF)) 23 18 = 0 ∧ bit (fields 8 0 (immed 0xFFFF)) 16 = false
        ∧ (((s.modThread 0 fun t => { t with custom := true }).issued 0 1).ctx 0).barred (BitVec.ofNat 16 (bits (fields 8 0 (immed 0xFFFF)) 15 0)) = false)
    ∧ (let s := inTask [] fun x => { x with run := 512 }; s.mayIssue 0 = true ∧ s.inMicro 0 = true ∧ s.overLimit 0 = true)
    ∧ (let s := (inTask [] fun x => { x with task := false, orphan := some 0, run := 512, limit := 512 }).modThread 0 fun t => { t with custom := true };
      s.mayIssue 0 = true ∧ s.inMicro 0 = true ∧ s.overLimit 0 = true ∧ (s.ctx 0).orphan.isSome = true)
    ∧ ((inTask [] fun x => { x with st := .saving }).ctx 0).st = .saving := by
  repeat' first | apply And.intro | apply issues_of | decide +kernel

theorem witness_RestartRepairsAndRepeats :
    let s := { (inRoutine 0).setNat 0x2000 1 1 with store := { primary := [(0x4000, poisonWord {})] } }
    s.mayIssue 0 = true ∧ s.inMicro 0 = true ∧ s.repairs 0 = some 0x4000
      ∧ ((((((s.correctCopy true 0x4000).repairCopy false 0x4000).bump (0x4010 + 0) 7).passCycles 1).reportFault
        { resource := 0x80 + 0, level := 5, site := s.owningSite 0, source := 1547 }).discard (s.owningSite 0) 0).spareCtx 0 = some 1 := by
  decide +kernel
/-! ### Host commands -/

/-- A request of station 1 at level 4. -/
def host : Req := { sa := 1, src := 1, tid := 1, level := 4, dst := 2 }

/-- The engine in a mode, station 2 of a ring with both ports UP, level 4 agreed with station 1. -/
def served (m : DevMode) : State :=
  ((((({ State.reset with mode := m, ring := { started := true } } : State).setNat 0x1021 1 4).setNat 0x1010 1 2).setNat 0x1010 2 1).setNat
    (portObj 0) 1 2).setNat (portObj 1) 1 2

/-- In SERVICE with site 0 in a state. -/
def siteIn (f : Site → Site) : State := { served .service with sites := [(0, f {})] }

/-- Eight codewords, the first the header of an itinerary: BUDGET 100, LENGTH 2. -/
def headerLine : List Codeword := encodeWord (BitVec.ofNat 64 (0xFE01 * 2 ^ 48 + 100 * 2 ^ 32 + 2)) :: List.replicate 7 (encodeWord 0)

/-- Site 0 FREE with pin 0, one vector, and that itinerary at address 0, its entry at word 1. -/
def loadable : State :=
  ((((({ served .service with chans := [(0, { rows := [(0, 1)] })] } : State).setNat 0x3401 1 1).setNat 0x3401 3 1).setNat 0x3401 5 1).setNat 0x9000 8 65536).writeLine 0 1 255 headerLine

theorem loadable_line : loadable.tryLine 0 0 = .good headerLine 0 :=
  State.tryLine_writeLine (by decide +kernel) (by decide +kernel) (by decide +kernel) (by decide +kernel)

/-- The word that LOAD reads there. -/
def loadRead : Codeword × State := (loadable.taken host).readWord 0

theorem loadable_header : loadRead.1 = encodeWord (BitVec.ofNat 64 (0xFE01 * 2 ^ 48 + 100 * 2 ^ 32 + 2)) ∧ loadRead.2 = (loadable.taken host).touch 0 := by
  have kept : Keeps (· ≠ .memory) loadable (loadable.taken host) := by
    unfold State.taken State.queuedOne
    exact State.bump_keeps (State.peak_keeps (State.arrives_keeps (by simp) (by simp) Keeps.refl))
  have same : SameSeals loadable (loadable.taken host) :=
    ⟨kept.parts .memory (by simp), by decide +kernel, by decide +kernel, by decide +kernel, by decide +kernel⟩
  have h := (same.tryLine 0 0).trans loadable_line
  have r := State.readWord_good (s := loadable.taken host) (addr := 0) (ws := headerLine) (by decide +kernel) (by decide +kernel) h
  unfold loadRead
  rw [r]
  exact ⟨by decide +kernel, rfl⟩

theorem witness_SiteCommands :
    (loadable.Writes host (siteObj 0 0) 2 ∧ ((loadable.taken host).site 0).st = .free ∧ (loadable.taken host).nreg (siteObj 0 1) 2 = 0
      ∧ loadRead.2.header 0 loadRead.1 = some (100, 2)
      ∧ loadRead.2.pinMap 0 ≠ 0 ∧ loadRead.2.mapFree 0 = true ∧ loadRead.2.nreg (siteObj 0 1) 5 ≠ 0
      ∧ loadRead.2.spans 0 = false)
    ∧ (let u := (siteIn fun x => { x with st := .loaded }).taken host;
      (siteIn fun x => { x with st := .loaded }).Writes host (siteObj 0 0) 2 ∧ (u.site 0).st = .loaded ∧ u.start.sleepAsked = none
        ∧ u.serialArm 0 u.admittedSites = 0 ∧ u.calibrating 0 = false ∧ u.reg 0xA100 5 ≠ 1 ∧ u.spans 0 = false ∧ u.store.cust ≠ .opened
        ∧ u.store.cust ≠ .closing ∧ u.admission 0 = .inl 0)
    ∧ (let s := siteIn fun x => { x with st := .ready };
      s.Writes host (siteObj 0 0) 2 ∧ ((s.taken host).site 0).st = .ready ∧ (s.taken host).spans 0 = false)
    ∧ (let s := siteIn fun x => { x with st := .running };
      s.Writes host (siteObj 0 0) 2 ∧ ((s.taken host).site 0).st.live = true ∧ ((s.taken host).site 0).sealing = false)
    ∧ (let s := siteIn fun x => { x with st := .halted };
      s.Writes host (siteObj 0 0) 2 ∧ ((s.taken host).site 0).st = .halted ∧ ((s.taken host).site 0).playout = false)
    ∧ (let s := siteIn fun x => { x with st := .sealed, playout := true };
      s.Writes host (siteObj 0 0) 2 ∧ ((s.taken host).site 0).st = .sealed ∧ ((s.taken host).site 0).playout = true)
    ∧ ((siteIn id).Writes host (siteObj 0 0) 2 ∧ (((siteIn id).taken host).site 0).st = .free) := by
  rw [loadable_header.1, loadable_header.2]
  repeat' first | apply And.intro | apply writes_of | apply carries_of | decide +kernel

theorem witness_SiteCommandsRefused :
    (let s := (siteIn id).setNat 0x3401 2 64;
      s.Writes host (siteObj 0 0) 2 ∧ ((s.taken host).site 0).st = .free
        ∧ (((s.taken host).readWord ((s.taken host).nreg (siteObj 0 1) 2)).2.header 0 ((s.taken host).readWord ((s.taken host).nreg (siteObj 0 1) 2)).1) = none)
    ∧ (let s := loadable.setNat 0x3401 1 0; s.Writes host (siteObj 0 0) 2 ∧ (s.taken host).pinMap 0 = 0)
    ∧ (let s := { siteIn fun x => { x with st := .loaded } with start := { sleepAsked := some 0 } };
      s.Writes host (siteObj 0 0) 2 ∧ ((s.taken host).site 0).st = .loaded ∧ (s.taken host).start.sleepAsked = some 0)
    ∧ (let s := (siteIn fun x => { x with st := .loaded }).setNat 0xA100 5 1;
      s.Writes host (siteObj 0 0) 2 ∧ (s.taken host).serialArm 0 (s.taken host).admittedSites ≠ 0x0301 ∧ (s.taken host).reg 0xA100 5 = 1)
    ∧ (let s := { siteIn fun x => { x with st := .loaded } with store := { cust := .closing } };
      let u := s.taken host;
      s.Writes host (siteObj 0 0) 2 ∧ u.serialArm 0 u.admittedSites = 0 ∧ u.calibrating 0 = false ∧ u.reg 0xA100 5 ≠ 1 ∧ u.spans 0 = false
        ∧ u.store.cust = .closing)
    ∧ (let s := (siteIn fun x => { x with st := .loaded }).setNat 0x3401 7 65535;
      s.Writes host (siteObj 0 0) 2 ∧ (s.taken host).admission 0 = .inr 1 ∧ (s.taken host).store.cust = .empty)
    ∧ (let s := ((siteIn fun x => { x with st := .ready }).setNat 0x3401 6 3).setNat 0xA100 7 3;
      s.Writes host (siteObj 0 0) 2 ∧ ((s.taken host).site 0).st = .ready ∧ (s.taken host).spans 0 = true ∧ (s.taken host).reg 0xA100 5 ≠ 2)
    ∧ (let s := siteIn fun x => { x with st := .running };
      s.Writes host (siteObj 0 0) 2 ∧ ((s.taken host).site 0).st ≠ .ready ∧ ((s.taken host).site 0).st ≠ .halted ∧ ((s.taken host).site 0).st ≠ .faulted
        ∧ ((s.taken host).site 0).st ≠ .sealed ∧ ((s.taken host).site 0).st.live = true) := by
  repeat' first | apply And.intro | apply writes_of | apply carries_of | decide +kernel

/-- The table of the customer half, every entry invalid and 0. -/
def emptyTable : Store := { primary := (List.range 32).map fun n => (0x4000 + n, encodeWord 0) }

theorem witness_UnitCommands :
    ((served .service).Writes host 0x4000 4 ∧ ((served .service).taken host).store.cust = .empty
      ∧ ((served .service).taken host).anyBusy = false)
    ∧ (let s := { served .service with store := { emptyTable with cust := .opened } };
      s.Writes host 0x4000 4 ∧ (s.taken host).store.cust = .opened ∧ (List.range 32).all (s.taken host).store.entryOk = true)
    ∧ (served .service).Writes host (pinObj 63 5) 1
    ∧ (served .service).Writes host (tuObj 15) 2
    ∧ (let s := { (served .service).setNat 0x2100 4 1 with caps := [(0, { st := .capturing, phase := .pre, preFrom := 5, next := 6 })] };
      s.Writes host (capStat 0) 11 ∧ (s.taken host).reg 0x2100 4 = 1 ∧ ((s.taken host).cap 0).st ≠ .idle
        ∧ ((s.taken host).cap 0).phase = .pre ∧ ((s.taken host).cap 0).preFrom ≤ 5 ∧ 5 < ((s.taken host).cap 0).next
        ∧ ((s.taken host).cap 0).next - 1 - 5 ≤ (s.taken host).nreg (capObj 0) 11) := by
  repeat' first | apply And.intro | apply writes_of | apply carries_of | decide +kernel
theorem witness_LinkCommands :
    ((served .service).Writes host 0xA000 17 ∧ ((served .service).taken host).anyBusy = false)
    ∧ (let s := { (served .service).setNat 0xA000 3 3 with
        sl := { choiceBy := some 0 }, handler := { current := some { resource := 3, level := 3 } } };
      s.Writes host 0xA000 15 ∧ (s.taken host).sl.choiceBy = some 0 ∧ (s.taken host).clk.frames ≤ 0
        ∧ 16 ≤ hwWidth ((s.taken host).nreg 0xA000 3) (s.taken host).rxFailed
        ∧ (s.taken host).handler.current = some { resource := 3, level := 3 })
    ∧ (let s := (served .service).setNat 0xA100 1 1;
      s.Writes host 0xA100 3 ∧ (s.taken host).reg 0xA100 1 = 1 ∧ (s.taken host).alignBusy = false) := by
  repeat' first | apply And.intro | apply writes_of | apply carries_of | decide +kernel

theorem witness_StartRequests :
    ((served .service).Writes host 0x2001 1 ∧ ((served .service).taken host).mode = .service
      ∧ ((served .service).taken host).idle = true
      ∧ (((served .service).taken host).answered host (writeAsk 0x2001 1) { after := 3 }).start.sleepAsked = none)
    ∧ ((served .warmStart).Writes host 0x2001 1 ∧ ((served .warmStart).taken host).mode = .warmStart)
    ∧ ((served .coldStart).Writes host 0x2001 1 ∧ ((served .coldStart).taken host).mode = .coldStart)
    ∧ ((served .sleep).Writes host 0x2001 1 ∧ ((served .sleep).taken host).mode = .sleep
      ∧ (((served .sleep).taken host).answered host (writeAsk 0x2001 1) { after := 4 }).start.wakeStep = 0) := by
  repeat' first | apply And.intro | apply writes_of | apply carries_of | decide +kernel

/-- In SERVICE with the host steering network time. -/
def steered : State := (served .service).setNat 0x2100 3 1

theorem witness_TimeAndCalibrationCommands :
    (steered.Writes host 0x8010 2 ∧ (steered.taken host).reg 0x2100 3 ≠ 0 ∧ (steered.taken host).hostServoClosed = false
      ∧ (-(2 ^ 63) : Int) < 2 ^ 63)
    ∧ (steered.Writes host 0x8010 3 ∧ (2 ^ 63 - 1 : Int) > rateMax)
    ∧ (let s := (served .service).setNat 0x8001 1 2;
      let q : Ask := { service := 3, index := 0x8001, sub := 14 };
      s.Carries host q ∧ (s.taken host).transferOn 0x8001 14 = none ∧ (s.taken host).uploadOn 0x8001 14 = none ∧ (s.taken host).openCount < 8
        ∧ (s.taken host).reg 0x8001 1 = 2 ∧ (999999999 : Nat) % 2 ^ 32 < 1000000000)
    ∧ (let s := (served .service).setNat 0xB002 2 1;
      s.Writes host 0xB002 1 ∧ (s.taken host).cal.domain = none ∧ (s.taken host).inService = true ∧ (s.taken host).nreg 0xB002 2 ≠ 0
        ∧ (setBits 64 ((s.taken host).nreg 0xB002 3)).any (s.taken host).pinBusy = false)
    ∧ (let s := { served .service with cal := { domain := some 0 } };
      s.Writes host 0xB002 1 ∧ (s.taken host).cal.domain ≠ none) := by
  repeat' first | apply And.intro | apply writes_of | apply carries_of | decide +kernel

/-- In SERVICE with window 31 over the last 64 bytes of 64 KiB, in a state. -/
def windowed (st : Nat) : State :=
  ((((served .service).setNat 0x9000 8 65536).setNat 0xC03F 1 (65536 - 64)).setNat 0xC03F 2 64).setNat 0xC03F 4 st

theorem witness_PassportFaultAndEventCommands :
    (served .service).Writes host 0xC002 5
    ∧ ((windowed 0).Writes host 0xC03F 3 ∧ ((windowed 0).taken host).reg 0xC03F 4 = 0
      ∧ ((windowed 0).taken host).windowMeets 31 (((windowed 0).taken host).nreg 0xC03F 1) (((windowed 0).taken host).nreg 0xC03F 2) = false
      ∧ ((windowed 0).taken host).nreg 0xC03F 1 + ((windowed 0).taken host).nreg 0xC03F 2 ≤ ((windowed 0).taken host).memCapacity)
    ∧ ((windowed 2).Writes host 0xC03F 3 ∧ ((windowed 2).taken host).reg 0xC03F 4 = 2 ∧ ((windowed 2).taken host).reg 0xC03F 7 = 0)
    ∧ ((windowed 1).Writes host 0xC03F 3 ∧ ((windowed 1).taken host).reg 0xC03F 4 = 1)
    ∧ ((served .service).Writes host 0xC010 3
      ∧ ((served .service).taken host).nreg 0xC010 1 + 1 - ((served .service).taken host).nreg 0xC010 2 ≤ 255)
    ∧ (let s := { served .service with handler := { offered := some 0, current := some { resource := 3, level := 3 } } };
      s.Writes host 0xD201 4 ∧ (s.taken host).offeredFault = some { resource := 3, level := 3 } ∧ (s.taken host).clk.frames ≤ 0
        ∧ (allowedLevels { resource := 3, level := 3 }).contains 3 = true)
    ∧ (let s := (served .service).setNat 0xD010 1 1535;
      s.Writes host 0xD010 6 ∧ s.nreg 0xD010 1 = 1535 ∧ (s.taken host).nreg 0xD010 1 = 1535 ∧ userSource 1535 = true)
    ∧ (served .service).Writes host 0xD100 6 := by
  repeat' first | apply And.intro | apply writes_of | apply carries_of | decide +kernel
theorem witness_ReadsAndWrites :
    ((served .service).Carries host { service := 1, index := 0x1000, sub := 1 } ∧ readRight 0x1000 1 = 0
      ∧ ((served .service).taken host).valueLength 0x1000 1 ≤ 4096)
    ∧ ((served .service).Carries host { service := 1, index := 0xFFFF, sub := 1 } ∧ readRight 0xFFFF 1 ≠ 0)
    ∧ (served .service).Writes host 0x7400 1
    ∧ ((served .service).Writes host 0x3401 1 ∧ writeRight 0x3401 1 = 0 ∧ (List.replicate 8 (0 : Byte)).length ≤ 8)
    ∧ ((served .service).Writes host 0x1001 1 ∧ writeRight 0x1001 1 ≠ 0)
    ∧ (8 < (List.replicate 9 (0 : Byte)).length)
    ∧ (let s := { served .service with rosec := { uploads := [{ index := 0x3401, sub := 1, sa := 2, data := [0] }] } };
      s.Carries host { service := 1, index := 0x3401, sub := 1 } ∧ readRight 0x3401 1 = 0 ∧ (s.taken host).snapshotOf 1 0x3401 1 = true
        ∧ s.Carries host (writeAsk 0x3401 1) ∧ writeRight 0x3401 1 = 0) := by
  repeat' first | apply And.intro | apply writes_of | apply carries_of | decide +kernel

/-- In SERVICE with a transfer of 3 of 4 bytes to SERIAL_CFG of site 0 open, begun by a station. -/
def halfWritten (sa : Nat) : State :=
  { served .service with rosec := { transfers := [{ index := 0x3402, sub := 3, sa := sa, total := 4, data := [1, 2, 3] }] } }

theorem witness_SegmentedTransfers :
    (let q : Ask := { service := 3, index := 0x3402, sub := 3 };
      let s := served .service;
      writeRight 0x3402 3 = 0 ∧ s.Carries host q ∧ (s.taken host).transferOn 0x3402 3 = none ∧ (s.taken host).uploadOn 0x3402 3 = none
        ∧ (s.taken host).openCount < 8 ∧ lengthStatus (domainLimit ((s.taken host).levelOf 1)) 0x3402 3 48 = 0)
    ∧ (let q : Ask := { service := 3, index := 0x3402, sub := 3 };
      (halfWritten 2).Carries host q ∧ (((halfWritten 2).taken host).transferOn 0x3402 3).map (·.sa) = some 2)
    ∧ (let q : Ask := { service := 3, index := 0x3402, sub := 3, offset := 3 };
      (halfWritten 1).Carries host q ∧ ((halfWritten 1).taken host).transferOn 0x3402 3
        = some { index := 0x3402, sub := 3, sa := 1, total := 4, data := [1, 2, 3] }
        ∧ segmentOrder 3 3 4 1 true = false ∧ lengthStatus (domainLimit (((halfWritten 1).taken host).levelOf 1)) 0x3402 3 4 ≠ 0
        ∧ segmentOrder 3 3 4 0 false = false ∧ 3 + 0 < 4 ∧ lengthStatus (domainLimit (((halfWritten 1).taken host).levelOf 1)) 0x3402 3 48 = 0)
    ∧ (let r := { host with offset := 3 };
      let q : Ask := { service := 3, index := 0x3402, sub := 3, offset := 3 };
      (halfWritten 1).Carries r q ∧ (((halfWritten 1).taken r).transferOn 0x3402 3).map (·.sa) = some r.sa)
    ∧ (let q : Ask := { service := 3, index := 0x1001, sub := 1, upload := true };
      let s := { served .service with rosec := { uploads := [{ index := 0x1001, sub := 1, sa := 2, data := [0] }] } };
      s.Carries host q ∧ ((s.taken host).uploadOn 0x1001 1).map (·.sa) = some 2)
    ∧ (let q : Ask := { service := 3, index := 0x1001, sub := 1, upload := true };
      let s := served .service;
      readRight 0x1001 1 = 0 ∧ s.Carries host q ∧ (s.taken host).transferOn 0x1001 1 = none ∧ (s.taken host).uploadOn 0x1001 1 = none)
    ∧ (let q : Ask := { service := 3, index := 0x1001, sub := 1, upload := true };
      let s := { served .service with rosec := { uploads := [{ index := 0x1001, sub := 1, sa := 1, data := [0] }] } };
      s.Carries host q ∧ (s.taken host).transferOn 0x1001 1 = none
        ∧ (s.taken host).uploadOn 0x1001 1 = some { index := 0x1001, sub := 1, sa := 1, data := [0] })
    ∧ ((served .service).Carries host { service := 3, index := 0xB010, sub := 1, upload := true }
      ∧ ((served .service).taken host).uploadOn 0xB010 1 = none ∧ ((served .service).taken host).openCount < 8) := by
  repeat' first | apply And.intro | apply writes_of | apply carries_of | decide +kernel

theorem witness_SubscriptionsAndLevels :
    (let s := served .service;
      readRight 0x2000 1 = 0 ∧ s.Carries host { service := 4, index := 0x2000, sub := 1 } ∧ shortestPeriod ((s.taken host).levelOf 1) ≤ 16777215
        ∧ (s.taken host).valueLength 0x2000 1 ≤ 4096 ∧ (s.taken host).rosec.subs.length < 64
        ∧ (s.taken host).rosec.subs.any (fun x => x.src == 1 && x.index == 0x2000 && x.sub == 1) = false)
    ∧ (let s := { served .service with rosec := { subs := [{ src := 1, index := 0x2000, sub := 1, period := 1250, due := 0 }] } };
      s.Carries host { service := 4, index := 0x2000, sub := 1 }
        ∧ (s.taken host).rosec.subs.any (fun x => x.src == 1 && x.index == 0x2000 && x.sub == 1) = true)
    ∧ ((served .service).Carries host { service := 6 } ∧ host.src ≠ 0 ∧ host.src ≤ 254)
    ∧ (served .service).Carries host { service := 7 } := by
  repeat' first | apply And.intro | apply writes_of | apply carries_of | decide +kernel

/-- Step 5 of a cold start, with level 4 agreed with station 1. -/
def stepFive : State := { served .coldStart with start := { step := 5 } }

/-- In SERVICE with host-assisted calibration, step 0 of TIMING on pin 0 waiting for coefficients. -/
def awaited : State := { (served .service).setNat 0x2100 2 1 with cal := { domain := some 0, pins := 1, waitFrom := some 0 } }

theorem witness_WholeValuesWritten :
    (let b : List Byte := beBytes 4 0x564D4331 ++ List.replicate 8 0 ++ beBytes 4 32768 ++ List.replicate 144 0;
      stepFive.Carries host { service := 3, index := 0x4001, sub := 1 } ∧ (stepFive.taken host).openCount < 8
        ∧ (stepFive.taken host).transferOn 0x4001 1 = none ∧ (stepFive.taken host).uploadOn 0x4001 1 = none ∧ b.length = 160
        ∧ (stepFive.taken host).mode = .coldStart ∧ (stepFive.taken host).start.step = 5 ∧ field b 10 11 = 0 ∧ field b 0 3 = 0x564D4331
        ∧ field b 12 15 = 32768)
    ∧ (stepFive.Carries host { service := 3, index := 0x9002, sub := 8 } ∧ (stepFive.taken host).transferOn 0x9002 8 = none
      ∧ (stepFive.taken host).uploadOn 0x9002 8 = none)
    ∧ (stepFive.Carries host { service := 3, index := 0xB010, sub := 1 } ∧ (stepFive.taken host).transferOn 0xB010 1 = none
      ∧ 1048576 ≤ domainLimit ((stepFive.taken host).levelOf 1))
    ∧ (let x : CalRec := { domain := 0, unitNo := 0, quantity := 0, run := 1, retry := 0, value := -1 };
      let q := ((awaited.taken host).openStep.map fun e => e.2.2).getD [];
      awaited.Carries host { service := 3, index := 0xB040, sub := 2 } ∧ (awaited.taken host).transferOn 0xB040 2 = none
        ∧ (awaited.taken host).uploadOn 0xB040 2 = none ∧ (awaited.taken host).reg 0x2100 2 ≠ 0 ∧ (awaited.taken host).openStep = some (0, 0, q)
        ∧ (awaited.taken host).cal.waitFrom = some 0 ∧ q.contains 0 = true ∧ calRecords 1 ([x].flatMap coeffBytes) = [x]) := by
  repeat' first | apply And.intro | apply writes_of | apply carries_of | decide +kernel

theorem witness_RequestsTurnedAway :
    State.responds { State.reset with mode := .off } = false
    ∧ ((served .service).responds = true ∧ ((served .service).arrives { host with dst := 3 }).1 = false)
    ∧ ((served .service).responds = true ∧ ((served .service).arrives { host with ahead := 64 }).1 = true
      ∧ ((served .service).arrives { host with ahead := 64 }).2.queueLimit ≤ ({ host with ahead := 64 } : Req).ahead)
    ∧ (let r := { host with ahead := 63 };
      let k : Kept := { sa := 1, stamp := 0, reply := (served .service).replyTo r { service := 1, index := 0x1000, sub := 1 } {} };
      let s := { served .service with rosec := { kept := [k] } };
      s.responds = true ∧ (s.arrives r).1 = true ∧ r.ahead < (s.arrives r).2.queueLimit ∧ (s.queuedOne r).keptFor r { service := 1, index := 0x1000, sub := 1 } = some k)
    ∧ ((served .service).keptFor host { service := 1, index := 0x1000, sub := 1 } = none
      ∧ ((served .sleep).queuedOne host).gate host { service := 1, index := 0x3400, sub := 1 } ≠ 0) := by
  decide +kernel

theorem witness_IdentityReadsInEveryState :
    (let rd : Ask := { service := 1, index := 0x1001, sub := 1 };
      let s := served .sleep;
      let t := served .safeHalt;
      s.responds = true ∧ (s.arrives host).1 = true ∧ host.ahead < (s.arrives host).2.queueLimit ∧ (s.queuedOne host).keptFor host rd = none ∧ host.badHeader = false
        ∧ (s.queuedOne host).levelOk host rd = true ∧ t.responds = true ∧ (t.queuedOne host).levelOk host rd = true)
    ∧ (served .service).Writes host 0x1001 1 := by
  repeat' first | apply And.intro | apply writes_of | apply carries_of | decide +kernel
/-! ### Waiting sites, the vector path and tasks -/

/-- Frame 1, with site 0 in a state. -/
def siteAt (f : Site → Site) : State :=
  { State.reset with mode := .service, clk := { frames := 1, beat := .locked }, sites := [(0, f {})] }

theorem witness_WaitsEnd :
    (let s := siteAt fun x => { x with st := .ready, startAsked := true, runs := [{ kind := .hold 320000 }] };
      (s.site 0).st = .ready ∧ (s.site 0).startAsked = true ∧ s.nreg (siteObj 0 0) 3 = 0 ∧ s.frameHeld 0 0 = true ∧ s.spans 0 = false)
    ∧ (let s := siteAt fun x => { x with st := .waiting, drain := some { kind := .jfail true 1 0 false } };
      (s.site 0).drain = some { kind := .jfail true 1 0 false } ∧ (s.site 0).st = .waiting ∧ 0 < s.clk.frames ∧ s.drained 0 = true)
    ∧ (let s := siteAt fun x => { x with st := .waiting, drain := some { kind := .seal 0 false } };
      (s.site 0).drain = some { kind := .seal 0 false } ∧ s.drained 0 = true)
    ∧ (let s := siteAt fun x => { x with st := .waiting, drain := some { kind := .halt } };
      (s.site 0).drain = some { kind := .halt } ∧ s.drained 0 = true)
    ∧ (let s := siteAt fun x => { x with
        st := .waiting, drain := some { kind := .match }, mtch := some { first := 0, len := 1, iters := 1 }, runs := [{ kind := .block 0 1, done := 1 }] };
      (s.site 0).matching = true ∧ s.matchFound 0 = true)
    ∧ (let s := siteAt fun x => { x with
        st := .waiting, drain := some { kind := .match }, mtch := some { first := 0, len := 1, timeout := 1, firstTick := some 0 } };
      (s.site 0).matching = true ∧ s.matchFound 0 = false ∧ s.matchExpired 0 = true)
    ∧ (let y : SyncRun := { id := 0, comb := false, vote := 0, timeout := 1 };
      let s := siteAt fun x => { x with st := .waiting, drain := some { kind := .sync }, sync := some y };
      (s.site 0).syncing = some y ∧ (s.site 0).drain = some { kind := .sync } ∧ 0 < s.clk.frames ∧ s.drained 0 = true)
    ∧ (let y : SyncRun := { id := 0, comb := false, vote := 0, timeout := 1, posted := some 0, latest := some (0, true) };
      let s := { siteAt (fun x => { x with st := .waiting, drain := some { kind := .sync }, sync := some y }) with clk := { frames := 3 } };
      (s.site 0).syncing = some y ∧ s.agreement 0 = some (3, true) ∧ 3 ≤ s.clk.frames)
    ∧ (let y : SyncRun := { id := 0, comb := false, vote := 0, timeout := 1, posted := some 0 };
      let s := siteAt fun x => { x with st := .waiting, drain := some { kind := .sync }, sync := some y };
      (s.site 0).syncing = some y ∧ 0 + y.timeout ≤ s.clk.frames ∧ s.agreed 0 = false)
    ∧ (let s := siteAt fun x => { x with st := .waiting, runs := [{ kind := .barrier 1 }], play := { tu := 320000 } };
      (s.site 0).runs = [{ kind := .barrier 1 }] ∧ (s.site 0).st = .waiting ∧ 1 ≤ s.clk.frames
        ∧ (s.site 0).f0 + ((s.site 0).play.tu + 319999) / 320000 ≤ s.clk.frames)
    ∧ (let s := siteAt fun x => { x with st := .waiting, drain := some { kind := .seal 1 true, decided := some 0 } };
      (s.site 0).drain = some { kind := .seal 1 true, decided := some 0 } ∧ 0 + 1 ≤ s.clk.frames)
    ∧ (let s := siteAt fun x => { x with playout := true };
      (s.site 0).playout = true ∧ (s.site 0).runs = [] ∧ (s.site 0).queue = [] ∧ (s.site 0).play.lastEnd ≤ s.frameEnd 0) := by
  repeat' first | apply And.intro | decide +kernel

theorem witness_VectorPathMoves :
    (let s := siteAt fun x => { x with st := .running, queue := [{ kind := .tset 5, released := true }, { kind := .repeat 1 }] };
      (s.site 0).queue = [{ kind := .tset 5, released := true }, { kind := .repeat 1 }] ∧ (s.site 0).runCount < 256
        ∧ s.wordsFull 0 (.tset 5) = false ∧ ({ kind := .tset 5, released := true } : Desc).counts = true)
    ∧ (let s := (siteAt fun x => { x with st := .running, runs := [{ kind := .stream 0 4096 }] }).setNat 0x3401 1 1;
      ((firstSource s.sources).map fun o => (o.feed, (s.runReady o.site).map (·.serial))) = some (none, some 0))
    ∧ (let s := { (siteAt fun x => { x with st := .running }).setNat 0x3401 1 1 with
        pins := [(0, { feeds := [{ no := 1, cfg := 0, base := 0, words := 64, loop := true }] })] };
      ((firstSource s.sources).map fun o => (o.feed, ((s.pin 0).feedOf 1).isSome)) = some (some (0, 1), true))
    ∧ (let s := { siteAt id with reads := [{ who := .run 0 0, line := 0, addr := 0 }] };
      s.reads[0]? = some { who := .run 0 0, line := 0, addr := 0 } ∧ s.serves (MemRead.cls { who := .run 0 0, line := 0, addr := 0 }) 0 0 = true)
    ∧ (let f (k : DescKind) : State := siteAt fun x => { x with
        st := .running, play := { period := 5000, tu := 639999 }, block := [], runs := [{ kind := k, done := 1 }] };
      ∀ k ∈ [DescKind.repeat 2, .hold 1, .literal 0 0 0 2 0], ((f k).site 0).playing = true ∧ ((f k).site 0).play.tu < (f k).frameEnd 0
        ∧ ((f k).site 0).runs = [{ kind := k, done := 1 }] ∧ flipResult ({ kind := k, done := 1 } : Run).flip ≠ 2)
    ∧ (let s := (siteAt fun x => { x with st := .running, play := { period := 5000 }, runs := [{ kind := .stream 0 1, delivered := 8 }] });
      (s.site 0).playing = true ∧ ∀ r ∈ (s.site 0).runs, r.done < r.held (s.pinCount 0) 0 1)
    ∧ (let s := siteAt fun x => { x with st := .running, play := { starvedFrom := some 0 }, runs := [{ kind := .hold 1000000 }] };
      (s.site 0).play.starvedFrom = some 0 ∧ 0 ≤ s.tickTu 0 ∧ s.frameHeld 0 (s.tickTu 0) = true ∧ (s.site 0).st.live = true) := by
  repeat' first | apply And.intro | decide +kernel

theorem witness_TasksArePlaced :
    (let s := { siteAt (fun x => { x with st := .running, home := some 3 }) with ledger := [(0, { state := .ready, kind := .thread }), (1, { state := .ready, kind := .thread, site := 1 })] };
      s.mode ≠ .sleep ∧ s.mode ≠ .safeHalt ∧ s.mode ≠ .off
        ∧ (s.readyList.findSome? fun i => (s.engineFor i).map fun e => (i, e)) = some (0, 3) ∧ ((s.readEntry 0).entry 0).state = .ready)
    ∧ (let s := { siteAt id with caravans := [(255, { stalled := 1024 })] };
      1024 ≤ (s.caravan 255).stalled ∧ (s.caravan 255).stallRaised = false)
    ∧ ({ siteAt id with store := { cust := .closing } } : State).store.cust = .closing := by
  repeat' first | apply And.intro | decide +kernel
/-! ### Serial pins, comparators, acquisition and measurement -/

/-- A configuration of slot 0 with UI 500, a TX_SRC and an RX_MODE. -/
def cfgBytes (src rx : Nat) : List Byte :=
  beBytes 8 1 ++ beBytes 4 (500 * 65536) ++ beBytes 1 src ++ beBytes 1 7 ++ beBytes 1 rx ++ List.replicate 33 0

/-- Frame 1 of site 0, RUNNING with pin 0 and configuration 0; the pin changed. -/
def serialPin (src rx : Nat) (f : Pin → Pin) : State :=
  { ((siteAt fun x => { x with st := .running }).setNat 0x3401 1 1).setOct 0x3402 3 (cfgBytes src rx) with pins := [(0, f {})] }

/-- Site 0 with its pins out of PARK from the start. -/
def released (s : State) : State := s.modSite 0 fun x => { x with play := { x.play with parkLog := [(0, false)] } }

theorem witness_SerialSessions :
    (let s := serialPin 1 1 fun q => { q with awaiting := some 0, sessionAt := some 0 };
      s.pinSite 0 = some 0 ∧ (s.pin 0).awaiting = some 0 ∧ (s.pin 0).sessionAt = some 0)
    ∧ (let x : Serial := { cfg := 0, exitAt := some 319999 };
      let s := serialPin 1 1 fun q => { q with serial := some x };
      (s.pin 0).serial = some x ∧ s.pinSite 0 = some 0 ∧ 319999 < s.frameEnd 0)
    ∧ (let x : Serial := { cfg := 0, rx := .acquiring, lockBy := some 639999 };
      let s := serialPin 1 1 fun q => { q with serial := some x };
      (s.pin 0).serial = some x ∧ x.rx = .acquiring ∧ x.lockBy = some 639999 ∧ s.pinSite 0 = some 0 ∧ 639999 < s.frameEnd 0)
    ∧ (let x : Serial := { cfg := 0, rx := .locked };
      let s := serialPin 1 1 fun q => { q with serial := some x };
      let u := (((s.modPin 0 fun q => { q with serial := some x.resync }).bump 0x6018 4).raise 1613).failNow 0 63;
      (s.pin 0).serial = some x ∧ x.rx = .locked ∧ u.pinSite 0 = some 0 ∧ (u.cap 0).st = .idle)
    ∧ (let x : Serial := { cfg := 0, rx := .locked };
      let s := { (serialPin 1 1 fun q => { q with serial := some x }).setNat (capObj 0) 1 1 with caps := [(0, { st := .capturing })] };
      let u := (((s.modPin 0 fun q => { q with serial := some x.resync }).bump 0x6018 4).raise 1613).failNow 0 63;
      u.pinSite 0 = some 0 ∧ (u.cap 0).st ≠ .idle ∧ u.reg (capObj 0) 1 = 1 ∧ (u.sitePins 0)[u.nreg (capObj 0) 3]? = some 0)
    ∧ (let s := released (serialPin 3 0 fun q => { q with serial := some { cfg := 0 } });
      ((s.serialCfg 0 0).map fun g => g.src) = some 3 ∧ (s.pin 0).feedOf 0 = none ∧ bitStart 0 (500 * 65536) 0 + 1 ≤ s.frameEnd 0 ∧ s.parkedPin 0 0 = false)
    ∧ (let s := released (serialPin 4 0 fun q => { q with serial := some { cfg := 0, slots := 1 } });
      ((s.serialCfg 0 0).map fun g => g.src) = some 4 ∧ bitStart 0 (500 * 65536) 32 + 1 ≤ s.frameEnd 0 ∧ s.parkedPin 0 (bitStart 0 (500 * 65536) 32) = false)
    ∧ (let s := released (serialPin 1 3 fun q => { q with serial := some { cfg := 0, rx := .locked, exitAt := some 640000 } });
      ((s.serialCfg 0 0).map fun g => g.rx) = some 3
        ∧ s.parkedPin 0 (bitInstant ((s.clk.frames - (s.site 0).f0) * 320000 + 63 * 5000) 4999 (500 * 65536)) = false
        ∧ (s.clk.frames - (s.site 0).f0) * 320000 + 63 * 5000 + 5000 ≤ 640000)
    ∧ (let s := serialPin 1 3 fun q => { q with serial := some { cfg := 0, rx := .locked, capture := List.replicate 63 true } };
      s.pinSite 0 = some 0 ∧ (s.pin 0).serial.map (fun x => (x.capture ++ [true]).length) = some 64)
    ∧ (let s := serialPin 1 4 fun q => { q with serial := some { cfg := 0, rx := .locked } };
      ((s.serialCfg 0 0).map fun g => g.rx) = some 4)
    ∧ (let x : Serial := { cfg := 0, rx := .locked, aligned := true, rxLfsr := 127 };
      let s := serialPin 1 1 fun q => { q with serial := some x };
      ((s.serialCfg 0 0).map fun g => ((x.rxPrbs g true).2, (x.rxPrbs g false).2, (({ x with aligned := false } : Serial).rxPrbs g false).2))
        = some (some true, some false, none)) := by
  repeat' first | apply And.intro | decide +kernel

theorem witness_ComparatorsAndMonitors :
    (let s := serialPin 0 0 fun q => { q with mon := .inside };
      s.beatsStop = false ∧ (s.pin 0).runs true = true ∧ (s.pin 0).heldTl = none ∧ s.reg (pinObj 0 11) 7 ≠ 1)
    ∧ (let s := released (serialPin 0 0 fun q => { q with mon := .inside, heldTh := some false });
      let u := s.setHeld 0 (some true) (s.pin 0).heldTl 0 0;
      s.beatsStop = false ∧ (s.pin 0).runs false = true ∧ (s.pin 0).heldTh = some (!true)
        ∧ u.parkedPin 0 ((u.clk.frames - (u.site ((u.pinSite 0).getD 64)).f0) * 320000 + 0 * 5000 + 0 * 10) = false)
    ∧ (∀ k ∈ [(MonState.inside, false, true), (.below, false, false), (.above, true, true)],
      let s := serialPin 0 0 fun q => { q with mon := .undecided, heldTh := some k.2.1, heldTl := some k.2.2, monSeen := 0 };
      s.beatsStop = false ∧ (s.pin 0).mon ≠ .off ∧ (s.pin 0).mon ≠ k.1 ∧ (s.pin 0).suspended = false ∧ (s.pin 0).indicates = some k.1
        ∧ (s.pin 0).monSeen + s.nInForce (pinObj 0 5) 2 ≤ s.clk.c + 63)
    ∧ (let s := { serialPin 0 0 (fun q => { q with mon := .undecided }) with clk := { frames := 125000 } };
      s.beatsStop = false ∧ (s.pin 0).mon = .undecided ∧ (s.pin 0).suspended = false ∧ (s.pin 0).monSince + 125000 ≤ s.clk.frames)
    ∧ (State.reset.mode ≠ .off ∧ (State.reset.setNat (supplyObj 8) 4 1).nreg (supplyObj 8) 4 = 1)
    ∧ ((State.reset.setNat (supplyObj 8) 4 3).nreg (supplyObj 8) 4 = 3)
    ∧ (((((State.reset.setNat (supplyObj 8) 4 2).setNat (supplyObj 8) 4 4).bump (supplyObj 8) 5).raise 1628).handler.supply.any (·.1 = 8) = false)
    ∧ (let s := { State.reset.setNat (supplyObj 0) 4 1 with clk := { frames := 125000 } };
      s.nreg (supplyObj 0) 4 = 1 ∧ Table.get 0 s.handler.undecided 0 + 125000 ≤ s.clk.frames)
    ∧ (let s := { State.reset with clk := { frames := 1250 }, handler := { supply := [(0, 0)] } };
      s.handler.supply.find? (·.1 = (0 : Fin 9).val) = some (0, 0) ∧ 0 + 1250 ≤ s.clk.frames) := by
  repeat' first | apply And.intro | decide +kernel

theorem witness_AcquisitionAndMeasurements :
    (let s := { State.reset with clk := { frames := 1 }, caps := [(0, { st := .capturing, phase := .holdoff, holdoffEnd := 1 })] };
      (s.cap 0).st ≠ .idle ∧ (s.cap 0).phase = .holdoff ∧ (s.cap 0).holdoffEnd ≤ s.clk.frames)
    ∧ (let s := { State.reset.setNat (capObj 0) 7 2 with clk := { frames := 24 }, caps := [(0, { st := .capturing, autoFrom := some 0 })] };
      (s.cap 0).autoFrom = some 0 ∧ (s.cap 0).st = .capturing ∧ (s.cap 0).phase = .pre ∧ 25 * s.nreg (capObj 0) 7 ≤ 2 * (s.clk.frames + 1 - 0))
    ∧ (let s := { State.reset with recs := [(0, { stage := .packaged })] };
      (s.rcd 0).stage = .packaged ∧ (s.rcd 0).unsent = false ∧ (s.inFlight fun p => p.type == 0x06 && p.tag == 0) = false)
    ∧ (let s := { State.reset with defs := [(0, { st := .armed, armAt := some 0, vals := [(10, 0)] })] };
      (s.mdef 0).st = .armed ∧ (s.mdef 0).armAt = some 0 ∧ (s.mdef 0).val 10 = 0 ∧ (s.site (s.mdef 0).site).f0 + 0 / 320000 ≤ s.clk.frames)
    ∧ (let s := { State.reset.setNat 0x8050 1 1 with evts := [(0, { level := true })], defs := [(0, { st := .armed, armAt := some 0, vals := [(10, 1)] })] };
      (s.mdef 0).val 10 = 1 ∧ s.extOpens (s.mdef 0) 0 0 0 = true)
    ∧ (let s := { State.reset with defs := [(0, { st := .armed, armAt := some 0, vals := [(10, 2), (12, 1)] })] };
      (s.mdef 0).val 10 = 2 ∧ ofTime80 ((s.mdef 0).val 12) ≤ s.ptpOf (s.site (s.mdef 0).site).f0 5000
        ∧ s.ptpOf (s.site (s.mdef 0).site).f0 (5000 - 5000) < ofTime80 ((s.mdef 0).val 12) ∧ 5000 % 5000 = 0)
    ∧ (let s := { State.reset with defs := [(0, { st := .armed, armAt := some 0, vals := [(10, 2)] })], time := { t0 := 1 } };
      (s.mdef 0).val 10 = 2 ∧ ofTime80 ((s.mdef 0).val 12) < s.ptpOf (s.site (s.mdef 0).site).f0 0)
    ∧ (let s := { State.reset with defs := [(4095, { st := .gate, counting := true, openAt := 0, vals := [(13, 1)] })] };
      (s.mdef 4095).st = .gate ∧ (s.mdef 4095).counting = true ∧ (s.mdef 4095).openAt ≤ 5000 ∧ (s.mdef 4095).mode ≠ 5 ∧ (s.mdef 4095).pair = none
        ∧ 5000 = (s.mdef 4095).openAt + 5000 * (s.mdef 4095).val 13 ∧ (s.site (s.mdef 4095).site).f0 + 5000 / 320000 ≤ s.clk.frames)
    ∧ (let s := { State.reset with defs := [(0, { st := .gate, counting := true, openAt := 0, vals := [(3, 5), (13, 1)] })] };
      (s.mdef 0).mode = 5 ∧ (s.mdef 0).counting = true ∧ (s.mdef 0).val 10 ≠ 1 ∧ 10000 = (s.mdef 0).openAt + 2 * (5000 * (s.mdef 0).val 13))
    ∧ (let y : MeasDef := { st := .gate, vals := [(4, 1)], conv := some 3, pair := some (4000000, 0) };
      let s := { State.reset with defs := [(7, y)] };
      s.defs.find? (fun e => e.2.vernier && e.2.conv == some (3 : Fin 4).val && e.2.pair.isSome) = some (7, y)
        ∧ (s.mdef 7).pair = some (4000000, 0))
    ∧ (let s := { State.reset.setNat 0x8050 1 1 with evts := [(0, { level := false, changed := 0 })], clk := { frames := 13 }, defs := [(0, { st := .gate, counting := true, vals := [(3, 5), (10, 1), (13, 1)] })] };
      (s.mdef 0).val 10 = 1 ∧ (s.mdef 0).counting = true ∧ (s.setDef 0 (s.mdef 0)).gateActive ((s.mdef 0).val 11) = false ∧ (s.mdef 0).mode = 5 ∧ (s.mdef 0).val 13 < 800)
    ∧ (let s := { State.reset.setNat 0x8050 1 1 with evts := [(0, { level := true, changed := 6 })], defs := [(0, { st := .gate, armAt := some 0, after := 25000, vals := [(3, 5), (10, 1)] })] };
      (s.mdef 0).armAt.isSome = true ∧ (s.mdef 0).counting = false ∧ (s.mdef 0).after < 30000 ∧ s.extOpens (s.mdef 0) 0 (s.mdef 0).after 30000 = true) := by
  repeat' first | apply And.intro | decide +kernel
/-! ### Vector memory, Stagelink, Convoy, the ring and Rosec -/

/-- A channel in a state at frame 12,500, of one rank. -/
def channel (f : Channel → Channel) : State :=
  { State.reset with mode := .service, clk := { frames := 12500 }, chans := [(1, f {})] }

theorem witness_ChannelsAreServed :
    ((channel fun x => { x with mode := .serving }).chan 1).mode = .serving
    ∧ (((channel fun x => { x with mode := .replay, level := 1 }).chan 1).mode = .replay
      ∧ (channel fun x => { x with mode := .replay, level := 1 }).memEnds 1 1 = true)
    ∧ (let s := channel fun x => { x with mode := .retrain, level := 2 };
      (s.chan 1).mode = .retrain ∧ (s.chan 1).level = 2 ∧ s.memEnds 1 2 = true ∧ (s.chan 1).since + 5000 ≤ s.clk.frames)
    ∧ (let s := channel fun x => { x with level := 2, endedAt := some 11250 };
      (s.chan 1).endedAt = some 11250 ∧ 11250 + s.nInForce 0x9000 6 ≤ s.clk.frames)
    ∧ (let s := channel fun x => { x with mode := .serving };
      0 < s.rankCount 1 ∧ (Table.get {} (s.chan 1).ranks 4).lastDue + 48 ≤ s.clk.frames ∧ min 4 ((Table.get {} (s.chan 1).ranks 4).owed + 1) < 4
        ∧ s.nInForce 0x9000 4 ≠ 0 ∧ (Table.get {} (s.chan 1).ranks 4).down = false
        ∧ (Table.get {} (s.chan 1).ranks 4).lastUse + s.nInForce 0x9000 4 ≤ s.clk.frames)
    ∧ (let s := channel fun x => { x with mode := .serving, ranks := [(4, { owed := 3, hot := true, lastDue := 12476 })] };
      (Table.get {} (s.chan 1).ranks 4).lastDue + 24 ≤ s.clk.frames ∧ min 4 ((Table.get {} (s.chan 1).ranks 4).owed + 1) = 4)
    ∧ (channel id).clk.frames % 12500 = 0 := by
  decide +kernel

/-- The link UP in SERVICE. -/
def linked (f : Link → Link) : State := { (served .service).setNat 0xA000 4 2 with sl := f {}, clk := { frames := 125 } }

/-- A packet waiting alone at the head of the receive buffer. -/
def holding (x : RxPacket) : State :=
  { (linked fun l => { l with rx := [x] }).setNat 0x9000 8 65536 with chans := [(0, { mode := .serving }), (1, { mode := .serving })] }

theorem witness_PacketsInOrder :
    ((linked id).linkState = 2 ∧ ({ seq := 0 } : Packet).seq = (linked id).sl.expect ∧ (linked id).faultOf 3 = none
      ∧ (linked id).sl.rxUsed + (24 + 72 * 0) ≤ 262144 ∧ (linked id).packetAllowed false = true ∧ (linked id).packetAllowed true = true
      ∧ [1, 2, 4, 5].contains (3 : Byte).toNat = false ∧ crcMatches { seq := 0 } 1 = true ∧ crcMatches { seq := 0 } 3 = true
      ∧ ((linked id).blockErrors []).linkState = 2)
    ∧ (crcMatches { seq := 0, crc := some 0 } 1 = false ∧ crcMatches { seq := 0, crc := some 0 } 5 = false)
    ∧ (({ seq := 0, reserved := 15 } : Packet).reserved ≠ 0 ∧ ({ seq := 0, poisonLines := 1 } : Packet).poisonLines ≠ 0)
    ∧ (let s := { linked id with mode := .coldStart, start := { step := 5 } };
      s.linkState = 2 ∧ s.sl.expect = 0 ∧ s.packetAllowed false = false ∧ s.packetAllowed true = true)
    ∧ (4095 ≠ (linked id).sl.expect ∧ ((linked id).sl.expect + 4096 - 4095) % 4096 ≤ 2048)
    ∧ (1 ≠ (linked id).sl.expect ∧ 2048 < ((linked id).sl.expect + 4096 - 1) % 4096)
    ∧ (let full : RxPacket := { type := 1, pkt := { seq := 0, lines := List.replicate 32 [] } };
      let s := linked fun l => { l with rx := List.replicate 112 full };
      s.linkState = 2 ∧ 262144 < s.sl.rxUsed + (24 + 72 * 32))
    ∧ (let x : RxPacket := { type := 1, pkt := { seq := 0 }, status := 0x010A }; (holding x).sl.rx = [x] ∧ x.status ≠ 0)
    ∧ (let x : RxPacket := { type := 4, pkt := { seq := 0 } }; (holding x).sl.rx = [x] ∧ x.status = 0)
    ∧ (let x : RxPacket := { type := 5, pkt := { seq := 0 } }; (holding x).sl.rx = [x] ∧ x.status = 0)
    ∧ (let x : RxPacket := { type := 1, pkt := { seq := 0, addr := 65472, lines := [headerLine] } };
      (holding x).sl.rx = [x] ∧ x.served = 0 ∧ (holding x).memWriteCheck x.pkt = 0 ∧ (holding x).x2Room x.pkt.addr = true)
    ∧ (let x : RxPacket := { type := 2, pkt := { seq := 0, addr := 65472, count := 1 } };
      (holding x).sl.rx = [x] ∧ x.got = [] ∧ x.pkt.addr % 64 = 0 ∧ (holding x).bulkTurn x.pkt.addr = true) := by
  repeat' first | apply And.intro | decide +kernel

theorem witness_LinkEvents :
    (let s := linked fun l => { l with unacked := [(0, { type := 6 })] };
      2 ≤ s.linkState ∧ (s.sl.unacked.dropWhile fun e => decide ((0 + 4096 - e.1) % 4096 < 2048)).length ≠ s.sl.unacked.length
        ∧ s.faultOf 4 = none ∧ s.linkState = 2 ∧ s.sl.unacked = [(0, { type := 6 })] ∧ s.sl.ackAt + 125 ≤ s.clk.frames)
    ∧ (let s := (served .service);
      s.linkState < 2 ∧ s.sl.retrain = false ∧ s.linkRuns = true ∧ min 1 (s.nreg 0xA000 2) < max 1 (s.nreg 0xA000 1)
        ∧ max 1 (s.nreg 0xA000 1) ≤ min 3 (s.nreg 0xA000 2) ∧ hwWidth (min 3 (s.nreg 0xA000 2)) s.rxFailed ≠ 0
        ∧ hwWidth (min 3 (s.nreg 0xA000 2)) s.txFailed ≠ 0)
    ∧ ((linked id).linkState ≠ 0 ∧ 3 ≤ 3)
    ∧ (let s := (((linked id).setNat 0xA000 4 1).setNat 0xA000 3 3).setNat (0xA010 + 15) 1 2;
      let v := { s with freeCtr := s.freeCtr + 1 }.setReg (0xA010 + 15) 5 49;
      let u := ((v.setFailed (orBit v.rxFailed 15) v.txFailed).setNat (0xA010 + 15) 1 3).raise 1681;
      s.linkState ≠ 0 ∧ s.nreg (0xA010 + 15) 1 = 2 ∧ u.linkState = 1 ∧ u.sl.retrain = false)
    ∧ (let s := ((linked id).setNat 0xA000 3 3).setNat (0xA010 + 15) 1 2;
      let v := s.bump (0xA010 + 15) 3;
      let u := ((v.setFailed (orBit v.rxFailed 15) v.txFailed).setNat (0xA010 + 15) 1 3).raise 1681;
      s.nreg (0xA010 + 15) 1 = 2 ∧ hwWidth (u.nreg 0xA000 3) u.rxFailed ≠ 0 ∧ u.sl.rxTarget = none ∧ u.faultOf 3 = none ∧ u.inForce 0x2100 8 ≠ 1)
    ∧ (let s := (((linked id).setNat 0xA000 3 2).setNat (0xA010 + 0) 1 1).setFailed 0xF0 0;
      let v := s.bump (0xA010 + 0) 2;
      let u := ((v.setFailed (orBit v.rxFailed 0) v.txFailed).setNat (0xA010 + 0) 1 3).raise 1681;
      s.nreg (0xA010 + 0) 1 = 1 ∧ hwWidth (u.nreg 0xA000 3) u.rxFailed = 0)
    ∧ (let s := (linked fun l => { l with rxTarget := some 12 }).setNat 0xA000 4 3;
      s.linkState = 3 ∧ s.sl.rxTarget = some 12 ∧ s.sl.txTarget = none)
    ∧ (let s := (linked id).setNat 0xA000 3 3;
      let u := s.setFailed s.rxFailed (s.txFailed ||| 0xFFFF);
      min (hwWidth (u.nreg 0xA000 3) u.txFailed) 16 = 0)
    ∧ (let s := (linked id).setNat 0xA000 3 3;
      let u := s.setFailed s.rxFailed (s.txFailed ||| 1);
      let w := min (hwWidth (u.nreg 0xA000 3) u.txFailed) 8;
      w = 8 ∧ u.faultOf 4 = none ∧ ((({ u with sl := { u.sl with txTarget := some w } }).setNat 0xA000 4 3).faultOf 4).isSome = false)
    ∧ ((linked id).mode ≠ .off ∧ ((linked id).mode ≠ .coldStart ∨ (linked id).start.step ≠ 1))
    ∧ ((served .safeHalt).mode = .safeHalt ∧ ((linked id).setNat 0xA100 1 1).nreg 0xA100 1 = 1
      ∧ ((linked id).setNat 0xA100 1 2).nreg 0xA100 1 = 2) := by
  decide +kernel

/-- Frame 12,500 with ring port 1 in a state and the ring started. -/
def ringPort (st : Nat) (f : Port → Port) : State :=
  { (served .service).setNat 0x1012 1 st with clk := { frames := 12500 }, ring := { started := true, ports := [(1, f {})] } }

theorem witness_RingPorts :
    ((ringPort 0 id).ring.started = true ∧ (ringPort 0 id).portState 1 = 0)
    ∧ ((ringPort 1 id).portState 1 ≠ 0 ∧ ({ uid := 2, port := 0 } : SupMsg).port = 1 - (1 : PortId).val ∧ ({ uid := 2, port := 1 } : SupMsg).port ≠ 0
      ∧ ({ overflow := true } : RingFrame).overflow = true ∧ ({ good := false } : RingFrame).overflow = false
      ∧ ({ etherType := 0x0800 } : RingFrame).etherType ≠ 0x88B5 ∧ ({} : RingFrame).etherType = 0x88B5)
    ∧ (((ringPort 1 id).port 1).sentAt = none)
    ∧ (((ringPort 1 fun x => { x with sentAt := some 11250 }).port 1).sentAt = some 11250 ∧ 11250 + 1250 ≤ (ringPort 1 id).clk.frames)
    ∧ ((ringPort 3 id).portState 1 = 3)
    ∧ (let s := ringPort 2 fun x => { x with lost := true, upSince := 8750 };
      s.portState 1 = 2 ∧ (s.port 1).lost = true ∧ (s.port 1).upSince + 3750 ≤ s.clk.frames)
    ∧ ((ringPort 4 id).portState 1 = 4 ∧ ((ringPort 4 id).port 1).changeAt + 12500 ≤ (ringPort 4 id).clk.frames) := by
  decide +kernel

/-- Both ring ports UP, station 5. -/
def inRing : State :=
  { (((served .service).setNat 0x1011 1 2).setNat 0x1012 1 2).setNat 0x1010 1 5 with ring := { started := true } }

theorem witness_RingFrames :
    (let r := inRing.takeFrame 0 { type := 1, sa := 9, src := 7, dst := 6, seq := 1 };
      r.1.forward = true ∧ r.2.portUp (1 - 0) = true)
    ∧ (let r := { inRing with ring := { started := true, ports := [(1, { fwd := 32705 })] } }.takeFrame 0 { type := 1, sa := 9, src := 7, dst := 6, seq := 1 };
      r.1.forward = true ∧ r.2.portUp (1 - 0) = true ∧ 32768 < (r.2.egress (1 - 0)).fwd + max 64 (34 + 0))
    ∧ (let r := inRing.takeFrame 0 { type := 1, sa := 9, src := 7, dst := 6, seq := 1 }; (r.2.egress (1 - 0)).fwd + max 64 (34 + 0) ≤ 32768)
    ∧ (let r := (inRing.setNat 0x1012 1 0).takeFrame 0 { type := 1, sa := 9, src := 7, dst := 6, seq := 1 };
      r.1.forward = true ∧ r.2.portUp 1 = false)
    ∧ (let s := (inRing.setNat 0x1012 1 0).setNat 0x1010 2 2;
      let r := s.takeFrame 0 { type := 3, sa := 9, src := 7, dst := 255, seq := 1 };
      let w := ((r.2.setNat 0x1010 4 4).setNat 0x1010 3 0).walked 0 { id := 4, next := 1 };
      r.1.consume = true ∧ w.1.portUp 1 = false ∧ w.1.ringState = 2)
    ∧ (let s := { inRing with ring := { started := true, walks := [4] } };
      let r := s.takeFrame 0 { type := 3, sa := 9, src := 7, dst := 255, seq := 1, hops := 1 };
      r.1.consume = true ∧ r.2.ring.walks.contains 4 = true ∧ r.1.forward = false)
    ∧ (let s := { inRing with ring := { started := true, walks := [4] } };
      let r := s.takeFrame 0 { type := 3, sa := 9, src := 7, dst := 255, seq := 1 };
      r.1.consume = true ∧ r.2.ring.walks.contains 4 = true ∧ r.1.forward = true
        ∧ ((r.2.setNat 0x1010 4 4).setNat 0x1010 3 0).ring.walks.contains 4 = true ∧ ((r.2.setNat 0x1010 4 4).setNat 0x1010 3 0).portUp 1 = true)
    ∧ (let r := inRing.takeFrame 0 { type := 3, sa := 9, src := 7, dst := 6, seq := 1 };
      r.1.consume = false ∧ r.1.forward = true ∧ r.2.portUp 1 = true)
    ∧ (let r := inRing.takeFrame 0 { type := 3, sa := 9, src := 7, dst := 6, seq := 1, good := false };
      r.1.consume = false ∧ r.1.forward = false)
    ∧ (let r := { inRing.setNat 0x1012 1 0 with ring := { started := true, reported := true } }.takeFrame 0 { type := 4, sa := 9, src := 7, dst := 255, seq := 1 };
      r.1.consume = true ∧ r.2.portUp 1 = false ∧ r.2.ring.reported = true)
    ∧ (inRing.takeFrame 0 { type := 1, sa := 9, src := 7, dst := 5, seq := 1 }).1.forward = false
    ∧ (let r := inRing.takeFrame 0 { type := 3, sa := 9, src := 7, dst := 255, seq := 1 };
      r.1.consume = true ∧ r.2.ring.walks.contains 4 = false
        ∧ ((r.2.setNat 0x1010 4 4).setNat 0x1010 3 0).ring.walks.contains 4 = false)
    ∧ (let r := inRing.takeFrame 0 { type := 4, sa := 9, src := 7, dst := 255, seq := 1 };
      r.1.consume = true ∧ r.2.portUp 0 = true ∧ r.2.portUp 1 = true)
    ∧ (inRing.takeFrame 0 { type := 4, sa := 9, src := 7, dst := 6, seq := 1, good := false }).1.consume = false
    ∧ (let g : RingFrame := { type := 5, sa := 9, src := 7, dst := 255, seq := 1, payload := beBytes 8 1 ++ beBytes 1 254 };
      let s := inRing.setNat 0x2100 7 1;
      (s.receiveFrame 0 g true).1 = true ∧ 1 = (s.receiveFrame 0 g true).2.uid ∧ (s.receiveFrame 0 g true).2.inForce 0x2100 7 = 1 ∧ (s.receiveFrame 0 g true).2.anyBusy = false)
    ∧ (let g : RingFrame := { type := 5, sa := 9, src := 7, dst := 255, seq := 1, payload := beBytes 8 1 ++ beBytes 1 1 };
      let s := { inRing with sites := [(63, { st := .ready })] };
      (s.receiveFrame 0 g true).1 = true ∧ (s.receiveFrame 0 g true).2.anyBusy = true ∧ 2 ≠ (s.receiveFrame 0 g true).2.uid) := by
  decide +kernel

theorem witness_RosecRunsOut :
    (let t : Transfer := { index := 0x3402, sub := 3, sa := 1, total := 4 };
      let s := { served .service with clk := { frames := 1250000 }, rosec := { transfers := [t] } };
      s.transferOn 0x3402 3 = some t ∧ t.touched + 1250000 ≤ s.clk.frames)
    ∧ (let t : Upload := { index := 0x3402, sub := 3, sa := 1, data := [] };
      let s := { served .service with clk := { frames := 1250000 }, rosec := { uploads := [t] } };
      s.uploadOn 0x3402 3 = some t ∧ t.touched + 1250000 ≤ s.clk.frames)
    ∧ (let y : Subscription := { src := 1, index := 0x2000, sub := 1, period := 1250, due := 9, ready := some (7, [3]) };
      let s := { served .service with rosec := { subs := [y] } };
      s.rosec.subs[0]? = some y ∧ s.rosec.subs.take 0 = [] ∧ s.outPorts ≠ [] ∧ ((s.setNat 0x1011 1 0).setNat 0x1012 1 0).outPorts = [])
    ∧ (let y : Notify := { tid := 3, dst := 1, data := [], sentAt := 0, retries := 3 };
      let s := { served .service with clk := { frames := 12500 }, rosec := { notifies := [y] } };
      s.responds = true ∧ s.rosec.notifies.any (·.tid == 3) = true ∧ s.rosec.notifies.any (·.tid == 4) = false
        ∧ s.rosec.notifies.find? (·.tid == 3) = some y ∧ y.sentAt + 12500 ≤ s.clk.frames ∧ y.tries < y.retries)
    ∧ (let y : Notify := { tid := 3, dst := 1, data := [], sentAt := 0, tries := 3, retries := 3 };
      let s := { (served .service) with clk := { frames := 12500 }, rosec := { notifies := [y] } };
      s.rosec.notifies.find? (·.tid == 3) = some y ∧ y.retries ≤ y.tries) := by
  decide +kernel
/-! ### Starts, sleep and power -/

/-- A step of a start with REFCLK present. -/
def starting (m : DevMode) (k : Nat) : State := { State.reset with mode := m, start := { step := k, type := 4 }, clk := { ref := .present } }

theorem witness_PowerAndPins :
    ({ State.reset with mode := .off } : State).mode = .off
    ∧ (State.reset.mode ≠ .off ∧ State.reset.start.resetLow = false)
    ∧ (({ State.reset with start := { resetLow := true } } : State).start.resetLow = true)
    ∧ ((starting .service 0).start.warmLow = false ∧ (starting .service 0).mode = .service ∧ (starting .service 0).start.warningPin = false)
    ∧ ((starting .warmStart 3).mode = .warmStart) ∧ ((starting .coldStart 2).mode = .coldStart ∧ (starting .coldStart 2).start.step ≠ 1)
    ∧ ((starting .sleep 0).mode = .sleep) ∧ ((starting .safeHalt 0).mode = .safeHalt)
    ∧ (({ State.reset with start := { warmLow := true } } : State).start.warmLow = true)
    ∧ (({ State.reset with start := { warningPin := true } } : State).start.warningPin = true)
    ∧ (({ State.reset with start := { halt := true } } : State).start.halt = true)
    ∧ (State.reset.mode = .coldStart ∧ State.reset.start.step = 1 ∧ State.reset.start.warmLow = false ∧ State.reset.start.warningPin = false)
    ∧ ((starting .safeHalt 0).start.warningPin = false) := by
  decide +kernel

theorem witness_StepsOfStarts :
    ({ starting .coldStart 3 with clk := {} } : State).clk.ref ≠ .present
    ∧ (let s := { starting .coldStart 3 with clk := { ref := .present, presentFor := 125000 } };
      s.mode = .coldStart ∧ s.start.step = 3 ∧ s.clk.ref = .present ∧ 125000 ≤ s.clk.presentFor)
    ∧ (chanNos.any fun c => (((starting .coldStart 7).trainAll 0).chan c).mode == .serving) = false
    ∧ (State.reset.canonical = true ∧ State.reset.start.failedCold < 2 ∧ 2 ≤ ({ State.reset with start := { failedCold := 2 } } : State).start.failedCold)
    ∧ (let f : FaultRec := { resource := 8, level := 8, source := 1543 };
      let s := { starting .sleep 0 with start := { wakeStep := 1 }, handler := { active := [f] } };
      s.start.wakeStep = 1 ∧ s.clk.ref = .present ∧ s.faultOf 8 = some f)
    ∧ (let s := { starting .sleep 0 with start := { wakeStep := 2 }, chans := [(1, { mode := .selfRefresh })] };
      s.start.wakeStep = 2 ∧ (chanNos.find? fun c => (s.chan c).mode == .selfRefresh) = some 1)
    ∧
    ((starting .coldStart 1).mode = .coldStart ∧ (starting .coldStart 1).start.resetLow = false ∧ (starting .coldStart 1).start.halt = false
      ∧ (starting .coldStart 1).clk.ref = .present ∧ (starting .coldStart 1).start.warmLow = false ∧ (starting .coldStart 1).start.testEn = false
      ∧ (starting .coldStart 9).start.step = 9)
    ∧ (let s := { State.reset with start := { step := 1, testEn := true } }; s.mode = .coldStart ∧ s.start.step = 1 ∧ s.start.testEn = true)
    ∧ (let s := { (starting .coldStart 7).setNat 0x9001 1 1 with chans := [(0, { mode := .training })] };
      s.start.step = 7 ∧ (chanNos.any fun c => ((s.trainAll 0).chan c).mode == .serving) = true)
    ∧ ((starting .warmStart 1).mode = .warmStart ∧ (starting .warmStart 1).start.warmLow = false ∧ (starting .warmStart 5).start.step = 5
      ∧ ({ starting .warmStart 2 with clk := {} } : State).clk.ref ≠ .present
      ∧ (starting .warmStart 2).clk.ref = .present ∧ (starting .warmStart 2).memBusy = false)
    ∧ (let s := { starting .warmStart 4 with chans := [(1, { mode := .selfRefresh })] };
      s.start.step = 4 ∧ chanNos.contains 1 = true ∧ (s.chan 1).mode = .selfRefresh)
    ∧ (let s := { starting .sleep 0 with start := { wakeStep := 1 } };
      s.mode = .sleep ∧ s.start.halt = false ∧ s.start.wakeStep = 1 ∧ s.clk.ref = .present ∧ s.faultOf 8 = none)
    ∧ (({ starting .sleep 0 with start := { wakeStep := 4 } } : State).start.wakeStep = 4)
    ∧ (let s := { starting .service 0 with start := { sleepAsked := some 0 } };
      s.start.sleepAsked = some 0 ∧ s.clk.frames < 0 + 1250000 ∧ s.drainedForSleep = true)
    ∧ (let s := { starting .service 0 with start := { sleepAsked := some 0 }, clk := { frames := 1250000 } };
      s.start.sleepAsked = some 0 ∧ 0 + 1250000 ≤ s.clk.frames) := by
  decide +kernel
/-! ### Network time, calibration, the Passport, faults and the test port -/

/-- In SERVICE with both ring ports UP, the ordinary clock in a role, and its state. -/
def clocked (role : Nat) (f : NetTime → NetTime) : State :=
  { inRing.setNat 0x8001 1 role with clk := { frames := 50000000, c := 64 }, time := f {} }

/-- A message of clock 9, port 1. -/
def from9 : PtpMsg := { clock := 9 }

theorem witness_PtpMessagesIn :
    ((clocked 0 id).ptpTake 0 0 { from9 with domain := 255 }).1 = false
    ∧ (let r := (clocked 0 id).ptpTake 0 0 from9;
      r.1 = true ∧ (r.2.bump (ptpObj 0) 5).plays 1 = false)
    ∧ (let r := (clocked 1 fun x => { x with master := some (9, 1) }).ptpTake 0 0 from9;
      let u := r.2.bump (ptpObj 0) 5;
      r.1 = true ∧ u.plays 1 = true ∧ u.time.master = some (from9.clock, from9.portNo) ∧ (u.firstCopy 0 from9).1 = true
        ∧ ((u.firstCopy 0 from9).2.firstCopy 0 from9).1 = false)
    ∧ (let y : SyncIn := { clock := 9, portNo := 1, seqId := 0, via := 0, ingress := 0, correction := 0 };
      let r := (clocked 1 fun x => { x with awaiting := some y }).ptpTake 0 8 from9;
      r.1 = true ∧ r.2.time.awaiting = some y ∧ y.clock = from9.clock ∧ y.portNo = from9.portNo ∧ y.seqId = from9.seqId
        ∧ y.seqId ≠ ({ from9 with seqId := 65535 } : PtpMsg).seqId)
    ∧ (let r := ((clocked 2 id).setNat 0x8001 3 1).ptpTake 0 1 from9;
      r.1 = true ∧ r.2.plays 2 = true ∧ r.2.inForce 0x8001 3 = 1)
    ∧ (let r := (clocked 1 id).ptpTake 0 1 from9; r.1 = true ∧ r.2.plays 2 = false)
    ∧ (let y : SyncIn := { clock := 9, portNo := 1, seqId := 0, via := 0, ingress := 0, correction := 0 };
      let r := (clocked 1 fun x => { x with delayT3 := some 5, lastSync := some y, master := some (9, 1) }).ptpTake 0 9 { from9 with reqClock := 1 };
      r.1 = true ∧ r.2.time.delayT3 = some 5 ∧ r.2.time.lastSync = some y ∧ 1 = r.2.uid ∧ 0 = r.2.time.delaySeq
        ∧ r.2.time.master = some (from9.clock, from9.portNo))
    ∧ ((clocked 1 id).portUp 1 = true ∧ from9.domain = (clocked 1 id).nInForce 0x8001 2)
    ∧ (let s := clocked 1 fun x => { x with pdelays := [(1, { seq := 3, t1 := some 0, t2 := some 0 })] };
      (s.pdelay 1).t1 = some 0 ∧ s.portUp 1 = true ∧ from9.domain = s.nInForce 0x8001 2 ∧ 1 = s.uid ∧ (3 : Nat) = (s.pdelay 1).seq ∧ (s.pdelay 1).t2 = some 0)
    ∧ (let r := (clocked 1 id).ptpTake 0 11 from9; r.1 = true ∧ r.2.plays 1 = true ∧ (r.2.firstCopy 11 from9).1 = true)
    ∧ (let r := (clocked 2 id).ptpTake 0 11 from9; r.1 = true ∧ r.2.plays 1 = false) := by
  decide +kernel

theorem witness_NetworkTimePasses :
    ((clocked 2 id).plays 2 = true ∧ (clocked 2 id).time.syncSentAt = 0 ∧ (clocked 2 id).time.announceSentAt = 0)
    ∧ ((clocked 2 fun x => { x with syncSentAt := 1, announceSentAt := 37500000 }).time.announceSentAt + 12500000 ≤ 50000000
      ∧ 1 + (clocked 2 fun x => { x with syncSentAt := 1 }).syncFrames ≤ 50000000)
    ∧ ((clocked 1 id).portUp 1 = true ∧ ((clocked 1 id).pdelay 1).sentAt = 0)
    ∧ (let y : SyncIn := { clock := 9, portNo := 1, seqId := 0, via := 1, ingress := 0, correction := 0 };
      let s := (clocked 1 fun x => { x with lastSync := some y }).setNat 0x8001 3 1;
      s.time.lastSync = some y ∧ s.plays 1 = true ∧ s.inForce 0x8001 3 = 1 ∧ s.portUp y.via = true)
    ∧ ((clocked 1 id).time.heard + 3 * (clocked 1 id).time.announceEvery ≤ (clocked 1 id).clk.frames)
    ∧ (let s := (clocked 1 fun x => { x with quality := .locked }).setNat 0x2100 3 1;
      s.inForce 0x8001 1 = 1 ∧ s.qualityAhead = .locked ∧ s.time.syncAt + 3 * s.time.syncEvery ≤ s.clk.frames ∧ s.inForce 0x2100 3 = 1
        ∧ (∀ t, s.time.hostAt = some t → t + s.nInForce 0x8010 5 * s.time.syncEvery ≤ s.clk.frames))
    ∧ (let s := (clocked 1 fun x => { x with quality := .holdover, leftLocked := some 0 }).setNat 0x8001 9 4;
      s.time.leftLocked = some 0 ∧ s.time.nextQuality ≠ some .reroute ∧ s.qualityAhead ≠ .locked ∧ s.qualityAhead ≠ .freerun ∧ 0 + 12500000 * s.nInForce 0x8001 9 ≤ s.clk.frames)
    ∧ (let s := (clocked 1 id).setNat (ptpObj 1) 2 1;
      s.reg (ptpObj 1) 2 = 1 ∧ (s.pdelay 1).failed = false ∧ (s.pdelay 1).validAt + 3 * logFrames (s.inForce 0x8001 8) ≤ s.clk.frames)
    ∧ (let s := clocked 1 fun x => { x with slewEnd := some 50000000 }; s.time.slewEnd = some 50000000 ∧ 50000000 ≤ s.clk.frames)
    ∧ (let s := clocked 1 fun x => { x with stepWaits := true }; s.time.stepWaits = true ∧ s.anyBusy = false)
    ∧ (let s := (((clocked 1 id).setNat (ttObj 7) 4 1).setNat (ttObj 7) 1 80).setNat (ttObj 7) 3 32;
      s.inForce (ttObj 7) 4 = 1 ∧ ofTime80 (s.nInForce (ttObj 7) 1) ≤ s.timeAtBeat 63
        ∧ timeAt s.time ((s.clk.c : Int) - 1) < ofTime80 (s.nInForce (ttObj 7) 1) ∧ natBit (s.nInForce (ttObj 7) 3) 5 = true)
    ∧ (let s := { (clocked 1 id).setNat 0x8040 1 2 with clk := {} };
      let off := s.inForce 0x8040 3 * nsUnit;
      s.time.ppsFrame ≠ some s.clk.frames ∧ s.inForce 0x8040 1 = 2 ∧ -((-(s.localTime - off)) / (1000000000 * nsUnit)) * (1000000000 * nsUnit) + off < s.timeAtBeat 64
        ∧ (s.modTime fun x => { x with ppsFrame := some 0 }).time.ppsFrame = some s.clk.frames)
    ∧ (((clocked 1 id).evt 7).level ≠ true ∧ (clocked 1 id).evtMode 7 = 0)
    ∧ (let s := { (clocked 1 id).setNat 0x8057 1 2 with evts := [(7, { level := true })] };
      (s.evt 7).level ≠ false ∧ s.evtMode 7 = 2 ∧ (s.setNat 0x8057 1 1).evtMode 7 = 1) := by
  decide +kernel

theorem witness_CalibrationAndHeat :
    (let s := { served .service with cal := { domain := some 0, pins := 1 } };
      s.openStep = some (0, 0, [0]) ∧ s.cal.waitFrom = none ∧ [0].length = [(5 : Int)].length ∧ s.inForce 0x2100 2 ≠ 1
        ∧ (s.setNat 0x2100 2 1).inForce 0x2100 2 = 1)
    ∧ (let s := { served .service with cal := { domain := some 0, pins := 1, step := 100 } };
      s.cal.domain = some 0 ∧ s.cal.cancel = false ∧ (calSteps 0 s.cal.pins).length ≤ s.cal.step)
    ∧ (let s := ((served .service).setNat 0xB001 3 1).setNat 0xB001 5 1;
      s.inForce 0xB001 3 ≠ 0 ∧ (s.mode ≠ .sleep ∧ s.mode ≠ .safeHalt ∧ s.mode ≠ .off) ∧ natBit s.cal.busyPins 63 = false ∧ s.driftDue 63 = true
        ∧ ([0, 1, 2, 3].any fun v => !(s.vernierBusy ++ s.calVerniers).contains v) = true
        ∧ 800 < ((801 : Int) - 0).natAbs ∧ ((800 : Int) - 0).natAbs ≤ 800
        ∧ max (-(s.inForce 0xB001 5 * 250)) (min (s.inForce 0xB001 5 * 250) ((s.driftTaken 63).meanOf 0 0).1) = ((s.driftTaken 63).meanOf 0 0).1
        ∧ (let r := (s.driftTaken 63).meanOf 800 0;
          let u := r.2.setReg (pinObj 63 11) 5 250;
          max (-(s.inForce 0xB001 5 * 250)) (min (s.inForce 0xB001 5 * 250) r.1) ≠ r.1 ∧ u.reg (pinObj 63 11) 6 = 0))
    ∧ (let s := { served .service with cal := { domain := some 1, waitFrom := some 0 }, clk := { frames := 12500 * 65535 } };
      s.cal.domain = some 1 ∧ s.cal.waitFrom = some 0 ∧ 0 + 12500 * s.nInForce 0xB040 3 ≤ s.clk.frames)
    ∧ ([1, 2, 3, 4, 5, 6, 7, 8].length = 8 ∧ (served .service).mode ≠ .off)
    ∧ (max (max (max (9499 : Int) 9000) 8800) 8700 < 9500 ∧ (9499 : Int) - min (min (min 9499 9000) 8800) 8700 ≤ 800)
    ∧ (((served .service).takeMean [10500, 10500, 10500, 9700]).therm.high = false
      ∧ max (max (max (10500 : Int) 10500) 10500) 9700 ≤ 10500 ∧ (10500 : Int) - min (min (min 10500 10500) 10500) 9700 ≤ 800)
    ∧ (9500 ≤ max (max (max (9999 : Int) 9500) 9500) 9500 ∧ max (max (max (9999 : Int) 9500) 9500) 9500 < 10000)
    ∧ (((served .service).takeMean [797, 0, 0, -1]).therm.range = false ∧ min (min (min (797 : Int) 0) 0) (-1) < 0
      ∧ max (max (max (797 : Int) 0) 0) (-1) - min (min (min (797 : Int) 0) 0) (-1) ≤ 800)
    ∧ (((served .service).takeMean [804, 0, 0, 0]).therm.spread = false
      ∧ 800 < max (max (max (804 : Int) 0) 0) 0 - min (min (min (804 : Int) 0) 0) 0)
    ∧ (let s : State := { served .service with therm := { high := true, range := true, spread := true } };
      let u := s.takeMean [11500, 9000, 9000, 9000];
      u.therm.high = true ∧ u.therm.range = true ∧ u.therm.spread = true ∧ s.mode ≠ .safeHalt
        ∧ 11500 ≤ max (max (max (11500 : Int) 9000) 9000) 9000)
    ∧ (served .service).therm.asserted ≠ true := by
  decide +kernel

/-- A record formed. -/
def someRecord : VerdictRec := { run := 1, bytes := [] }

/-- A record of 1 KiB. -/
def bigRecord : VerdictRec := { run := 2, bytes := List.replicate 1024 0 }

/-- A batch closed. -/
def someBatch : Batch := { time := 0, quality := 0, leaves := [someRecord] }

theorem witness_PassportAndFaults :
    (let s := { served .service with pass := { formed := [{ rcd := someRecord, prepared := true }] } };
      s.pass.formed.find? (·.prepared) = some { rcd := someRecord, prepared := true } ∧ s.storeRoom someRecord = true ∧ s.pass.batch.length < 65536)
    ∧ (let s := { served .service with pass := { formed := [{ rcd := someRecord, prepared := true }], batch := List.replicate 1025 bigRecord } };
      s.storeRoom someRecord = false)
    ∧ (let s := { served .service with pass := { formed := [{ rcd := someRecord, prepared := true, full := true }],
                                                 batch := List.replicate 1025 bigRecord } };
      s.pass.formed.find? (·.prepared) = some { rcd := someRecord, prepared := true, full := true } ∧ s.storeRoom someRecord = false)
    ∧ (let s := { served .service with clk := { frames := 12500000 }, pass := { batch := [someRecord] } };
      s.pass.nextClose = 0 ∧ 12500 ≤ s.clk.frames ∧ s.pass.batch ≠ [] ∧ s.pass.closed.length < 16)
    ∧ (let s := { served .service with pass := { batch := [someRecord], closed := List.replicate 16 someBatch } };
      16 ≤ s.pass.closed.length)
    ∧ (let s := { (served .service).setNat 0xC000 6 1 with pass := { closed := [someBatch] } };
      s.pass.closed = [someBatch] ∧ (s.takePair someBatch.interrupted).1 = true)
    ∧ (((served .service).setNat 0xC000 1 1).reg 0xC000 1 = 1 ∧ (served .service).mode ≠ .sleep)
    ∧ ({ served .service with pass := { trigger := true } } : State).pass.trigger = true
    ∧ (let f : FaultRec := { resource := 9, level := 5 };
      let s := { served .service with handler := { current := some f } };
      s.handler.current = some f ∧ s.handler.offered = none ∧ s.awaitsWidth f = false)
    ∧ (let f : FaultRec := { resource := 3, level := 3 };
      let s := { served .service with handler := { current := some f, offered := some 0 }, sl := { choiceBy := some 0 }, clk := { frames := 1 } };
      s.handler.offered = some 0 ∧ s.handler.current = some f ∧ 0 < s.clk.frames ∧ s.sl.choiceBy = some 0)
    ∧ (let f : FaultRec := { resource := 255, level := 5 };
      let s := { served .service with handler := { active := [f] } };
      s.handler.active.find? (·.resource == 255) = some f)
    ∧ (let f : FaultRec := { resource := 3, level := 3 };
      let s := { (served .service).setNat 0x2100 9 1 with handler := { queue := [f] }, clk := { frames := 6250 } };
      s.inForce 0x2100 9 = 1 ∧ s.handler.queue.find? s.waitedLong = some f) := by
  decide +kernel

theorem witness_TestPort :
    (let s := { State.reset with start := { resetLow := true } }; s.start.resetLow = true ∧ s.mode ≠ .off)
    ∧ State.reset.start.resetLow = false := by
  decide +kernel

theorem witness_LinesKeepWhatIsWritten :
    let s := atWork.setNat 0x9000 8 65536
    s.canonical = true ∧ endlLine.length = 8 ∧ 65535 < s.memCapacity ∧ s.fenced 65535 = false ∧ s.nreg 0xC010 2 ≤ s.sealEpoch
      ∧ (endlLine.all fun w => !w.poison && syndrome w == 0) = true ∧ 79 / 80 ≠ 65535 / 64 := by
  decide +kernel

theorem witness_CodeCorrectsOneFlip : (0 : Fin 72) ≠ 71 ∧ (63 : Fin 72) ≠ 64 := by decide

/-! ### Ill-formed commands are refused, one test per kind of check -/

/-- A request whose header is within its widths. -/
def req0 : Req := { sa := 2 ^ 48 - 1, src := 255, tid := 65535, level := 255, port := 1 }

/-- A packet within its widths. -/
def pkt0 : Packet := { seq := 4095, addr := 2 ^ 64 - 1, count := 255, lines := List.replicate 32 (List.replicate 8 {}) }

/-- A SUPERVISION payload within its widths. -/
def sup0 : SupMsg := { uid := 2 ^ 64 - 1, station := 255 }

/-- A PTP message within its widths. -/
def ptp0 : PtpMsg := { domain := 255, clock := 2 ^ 64 - 1, portNo := 65535 }

theorem test_widest_headers_well_formed :
    WellFormed (.load req0 63) = true ∧ WellFormed (.csWrite pkt0) = true ∧ WellFormed (.supervision 1 {} sup0) = true
      ∧ WellFormed (.announce 1 ptp0) = true := by decide

theorem test_frame_fields_refused :
    WellFormed (.load { req0 with dst := 256 } 0) = false ∧ WellFormed (.load { req0 with hops := 256 } 0) = false
      ∧ WellFormed (.load { req0 with seq := 65536 } 0) = false ∧ WellFormed (.abort { req0 with offset := 2 ^ 32 } 0 0 false) = false
      ∧ WellFormed (.csWrite { pkt0 with reserved := 16 }) = false ∧ WellFormed (.csWrite { pkt0 with poisonLines := 2 ^ 32 }) = false
      ∧ WellFormed (.csWrite { pkt0 with crc := some (2 ^ 32) }) = false ∧ WellFormed (.csWrite { pkt0 with blockErrors := [16] }) = false
      ∧ WellFormed (.ringFrameForward 0 { version := 256 } true) = false ∧ WellFormed (.ringFrameForward 0 { length := 65536 } true) = false
      ∧ WellFormed (.noticeBreak 0 { about := 256 } 0) = false ∧ WellFormed (.widthControlBlock { failed := 0, width := 5 }) = false := by decide

theorem test_request_headers_refused :
    WellFormed (.load { req0 with sa := 2 ^ 48 } 0) = false ∧ WellFormed (.arm { req0 with src := 256 } 0) = false
      ∧ WellFormed (.start { req0 with tid := 65536 } 0) = false ∧ WellFormed (.discover { req0 with level := 256 }) = false
      ∧ WellFormed (.align { req0 with port := 2 }) = false := by decide

theorem test_packets_refused :
    WellFormed (.csWrite { pkt0 with seq := 4096 }) = false ∧ WellFormed (.memWrite { pkt0 with addr := 2 ^ 64 }) = false
      ∧ WellFormed (.tsetWrite { pkt0 with count := 256 }) = false
      ∧ WellFormed (.memReadReq { pkt0 with lines := List.replicate 33 (List.replicate 8 {}) } []) = false
      ∧ WellFormed (.reservedPacket 9 { pkt0 with lines := [List.replicate 7 {}] }) = false := by decide

theorem test_ring_frames_refused :
    WellFormed (.ringFrameForward 0 { etherType := 65536 } true) = false ∧ WellFormed (.ringFrameForward 0 { type := 256 } true) = false
      ∧ WellFormed (.ringFrameForward 0 { sa := 2 ^ 48 } true) = false ∧ WellFormed (.ringFrameForward 0 { src := 256 } true) = false
      ∧ WellFormed (.ringFrameForward 0 { dst := 256 } true) = false ∧ WellFormed (.ringFrameForward 0 { hops := 256 } true) = false
      ∧ WellFormed (.ringFrameForward 0 { seq := 65536 } true) = false := by decide

theorem test_supervision_refused :
    WellFormed (.supervision 0 {} { uid := 2 ^ 64 }) = false ∧ WellFormed (.supervision 0 {} { uid := 0, station := 256 }) = false
      ∧ WellFormed (.supervision 0 {} { uid := 0, port := 256 }) = false ∧ WellFormed (.supervision 0 {} { uid := 0, lo := 16 }) = false
      ∧ WellFormed (.supervision 0 {} { uid := 0, hi := 16 }) = false
      ∧ WellFormed (.supervision 0 {} { uid := 0, ringState := 256 }) = false
      ∧ WellFormed (.supervision 0 {} { uid := 0, caps := 65536 }) = false := by decide

theorem test_walks_refused :
    WellFormed (.walk 0 {} { id := 65536, next := 0 }) = false ∧ WellFormed (.walk 0 {} { id := 0, next := 256 }) = false
      ∧ WellFormed (.walk 0 {} { id := 0, next := 0, records := [{ uid := 2 ^ 64, station := 0 }] }) = false
      ∧ WellFormed (.walk 0 {} { id := 0, next := 0, records := [{ uid := 0, station := 256 }] }) = false
      ∧ WellFormed (.walk 0 {} { id := 0, next := 0, records := [{ uid := 0, station := 0, part := 256 }] }) = false
      ∧ WellFormed (.walk 0 {} { id := 0, next := 0, records := [{ uid := 0, station := 0, grade := 256 }] }) = false
      ∧ WellFormed (.walk 0 {} { id := 0, next := 0, records := [{ uid := 0, station := 0, range := 256 }] }) = false
      ∧ WellFormed (.walk 0 {} { id := 0, next := 0, records := [{ uid := 0, station := 0, state := 256 }] }) = false
      ∧ WellFormed (.walk 0 {} { id := 0, next := 0, records := [{ uid := 0, station := 0, flags := 256 }] }) = false := by decide

theorem test_notices_refused :
    WellFormed (.noticeBreak 0 {} (2 ^ 64)) = false ∧ WellFormed (.noticeClose 0 {} (2 ^ 64)) = false
      ∧ WellFormed (.assign 0 {} (2 ^ 64) 0) = false ∧ WellFormed (.assign 0 {} 0 256) = false := by decide

theorem test_ptp_refused :
    WellFormed (.ptpSync 0 { domain := 256 }) = false ∧ WellFormed (.followUp 0 { clock := 2 ^ 64 }) = false
      ∧ WellFormed (.delayReq 0 { portNo := 65536 }) = false ∧ WellFormed (.delayResp 0 { seqId := 65536 }) = false
      ∧ WellFormed (.pdelayReq 0 { reqClock := 2 ^ 64 }) = false ∧ WellFormed (.pdelayResp 0 { reqPort := 65536 }) = false
      ∧ WellFormed (.announce 0 { gmIdentity := 2 ^ 64 }) = false ∧ WellFormed (.pdelayRespFollowUp 0 { domain := 256 }) = false := by
  decide

theorem test_times_refused :
    WellFormed (.serialLockLost 0 64) = false ∧ WellFormed (.cdrSlip 0 64) = false ∧ WellFormed (.comparatorEdge 0 true true 64 0) = false
      ∧ WellFormed (.comparatorEdge 0 true true 0 500) = false ∧ WellFormed (.monStateChange 0 2 64) = false
      ∧ WellFormed (.evtEdge 0 true 64) = false ∧ WellFormed (.serialBitReceived 0 true { beat := 64 }) = false
      ∧ WellFormed (.offsetAdj req0 (2 ^ 63)) = false ∧ WellFormed (.offsetAdj req0 (-(2 ^ 63) - 1)) = false
      ∧ WellFormed (.rateSet req0 (2 ^ 63)) = false ∧ WellFormed (.rateSet req0 (-(2 ^ 63) - 1)) = false
      ∧ WellFormed (.timeSet req0 (2 ^ 80)) = false := by decide

theorem test_states_refused :
    WellFormed (.monStateChange 0 1 0) = false ∧ WellFormed (.monStateChange 0 5 0) = false ∧ WellFormed (.supplyMonChange 0 1) = false
      ∧ WellFormed (.supplyMonChange 0 5) = false := by decide

theorem test_numbers_refused :
    WellFormed (.hostTrigger req0 0 (2 ^ 64)) = false ∧ WellFormed (.recordExported (2 ^ 32)) = false ∧ WellFormed (.slAck 4096) = false
      ∧ WellFormed (.slNak 4096) = false ∧ WellFormed (.slBringupDone 256 0) = false ∧ WellFormed (.slBringupDone 0 256) = false
      ∧ WellFormed (.laneFail 0 256) = false ∧ WellFormed (.restore req0 256) = false ∧ WellFormed (.widthChoice req0 256) = false
      ∧ WellFormed (.ackBatch req0 (2 ^ 64)) = false ∧ WellFormed (.faultRecovered 256 0) = false
      ∧ WellFormed (.decision req0 256) = false ∧ WellFormed (.raise req0 65536) = false ∧ WellFormed (.tail req0 (2 ^ 32)) = false := by
  decide

theorem test_dictionary_operands_refused :
    WellFormed (.read req0 65536 0) = false ∧ WellFormed (.read req0 0 256) = false ∧ WellFormed (.write req0 65536 0 []) = false
      ∧ WellFormed (.abort req0 0 256 false) = false ∧ WellFormed (.segmentAbandon 65536 0) = false
      ∧ WellFormed (.uploadRelease 0 256) = false ∧ WellFormed (.subscribe req0 0 0 (2 ^ 32)) = false
      ∧ WellFormed (.unsubscribe req0 0 256) = false ∧ WellFormed (.segment req0 0 0 (2 ^ 32) 0 false []) = false
      ∧ WellFormed (.segment req0 0 0 0 (2 ^ 32) false []) = false ∧ WellFormed (.segmentUpload req0 0 0 (2 ^ 32) 0) = false
      ∧ WellFormed (.segmentUpload req0 0 0 0 65536) = false ∧ WellFormed (.notifyConfirm 256 0) = false
      ∧ WellFormed (.notifyConfirm 0 65536) = false ∧ WellFormed (.notifyRetry 65536) = false := by decide

theorem test_long_values_refused :
    WellFormed (.write req0 0 0 (List.replicate 4097 0)) = false ∧ WellFormed (.segment req0 0 0 0 0 true (List.replicate 4097 0)) = false := by
  simp only [WellFormed, List.length_replicate]
  decide

theorem test_long_blobs_refused :
    WellFormed (.header req0 (List.replicate (2 ^ 24) 0)) = false ∧ WellFormed (.training req0 0 (List.replicate (2 ^ 24) 0)) = false
      ∧ WellFormed (.negotiate req0 (List.replicate (2 ^ 24) 0)) = false
      ∧ WellFormed (.blobImport req0 (List.replicate (2 ^ 24) 0)) = false := by
  simp only [WellFormed, List.length_replicate, Nat.lt_irrefl, decide_false, Bool.and_false, and_self]

theorem test_reading_counts_refused :
    WellFormed (.ageingRead [0, 0, 0, 0, 0, 0, 0]) = false ∧ WellFormed (.tempRead [0, 0, 0, 0, 0]) = false := by decide

/-! ### Values from the spec -/

/-- The four words of R505's table. -/
theorem test_check_bits :
    checkBits 0 = 0 ∧ checkBits 1 = 0x07 ∧ checkBits 0x8000000000000000 = 0x57 ∧ checkBits 0xFFFFFFFFFFFFFFFF = 0xD8 := by decide

/-- R505: H_1, H_4, H_55; and R23's poison pattern gives the syndrome 0xFF. -/
theorem test_columns : columns.getD 1 0 = 0x0B ∧ columns.getD 4 0 = 0x13 ∧ columns.getD 55 0 = 0xE0
    ∧ syndrome (poisonWord (encodeWord 0xDEADBEEF)) = 0xFF := by decide

/-- spec/05, "locating a stream": vectors 1,000-1,099 of a 20-pin site. -/
theorem test_block_span : blockSpan 20 1000 100 = (62, 7, 155, 18) := by decide

/-- spec/07, "a 5 V device through a front end": VTL 425,000 has code 5,632 and is exact, VTH 925,000 has code 9,045 and is realised
within 1 µV of 924,951 µV. -/
theorem test_thresholds : thresholdCode 425000 = 5632 ∧ realised64 425000 = 425000 * 64 ∧ thresholdCode 925000 = 9045
    ∧ realised64 925000 / 64 = 924951 := by decide

/-- spec/06, "800 ps vectors": the pair agrees, and at 2,849 tu its drive events would be less than 1,250 tu apart. -/
theorem test_agreement : agrees 3200 { drive := some (800, 2400), strobe := some (1600, 1600), subbeat := true } = true
    ∧ agrees 2849 { drive := some (800, 2400), strobe := some (1600, 1600), subbeat := true } = false
    ∧ agrees 3200 { drive := some (800, 2400), strobe := some (1600, 1600), subbeat := false } = false := by decide

/-- R74 by hand, with spec/03's CRC-17: from 0x1_0000 a 0 bit feeds the polynomial back, a 1 bit cancels the top bit. -/
theorem test_crc17 : (aluCrc 17 1 0x1685B 0 0x10000).val = 0x1685B ∧ (aluCrc 17 1 0x1685B 1 0x10000).val = 0 := by decide

/-- R73 by hand: LSR by 1 of 1 gives 0 with C set; ROR by 1 of 1 gives the top bit, which is C. -/
theorem test_shifts : aluShift 1 1 1 = { val := 0, z := some true, n := some false, c := some true }
    ∧ aluShift 3 1 1 = { val := 0x80000000, z := some false, n := some true, c := some true } := by decide

/-- R41: an instant in beat 47 commits at the tick that closes its frame, one in beat 48 a tick later. -/
theorem test_commit_ticks : commitTick 100 (47 * 5000) = 101 ∧ commitTick 100 (48 * 5000) = 102 := by decide

/-- R220: a codeword of the acquisition buffer with one bit in error is corrected, one with two is poisoned. -/
theorem test_buffer_words : bufferWord (encodeWord 5) 1 = encodeWord 5 ∧ bufferWord (encodeWord 5) (1 <<< 70) = encodeWord 5
    ∧ (bufferWord (encodeWord 5) 3).poison = true := by decide

end Sys2Proof.Tests
end

/-! SUPPORT. Fields of a word: their range, their joining, and the format of an instruction word (R39). -/

namespace Sys2Proof

/-! ### Fields of a word of any width -/

section Fields
variable {n : Nat} (x : BitVec n)

theorem bits_lt (hi lo : Nat) : bits x hi lo < 2 ^ (hi + 1 - lo) :=
  Nat.mod_lt _ (Nat.two_pow_pos _)

/-- The field from bit 0 to the top bit is the whole word. -/
theorem bits_top_zero {hi : Nat} (h : hi + 1 = n) : bits x hi 0 = x.toNat := by
  subst h
  rw [bits, Nat.pow_zero, Nat.div_one]
  exact Nat.mod_eq_of_lt x.isLt

/-- A field is the join of its bits above bit `m` and its bits up to bit `m`. -/
theorem bits_split {hi m lo : Nat} (hlo : lo ≤ m) (hhi : m ≤ hi) :
    bits x hi lo = bits x hi (m + 1) * 2 ^ (m + 1 - lo) + bits x m lo := by
  have widths : 2 ^ (hi + 1 - lo) = 2 ^ (m + 1 - lo) * 2 ^ (hi + 1 - (m + 1)) := by
    rw [← Nat.pow_add]; congr 1; omega
  have bases : 2 ^ lo * 2 ^ (m + 1 - lo) = 2 ^ (m + 1) := by
    rw [← Nat.pow_add]; congr 1; omega
  unfold bits
  rw [widths, Nat.mod_mul, Nat.div_div_eq_div_mul, bases, Nat.mul_comm, Nat.add_comm]

/-- A single bit, read as a number, is the field of width 1 at its place. -/
theorem toNat_bit (i : Nat) : (bit x i).toNat = bits x i i := by
  rw [bit, ← BitVec.testBit_toNat, Nat.toNat_testBit, bits, Nat.add_sub_cancel_left, Nat.pow_one]

end Fields

/-! ### The instruction word -/

section Format
open Machine

/-- The fields of R39, in order, make up the whole word: each step cuts the highest field off what is left. -/
theorem toNat_eq_fields (w : Word64) :
    w.toNat = opcodeOf w * 2 ^ 56 + condOf w * 2 ^ 53 + (clrfOf w).toNat * 2 ^ 52 + bits w 51 48 * 2 ^ 48 + bits w 47 0 := by
  have whole : bits w 63 0 = w.toNat := bits_top_zero w rfl
  have opcode : bits w 63 0 = opcodeOf w * 2 ^ 56 + bits w 55 0 := bits_split w (by decide) (by decide)
  have cond : bits w 55 0 = condOf w * 2 ^ 53 + bits w 52 0 := bits_split w (by decide) (by decide)
  have clrf : bits w 52 0 = (clrfOf w).toNat * 2 ^ 52 + bits w 51 0 := by
    rw [clrfOf, toNat_bit]
    exact bits_split w (by decide) (by decide)
  have reserved : bits w 51 0 = bits w 51 48 * 2 ^ 48 + bits w 47 0 := bits_split w (by decide) (by decide)
  rw [← whole, opcode, cond, clrf, reserved]
  simp only [Nat.add_assoc]

/-- Settles O58 (R39): the fields make up the word, and each stays within its width. -/
theorem instructionWordFormat : Obligations.InstructionWordFormat := by
  unfold Obligations.InstructionWordFormat
  intro w
  exact ⟨toNat_eq_fields w, bits_lt w 63 56, bits_lt w 55 53, bits_lt w 51 48, bits_lt w 47 0⟩

end Format

end Sys2Proof

/-! SUPPORT. The registers a microword that issues acts on, and the shifts (R73). -/

namespace Sys2Proof.Machine

/-! ### The registers a microword acts on -/

/-- A microword that does not branch takes one cycle (R72). -/
theorem microCost_false : microCost false = 1 := rfl

section Issued
variable {s : State} {c k : Nat}

/-- A change of the registers by a microword is a change of those the context had before it issued. -/
theorem State.modMs_issued (idle : (s.ctx c).wait = none) (g : MicroState → MicroState) :
    (s.issued c k).modMs c g = (s.issued c k).modMs c fun _ => g (s.ctx c).ms := by
  rw [← State.issued_ms (k := k) idle]
  rfl

/-- The detection address of a microword that executes as NOP is the PC it had before it issued. -/
theorem State.nopFault_issued (idle : (s.ctx c).wait = none) (code : Nat) :
    (s.issued c k).nopFault c code = ((s.issued c k).holdFault c code (s.ctx c).ms.pc).modMs c MicroState.step := by
  rw [State.nopFault, State.hold, State.issued_ms idle]

end Issued

/-- Where a result sets Z and N by its value and C apart, V stays (R72). -/
theorem MicroState.alu_step_eq_result (m : MicroState) (d : Nat) (x : Word32) (cf : Bool) :
    (m.alu (some d) { aluZN x with c := some cf }).step = m.result d x (x == 0) (x.getLsbD 31) cf m.v := rfl

/-! ### Type and amount of a shift -/

section Form
variable {m : MicroState} {f : BitVec 26}

/-- In immediate form, or in register form with B[4] = 0, the type is B[6:5] and the amount is that of its form. -/
theorem shiftForm_eq_some (reserved : bits f 16 7 = 0) (legal : fImm f = true ∨ bit f 4 = false) :
    shiftForm m f = some (bits f 6 5, if fImm f = true then bits f 4 0 else (m.reg (bits f 3 0)).toNat % 32) := by
  rw [shiftForm, if_neg (not_not_intro reserved)]
  cases imm : fImm f with
  | true => rfl
  | false =>
    have b4 : bit f 4 = false := legal.resolve_left (by simp [imm])
    simp [b4]

/-- Register form with B[4] set is no shift. -/
theorem shiftForm_eq_none (imm : fImm f = false) (b4 : bit f 4 = true) : shiftForm m f = none := by
  simp [shiftForm, imm, b4]

end Form

/-! ### Result and flags by type -/

section Result
variable {k : Nat} (a : Word32)

theorem aluShift_zero (t : Nat) : aluShift t 0 a = { aluZN a with c := some false } := rfl

theorem aluShift_lsl (h : k ≠ 0) : aluShift 0 k a = { aluZN (a <<< k) with c := some (a.getLsbD (32 - k)) } := if_neg h

theorem aluShift_lsr (h : k ≠ 0) : aluShift 1 k a = { aluZN (a >>> k) with c := some (a.getLsbD (k - 1)) } := if_neg h

theorem aluShift_asr (h : k ≠ 0) : aluShift 2 k a = { aluZN (a.sshiftRight k) with c := some (a.getLsbD (k - 1)) } := if_neg h

theorem aluShift_ror (h : k ≠ 0) :
    aluShift 3 k a = { aluZN (a.rotateRight k) with c := some ((a.rotateRight k).getLsbD 31) } := if_neg h

end Result

/-! ### The microword SHF -/

section Shf
variable {s : State} {c : CtxId} {f : BitVec 26}

/-- The meaning of SHF in the dispatch. -/
theorem exec_shf (s : State) (c : CtxId) (f : BitVec 26) : exec (.shf c f) s = execShf c f s := rfl

/-- A shift that issues takes one cycle and writes its result and flags. -/
theorem exec_shf_of_form {t k : Nat} (h : s.Issues c 0x08 f 1) (form : shiftForm (s.ctx c).ms f = some (t, k)) :
    exec (.shf c f) s = .next ((s.issued c 1).modMs c fun _ =>
      ((s.ctx c).ms.alu (some (fD f)) (aluShift t k ((s.ctx c).ms.reg (fA f)))).step) := by
  rw [exec_shf, execShf, State.micro_issues (taken := false) h,
    ← State.modMs_issued h.idle fun m => (m.alu (some (fD f)) (aluShift t k (m.reg (fA f)))).step]
  simp only [microCost_false, State.issued_ms h.idle, form]

/-- An SHF that issues with an operand that is no shift holds ILLEGAL_MICROWORD and goes on. -/
theorem exec_shf_of_no_form (h : s.Issues c 0x08 f 1) (form : shiftForm (s.ctx c).ms f = none) :
    exec (.shf c f) s = .next (((s.issued c 1).holdFault c fMicro (s.ctx c).ms.pc).modMs c MicroState.step) := by
  rw [exec_shf, execShf, State.micro_issues (taken := false) h, ← State.nopFault_issued h.idle fMicro]
  simp only [microCost_false, State.issued_ms h.idle, form]

/-- A shift whose result is x with carry cf. -/
theorem exec_shf_result {t k : Nat} {x : Word32} {cf : Bool} (h : s.Issues c 0x08 f 1)
    (form : shiftForm (s.ctx c).ms f = some (t, k))
    (result : aluShift t k ((s.ctx c).ms.reg (fA f)) = { aluZN x with c := some cf }) :
    exec (.shf c f) s = .next ((s.issued c 1).modMs c fun _ =>
      (s.ctx c).ms.result (fD f) x (x == 0) (x.getLsbD 31) cf (s.ctx c).ms.v) := by
  rw [exec_shf_of_form h form, result, MicroState.alu_step_eq_result]

end Shf

/-- Settles O59 (R73): the operand gives the type and amount, and each type its result and carry. -/
theorem shiftsFollowTheirType : Obligations.ShiftsFollowTheirType := by
  unfold Obligations.ShiftsFollowTheirType
  intro s c f h reserved m a k put
  refine ⟨fun legal => ?_, fun imm b4 => ?_⟩
  · have form : shiftForm m f = some (bits f 6 5, k) := shiftForm_eq_some reserved legal
    refine ⟨fun amount => ?_, fun amount => ⟨fun type => ?_, fun type => ?_, fun type => ?_, fun type => ?_⟩⟩
    · rw [amount] at form
      exact exec_shf_result h form (aluShift_zero a _)
    all_goals rw [type] at form
    · exact exec_shf_result h form (aluShift_lsl a amount)
    · exact exec_shf_result h form (aluShift_lsr a amount)
    · exact exec_shf_result h form (aluShift_asr a amount)
    · exact exec_shf_result h form (aluShift_ror a amount)
  · exact exec_shf_of_no_form h (shiftForm_eq_none imm b4)

end Sys2Proof.Machine

/-! SUPPORT. Identity reads (R338): a request taken from the ring, numbers as bytes, and the right to a sub. -/

namespace Sys2Proof.Machine

/-! ### A request taken from the ring -/

section Taken
variable (s : State) (r : Req)

/-- Taking a request from the ring may change time and the ring, and nothing else but counters. -/
theorem State.queuedOne_keeps : Keeps (fun p => p = .time ∨ p = .ring) s (s.queuedOne r) :=
  State.peak_keeps (State.arrives_keeps (.inl rfl) (.inr rfl) Keeps.refl)

@[simp] theorem State.queuedOne_mode : (s.queuedOne r).mode = s.mode :=
  ((s.queuedOne_keeps r).parts .device (by simp)).1

@[simp] theorem State.queuedOne_uid : (s.queuedOne r).uid = s.uid := (s.queuedOne_keeps r).die.2.2.1

@[simp] theorem State.taken_uid : (s.taken r).uid = s.uid := s.queuedOne_uid r

end Taken

/-- The responder runs in no state but one in which the device has power. -/
theorem State.mode_ne_off_of_responds {s : State} (h : s.responds = true) : s.mode ≠ .off := by
  simp only [State.responds, Bool.and_eq_true, decide_eq_true_eq] at h
  exact h.1

/-! ### A natural number as bytes -/

/-- n bytes spell a number modulo 256 to the n. -/
theorem beBytes_mod (n x : Nat) : beBytes n (x % 256 ^ n) = beBytes n x := by
  induction n generalizing x with
  | zero => rfl
  | succ n ih =>
    have high : BitVec.ofNat 8 (x % 256 ^ (n + 1) / 256 ^ n) = BitVec.ofNat 8 (x / 256 ^ n) := by
      rw [pow_succ, Nat.mod_mul_right_div_self]
      exact BitVec.eq_of_toNat_eq (by simp)
    have low : beBytes n (x % 256 ^ (n + 1)) = beBytes n x := by
      rw [← ih (x % 256 ^ (n + 1)), Nat.mod_mod_of_dvd _ (pow_dvd_pow 256 n.le_succ), ih]
    rw [beBytes, high, low, beBytes]

/-- A number that is not negative travels as its bytes (R343). -/
theorem encodeInt_natCast (n x : Nat) : encodeInt n (x : Int) = beBytes n x := by
  rw [encodeInt, ← Int.natCast_mod, Int.toNat_natCast, beBytes_mod]

/-! ### READ and WRITE by the right to the sub -/

section Bodies
variable {s : State} {r : Req} {i j : Nat}

/-- A read of a sub that no read clears leaves the state (R344). -/
theorem State.clearRead_of_ne_rc {d : SubRow} (row : findSub i j = some d) (kind : d.acc ≠ .rc) : s.clearRead i j = s := by
  simp only [State.clearRead, row, ne_eq, kind, not_false_eq_true, if_true]

/-- A number travels in the bytes of its type (R343). -/
theorem State.valueOf_numeric {d : SubRow} (row : findSub i j = some d) (num : d.ty.numeric = true) :
    s.valueOf i j = encodeInt d.ty.bytes (s.readNum i j) := by
  simp only [State.valueOf, row, num, if_true]

/-- A READ with the right to it, of an object that no other requester holds, answers its value where that is short enough (R351). -/
theorem State.readBody_of_right (right : readRight i j = 0) (free : s.snapshotOf r.sa i j = false) (short : s.valueLength i j ≤ 4096) :
    State.readBody r i j s = ({ data := (s.takeValue i j).1 }, (s.takeValue i j).2) := by
  simp only [State.readBody, right, free, ne_eq, not_true_eq_false, Bool.false_eq_true, if_false, gt_iff_lt, Nat.not_lt.mpr short]

/-- A WRITE without the right to it changes nothing (R506, rows 5 and 6). -/
theorem State.writeBody_of_no_right (b : List Byte) (right : writeRight i j ≠ 0) :
    State.writeBody r i j b s = ({ status := writeRight i j }, s) := by
  simp only [State.writeBody, right, ne_eq, not_false_eq_true, if_true]

end Bodies

/-! ### The silicon identity -/

/-- A READ of the silicon identity. -/
def identityAsk : Ask := { service := 1, index := 0x1001, sub := 1 }

/-- The row of SILICON_UID in the dictionary: 64 bits, read-only. -/
theorem findSub_identity : findSub 0x1001 1 = some { n := 1, ty := .u64, acc := .ro } := rfl

theorem readRight_identity : readRight 0x1001 1 = 0 := rfl

theorem writeRight_identity : writeRight 0x1001 1 = 0x0103 := rfl

section Identity
variable (s : State)

/-- The identity is the number in the fuses. -/
theorem State.readNum_identity : s.readNum 0x1001 1 = (s.uid : Int) := rfl

theorem State.valueOf_identity : s.valueOf 0x1001 1 = beBytes 8 s.uid := by
  rw [State.valueOf_numeric findSub_identity rfl, State.readNum_identity]
  exact encodeInt_natCast 8 s.uid

theorem State.valueLength_identity : s.valueLength 0x1001 1 = 8 := by
  rw [State.valueLength, if_neg (by decide), State.valueOf_identity, beBytes_length]

theorem State.takeValue_identity : s.takeValue 0x1001 1 = (beBytes 8 s.uid, s) := by
  rw [State.takeValue, if_neg (by decide), State.valueOf_identity, State.clearRead_of_ne_rc findSub_identity (by decide)]

variable {s} {r : Req}

/-- Every device state but OFF serves a read of the identity (R338, R469, R471). -/
theorem State.served_identity (on : s.mode ≠ .off) : s.served identityAsk = true := by
  unfold State.served
  cases mode : s.mode with
  | off => exact absurd mode on
  | coldStart => by_cases early : s.start.step < 5 <;> simp [early, Ask.reads, identityAsk]
  | warmStart | service | sleep | safeHalt => rfl

theorem State.gate_identity (header : r.badHeader = false) (level : s.levelOk r identityAsk = true) (on : s.mode ≠ .off) :
    s.gate r identityAsk = 0 := by
  simp [State.gate, header, level, State.served_identity on]

theorem State.readBody_identity (free : s.snapshotOf r.sa 0x1001 1 = false) :
    State.readBody r 0x1001 1 s = ({ data := beBytes 8 s.uid }, s) := by
  rw [State.readBody_of_right readRight_identity free (by rw [State.valueLength_identity]; decide), State.takeValue_identity]

end Identity

/-! ### The two requests -/

section Requests
variable {s : State} {r : Req}

/-- A READ of the identity that is carried out answers the fuses. -/
theorem State.hostRead_identity (h : s.Carries r identityAsk) (free : (s.taken r).snapshotOf r.sa 0x1001 1 = false) :
    s.hostRead r 0x1001 1 = (s.taken r).answered r identityAsk { data := beBytes 8 s.uid } := by
  have body := State.readBody_identity free
  rw [State.taken_uid] at body
  show s.serve r identityAsk _ = _
  rw [State.serve_carried h (by rw [body]), body]

/-- A WRITE of a sub without the right to it is answered so. -/
theorem State.hostWrite_of_no_right {i j : Nat} (h : s.Carries r (writeAsk i j)) (b : List Byte) (right : writeRight i j ≠ 0) :
    s.hostWrite r i j b = (s.taken r).answered r (writeAsk i j) { status := writeRight i j } := by
  have body := State.writeBody_of_no_right (s := s.taken r) (r := r) b right
  show s.serve r (writeAsk i j) _ = _
  rw [State.serve_carried h (by rw [body]), body]

end Requests

/-- Settles O60 (R338): every device state in which the responder runs serves the read, whose value is the fuses; a write fails on the right. -/
theorem identityReadsInEveryState : Obligations.IdentityReadsInEveryState := by
  unfold Obligations.IdentityReadsInEveryState
  intro s r u rd
  refine ⟨fun runs consumed room fresh header level free => ?_, fun carries b => ?_⟩
  · have on : (s.queuedOne r).mode ≠ .off := by
      rw [State.queuedOne_mode]
      exact State.mode_ne_off_of_responds runs
    exact congrArg _ (State.hostRead_identity ⟨runs, consumed, room, fresh, State.gate_identity header level on⟩ free)
  · exact congrArg _ (State.hostWrite_of_no_right carries b (by rw [writeRight_identity]; decide))

end Sys2Proof.Machine

/-! SUPPORT. Every command: what it keeps of the state, and that it goes on. -/

namespace Sys2Proof.Machine

/-! ### What every command keeps -/

/-- A part that the list of a command holds. -/
theorem mem_mayChange {c : Instr} {p : Part} (h : (mayChange c).elem p = true) : p ∈ mayChange c := List.mem_of_elem_eq_true h

/-- Every command keeps the fuses, the queue, the canonical form and the parts that are not in its list: each row by the lemma of its meaning, whose
premises ask for the parts it writes. -/
theorem exec_keeps (c : Instr) (s : State) : KeepsOut (· ∈ mayChange c) s (exec c s) := by
  cases c
  case' frameTick => apply execFrameTick_keeps
  case' startTakesEffect => apply execStartTakesEffect_keeps
  case' refclkLost => apply execRefclkLost_keeps
  case' longHoldover => apply execLongHoldover_keeps
  case' refclkRelocked => apply execRefclkRelocked_keeps
  case' hostDeadline => apply execHostDeadline_keeps
  case' load => apply execLoad_keeps
  case' arm => apply execArm_keeps
  case' start => apply execStart_keeps
  case' haltCommand => apply execHaltCommand_keeps
  case' reset => apply execReset_keeps
  case' release => apply execRelease_keeps
  case' sealHalted => apply execSealHalted_keeps
  case' disarm => apply execDisarm_keeps
  case' vec => apply execVec_keeps
  case' rpt => apply execRpt_keeps
  case' loop => apply execLoop_keeps
  case' endl => apply execEndl_keeps
  case' call => apply execCall_keeps
  case' ret => apply execRet_keeps
  case' jmp => apply execJmp_keeps
  case' jfail => apply execJfail_keeps
  case' jevt => apply execJevt_keeps
  case' matchI => apply execMatchI_keeps
  case' waitHold => apply execWaitHold_keeps
  case' waitTime => apply execWaitTime_keeps
  case' tset => apply execTset_keeps
  case' period => apply execPeriod_keeps
  case' capStop => apply execCapStop_keeps
  case' capStart => apply execCapStart_keeps
  case' capPause => apply execCapPause_keeps
  case' capResume => apply execCapResume_keeps
  case' capCommit => apply execCapCommit_keeps
  case' meas => apply execMeas_keeps
  case' trigArm => apply execTrigArm_keeps
  case' trigFire => apply execTrigFire_keeps
  case' trigDisarm => apply execTrigDisarm_keeps
  case' sync => apply execSync_keeps
  case' event => apply execEvent_keeps
  case' serialEnter => apply execSerialEnter_keeps
  case' serialLeave => apply execSerialLeave_keeps
  case' sealI => apply execSealI_keeps
  case' halt => apply execHalt_keeps
  case' yield => apply execYield_keeps
  case' cust => apply execCust_keeps
  case' drainDecision => apply execDrainDecision_keeps
  case' matched => apply execMatched_keeps
  case' matchTimeout => apply execMatchTimeout_keeps
  case' syncPost => apply execSyncPost_keeps
  case' syncAgreement => apply execSyncAgreement_keeps
  case' syncTimeout => apply execSyncTimeout_keeps
  case' resumeTick => apply execResumeTick_keeps
  case' verdictRecord => apply execVerdictRecord_keeps
  case' playoutEnd => apply execPlayoutEnd_keeps
  case' nop => apply execNop_keeps
  case' mov => apply execMov_keeps
  case' movh => apply execMovh_keeps
  case' add => apply execAdd_keeps
  case' sub => apply execSub_keeps
  case' and => apply execAnd_keeps
  case' or => apply execOr_keeps
  case' xor => apply execXor_keeps
  case' shf => apply execShf_keeps
  case' cmp => apply execCmp_keeps
  case' crc => apply execCrc_keeps
  case' br => apply execBr_keeps
  case' callu => apply execCallu_keeps
  case' retu => apply execRetu_keeps
  case' fetch => apply execFetch_keeps
  case' fetchData => apply execFetchData_keeps
  case' ldt => apply execLdt_keeps
  case' stt => apply execStt_keeps
  case' emitStream => apply execEmitStream_keeps
  case' emitRepeat => apply execEmitRepeat_keeps
  case' emitLiteral => apply execEmitLiteral_keeps
  case' emitHold => apply execEmitHold_keeps
  case' emitPeriod => apply execEmitPeriod_keeps
  case' emitTset => apply execEmitTset_keeps
  case' waitc => apply execWaitc_keeps
  case' waitcWake => apply execWaitcWake_keeps
  case' waitcTimeout => apply execWaitcTimeout_keeps
  case' evt => apply execEvt_keeps
  case' capcStop => apply execCapcStop_keeps
  case' capcStart => apply execCapcStart_keeps
  case' capcPause => apply execCapcPause_keeps
  case' capcResume => apply execCapcResume_keeps
  case' capcCommit => apply execCapcCommit_keeps
  case' capcMark => apply execCapcMark_keeps
  case' post => apply execPost_keeps
  case' endI => apply execEndI_keeps
  case' watchdog => apply execWatchdog_keeps
  case' savingDone => apply execSavingDone_keeps
  case' csRestart => apply execCsRestart_keeps
  case' header => apply execHeader_keeps
  case' custOpen => apply execCustOpen_keeps
  case' custClose => apply execCustClose_keeps
  case' custCloseDone => apply execCustCloseDone_keeps
  case' custClear => apply execCustClear_keeps
  case' dispatch => apply execDispatch_keeps
  case' caravanRelease => apply execCaravanRelease_keeps
  case' caravanStall => apply execCaravanStall_keeps
  case' descriptorTake => apply execDescriptorTake_keeps
  case' lineReadIssue => apply execLineReadIssue_keeps
  case' lineReadReturn => apply execLineReadReturn_keeps
  case' vectorStart => apply execVectorStart_keeps
  case' starveResume => apply execStarveResume_keeps
  case' tsetWrite => apply execTsetWrite_keeps
  case' serialSessionStart => apply execSerialSessionStart_keeps
  case' serialSessionEnd => apply execSerialSessionEnd_keeps
  case' serialLock => apply execSerialLock_keeps
  case' serialLockLost => apply execSerialLockLost_keeps
  case' serialLockTimeout => apply execSerialLockTimeout_keeps
  case' cdrSlip => apply execCdrSlip_keeps
  case' serialUnderrun => apply execSerialUnderrun_keeps
  case' comparatorEdge => apply execComparatorEdge_keeps
  case' monEnable => apply execMonEnable_keeps
  case' monStateChange => apply execMonStateChange_keeps
  case' monForced => apply execMonForced_keeps
  case' supplyMonChange => apply execSupplyMonChange_keeps
  case' supplyMonForced => apply execSupplyMonForced_keeps
  case' tuArm => apply execTuArm_keeps
  case' tuFire => apply execTuFire_keeps
  case' tuDisarm => apply execTuDisarm_keeps
  case' holdoffEnd => apply execHoldoffEnd_keeps
  case' autoTrigger => apply execAutoTrigger_keeps
  case' hostTrigger => apply execHostTrigger_keeps
  case' recordExported => apply execRecordExported_keeps
  case' gateOpen => apply execGateOpen_keeps
  case' gateClose => apply execGateClose_keeps
  case' vernierDone => apply execVernierDone_keeps
  case' dramAlert => apply execDramAlert_keeps
  case' replayDone => apply execReplayDone_keeps
  case' retrainDone => apply execRetrainDone_keeps
  case' retrainTimeout => apply execRetrainTimeout_keeps
  case' escalateWindowEnd => apply execEscalateWindowEnd_keeps
  case' refreshDue => apply execRefreshDue_keeps
  case' mr4Read => apply execMr4Read_keeps
  case' powerDown => apply execPowerDown_keeps
  case' training => apply execTraining_keeps
  case' memWrite => apply execMemWrite_keeps
  case' memReadReq => apply execMemReadReq_keeps
  case' csWrite => apply execCsWrite_keeps
  case' slAck => apply execSlAck_keeps
  case' slNak => apply execSlNak_keeps
  case' slAckTimeout => apply execSlAckTimeout_keeps
  case' slBringupDone => apply execSlBringupDone_keeps
  case' laneFail => apply execLaneFail_keeps
  case' slDegradeDone => apply execSlDegradeDone_keeps
  case' slHoldIn => apply execSlHoldIn_keeps
  case' restore => apply execRestore_keeps
  case' widthChoice => apply execWidthChoice_keeps
  case' convoyWord => apply execConvoyWord_keeps
  case' align => apply execAlign_keeps
  case' supervision => apply execSupervision_keeps
  case' supervisionSend => apply execSupervisionSend_keeps
  case' linkLost => apply execLinkLost_keeps
  case' closeTimer => apply execCloseTimer_keeps
  case' rateChangeTimeout => apply execRateChangeTimeout_keeps
  case' walk => apply execWalk_keeps
  case' noticeBreak => apply execNoticeBreak_keeps
  case' noticeClose => apply execNoticeClose_keeps
  case' assign => apply execAssign_keeps
  case' ringFrameForward => apply execRingFrameForward_keeps
  case' read => apply execRead_keeps
  case' write => apply execWrite_keeps
  case' segment => apply execSegment_keeps
  case' segmentUpload => apply execSegmentUpload_keeps
  case' abort => apply execAbort_keeps
  case' segmentAbandon => apply execSegmentAbandon_keeps
  case' uploadRelease => apply execUploadRelease_keeps
  case' subscribe => apply execSubscribe_keeps
  case' unsubscribe => apply execUnsubscribe_keeps
  case' publication => apply execPublication_keeps
  case' notifyConfirm => apply execNotifyConfirm_keeps (a1 := 0)
  case' notifyRetry => apply execNotifyRetry_keeps
  case' negotiate => apply execNegotiate_keeps
  case' discover => apply execDiscover_keeps
  case' coldStart => apply execColdStart_keeps
  case' warmStart => apply execWarmStart_keeps
  case' sleep => apply execSleep_keeps
  case' wake => apply execWake_keeps
  case' ptpSync => apply execPtpSync_keeps
  case' followUp => apply execFollowUp_keeps
  case' delayReq => apply execDelayReq_keeps
  case' delayResp => apply execDelayResp_keeps
  case' pdelayReq => apply execPdelayReq_keeps
  case' pdelayResp => apply execPdelayResp_keeps
  case' pdelayRespFollowUp => apply execPdelayRespFollowUp_keeps
  case' announce => apply execAnnounce_keeps
  case' ptpSyncSend => apply execPtpSyncSend_keeps
  case' announceSend => apply execAnnounceSend_keeps
  case' pdelayReqSend => apply execPdelayReqSend_keeps
  case' delayReqSend => apply execDelayReqSend_keeps
  case' announceReceiptTimeout => apply execAnnounceReceiptTimeout_keeps
  case' ptpSyncTimeout => apply execPtpSyncTimeout_keeps
  case' holdoverLimit => apply execHoldoverLimit_keeps
  case' pdelayFail => apply execPdelayFail_keeps
  case' hostLockTimeout => apply execHostLockTimeout_keeps
  case' slewEnd => apply execSlewEnd_keeps
  case' stepApply => apply execStepApply_keeps
  case' offsetAdj => apply execOffsetAdj_keeps
  case' rateSet => apply execRateSet_keeps
  case' timeSet => apply execTimeSet_keeps
  case' timeTrigger => apply execTimeTrigger_keeps
  case' ppsPulse => apply execPpsPulse_keeps
  case' evtEdge => apply execEvtEdge_keeps
  case' calStart => apply execCalStart_keeps
  case' calCancel => apply execCalCancel_keeps
  case' calStepDone => apply execCalStepDone_keeps
  case' calDomainCommit => apply execCalDomainCommit_keeps
  case' driftMeasurement => apply execDriftMeasurement_keeps
  case' blobExport => apply execBlobExport_keeps
  case' blobImport => apply execBlobImport_keeps
  case' coeffs => apply execCoeffs_keeps
  case' calHostTimeout => apply execCalHostTimeout_keeps
  case' ageingRead => apply execAgeingRead_keeps
  case' tempRead => apply execTempRead_keeps
  case' verdictHandover => apply execVerdictHandover_keeps
  case' batchClose => apply execBatchClose_keeps
  case' batchSign => apply execBatchSign_keeps
  case' verdictResend => apply execVerdictResend_keeps
  case' ackBatch => apply execAckBatch_keeps
  case' drbgReseed => apply execDrbgReseed_keeps
  case' windowOpen => apply execWindowOpen_keeps
  case' windowFree => apply execWindowFree_keeps
  case' windowAbandon => apply execWindowAbandon_keeps
  case' advance => apply execAdvance_keeps
  case' interruptedSeal => apply execInterruptedSeal_keeps
  case' faultDecision => apply execFaultDecision_keeps
  case' faultRecovered => apply execFaultRecovered_keeps
  case' decision => apply execDecision_keeps
  case' queuedFaultTimeout => apply execQueuedFaultTimeout_keeps
  case' supplyFaultTimeout => apply execSupplyFaultTimeout_keeps
  case' raise => apply execRaise_keeps
  case' tail => apply execTail_keeps
  case' resetN => apply execResetN_keeps
  case' warmN => apply execWarmN_keeps
  case' pwrWarnN => apply execPwrWarnN_keeps
  case' powerWarningCleared => apply execPowerWarningCleared_keeps
  case' coldStartStepDone => apply execColdStartStepDone_keeps
  case' warmStartStepDone => apply execWarmStartStepDone_keeps
  case' safeHaltEntry => apply execSafeHaltEntry_keeps
  case' sleepDrainDone => apply execSleepDrainDone_keeps
  case' sleepAbandoned => apply execSleepAbandoned_keeps
  case' wakeStepDone => apply execWakeStepDone_keeps
  case' bypass => apply execBypass_keeps
  case' idcode => apply execIdcode_keeps
  case' samplePreload => apply execSamplePreload_keeps
  case' extest => apply execExtest_keeps
  case' highz => apply execHighz_keeps
  case' clamp => apply execClamp_keeps
  case' extestPulse => apply execExtestPulse_keeps
  case' extestTrain => apply execExtestTrain_keeps
  case' refclkPresent => apply execRefclkPresent_keeps
  case' powerLoss => apply execPowerLoss_keeps
  case' pcsSynchronised => apply execPcsSynchronised_keeps
  case' packetCrcError => apply execPacketCrcError_keeps
  case' reservedPacket => apply execReservedPacket_keeps
  case' widthControlBlock => apply execWidthControlBlock_keeps
  case' serialBitReceived => apply execSerialBitReceived_keeps
  case' wordSlot => apply execWordSlot_keeps
  case' thermNChange => apply execThermNChange_keeps
  any_goals exact Keeps.refl
  all_goals exact mem_mayChange rfl

/-- Settles O6: a command keeps every part that is not in its list. -/
theorem onlyItsPartsChange : Obligations.OnlyItsPartsChange := by
  unfold Obligations.OnlyItsPartsChange
  intro c s t h p notListed
  exact (exec_keeps c s t h).parts p notListed

/-- Settles O5: no command is given the fuses or the queue. -/
theorem everyCommandKeepsFusesAndQueue : Obligations.EveryCommandKeepsFusesAndQueue := by
  unfold Obligations.EveryCommandKeepsFusesAndQueue
  intro c s t h
  exact (exec_keeps c s t h).die

/-! ### Steps and reset -/

/-- The canonical form says nothing of the queue. -/
theorem State.canonical_pending (s : State) (q : List Instr) : ({ s with pending := q } : State).canonical = s.canonical := rfl

/-- A step with a command at the front runs it. -/
theorem step_cons {s : State} {c : Instr} {q : List Instr} (h : s.pending = c :: q) : step s = exec c { s with pending := q } := by
  unfold step
  rw [h]

/-- A step on an empty queue idles. -/
theorem step_nil {s : State} (h : s.pending = []) : step s = .next s := by
  unfold step
  rw [h]

/-- Settles O1. -/
theorem stepRunsFront : Obligations.StepRunsFront := by
  unfold Obligations.StepRunsFront
  intro s c q h
  exact step_cons h

/-- Settles O4: a step idles or runs a command, which keeps the form. -/
theorem everyStepKeepsCanonical : Obligations.EveryStepKeepsCanonical := by
  unfold Obligations.EveryStepKeepsCanonical
  intro s t canonical h
  cases queue : s.pending with
  | nil =>
    rw [step_nil queue] at h
    cases h
    exact canonical
  | cons c q =>
    rw [step_cons queue] at h
    refine (exec_keeps c _ t h).canon ?_
    rw [State.canonical_pending]
    exact canonical

/-- Settles O3: every table is empty after reset. -/
theorem resetCanonical : Obligations.ResetCanonical := by
  unfold Obligations.ResetCanonical
  decide

/-- Settles O2: every part reads its default after reset. -/
theorem resetState : Obligations.ResetState := by
  unfold Obligations.ResetState
  exact ⟨rfl, rfl, rfl, fun _ => rfl, fun _ => ⟨rfl, rfl⟩, fun _ => rfl, fun _ => rfl, rfl, rfl, rfl, rfl, rfl, fun _ => rfl, rfl, rfl, fun _ _ => rfl,
    fun _ _ => rfl, fun _ => rfl, rfl, rfl⟩

/-! ### Every command goes on -/

theorem goesOn_next (t : State) : goesOn (.next t) := ⟨t, rfl⟩

theorem goesOn_ite {p : Prop} [Decidable p] {a b : Out} (ha : goesOn a) (hb : goesOn b) : goesOn (if p then a else b) := by
  split
  · exact ha
  · exact hb

theorem goesOn_choice {p : Prop} [Decidable p] (a b : State) : goesOn (if p then .next a else .next b) :=
  goesOn_ite (goesOn_next a) (goesOn_next b)

/-- An instruction goes on whatever its body has done. -/
theorem State.instr_goesOn (s : State) (n : Nat) (w : Word64) (op cost : Nat) (early : Bool) (body : State → Nat → Done) :
    goesOn (s.instr n w op cost early body) := by
  unfold State.instr
  refine goesOn_ite (goesOn_next _) <| goesOn_ite (goesOn_next _) <| goesOn_ite (goesOn_next _) <| goesOn_ite (goesOn_next _) <|
    goesOn_ite (goesOn_next _) <| goesOn_ite (goesOn_next _) ?_
  extract_lets _ _ u
  cases body u _ with
  | drain => exact goesOn_choice _ _
  | _ => exact goesOn_next _

/-- A microword goes on whatever its body does. -/
theorem State.micro_goesOn (s : State) (c op : Nat) (f : BitVec 26) (taken : Bool) (body : State → State) :
    goesOn (s.micro c op f taken body) := by
  unfold State.micro
  exact goesOn_ite (goesOn_next _) <| goesOn_ite (goesOn_next _) <| goesOn_ite (goesOn_next _) (goesOn_choice _ _)

theorem State.capInstr_goesOn {s : State} {n a w} : goesOn (s.capInstr n a w) := goesOn_ite (goesOn_next _) (State.instr_goesOn ..)

theorem State.trigInstr_goesOn {s : State} {n a w} : goesOn (s.trigInstr n a w) := goesOn_ite (goesOn_next _) (State.instr_goesOn ..)

theorem State.emitMicro_goesOn {s : State} {c k f} : goesOn (s.emitMicro c k f) := goesOn_ite (goesOn_next _) (State.micro_goesOn ..)

theorem State.capcMicro_goesOn {s : State} {c k f} : goesOn (s.capcMicro c k f) := goesOn_ite (goesOn_next _) (State.micro_goesOn ..)

theorem execFrameTick_goesOn {s} : goesOn (execFrameTick s) := goesOn_choice _ _

theorem execStartTakesEffect_goesOn {n s} : goesOn (execStartTakesEffect n s) := goesOn_choice _ _

theorem execRefclkLost_goesOn {outside s} : goesOn (execRefclkLost outside s) := goesOn_ite (goesOn_next _) (goesOn_choice _ _)

theorem execLongHoldover_goesOn {s} : goesOn (execLongHoldover s) := goesOn_choice _ _

theorem execRefclkRelocked_goesOn {s} : goesOn (execRefclkRelocked s) := goesOn_choice _ _

theorem execHostDeadline_goesOn {lane s} : goesOn (execHostDeadline lane s) := by
  unfold execHostDeadline
  refine goesOn_ite ?_ ?_
  · split
    · exact goesOn_next _
    · refine goesOn_ite (goesOn_next _) ?_
      dsimp only
      split
      · exact goesOn_choice _ _
      · exact goesOn_next _
  · split
    · exact goesOn_choice _ _
    · exact goesOn_next _

theorem execVec_goesOn {n w s} : goesOn (execVec n w s) := State.instr_goesOn ..

theorem execRpt_goesOn {n w s} : goesOn (execRpt n w s) := State.instr_goesOn ..

theorem execLoop_goesOn {n w s} : goesOn (execLoop n w s) := State.instr_goesOn ..

theorem execEndl_goesOn {n w s} : goesOn (execEndl n w s) := State.instr_goesOn ..

theorem execCall_goesOn {n w s} : goesOn (execCall n w s) := State.instr_goesOn ..

theorem execRet_goesOn {n w s} : goesOn (execRet n w s) := State.instr_goesOn ..

theorem execJmp_goesOn {n w s} : goesOn (execJmp n w s) := State.instr_goesOn ..

theorem execJfail_goesOn {n w s} : goesOn (execJfail n w s) := State.instr_goesOn ..

theorem execJevt_goesOn {n w s} : goesOn (execJevt n w s) := State.instr_goesOn ..

theorem execMatchI_goesOn {n w s} : goesOn (execMatchI n w s) := State.instr_goesOn ..

theorem execWaitHold_goesOn {n w s} : goesOn (execWaitHold n w s) := goesOn_ite (goesOn_next _) (State.instr_goesOn ..)

theorem execWaitTime_goesOn {n w s} : goesOn (execWaitTime n w s) := goesOn_ite (goesOn_next _) (State.instr_goesOn ..)

theorem execTset_goesOn {n w s} : goesOn (execTset n w s) := State.instr_goesOn ..

theorem execPeriod_goesOn {n w s} : goesOn (execPeriod n w s) := State.instr_goesOn ..

theorem execCapStop_goesOn {n w s} : goesOn (execCapStop n w s) := State.capInstr_goesOn

theorem execCapStart_goesOn {n w s} : goesOn (execCapStart n w s) := State.capInstr_goesOn

theorem execCapPause_goesOn {n w s} : goesOn (execCapPause n w s) := State.capInstr_goesOn

theorem execCapResume_goesOn {n w s} : goesOn (execCapResume n w s) := State.capInstr_goesOn

theorem execCapCommit_goesOn {n w s} : goesOn (execCapCommit n w s) := State.capInstr_goesOn

theorem execMeas_goesOn {n w s} : goesOn (execMeas n w s) := State.instr_goesOn ..

theorem execTrigArm_goesOn {n w s} : goesOn (execTrigArm n w s) := State.trigInstr_goesOn

theorem execTrigFire_goesOn {n w s} : goesOn (execTrigFire n w s) := State.trigInstr_goesOn

theorem execTrigDisarm_goesOn {n w s} : goesOn (execTrigDisarm n w s) := State.trigInstr_goesOn

theorem execSync_goesOn {n w s} : goesOn (execSync n w s) := State.instr_goesOn ..

theorem execEvent_goesOn {n w s} : goesOn (execEvent n w s) := State.instr_goesOn ..

theorem execSerialEnter_goesOn {n w s} : goesOn (execSerialEnter n w s) := goesOn_ite (goesOn_next _) (State.instr_goesOn ..)

theorem execSerialLeave_goesOn {n w s} : goesOn (execSerialLeave n w s) := goesOn_ite (goesOn_next _) (State.instr_goesOn ..)

theorem execSealI_goesOn {n w s} : goesOn (execSealI n w s) := State.instr_goesOn ..

theorem execHalt_goesOn {n w s} : goesOn (execHalt n w s) := State.instr_goesOn ..

theorem execYield_goesOn {n w s} : goesOn (execYield n w s) := State.instr_goesOn ..

theorem execCust_goesOn {n w s} : goesOn (execCust n w s) := goesOn_ite (goesOn_next _) (State.instr_goesOn ..)

theorem execDrainDecision_goesOn {n s} : goesOn (execDrainDecision n s) := by
  unfold execDrainDecision
  dsimp only
  split
  · exact goesOn_next _
  · refine goesOn_ite (goesOn_next _) ?_
    split <;> exact goesOn_next _

theorem execMatched_goesOn {n s} : goesOn (execMatched n s) := goesOn_choice _ _

theorem execMatchTimeout_goesOn {n s} : goesOn (execMatchTimeout n s) := goesOn_choice _ _

theorem execSyncPost_goesOn {n s} : goesOn (execSyncPost n s) := by
  unfold execSyncPost
  split
  · exact goesOn_next _
  · exact goesOn_next _

theorem execSyncAgreement_goesOn {n s} : goesOn (execSyncAgreement n s) := by
  unfold execSyncAgreement
  split
  · exact goesOn_choice _ _
  · exact goesOn_next _

theorem execSyncTimeout_goesOn {n s} : goesOn (execSyncTimeout n s) := goesOn_choice _ _

theorem execResumeTick_goesOn {n s} : goesOn (execResumeTick n s) := by
  unfold execResumeTick
  dsimp only
  split
  · exact goesOn_choice _ _
  · exact goesOn_next _

theorem execVerdictRecord_goesOn {n s} : goesOn (execVerdictRecord n s) := by
  unfold execVerdictRecord
  split
  · exact goesOn_choice _ _
  · exact goesOn_next _

theorem execPlayoutEnd_goesOn {n s} : goesOn (execPlayoutEnd n s) := goesOn_choice _ _

theorem execNop_goesOn {c w s} : goesOn (execNop c w s) := goesOn_ite (goesOn_next _) (State.micro_goesOn ..)

theorem execMov_goesOn {c f s} : goesOn (execMov c f s) := State.micro_goesOn ..

theorem execMovh_goesOn {c f s} : goesOn (execMovh c f s) := State.micro_goesOn ..

theorem execAdd_goesOn {c f s} : goesOn (execAdd c f s) := State.micro_goesOn ..

theorem execSub_goesOn {c f s} : goesOn (execSub c f s) := State.micro_goesOn ..

theorem execAnd_goesOn {c f s} : goesOn (execAnd c f s) := State.micro_goesOn ..

theorem execOr_goesOn {c f s} : goesOn (execOr c f s) := State.micro_goesOn ..

theorem execXor_goesOn {c f s} : goesOn (execXor c f s) := State.micro_goesOn ..

theorem execShf_goesOn {c f s} : goesOn (execShf c f s) := State.micro_goesOn ..

theorem execCmp_goesOn {c f s} : goesOn (execCmp c f s) := State.micro_goesOn ..

theorem execCrc_goesOn {c f s} : goesOn (execCrc c f s) := State.micro_goesOn ..

theorem execBr_goesOn {c f s} : goesOn (execBr c f s) := State.micro_goesOn ..

theorem execCallu_goesOn {c f s} : goesOn (execCallu c f s) := State.micro_goesOn ..

theorem execRetu_goesOn {c f s} : goesOn (execRetu c f s) := State.micro_goesOn ..

theorem execFetch_goesOn {c f s} : goesOn (execFetch c f s) := State.micro_goesOn ..

theorem execFetchData_goesOn {c flips s} : goesOn (execFetchData c flips s) := by
  unfold execFetchData
  split
  · exact goesOn_next _
  · exact goesOn_next _

theorem execLdt_goesOn {c f s} : goesOn (execLdt c f s) := goesOn_ite (goesOn_next _) (State.micro_goesOn ..)

theorem execStt_goesOn {c f s} : goesOn (execStt c f s) := State.micro_goesOn ..

theorem execEmitStream_goesOn {c f s} : goesOn (execEmitStream c f s) := State.emitMicro_goesOn

theorem execEmitRepeat_goesOn {c f s} : goesOn (execEmitRepeat c f s) := State.emitMicro_goesOn

theorem execEmitLiteral_goesOn {c f s} : goesOn (execEmitLiteral c f s) := State.emitMicro_goesOn

theorem execEmitHold_goesOn {c f s} : goesOn (execEmitHold c f s) := State.emitMicro_goesOn

theorem execEmitPeriod_goesOn {c f s} : goesOn (execEmitPeriod c f s) := State.emitMicro_goesOn

theorem execEmitTset_goesOn {c f s} : goesOn (execEmitTset c f s) := State.emitMicro_goesOn

theorem execWaitc_goesOn {c f s} : goesOn (execWaitc c f s) := State.micro_goesOn ..

theorem execWaitcWake_goesOn {c s} : goesOn (execWaitcWake c s) := by
  unfold execWaitcWake
  split
  · exact goesOn_choice _ _
  · exact goesOn_next _

theorem execWaitcTimeout_goesOn {c s} : goesOn (execWaitcTimeout c s) := by
  unfold execWaitcTimeout
  split
  · exact goesOn_choice _ _
  · exact goesOn_next _

theorem execEvt_goesOn {c f s} : goesOn (execEvt c f s) := State.micro_goesOn ..

theorem execCapcStop_goesOn {c f s} : goesOn (execCapcStop c f s) := State.capcMicro_goesOn

theorem execCapcStart_goesOn {c f s} : goesOn (execCapcStart c f s) := State.capcMicro_goesOn

theorem execCapcPause_goesOn {c f s} : goesOn (execCapcPause c f s) := State.capcMicro_goesOn

theorem execCapcResume_goesOn {c f s} : goesOn (execCapcResume c f s) := State.capcMicro_goesOn

theorem execCapcCommit_goesOn {c f s} : goesOn (execCapcCommit c f s) := State.capcMicro_goesOn

theorem execCapcMark_goesOn {c f s} : goesOn (execCapcMark c f s) := State.capcMicro_goesOn

theorem execPost_goesOn {c f s} : goesOn (execPost c f s) := State.micro_goesOn ..

theorem execEndI_goesOn {c f s} : goesOn (execEndI c f s) := State.micro_goesOn ..

theorem execWatchdog_goesOn {c s} : goesOn (execWatchdog c s) := goesOn_choice _ _

theorem execSavingDone_goesOn {c s} : goesOn (execSavingDone c s) := goesOn_choice _ _

theorem execCsRestart_goesOn {c selfTest s} : goesOn (execCsRestart c selfTest s) := by
  unfold execCsRestart
  split
  · exact goesOn_next _
  · exact goesOn_next _

theorem execCustCloseDone_goesOn {s} : goesOn (execCustCloseDone s) := goesOn_choice _ _

theorem execDispatch_goesOn {s} : goesOn (execDispatch s) := by
  unfold execDispatch
  refine goesOn_ite (goesOn_next _) ?_
  split <;> exact goesOn_next _

theorem execCaravanStall_goesOn {cv s} : goesOn (execCaravanStall cv s) := goesOn_choice _ _

theorem execDescriptorTake_goesOn {n s} : goesOn (execDescriptorTake n s) := by
  unfold execDescriptorTake
  dsimp only
  split
  · exact goesOn_next _
  · exact goesOn_choice _ _

theorem execLineReadIssue_goesOn {s} : goesOn (execLineReadIssue s) := by
  unfold execLineReadIssue
  split
  · exact goesOn_next _
  · exact goesOn_next _

theorem execLineReadReturn_goesOn {i flips s} : goesOn (execLineReadReturn i flips s) := by
  unfold execLineReadReturn
  split
  · exact goesOn_next _
  · exact goesOn_choice _ _

theorem execVectorStart_goesOn {n inputs s} : goesOn (execVectorStart n inputs s) := by
  unfold execVectorStart
  split
  · exact goesOn_next _
  · exact goesOn_next _

theorem execStarveResume_goesOn {n s} : goesOn (execStarveResume n s) := goesOn_choice _ _

theorem execSerialSessionStart_goesOn {n s} : goesOn (execSerialSessionStart n s) := by
  unfold execSerialSessionStart
  dsimp only
  split <;> exact goesOn_next _

theorem execSerialSessionEnd_goesOn {n s} : goesOn (execSerialSessionEnd n s) := by
  unfold execSerialSessionEnd
  split
  · split
    · exact goesOn_choice _ _
    · exact goesOn_next _
  · exact goesOn_next _

theorem execSerialLock_goesOn {n s} : goesOn (execSerialLock n s) := by
  unfold execSerialLock
  split
  · exact goesOn_choice _ _
  · exact goesOn_next _

theorem execSerialLockLost_goesOn {n beat s} : goesOn (execSerialLockLost n beat s) := by
  unfold execSerialLockLost
  split
  · exact goesOn_choice _ _
  · exact goesOn_next _

theorem execSerialLockTimeout_goesOn {n s} : goesOn (execSerialLockTimeout n s) := by
  unfold execSerialLockTimeout
  split
  · split
    · exact goesOn_choice _ _
    · exact goesOn_next _
  · exact goesOn_next _

theorem execCdrSlip_goesOn {n beat s} : goesOn (execCdrSlip n beat s) := by
  unfold execCdrSlip
  split
  · refine goesOn_ite ?_ (goesOn_next _)
    dsimp only
    split
    · exact goesOn_choice _ _
    · exact goesOn_next _
  · exact goesOn_next _

theorem execSerialUnderrun_goesOn {n s} : goesOn (execSerialUnderrun n s) := by
  unfold execSerialUnderrun
  split
  · split
    · exact goesOn_choice _ _
    · exact goesOn_next _
  · exact goesOn_next _

theorem execComparatorEdge_goesOn {n vtl above beat tap s} : goesOn (execComparatorEdge n vtl above beat tap s) :=
  goesOn_ite (goesOn_next _) (goesOn_choice _ _)

theorem execMonStateChange_goesOn {n st beat s} : goesOn (execMonStateChange n st beat s) := by
  unfold execMonStateChange
  extract_lets target
  cases target with
  | none => exact goesOn_next _
  | some t => exact goesOn_choice _ _

theorem execMonForced_goesOn {n s} : goesOn (execMonForced n s) := goesOn_choice _ _

theorem execSupplyMonChange_goesOn {m st s} : goesOn (execSupplyMonChange m st s) :=
  goesOn_ite (goesOn_next _) <| goesOn_ite (goesOn_next _) <| goesOn_ite (goesOn_next _) <| goesOn_ite (goesOn_next _) <| goesOn_choice _ _

theorem execSupplyMonForced_goesOn {m s} : goesOn (execSupplyMonForced m s) := goesOn_choice _ _

theorem execHoldoffEnd_goesOn {n s} : goesOn (execHoldoffEnd n s) := goesOn_choice _ _

theorem execAutoTrigger_goesOn {n s} : goesOn (execAutoTrigger n s) := by
  unfold execAutoTrigger
  dsimp only
  split
  · exact goesOn_choice _ _
  · exact goesOn_next _

theorem execRecordExported_goesOn {n s} : goesOn (execRecordExported n s) := goesOn_choice _ _

theorem execGateOpen_goesOn {d t s} : goesOn (execGateOpen d t s) := by
  unfold execGateOpen
  dsimp only
  split
  · refine goesOn_ite (goesOn_next _) ?_
    split
    · exact goesOn_choice _ _
    · exact goesOn_choice _ _
    · exact goesOn_ite (goesOn_next _) (goesOn_choice _ _)
    · exact goesOn_next _
  · exact goesOn_choice _ _
  · exact goesOn_next _

theorem execGateClose_goesOn {d t s} : goesOn (execGateClose d t s) :=
  goesOn_ite (goesOn_next _) <| goesOn_ite (goesOn_choice _ _) (goesOn_ite (goesOn_choice _ _) (goesOn_next _))

theorem execVernierDone_goesOn {v s} : goesOn (execVernierDone v s) := by
  unfold execVernierDone
  split
  · exact goesOn_next _
  · dsimp only
    split
    · exact goesOn_next _
    · exact goesOn_choice _ _

theorem execDramAlert_goesOn {ch crc s} : goesOn (execDramAlert ch crc s) := goesOn_choice _ _

theorem execReplayDone_goesOn {ch s} : goesOn (execReplayDone ch s) := goesOn_choice _ _

theorem execRetrainDone_goesOn {ch s} : goesOn (execRetrainDone ch s) := goesOn_choice _ _

theorem execRetrainTimeout_goesOn {ch s} : goesOn (execRetrainTimeout ch s) := goesOn_choice _ _

theorem execEscalateWindowEnd_goesOn {ch s} : goesOn (execEscalateWindowEnd ch s) := by
  unfold execEscalateWindowEnd
  dsimp only
  split
  · exact goesOn_next _
  · exact goesOn_choice _ _

theorem execRefreshDue_goesOn {sc rank held s} : goesOn (execRefreshDue sc rank held s) :=
  goesOn_ite (goesOn_next _) <| goesOn_ite (goesOn_next _) (goesOn_choice _ _)

theorem execMr4Read_goesOn {hot s} : goesOn (execMr4Read hot s) := goesOn_choice _ _

theorem execPowerDown_goesOn {sc rank s} : goesOn (execPowerDown sc rank s) := goesOn_choice _ _

theorem execSlAck_goesOn {seq s} : goesOn (execSlAck seq s) := goesOn_choice _ _

theorem execSlNak_goesOn {seq s} : goesOn (execSlNak seq s) := goesOn_choice _ _

theorem execSlAckTimeout_goesOn {s} : goesOn (execSlAckTimeout s) := by
  unfold execSlAckTimeout
  split
  · exact goesOn_next _
  · exact goesOn_choice _ _

theorem execSlBringupDone_goesOn {lo hi s} : goesOn (execSlBringupDone lo hi s) :=
  goesOn_ite (goesOn_next _) <| goesOn_ite (goesOn_next _) (goesOn_choice _ _)

theorem execLaneFail_goesOn {lane cause s} : goesOn (execLaneFail lane cause s) := by
  unfold execLaneFail
  refine goesOn_ite (goesOn_next _) <| goesOn_ite (goesOn_next _) <| goesOn_ite (goesOn_next _) ?_
  refine goesOn_ite (goesOn_next _) <| goesOn_ite (goesOn_next _) ?_
  dsimp only
  split
  · exact goesOn_next _
  · refine goesOn_ite (goesOn_next _) ?_
    split <;> exact goesOn_next _

theorem execSlDegradeDone_goesOn {s} : goesOn (execSlDegradeDone s) := goesOn_ite (goesOn_next _) (goesOn_choice _ _)

theorem execSlHoldIn_goesOn {level s} : goesOn (execSlHoldIn level s) := goesOn_choice _ _

theorem execConvoyWord_goesOn {w s} : goesOn (execConvoyWord w s) := goesOn_ite (goesOn_next _) <| goesOn_ite (goesOn_next _) (goesOn_choice _ _)

theorem execSupervision_goesOn {p f m s} : goesOn (execSupervision p f m s) :=
  goesOn_ite (goesOn_next _) <| goesOn_ite (goesOn_next _) <| goesOn_ite (goesOn_next _) <| goesOn_ite (goesOn_next _) <| goesOn_choice _ _

theorem execSupervisionSend_goesOn {p s} : goesOn (execSupervisionSend p s) := goesOn_choice _ _

theorem execLinkLost_goesOn {p s} : goesOn (execLinkLost p s) := goesOn_choice _ _

theorem execCloseTimer_goesOn {p s} : goesOn (execCloseTimer p s) := goesOn_choice _ _

theorem execRateChangeTimeout_goesOn {p s} : goesOn (execRateChangeTimeout p s) := goesOn_choice _ _

theorem execWalk_goesOn {p f m s} : goesOn (execWalk p f m s) := goesOn_ite (goesOn_next _) (goesOn_choice _ _)

theorem execNoticeBreak_goesOn {p f reporter s} : goesOn (execNoticeBreak p f reporter s) := goesOn_next _

theorem execNoticeClose_goesOn {p f reporter s} : goesOn (execNoticeClose p f reporter s) := goesOn_next _

theorem execAssign_goesOn {p f uid number s} : goesOn (execAssign p f uid number s) := goesOn_next _

theorem execSegmentAbandon_goesOn {index sub s} : goesOn (execSegmentAbandon index sub s) := by
  unfold execSegmentAbandon
  split
  · exact goesOn_choice _ _
  · exact goesOn_next _

theorem execUploadRelease_goesOn {index sub s} : goesOn (execUploadRelease index sub s) := by
  unfold execUploadRelease
  split
  · exact goesOn_choice _ _
  · exact goesOn_next _

theorem execPublication_goesOn {i s} : goesOn (execPublication i s) := by
  unfold execPublication
  split
  · exact goesOn_choice _ _
  · exact goesOn_next _

theorem execNotifyConfirm_goesOn {_src tid s} : goesOn (execNotifyConfirm _src tid s) := goesOn_ite (goesOn_next _) (goesOn_choice _ _)

theorem execNotifyRetry_goesOn {tid s} : goesOn (execNotifyRetry tid s) := by
  unfold execNotifyRetry
  split
  · exact goesOn_ite (goesOn_next _) <| goesOn_choice _ _
  · exact goesOn_next _

theorem execPtpSync_goesOn {p m s} : goesOn (execPtpSync p m s) := goesOn_choice _ _

theorem execFollowUp_goesOn {p m s} : goesOn (execFollowUp p m s) := goesOn_choice _ _

theorem execDelayReq_goesOn {p m s} : goesOn (execDelayReq p m s) := goesOn_choice _ _

theorem execDelayResp_goesOn {p m s} : goesOn (execDelayResp p m s) := goesOn_choice _ _

theorem execPdelayReq_goesOn {p m s} : goesOn (execPdelayReq p m s) := goesOn_ite (goesOn_next _) (goesOn_choice _ _)

theorem execPdelayResp_goesOn {p m s} : goesOn (execPdelayResp p m s) := by
  unfold execPdelayResp
  refine goesOn_ite (goesOn_next _) ?_
  dsimp only
  split
  · exact goesOn_ite (goesOn_choice _ _) (goesOn_next _)
  · exact goesOn_next _

theorem execPdelayRespFollowUp_goesOn {p m s} : goesOn (execPdelayRespFollowUp p m s) := by
  unfold execPdelayRespFollowUp
  refine goesOn_ite (goesOn_next _) ?_
  split
  · exact goesOn_choice _ _
  · exact goesOn_next _

theorem execAnnounce_goesOn {p m s} : goesOn (execAnnounce p m s) := goesOn_choice _ _

theorem execPtpSyncSend_goesOn {s} : goesOn (execPtpSyncSend s) := goesOn_choice _ _

theorem execAnnounceSend_goesOn {s} : goesOn (execAnnounceSend s) := goesOn_choice _ _

theorem execPdelayReqSend_goesOn {p egress s} : goesOn (execPdelayReqSend p egress s) := goesOn_choice _ _

theorem execDelayReqSend_goesOn {egress s} : goesOn (execDelayReqSend egress s) := by
  unfold execDelayReqSend
  split
  · exact goesOn_next _
  · exact goesOn_choice _ _

theorem execAnnounceReceiptTimeout_goesOn {s} : goesOn (execAnnounceReceiptTimeout s) := by
  unfold execAnnounceReceiptTimeout
  split
  · exact goesOn_ite (goesOn_next _) <| goesOn_choice _ _
  · exact goesOn_next _

theorem execPtpSyncTimeout_goesOn {s} : goesOn (execPtpSyncTimeout s) := goesOn_choice _ _

theorem execHoldoverLimit_goesOn {s} : goesOn (execHoldoverLimit s) := by
  unfold execHoldoverLimit
  split
  · exact goesOn_choice _ _
  · exact goesOn_next _

theorem execPdelayFail_goesOn {p s} : goesOn (execPdelayFail p s) := goesOn_choice _ _

theorem execHostLockTimeout_goesOn {s} : goesOn (execHostLockTimeout s) := goesOn_choice _ _

theorem execSlewEnd_goesOn {s} : goesOn (execSlewEnd s) := by
  unfold execSlewEnd
  split
  · exact goesOn_choice _ _
  · exact goesOn_next _

theorem execStepApply_goesOn {s} : goesOn (execStepApply s) := goesOn_choice _ _

theorem execTimeTrigger_goesOn {i s} : goesOn (execTimeTrigger i s) := goesOn_choice _ _

theorem execPpsPulse_goesOn {s} : goesOn (execPpsPulse s) := goesOn_choice _ _

theorem execEvtEdge_goesOn {i rising beat s} : goesOn (execEvtEdge i rising beat s) := goesOn_ite (goesOn_next _) (goesOn_choice _ _)

theorem execCalStepDone_goesOn {first second s} : goesOn (execCalStepDone first second s) := by
  unfold execCalStepDone
  split
  · exact goesOn_next _
  · exact goesOn_ite (goesOn_next _) (goesOn_choice _ _)

theorem execCalDomainCommit_goesOn {s} : goesOn (execCalDomainCommit s) := by
  unfold execCalDomainCommit
  split
  · exact goesOn_next _
  · exact goesOn_choice _ _

theorem execDriftMeasurement_goesOn {n first second s} : goesOn (execDriftMeasurement n first second s) := by
  unfold execDriftMeasurement
  split
  · exact goesOn_ite (goesOn_next _) <| goesOn_choice _ _
  · exact goesOn_next _

theorem execCalHostTimeout_goesOn {s} : goesOn (execCalHostTimeout s) := by
  unfold execCalHostTimeout
  split
  · exact goesOn_choice _ _
  · exact goesOn_next _

theorem execAgeingRead_goesOn {slowdown s} : goesOn (execAgeingRead slowdown s) := goesOn_choice _ _

theorem execTempRead_goesOn {sensors s} : goesOn (execTempRead sensors s) := by
  unfold execTempRead
  split
  · exact goesOn_choice _ _
  · exact goesOn_next _

theorem execVerdictHandover_goesOn {s} : goesOn (execVerdictHandover s) := by
  unfold execVerdictHandover
  split
  · exact goesOn_next _
  · exact goesOn_ite (goesOn_choice _ _) <| goesOn_ite (goesOn_next _) (goesOn_choice _ _)

theorem execBatchClose_goesOn {s} : goesOn (execBatchClose s) := goesOn_ite (goesOn_next _) <| goesOn_ite (goesOn_next _) (goesOn_choice _ _)

theorem execBatchSign_goesOn {s} : goesOn (execBatchSign s) := by
  unfold execBatchSign
  split
  · exact goesOn_next _
  · exact goesOn_choice _ _

theorem execVerdictResend_goesOn {s} : goesOn (execVerdictResend s) := goesOn_next _

theorem execDrbgReseed_goesOn {ok s} : goesOn (execDrbgReseed ok s) := goesOn_ite (goesOn_next _) (goesOn_choice _ _)

theorem execInterruptedSeal_goesOn {s} : goesOn (execInterruptedSeal s) := goesOn_choice _ _

theorem execFaultDecision_goesOn {s} : goesOn (execFaultDecision s) := by
  unfold execFaultDecision
  split
  · exact goesOn_next _
  · exact goesOn_choice _ _

theorem execFaultRecovered_goesOn {resource us s} : goesOn (execFaultRecovered resource us s) := by
  unfold execFaultRecovered
  refine goesOn_ite ?_ (goesOn_next _)
  split <;> exact goesOn_next _

theorem execQueuedFaultTimeout_goesOn {s} : goesOn (execQueuedFaultTimeout s) := by
  unfold execQueuedFaultTimeout
  refine goesOn_ite (goesOn_next _) ?_
  split <;> exact goesOn_next _

theorem execSupplyFaultTimeout_goesOn {m s} : goesOn (execSupplyFaultTimeout m s) := by
  unfold execSupplyFaultTimeout
  split
  · exact goesOn_next _
  · exact goesOn_choice _ _

theorem execRaise_goesOn {r source s} : goesOn (execRaise r source s) := goesOn_choice _ _

theorem execResetN_goesOn {low powerUp s} : goesOn (execResetN low powerUp s) :=
  goesOn_ite (goesOn_choice _ _) <| goesOn_ite (goesOn_next _) (goesOn_choice _ _)

theorem execWarmN_goesOn {low s} : goesOn (execWarmN low s) := by
  unfold execWarmN
  refine goesOn_ite (goesOn_next _) <| goesOn_ite (goesOn_next _) <| goesOn_ite (goesOn_next _) ?_
  split <;> exact goesOn_next _

theorem execPwrWarnN_goesOn {s} : goesOn (execPwrWarnN s) := goesOn_ite (goesOn_next _) (goesOn_choice _ _)

theorem execPowerWarningCleared_goesOn {s} : goesOn (execPowerWarningCleared s) := goesOn_choice _ _

theorem execColdStartStepDone_goesOn {ok seed s} : goesOn (execColdStartStepDone ok seed s) := by
  unfold execColdStartStepDone
  refine goesOn_ite (goesOn_next _) ?_
  split
  · exact goesOn_choice _ _
  · exact goesOn_choice _ _
  · exact goesOn_ite (goesOn_next _) <| goesOn_ite (goesOn_next _) (goesOn_choice _ _)
  · exact goesOn_choice _ _
  all_goals exact goesOn_next _

theorem execWarmStartStepDone_goesOn {ok s} : goesOn (execWarmStartStepDone ok s) := by
  unfold execWarmStartStepDone
  refine goesOn_ite (goesOn_next _) ?_
  split
  · exact goesOn_choice _ _
  · exact goesOn_ite (goesOn_next _) (goesOn_choice _ _)
  · exact goesOn_next _
  · exact goesOn_choice _ _
  all_goals exact goesOn_next _

theorem execSafeHaltEntry_goesOn {s} : goesOn (execSafeHaltEntry s) := goesOn_choice _ _

theorem execSleepDrainDone_goesOn {s} : goesOn (execSleepDrainDone s) := goesOn_choice _ _

theorem execSleepAbandoned_goesOn {s} : goesOn (execSleepAbandoned s) := by
  unfold execSleepAbandoned
  split
  · exact goesOn_choice _ _
  · exact goesOn_next _

theorem execWakeStepDone_goesOn {ok s} : goesOn (execWakeStepDone ok s) := by
  unfold execWakeStepDone
  refine goesOn_ite (goesOn_next _) ?_
  dsimp only
  split
  · exact goesOn_choice _ _
  all_goals exact goesOn_next _

theorem execIdcode_goesOn {s} : goesOn (execIdcode s) := goesOn_next _

theorem execSamplePreload_goesOn {cells s} : goesOn (execSamplePreload cells s) := goesOn_choice _ _

theorem execRefclkPresent_goesOn {s} : goesOn (execRefclkPresent s) := goesOn_choice _ _

theorem execPcsSynchronised_goesOn {p s} : goesOn (execPcsSynchronised p s) := goesOn_choice _ _

theorem execPacketCrcError_goesOn {s} : goesOn (execPacketCrcError s) := goesOn_choice _ _

theorem execReservedPacket_goesOn {type p s} : goesOn (execReservedPacket type p s) := goesOn_choice _ _

theorem execWidthControlBlock_goesOn {block s} : goesOn (execWidthControlBlock block s) := goesOn_ite (goesOn_next _) (goesOn_choice _ _)

theorem execSerialBitReceived_goesOn {n value b s} : goesOn (execSerialBitReceived n value b s) := by
  unfold execSerialBitReceived
  split
  · split
    · exact goesOn_next _
    · refine goesOn_ite (goesOn_next _) <| goesOn_ite (goesOn_choice _ _) <| goesOn_ite ?_ (goesOn_next _)
      extract_lets r u
      cases r.2 <;> exact goesOn_next _
  · exact goesOn_next _

theorem execWordSlot_goesOn {n s} : goesOn (execWordSlot n s) := by
  unfold execWordSlot
  split
  · split
    · exact goesOn_choice _ _
    · exact goesOn_next _
  · exact goesOn_next _

theorem execThermNChange_goesOn {asserted s} : goesOn (execThermNChange asserted s) := goesOn_choice _ _

/-- Every command goes on: a row that is one next state at once, the others by the lemma of their meaning. -/
theorem exec_goesOn (c : Instr) (s : State) : goesOn (exec c s) := by
  cases c
  case load | arm | start | haltCommand | reset | release | sealHalted | disarm | header | custOpen | custClose | custClear | caravanRelease |
    tsetWrite | monEnable | tuArm | tuFire | tuDisarm | hostTrigger | training | memWrite | memReadReq | csWrite | restore | widthChoice |
    align | ringFrameForward | read | write | segment | segmentUpload | abort | subscribe | unsubscribe | negotiate | discover | coldStart |
    warmStart | sleep | wake | offsetAdj | rateSet | timeSet | calStart | calCancel | blobExport | blobImport | coeffs | ackBatch |
    windowOpen | windowFree | windowAbandon | advance | decision | tail | bypass | extest | highz | clamp | extestPulse | extestTrain |
    powerLoss =>
    exact goesOn_next _
  case frameTick => exact execFrameTick_goesOn
  case startTakesEffect => exact execStartTakesEffect_goesOn
  case refclkLost => exact execRefclkLost_goesOn
  case longHoldover => exact execLongHoldover_goesOn
  case refclkRelocked => exact execRefclkRelocked_goesOn
  case hostDeadline => exact execHostDeadline_goesOn
  case vec => exact execVec_goesOn
  case rpt => exact execRpt_goesOn
  case loop => exact execLoop_goesOn
  case endl => exact execEndl_goesOn
  case call => exact execCall_goesOn
  case ret => exact execRet_goesOn
  case jmp => exact execJmp_goesOn
  case jfail => exact execJfail_goesOn
  case jevt => exact execJevt_goesOn
  case matchI => exact execMatchI_goesOn
  case waitHold => exact execWaitHold_goesOn
  case waitTime => exact execWaitTime_goesOn
  case tset => exact execTset_goesOn
  case period => exact execPeriod_goesOn
  case capStop => exact execCapStop_goesOn
  case capStart => exact execCapStart_goesOn
  case capPause => exact execCapPause_goesOn
  case capResume => exact execCapResume_goesOn
  case capCommit => exact execCapCommit_goesOn
  case meas => exact execMeas_goesOn
  case trigArm => exact execTrigArm_goesOn
  case trigFire => exact execTrigFire_goesOn
  case trigDisarm => exact execTrigDisarm_goesOn
  case sync => exact execSync_goesOn
  case event => exact execEvent_goesOn
  case serialEnter => exact execSerialEnter_goesOn
  case serialLeave => exact execSerialLeave_goesOn
  case sealI => exact execSealI_goesOn
  case halt => exact execHalt_goesOn
  case yield => exact execYield_goesOn
  case cust => exact execCust_goesOn
  case drainDecision => exact execDrainDecision_goesOn
  case matched => exact execMatched_goesOn
  case matchTimeout => exact execMatchTimeout_goesOn
  case syncPost => exact execSyncPost_goesOn
  case syncAgreement => exact execSyncAgreement_goesOn
  case syncTimeout => exact execSyncTimeout_goesOn
  case resumeTick => exact execResumeTick_goesOn
  case verdictRecord => exact execVerdictRecord_goesOn
  case playoutEnd => exact execPlayoutEnd_goesOn
  case nop => exact execNop_goesOn
  case mov => exact execMov_goesOn
  case movh => exact execMovh_goesOn
  case add => exact execAdd_goesOn
  case sub => exact execSub_goesOn
  case and => exact execAnd_goesOn
  case or => exact execOr_goesOn
  case xor => exact execXor_goesOn
  case shf => exact execShf_goesOn
  case cmp => exact execCmp_goesOn
  case crc => exact execCrc_goesOn
  case br => exact execBr_goesOn
  case callu => exact execCallu_goesOn
  case retu => exact execRetu_goesOn
  case fetch => exact execFetch_goesOn
  case fetchData => exact execFetchData_goesOn
  case ldt => exact execLdt_goesOn
  case stt => exact execStt_goesOn
  case emitStream => exact execEmitStream_goesOn
  case emitRepeat => exact execEmitRepeat_goesOn
  case emitLiteral => exact execEmitLiteral_goesOn
  case emitHold => exact execEmitHold_goesOn
  case emitPeriod => exact execEmitPeriod_goesOn
  case emitTset => exact execEmitTset_goesOn
  case waitc => exact execWaitc_goesOn
  case waitcWake => exact execWaitcWake_goesOn
  case waitcTimeout => exact execWaitcTimeout_goesOn
  case evt => exact execEvt_goesOn
  case capcStop => exact execCapcStop_goesOn
  case capcStart => exact execCapcStart_goesOn
  case capcPause => exact execCapcPause_goesOn
  case capcResume => exact execCapcResume_goesOn
  case capcCommit => exact execCapcCommit_goesOn
  case capcMark => exact execCapcMark_goesOn
  case post => exact execPost_goesOn
  case endI => exact execEndI_goesOn
  case watchdog => exact execWatchdog_goesOn
  case savingDone => exact execSavingDone_goesOn
  case csRestart => exact execCsRestart_goesOn
  case custCloseDone => exact execCustCloseDone_goesOn
  case dispatch => exact execDispatch_goesOn
  case caravanStall => exact execCaravanStall_goesOn
  case descriptorTake => exact execDescriptorTake_goesOn
  case lineReadIssue => exact execLineReadIssue_goesOn
  case lineReadReturn => exact execLineReadReturn_goesOn
  case vectorStart => exact execVectorStart_goesOn
  case starveResume => exact execStarveResume_goesOn
  case serialSessionStart => exact execSerialSessionStart_goesOn
  case serialSessionEnd => exact execSerialSessionEnd_goesOn
  case serialLock => exact execSerialLock_goesOn
  case serialLockLost => exact execSerialLockLost_goesOn
  case serialLockTimeout => exact execSerialLockTimeout_goesOn
  case cdrSlip => exact execCdrSlip_goesOn
  case serialUnderrun => exact execSerialUnderrun_goesOn
  case comparatorEdge => exact execComparatorEdge_goesOn
  case monStateChange => exact execMonStateChange_goesOn
  case monForced => exact execMonForced_goesOn
  case supplyMonChange => exact execSupplyMonChange_goesOn
  case supplyMonForced => exact execSupplyMonForced_goesOn
  case holdoffEnd => exact execHoldoffEnd_goesOn
  case autoTrigger => exact execAutoTrigger_goesOn
  case recordExported => exact execRecordExported_goesOn
  case gateOpen => exact execGateOpen_goesOn
  case gateClose => exact execGateClose_goesOn
  case vernierDone => exact execVernierDone_goesOn
  case dramAlert => exact execDramAlert_goesOn
  case replayDone => exact execReplayDone_goesOn
  case retrainDone => exact execRetrainDone_goesOn
  case retrainTimeout => exact execRetrainTimeout_goesOn
  case escalateWindowEnd => exact execEscalateWindowEnd_goesOn
  case refreshDue => exact execRefreshDue_goesOn
  case mr4Read => exact execMr4Read_goesOn
  case powerDown => exact execPowerDown_goesOn
  case slAck => exact execSlAck_goesOn
  case slNak => exact execSlNak_goesOn
  case slAckTimeout => exact execSlAckTimeout_goesOn
  case slBringupDone => exact execSlBringupDone_goesOn
  case laneFail => exact execLaneFail_goesOn
  case slDegradeDone => exact execSlDegradeDone_goesOn
  case slHoldIn => exact execSlHoldIn_goesOn
  case convoyWord => exact execConvoyWord_goesOn
  case supervision => exact execSupervision_goesOn
  case supervisionSend => exact execSupervisionSend_goesOn
  case linkLost => exact execLinkLost_goesOn
  case closeTimer => exact execCloseTimer_goesOn
  case rateChangeTimeout => exact execRateChangeTimeout_goesOn
  case walk => exact execWalk_goesOn
  case noticeBreak => exact execNoticeBreak_goesOn
  case noticeClose => exact execNoticeClose_goesOn
  case assign => exact execAssign_goesOn
  case segmentAbandon => exact execSegmentAbandon_goesOn
  case uploadRelease => exact execUploadRelease_goesOn
  case publication => exact execPublication_goesOn
  case notifyConfirm => exact execNotifyConfirm_goesOn (_src := 0)
  case notifyRetry => exact execNotifyRetry_goesOn
  case ptpSync => exact execPtpSync_goesOn
  case followUp => exact execFollowUp_goesOn
  case delayReq => exact execDelayReq_goesOn
  case delayResp => exact execDelayResp_goesOn
  case pdelayReq => exact execPdelayReq_goesOn
  case pdelayResp => exact execPdelayResp_goesOn
  case pdelayRespFollowUp => exact execPdelayRespFollowUp_goesOn
  case announce => exact execAnnounce_goesOn
  case ptpSyncSend => exact execPtpSyncSend_goesOn
  case announceSend => exact execAnnounceSend_goesOn
  case pdelayReqSend => exact execPdelayReqSend_goesOn
  case delayReqSend => exact execDelayReqSend_goesOn
  case announceReceiptTimeout => exact execAnnounceReceiptTimeout_goesOn
  case ptpSyncTimeout => exact execPtpSyncTimeout_goesOn
  case holdoverLimit => exact execHoldoverLimit_goesOn
  case pdelayFail => exact execPdelayFail_goesOn
  case hostLockTimeout => exact execHostLockTimeout_goesOn
  case slewEnd => exact execSlewEnd_goesOn
  case stepApply => exact execStepApply_goesOn
  case timeTrigger => exact execTimeTrigger_goesOn
  case ppsPulse => exact execPpsPulse_goesOn
  case evtEdge => exact execEvtEdge_goesOn
  case calStepDone => exact execCalStepDone_goesOn
  case calDomainCommit => exact execCalDomainCommit_goesOn
  case driftMeasurement => exact execDriftMeasurement_goesOn
  case calHostTimeout => exact execCalHostTimeout_goesOn
  case ageingRead => exact execAgeingRead_goesOn
  case tempRead => exact execTempRead_goesOn
  case verdictHandover => exact execVerdictHandover_goesOn
  case batchClose => exact execBatchClose_goesOn
  case batchSign => exact execBatchSign_goesOn
  case verdictResend => exact execVerdictResend_goesOn
  case drbgReseed => exact execDrbgReseed_goesOn
  case interruptedSeal => exact execInterruptedSeal_goesOn
  case faultDecision => exact execFaultDecision_goesOn
  case faultRecovered => exact execFaultRecovered_goesOn
  case queuedFaultTimeout => exact execQueuedFaultTimeout_goesOn
  case supplyFaultTimeout => exact execSupplyFaultTimeout_goesOn
  case raise => exact execRaise_goesOn
  case resetN => exact execResetN_goesOn
  case warmN => exact execWarmN_goesOn
  case pwrWarnN => exact execPwrWarnN_goesOn
  case powerWarningCleared => exact execPowerWarningCleared_goesOn
  case coldStartStepDone => exact execColdStartStepDone_goesOn
  case warmStartStepDone => exact execWarmStartStepDone_goesOn
  case safeHaltEntry => exact execSafeHaltEntry_goesOn
  case sleepDrainDone => exact execSleepDrainDone_goesOn
  case sleepAbandoned => exact execSleepAbandoned_goesOn
  case wakeStepDone => exact execWakeStepDone_goesOn
  case idcode => exact execIdcode_goesOn
  case samplePreload => exact execSamplePreload_goesOn
  case refclkPresent => exact execRefclkPresent_goesOn
  case pcsSynchronised => exact execPcsSynchronised_goesOn
  case packetCrcError => exact execPacketCrcError_goesOn
  case reservedPacket => exact execReservedPacket_goesOn
  case widthControlBlock => exact execWidthControlBlock_goesOn
  case serialBitReceived => exact execSerialBitReceived_goesOn
  case wordSlot => exact execWordSlot_goesOn
  case thermNChange => exact execThermNChange_goesOn

/-- Settles O7. -/
theorem everyCommandGoesOn : Obligations.EveryCommandGoesOn := by
  unfold Obligations.EveryCommandGoesOn
  exact exec_goesOn

end Sys2Proof.Machine

/-! SUPPORT. The boundary of a calm thread (R82), and the clocks at a tick (R13). -/

namespace Sys2Proof.Machine

/-! ### The boundary of a calm thread -/

/-- With nothing to stop its thread, a boundary lets the context go on. -/
theorem State.boundary_of_calm {s : State} {n c : Nat} (calm : s.Calm n c) (i : Nat) (pc : Option (BitVec 16)) :
    s.boundary n c i pc false false = s.rejoin c := by
  obtain ⟨noFault, noAbort, noHalt, noRecall, room⟩ := calm
  unfold State.boundary
  simp [noFault, noAbort, noHalt, noRecall, Nat.not_le.mpr room]

/-- Settles O15: the boundary of a calm thread is its context's rejoining. -/
theorem calmBoundaryGoesOn : Obligations.CalmBoundaryGoesOn := by
  unfold Obligations.CalmBoundaryGoesOn
  intro s n c calm
  exact State.boundary_of_calm calm _ none

/-! ### The clocks at a tick -/

/-- The phase that the next tick applies: one that waits, where no site holds the phase. -/
def State.phaseTaken (s : State) : Option Nat :=
  if ({ s with convoy := { s.convoy with newPhase := none } } : State).phaseFree then s.convoy.newPhase else none

theorem State.newPhase_of_phaseTaken {s : State} {p : Nat} (h : s.phaseTaken = some p) : s.convoy.newPhase = some p := by
  unfold State.phaseTaken at h
  split at h
  · exact h
  · cases h

/-- The beats by which a new phase lengthens the frame. -/
def Clocks.shift (x : Clocks) (p : Nat) : Nat := (64 + x.phase % 64 - p) % 64

theorem State.moveClocks_clk_of_none {s : State} (h : s.phaseTaken = none) : s.moveClocks.clk = s.clk.tick 64 := by
  unfold State.phaseTaken at h
  unfold State.moveClocks
  cases e : s.convoy.newPhase with
  | none => rfl
  | some p =>
    rw [e] at h
    dsimp only
    split at h
    · cases h
    · rename_i busy
      rw [if_neg busy]
      rfl

theorem State.moveClocks_clk_of_some {s : State} {p : Nat} (h : s.phaseTaken = some p) :
    s.moveClocks.clk = { s.clk.tick (64 + s.clk.shift p) with phase := p } := by
  have waits := State.newPhase_of_phaseTaken h
  unfold State.phaseTaken at h
  unfold State.moveClocks
  rw [waits]
  dsimp only
  split at h
  · rename_i free
    rw [if_pos free]
    rfl
  · cases h

/-- The clocks move at the tick, from where they stood when the frame closed, and nothing else of the tick touches them. -/
theorem exec_frameTick_clk {s : State} (on : s.mode ≠ .off) (high : s.start.resetLow = false) :
    ∃ t u : State, exec .frameTick s = .next t ∧ t.clk = u.moveClocks.clk ∧ u.clk = s.clk ∧ u.convoy.newPhase = s.convoy.newPhase := by
  have closed : Keeps (fun p => p ≠ .clocks ∧ p ≠ .convoy) s (s.each s.siteKeys State.endFrame) :=
    Keeps.each Keeps.refl fun _ _ h => by
      apply State.endFrame_keeps
      case h1 => exact h
      all_goals simp
  have opened : ∀ u : State, (u.timeStart.commitTick.openFrame).clk = u.clk := by
    intro u
    have keeps : Keeps (· ≠ .clocks) u u.timeStart.commitTick.openFrame := by
      apply State.openFrame_keeps
      case h1 =>
        apply State.commitTick_keeps
        case h1 => exact State.timeStart_keeps (by simp) Keeps.refl
        all_goals simp
      all_goals simp
    exact keeps.parts .clocks (by simp)
  refine ⟨_, (s.each s.siteKeys State.endFrame).frameEnds, ?_, opened _, closed.parts .clocks (by simp), ?_⟩
  · show execFrameTick s = _
    unfold execFrameTick
    rw [if_neg (by simp [on, high])]
    rfl
  · have same : (s.each s.siteKeys State.endFrame).convoy = s.convoy := closed.parts .convoy (by simp)
    show (s.each s.siteKeys State.endFrame).convoy.newPhase = _
    rw [same]

/-- Settles O22: a tick takes 64 beats, or as many more as bring a new phase to where R13 puts the tick. -/
theorem tickAdvancesTheClocks : Obligations.TickAdvancesTheClocks := by
  unfold Obligations.TickAdvancesTheClocks
  intro s on high
  obtain ⟨t, u, runs, moved, clk, phase⟩ := exec_frameTick_clk on high
  refine ⟨t, runs, ?_⟩
  cases taken : u.phaseTaken with
  | none =>
    rw [State.moveClocks_clk_of_none taken, clk] at moved
    rw [moved]
    refine ⟨rfl, rfl, rfl, fun _ => ⟨rfl, rfl⟩, fun _ aligned => ?_, le_refl _, ?_, fun h => if_pos h, fun h => if_pos h⟩
    all_goals simp only [Clocks.tick]; omega
  | some p =>
    rw [State.moveClocks_clk_of_some taken, clk] at moved
    have waits : s.convoy.newPhase = some p := phase.symm.trans (State.newPhase_of_phaseTaken taken)
    rw [moved]
    refine ⟨rfl, rfl, rfl, fun none => ?_, fun small aligned => ?_, ?_, ?_, fun h => if_pos h, fun h => if_pos h⟩
    · rw [waits] at none
      cases none
    · have := small p waits
      simp only [Clocks.tick, Clocks.shift]
      omega
    all_goals simp only [Clocks.tick, Clocks.shift]; omega

end Sys2Proof.Machine

section
/-! SUPPORT. A line of vector memory, written and read back (R269, R270). -/

namespace Sys2Proof.Machine

/-! ### What a line write leaves -/

/-- A number written leaves the number of every other key, whatever their defaults. -/
theorem State.reg_setReg_of_ne (s : State) {i j k l : Nat} (v : Int) (h : objKey i j ≠ objKey k l) :
    (s.setReg i j v).reg k l = s.reg k l := by
  show Table.get (regDefault k l) (Table.set (regDefault i j) s.regs (objKey i j) v) (objKey k l) = _
  unfold Table.set
  split
  · exact Table.get_erase_of_ne _ h s.regs
  · exact Table.get_insert_of_ne _ v h s.regs

/-- A line write touches no number of the dictionary but its count of lines written, 0xC010:04. -/
theorem State.reg_writeLine (s : State) (addr cls site : Nat) (words : List Codeword) {i j : Nat} (h : objKey 0xC010 4 ≠ objKey i j) :
    (s.writeLine addr cls site words).reg i j = s.reg i j := by
  unfold State.writeLine State.bump State.count
  rw [State.reg_setReg_of_ne _ _ h]
  unfold State.reg
  dsimp only

theorem State.inForce_writeLine (s : State) (addr cls site : Nat) (words : List Codeword) {i j : Nat} (h : objKey 0xC010 4 ≠ objKey i j) :
    (s.writeLine addr cls site words).inForce i j = s.inForce i j := by
  have held : (s.writeLine addr cls site words).held = s.held := by
    unfold State.writeLine State.bump State.count
    rw [State.setReg_held]
  unfold State.inForce
  rw [held, s.reg_writeLine addr cls site words h]

theorem State.nreg_writeLine (s : State) (addr cls site : Nat) (words : List Codeword) {i j : Nat} (h : objKey 0xC010 4 ≠ objKey i j) :
    (s.writeLine addr cls site words).nreg i j = s.nreg i j := congrArg Int.toNat (s.reg_writeLine addr cls site words h)

theorem State.memCapacity_writeLine (s : State) (addr cls site : Nat) (words : List Codeword) :
    (s.writeLine addr cls site words).memCapacity = s.memCapacity := s.nreg_writeLine addr cls site words (by decide)

theorem State.sealEpoch_writeLine (s : State) (addr cls site : Nat) (words : List Codeword) :
    (s.writeLine addr cls site words).sealEpoch = s.sealEpoch := s.nreg_writeLine addr cls site words (by decide)

theorem State.chan_writeLine (s : State) (addr cls site c : Nat) (words : List Codeword) :
    (s.writeLine addr cls site words).chan c = s.chan c := rfl

/-- The first channel in use is channel 0 or 1. -/
theorem State.headD_chansUsed_le (s : State) : s.chansUsed.headD 0 ≤ 1 := by
  have h : ∀ c ∈ s.chansUsed, c ≤ 1 := fun c hc => by
    have : c ∈ [0, 1] := List.mem_of_mem_filter hc
    simp at this
    omega
  cases hu : s.chansUsed with
  | nil => exact Nat.zero_le 1
  | cons c t => exact h c (by rw [hu]; exact List.mem_cons_self)

/-- Where an address stands among the channels does not change by a line written. -/
theorem State.memPlace_writeLine (s : State) (addr cls site a : Nat) (words : List Codeword) :
    (s.writeLine addr cls site words).memPlace a = s.memPlace a := by
  have used : (s.writeLine addr cls site words).chansUsed = s.chansUsed := rfl
  have lc : (s.writeLine addr cls site words).lcBits (s.chansUsed.headD 0) = s.lcBits (s.chansUsed.headD 0) := by
    unfold State.lcBits
    have := s.headD_chansUsed_le
    rw [s.nreg_writeLine addr cls site words (by unfold objKey; omega)]
  have top : (s.writeLine addr cls site words).addrBits = s.addrBits := by
    unfold State.addrBits
    rw [s.memCapacity_writeLine]
  unfold State.memPlace
  dsimp only
  rw [used, lc, top, s.nreg_writeLine addr cls site words (by decide), s.reg_writeLine addr cls site words (by decide)]

theorem State.fenced_writeLine (s : State) (addr cls site a : Nat) (words : List Codeword) :
    (s.writeLine addr cls site words).fenced a = s.fenced a := by
  unfold State.fenced
  rw [s.memPlace_writeLine, s.chan_writeLine]

/-! ### Metadata (R268) -/

theorem List.getD_poison {words : List Codeword} (h : ∀ w ∈ words, w.poison = false) (k : Nat) : (words.getD k {}).poison = false := by
  rw [List.getD_eq_getElem?_getD]
  cases hk : words[k]? with
  | none => rfl
  | some w => exact h w (List.mem_of_getElem? hk)

/-- Unmarked codewords have no POISON bit. -/
theorem poisonBits_of_unmarked {words : List Codeword} (h : ∀ w ∈ words, w.poison = false) : poisonBits words = 0 := by
  unfold poisonBits
  simp only [List.getD_poison h, Bool.false_eq_true, if_false]
  rfl

/-- The metadata of a line without a mark, as a number. -/
theorem metaOf_unmarked_toNat (cls epoch site : Nat) (hs : site < 256) :
    (metaOf cls epoch site 0).toNat = cls % 16 * 2 ^ 28 + epoch % 256 * 2 ^ 16 + site * 2 ^ 8 := by
  unfold metaOf
  rw [BitVec.toNat_ofNat]
  have := Nat.mod_lt epoch (show 256 > 0 by decide)
  omega

/-- The epoch that the metadata name is the tag of the epoch written. -/
theorem bits_metaOf_epoch (cls epoch site : Nat) (hs : site < 256) : bits (metaOf cls epoch site 0) 23 16 = epoch % 256 := by
  unfold bits
  rw [metaOf_unmarked_toNat cls epoch site hs]
  have := Nat.mod_lt epoch (show 256 > 0 by decide)
  omega

/-- No POISON bit stands in the metadata of a line without a mark. -/
theorem natBit_metaOf_unmarked (cls epoch site : Nat) (hs : site < 256) {k : Nat} (hk : k < 8) :
    natBit (metaOf cls epoch site 0).toNat k = false := by
  unfold natBit
  rw [metaOf_unmarked_toNat cls epoch site hs]
  have : k = 0 ∨ k = 1 ∨ k = 2 ∨ k = 3 ∨ k = 4 ∨ k = 5 ∨ k = 6 ∨ k = 7 := by omega
  simp only [beq_eq_false_iff_ne, ne_eq]
  rcases this with rfl | rfl | rfl | rfl | rfl | rfl | rfl | rfl <;> omega

/-- Eight unmarked codewords, read with the POISON bits of their own metadata, are themselves. -/
theorem unmarked_with_metaOf {words : List Codeword} (n : words.length = 8) (h : ∀ w ∈ words, w.poison = false) (cls epoch site : Nat)
    (hs : site < 256) :
    (List.range 8).map (fun k => { (words.getD k ({} : Codeword)) with poison := natBit (metaOf cls epoch site (poisonBits words)).toNat k })
      = words := by
  rw [poisonBits_of_unmarked h]
  refine List.ext_getElem (by simp [n]) fun k hk hk' => ?_
  have hk8 : k < 8 := n ▸ hk'
  rw [List.getElem_map, List.getElem_range, natBit_metaOf_unmarked cls epoch site hs hk8]
  have hp := h words[k] (List.getElem_mem hk')
  rw [List.getD_eq_getElem _ _ hk', ← hp]

/-- The tag of the seal epoch names the seal epoch, where it is not below the floor (R435). -/
theorem State.epochOf_sealEpoch {s : State} (h : s.nInForce 0xC010 2 ≤ s.sealEpoch) : s.epochOf (s.sealEpoch % 256) = some s.sealEpoch := by
  unfold State.epochOf
  dsimp only
  rw [show (s.sealEpoch % 256 + 256 - s.sealEpoch % 256) % 256 = 0 by omega]
  exact if_pos ⟨Nat.zero_le _, h⟩

/-- A line of sound, unmarked codewords, written in an epoch in force, reads back as written (R269, R270). -/
theorem State.readLine_writeLine {s : State} {addr cls site : Nat} {words : List Codeword} (n : words.length = 8)
    (hc : addr < s.memCapacity) (hf : s.fenced addr = false) (he : s.nInForce 0xC010 2 ≤ s.sealEpoch) (hs : site < 256)
    (hg : ∀ w ∈ words, w.poison = false ∧ syndrome w = 0) : ((s.writeLine addr cls site words).readLine addr []).1 = words := by
  have unmarked : ∀ w ∈ words, w.poison = false := fun w h => (hg w h).1
  have epoch : (s.writeLine addr cls site words).epochOf (bits (metaOf cls s.sealEpoch site (poisonBits words)) 23 16) = some s.sealEpoch := by
    rw [poisonBits_of_unmarked unmarked, bits_metaOf_epoch cls _ site hs, ← s.sealEpoch_writeLine addr cls site words]
    refine State.epochOf_sealEpoch ?_
    rw [s.sealEpoch_writeLine]
    unfold State.nInForce
    rw [s.inForce_writeLine addr cls site words (by decide)]
    exact he
  have found : (s.writeLine addr cls site words).tryLine addr 0 = .good words 0 :=
    State.tryLine_writeLine n (by simpa using hg) (unmarked_with_metaOf n unmarked cls s.sealEpoch site hs) epoch
  have inside : addr < (s.writeLine addr cls site words).memCapacity := hc.trans_eq (s.memCapacity_writeLine addr cls site words).symm
  have unfenced : (s.writeLine addr cls site words).fenced addr = false := (s.fenced_writeLine addr cls site addr words).trans hf
  have read := State.readLine_good (flips := []) inside unfenced found
  rw [read]

/-- The canonical form of a state holds the canonical form of its memory. -/
theorem State.wf_of_canonical {s : State} (h : s.canonical = true) : Memory.wf s.mem = true := by
  simp only [State.canonical, Bool.and_eq_true] at h
  tauto

/-- Settles O56: what a line write stores and leaves, and the read of an undisturbed line. -/
theorem linesKeepWhatIsWritten : Obligations.LinesKeepWhatIsWritten := by
  intro s addr cls site words hcanon n t kept md
  refine ⟨?_, fun k hk => s.memByte_writeLine addr cls site k words hk, s.lineAt_writeLine addr cls site words n,
    fun a ha => s.lineAt_writeLine_of_ne addr cls site a words ha, fun hc hf he hs hg => State.readLine_writeLine n hc hf he hs hg⟩
  rw [s.writeLine_mem addr cls site words]
  exact Memory.wf_memPut _ _ (State.wf_of_canonical hcanon)

end Sys2Proof.Machine
end

section
/-! SUPPORT. The code of R505 is linear, and the syndromes of single errors are distinct and of odd weight. -/

namespace Sys2Proof.Machine

/-! ### Linearity -/

theorem natBit_eq_testBit (x i : Nat) : natBit x i = x.testBit i := by
  rw [Nat.testBit_eq_decide_div_mod_eq]
  rfl

theorem natBit_xor (x y i : Nat) : natBit (x ^^^ y) i = (natBit x i ^^ natBit y i) := by
  simp only [natBit_eq_testBit, Nat.testBit_xor]

theorem checkFrom_xor (x y : Nat) (l : List Nat) (i : Nat) : checkFrom (x ^^^ y) i l = checkFrom x i l ^^^ checkFrom y i l := by
  induction l generalizing i with
  | nil => exact (Nat.xor_self 0).symm
  | cons h t ih =>
    have twice : ∀ a b : Nat, h ^^^ a ^^^ (h ^^^ b) = a ^^^ b := fun a b => by
      rw [Nat.xor_assoc, Nat.xor_left_comm a h, ← Nat.xor_assoc h h, Nat.xor_self, Nat.zero_xor]
    simp only [checkFrom, natBit_xor, ih]
    cases natBit x i <;> cases natBit y i
    · rfl
    · exact Nat.xor_left_comm _ _ _
    · exact (Nat.xor_assoc _ _ _).symm
    · exact (twice _ _).symm

theorem checkBits_xor (a b : Word64) : checkBits (a ^^^ b) = checkBits a ^^^ checkBits b := by
  unfold checkBits
  rw [BitVec.toNat_xor, checkFrom_xor, BitVec.ofNat_xor]

/-- The syndrome of a codeword with errors is that of the errors alone. -/
theorem syndrome_flipWord (d : Word64) (e : BitVec 72) : syndrome (flipWord (encodeWord d) e) = flipSyndrome e := by
  unfold syndrome flipSyndrome flipWord encodeWord
  dsimp only
  rw [checkBits_xor]
  congr 1
  generalize checkBits d = c
  rw [BitVec.xor_assoc, ← BitVec.xor_assoc _ c, BitVec.xor_comm _ c, BitVec.xor_assoc c, ← BitVec.xor_assoc c, BitVec.xor_self, BitVec.zero_xor]

theorem flipSyndrome_xor (a b : BitVec 72) : flipSyndrome (a ^^^ b) = flipSyndrome a ^^^ flipSyndrome b := by
  have high : (a ^^^ b).toNat / 2 ^ 64 = a.toNat / 2 ^ 64 ^^^ b.toNat / 2 ^ 64 := by
    rw [BitVec.toNat_xor, Nat.xor_div_two_pow]
  unfold flipSyndrome
  rw [high, BitVec.toNat_xor a b, BitVec.ofNat_xor, BitVec.ofNat_xor, checkBits_xor, ← BitVec.toNat_xor]
  congr 1
  ac_rfl

/-! ### Single errors -/

/-- The columns of H for all 72 bits of a codeword: those of the data bits, and the unit vectors of the check bits. -/
def errorColumns : List Nat := columns ++ [1, 2, 4, 8, 16, 32, 64, 128]

theorem flipSyndrome_single (i : Fin 72) : flipSyndrome (1#72 <<< i.val) = errorColumns.getD i.val 0 := by
  revert i
  decide +kernel

theorem errorColumns_distinct {i j : Fin 72} (h : i ≠ j) : errorColumns.getD i.val 0 ≠ errorColumns.getD j.val 0 := by
  have nodup : errorColumns.Nodup := by decide +kernel
  have len : errorColumns.length = 72 := by decide +kernel
  rw [List.getD_eq_getElem _ _ (by omega), List.getD_eq_getElem _ _ (by omega)]
  exact fun he => h (Fin.ext ((nodup.getElem_inj_iff).mp he))

theorem errorColumns_odd (i : Fin 72) : weight8 (errorColumns.getD i.val 0) % 2 = 1 := by
  revert i
  decide +kernel

/-- A data bit's column, of weight 3 or 5, is found at its place. -/
theorem columnOf_dataBit (i : Fin 72) (h : i.val < 64) :
    errorColumns.getD i.val 0 ≠ 0 ∧ weight8 (errorColumns.getD i.val 0) ≠ 1 ∧ columnOf (errorColumns.getD i.val 0) = some i.val := by
  revert i
  decide +kernel

/-- A check bit's column is its own bit. -/
theorem errorColumns_checkBit (i : Fin 72) (h : 64 ≤ i.val) :
    errorColumns.getD i.val 0 = 2 ^ (i.val - 64) ∧ weight8 (2 ^ (i.val - 64)) = 1 := by
  revert i
  decide +kernel

/-! ### Parity -/

/-- The members that exactly one of two conditions picks number, modulo 2, as those of each together. -/
theorem List.length_filter_xor (p q : Nat → Bool) (l : List Nat) :
    (l.filter fun x => p x ^^ q x).length % 2 = ((l.filter p).length + (l.filter q).length) % 2 := by
  induction l with
  | nil => rfl
  | cons a t ih =>
    simp only [List.filter_cons]
    cases hp : p a <;> cases hq : q a <;> simp <;> omega

theorem weight8_xor (x y : Nat) : weight8 (x ^^^ y) % 2 = (weight8 x + weight8 y) % 2 := by
  unfold weight8
  rw [← List.length_filter_xor]
  congr 2
  exact List.filter_congr fun i _ => natBit_xor x y i

/-- Every column is of odd weight. -/
theorem weight8_columns_odd : ∀ x ∈ columns, weight8 x % 2 = 1 := by decide +kernel

/-- No column is a syndrome of even weight. -/
theorem columnOf_of_even {syn : Nat} (h : weight8 syn % 2 = 0) : columnOf syn = none := by
  unfold columnOf
  rw [List.findIdx?_eq_none_iff]
  intro x hx
  have := weight8_columns_odd x hx
  exact beq_false_of_ne fun he => by rw [he] at this; omega

/-! ### The checker -/

theorem syndrome_encodeWord (d : Word64) : syndrome (encodeWord d) = 0 := by
  unfold syndrome encodeWord
  dsimp only
  rw [BitVec.xor_self]
  rfl

theorem checkWord_encodeWord (d : Word64) : checkWord (encodeWord d) = .good d := by
  unfold checkWord
  rw [if_neg (by simp [encodeWord])]
  exact if_pos (syndrome_encodeWord d)

/-- A syndrome of even weight that is not 0 leaves no valid data. -/
theorem checkWord_even {w : Codeword} (h0 : syndrome w ≠ 0) (h : weight8 (syndrome w) % 2 = 0) : (checkWord w).ok = false := by
  unfold checkWord
  split
  · rfl
  · dsimp only
    rw [if_neg h0, if_neg (by omega), columnOf_of_even h]
    rfl

/-- A marked word is not valid, whatever errors it holds. -/
theorem checkWord_poisonWord (w : Codeword) (e : BitVec 72) : (checkWord (flipWord (poisonWord w) e)).ok = false := by
  unfold checkWord
  rw [if_pos (by rfl)]
  rfl

/-- A data bit in error is flipped back. -/
theorem checkWord_dataBit (d : Word64) (i : Fin 72) (h : i.val < 64) :
    checkWord (flipWord (encodeWord d) (1#72 <<< i.val)) = .corrected d (encodeWord d) := by
  obtain ⟨h0, h1, hcol⟩ := columnOf_dataBit i h
  have syn := (syndrome_flipWord d (1#72 <<< i.val)).trans (flipSyndrome_single i)
  have pattern : BitVec.ofNat 64 (1#72 <<< i.val).toNat = BitVec.ofNat 64 (2 ^ i.val) ∧ BitVec.ofNat 8 ((1#72 <<< i.val).toNat / 2 ^ 64) = 0 := by
    clear syn hcol h0 h1
    revert i
    decide +kernel
  unfold checkWord
  rw [if_neg (by simp [encodeWord, flipWord])]
  dsimp only
  rw [syn, if_neg h0, if_neg h1, hcol]
  unfold flipWord
  dsimp only
  rw [pattern.1, pattern.2, BitVec.xor_assoc, BitVec.xor_self]
  simp [encodeWord]

/-- A check bit in error is flipped back. -/
theorem checkWord_checkBit (d : Word64) (i : Fin 72) (h : 64 ≤ i.val) :
    checkWord (flipWord (encodeWord d) (1#72 <<< i.val)) = .corrected d (encodeWord d) := by
  obtain ⟨hcol, h1⟩ := errorColumns_checkBit i h
  have syn := (syndrome_flipWord d (1#72 <<< i.val)).trans ((flipSyndrome_single i).trans hcol)
  have pattern : BitVec.ofNat 64 (1#72 <<< i.val).toNat = 0
      ∧ BitVec.ofNat 8 ((1#72 <<< i.val).toNat / 2 ^ 64) = BitVec.ofNat 8 (2 ^ (i.val - 64)) := by
    clear syn hcol h1
    revert i
    decide +kernel
  unfold checkWord
  rw [if_neg (by simp [encodeWord, flipWord])]
  dsimp only
  rw [syn, if_neg (Nat.two_pow_pos _).ne', if_pos h1]
  unfold flipWord
  dsimp only
  rw [pattern.1, pattern.2, BitVec.ofNat_xor, BitVec.ofNat_toNat, BitVec.setWidth_eq, BitVec.xor_assoc, BitVec.xor_self]
  simp [encodeWord]

/-- Settles O57: by the linearity of the code, from the 72 columns alone. The check bits that a correction restores are those of log 18. -/
theorem codeCorrectsOneFlip : Obligations.CodeCorrectsOneFlip := by
  intro d
  refine ⟨checkWord_encodeWord d, fun i => ?_, fun i j hij => ?_, fun e => checkWord_poisonWord _ e⟩
  · rcases Nat.lt_or_ge i.val 64 with h | h
    · exact checkWord_dataBit d i h
    · exact checkWord_checkBit d i h
  · have syn : syndrome (flipWord (encodeWord d) (1#72 <<< i.val ^^^ 1#72 <<< j.val)) = errorColumns.getD i.val 0 ^^^ errorColumns.getD j.val 0 := by
      rw [syndrome_flipWord, flipSyndrome_xor, flipSyndrome_single, flipSyndrome_single]
    refine checkWord_even (w := flipWord (encodeWord d) _) ?_ ?_
    · rw [syn, Ne, Nat.xor_eq_zero_iff]
      exact errorColumns_distinct hij
    · rw [syn, weight8_xor]
      have := errorColumns_odd i
      have := errorColumns_odd j
      omega

end Sys2Proof.Machine
end

section
/-! SUPPORT. Itinerary instructions that execute: from the body to the boundary after it (R39-R48, R55). -/

namespace Sys2Proof.Machine

section Bodies

variable {s t : State} {n op cost : Nat} {w : Word64} {early : Bool} {body : State → Nat → Done}

/-- An instruction whose body goes on. -/
theorem State.instr_of_next (h : s.Executes n w op) (listed : opcodeListed op = true)
    (hb : body (s.begun n w cost early) (s.seat n) = .next t) :
    s.instr n w op cost early body = .next (t.boundary n (s.seat n) (s.site n).thread.idx none false false) := by
  rw [State.instr_executes h listed, hb]

/-- An instruction whose body yields. -/
theorem State.instr_of_yields (h : s.Executes n w op) (listed : opcodeListed op = true)
    (hb : body (s.begun n w cost early) (s.seat n) = .yields t) :
    s.instr n w op cost early body = .next (t.boundary n (s.seat n) (s.site n).thread.idx none true false) := by
  rw [State.instr_executes h listed, hb]

/-- An instruction that has done a part of its work. -/
theorem State.instr_of_partly (h : s.Executes n w op) (listed : opcodeListed op = true)
    (hb : body (s.begun n w cost early) (s.seat n) = .partly t) :
    s.instr n w op cost early body = .next (t.boundary n (s.seat n) (s.site n).thread.idx none true true) := by
  rw [State.instr_executes h listed, hb]

/-- An instruction that enters a customer routine. -/
theorem State.instr_of_custom (h : s.Executes n w op) (listed : opcodeListed op = true)
    (hb : body (s.begun n w cost early) (s.seat n) = .custom t) : s.instr n w op cost early body = .next t := by
  rw [State.instr_executes h listed, hb]

/-- An instruction at a drain point that nothing stops. -/
theorem State.instr_of_drain {k : DrainKind} (h : s.Executes n w op) (listed : opcodeListed op = true)
    (hb : body (s.begun n w cost early) (s.seat n) = .drain t k) (hf : (t.ctx (s.seat n)).fault = none)
    (ha : (t.site n).abort = none) (hh : (t.site n).halted = false) :
    s.instr n w op cost early body = .next (t.enterDrain n (s.seat n) k) := by
  rw [State.instr_executes h listed, hb]
  exact if_neg (by simp [hf, ha, hh])

end Bodies

/-! ### LOOP, ENDL, CALL and RET (R47) -/

theorem execLoop_skips {s : State} {n : SiteId} {w : Word64} (h : s.Executes n w 0x03) :
    let u := s.begun n w 7 true
    let r := u.readWord (u.itinAddr n (bits w 47 24))
    (u.site n).thread.idx < bits w 47 24 → bits w 47 24 < (u.site n).length → (checkWord r.1).ok = true → opcodeOf (checkWord r.1).data = 0x04 →
      bits w 23 0 = 0 → exec (.loop n w) s
        = .next ((r.2.modThread n fun t => { t with idx := bits w 47 24 + 1 }).boundary n (s.seat n) (s.site n).thread.idx none false false) := by
  intro u r after inside ok endl zero
  show execLoop n w s = _
  refine State.instr_of_next h rfl ?_
  dsimp only
  rw [if_neg (not_or.mpr ⟨Nat.not_le.mpr after, Nat.not_le.mpr inside⟩)]
  split
  · rename_i d hd
    rw [show checkWord r.1 = _ from hd] at ok
    cases ok
  · rw [if_neg (not_not.mpr endl), if_pos zero]
    rfl

theorem execLoop_opens {s : State} {n : SiteId} {w : Word64} (h : s.Executes n w 0x03) :
    let u := s.begun n w 7 true
    let r := u.readWord (u.itinAddr n (bits w 47 24))
    let t := (u.site n).thread
    t.idx < bits w 47 24 → bits w 47 24 < (u.site n).length → (checkWord r.1).ok = true → opcodeOf (checkWord r.1).data = 0x04 →
      bits w 23 0 ≠ 0 → t.loops.length < 8 → exec (.loop n w) s
        = .next (((r.2.modThread n fun t => { t with loops := (t.idx + 1, bits w 23 0) :: t.loops }).modThread n
            fun t => { t with idx := t.idx + 1 }).boundary n (s.seat n) (s.site n).thread.idx none false false) := by
  intro u r t after inside ok endl zero room
  show execLoop n w s = _
  refine State.instr_of_next h rfl ?_
  dsimp only
  rw [if_neg (not_or.mpr ⟨Nat.not_le.mpr after, Nat.not_le.mpr inside⟩)]
  split
  · rename_i d hd
    rw [show checkWord r.1 = _ from hd] at ok
    cases ok
  · rw [if_neg (not_not.mpr endl), if_neg zero, if_neg (Nat.not_le.mpr room)]
    rfl

theorem execEndl_repeats {s : State} {n : SiteId} {w : Word64} (h : s.Executes n w 0x04) {i k : Nat} {rest : List (Nat × Nat)}
    (opened : ((s.begun n w 5 true).site n).thread.loops = (i, k) :: rest) (more : 1 < k) :
    exec (.endl n w) s = .next (((s.begun n w 5 true).modThread n fun t => { t with idx := i, loops := (i, k - 1) :: rest }).boundary n (s.seat n)
      (s.site n).thread.idx none false false) := by
  show execEndl n w s = _
  refine State.instr_of_next h rfl ?_
  rw [opened]
  exact if_pos more

theorem execEndl_closes {s : State} {n : SiteId} {w : Word64} (h : s.Executes n w 0x04) {i k : Nat} {rest : List (Nat × Nat)}
    (opened : ((s.begun n w 5 true).site n).thread.loops = (i, k) :: rest) (last : k ≤ 1) :
    exec (.endl n w) s = .next ((((s.begun n w 5 true).modThread n (·.closeLoop rest)).modThread n fun t => { t with idx := t.idx + 1 }).boundary n
      (s.seat n) (s.site n).thread.idx none false false) := by
  show execEndl n w s = _
  refine State.instr_of_next h rfl ?_
  rw [opened]
  exact if_neg (Nat.not_lt.mpr last)

theorem execCall_calls {s : State} {n : SiteId} {w : Word64} (h : s.Executes n w 0x05) (first : 1 ≤ bits w 23 0)
    (inside : bits w 23 0 < ((s.begun n w 7 true).site n).length) (room : ((s.begun n w 7 true).site n).thread.calls.length < 16) :
    exec (.call n w) s = .next ((((s.begun n w 7 true).modThread n fun t => { t with calls := (t.idx + 1, t.loops.length) :: t.calls }).modThread n
      fun t => { t with idx := bits w 23 0 }).boundary n (s.seat n) (s.site n).thread.idx none false false) := by
  show execCall n w s = _
  refine State.instr_of_next h rfl ?_
  dsimp only
  rw [if_neg (by simp [State.targetOk, first, inside]), if_neg (Nat.not_le.mpr room)]
  rfl

theorem execRet_returns {s : State} {n : SiteId} {w : Word64} (h : s.Executes n w 0x06) {i k : Nat} {rest : List (Nat × Nat)}
    (opened : ((s.begun n w 6 true).site n).thread.calls = (i, k) :: rest) (closed : ((s.begun n w 6 true).site n).thread.loops.length ≤ k) :
    exec (.ret n w) s = .next (((s.begun n w 6 true).modThread n fun t => { t with idx := i, calls := rest }).boundary n (s.seat n)
      (s.site n).thread.idx none false false) := by
  show execRet n w s = _
  refine State.instr_of_next h rfl ?_
  rw [opened]
  exact if_neg (Nat.not_lt.mpr closed)

/-- Settles O8, one lemma per instruction and outcome. -/
theorem loopsAndCalls : Obligations.LoopsAndCalls := by
  intro s n w
  refine ⟨fun h => ?_, fun h => ?_, fun h => ?_, fun h => ?_⟩
  · exact fun after inside ok endl => ⟨execLoop_skips h after inside ok endl, execLoop_opens h after inside ok endl⟩
  · exact fun i k rest hl => ⟨execEndl_repeats h hl, execEndl_closes h hl⟩
  · exact execCall_calls h
  · exact fun i k rest hc => execRet_returns h hc

/-! ### JMP, JFAIL and JEVT (R47, R48) -/

/-- A jump whose target lies in the itinerary and which closes no loop beyond its own has no fault. -/
theorem State.jumpFault_eq_none {u : State} {n target pop : Nat} (first : 1 ≤ target) (inside : target < (u.site n).length)
    (own : pop ≤ (u.site n).thread.ownLoops) (most : pop ≤ 8) : u.jumpFault n target pop = none := by
  unfold State.jumpFault
  rw [if_neg (by simp [State.targetOk, first, inside]), if_neg (by omega)]

/-- A jump: the loops closed, then the target or the next instruction. -/
theorem State.jump_eq (u : State) (n target pop : Nat) (taken : Bool) :
    u.jump n target pop taken = (u.modThread n fun t => { t with loops := t.loops.drop pop }).modThread n
      fun t => { t with idx := if taken then target else t.idx + 1 } := by
  cases taken <;> rfl

/-- Settles O9: where the checks of a jump pass, its body is `State.jump`. -/
theorem jumps : Obligations.Jumps := by
  intro s n w target pop fits jumped
  refine ⟨fun h fit => ?_, fun h fit now => ?_, fun h fit => ?_⟩
  · obtain ⟨first, inside, own, most⟩ := fit
    show execJmp n w s = _
    refine State.instr_of_next h rfl ?_
    rw [State.jumpFault_eq_none first inside own most, State.jump_eq]
  · obtain ⟨first, inside, own, most⟩ := fit
    show execJfail n w s = _
    refine State.instr_of_next h rfl ?_
    dsimp only
    rw [State.jumpFault_eq_none first inside own most, State.jump_eq]
    exact if_neg (by simp [now])
  · obtain ⟨first, inside, own, most⟩ := fit
    show execJevt n w s = _
    refine State.instr_of_next h rfl ?_
    dsimp only
    rw [State.jumpFault_eq_none first inside own most, State.jump_eq]

/-- Settles O10. -/
theorem eventAndYield : Obligations.EventAndYield := by
  intro s n w
  refine ⟨fun h => ?_, fun h => ?_⟩
  · show execEvent n w s = _
    exact State.instr_of_next h rfl rfl
  · show execYield n w s = _
    exact State.instr_of_yields h rfl rfl

end Sys2Proof.Machine
end

section
/-! SUPPORT. CUSTn enters its routine (R81, R97). -/

namespace Sys2Proof.Machine

/-- The registers at the entry of a customer routine: the operand in m0 and m1, free values in the others (R97). -/
def custRegs (w : Word64) (base : Nat) : List Word32 :=
  BitVec.ofNat 32 (bits w 31 0) :: BitVec.ofNat 32 (bits w 47 32) :: (List.range 14).map fun i => BitVec.ofNat 32 (Config.freeValue (base + i))

/-- A context that enters a customer routine at `entry` under `limit`. -/
def Ctx.enterCust (y : Ctx) (w : Word64) (base entry limit : Nat) : Ctx :=
  { y with ms := { m := custRegs w base, pc := BitVec.ofNat 16 entry }, limit := limit, run := 0, cust := true, effects := false
           snap := { m := custRegs w base, pc := BitVec.ofNat 16 entry }, restarted := false }

/-- The state in which a site's thread has entered its customer routine. -/
def State.enterCust (u : State) (n c : Nat) (w : Word64) (entry limit : Nat) : State :=
  ({ u with freeCtr := u.freeCtr + 14 }.modThread n fun t => { t with custom := true }).modCtx c (·.enterCust w u.freeCtr entry limit)

theorem State.ctx_enterCust (u : State) (n c : Nat) (w : Word64) (entry limit : Nat) :
    (u.enterCust n c w entry limit).ctx c = (u.ctx c).enterCust w u.freeCtr entry limit :=
  State.ctx_setCtx_of_ne (fun e => by cases congrArg Ctx.cust e)

theorem State.ctx_enterCust_of_ne (u : State) (n : Nat) {c d : Nat} (w : Word64) (entry limit : Nat) (h : d ≠ c) :
    (u.enterCust n c w entry limit).ctx d = u.ctx d := State.ctx_setCtx_other (Ne.symm h)

theorem custRegs_free (w : Word64) (base : Nat) {i : Nat} (h2 : 2 ≤ i) (h16 : i < 16) :
    (custRegs w base).getD i 0 = BitVec.ofNat 32 (Config.freeValue (base + (i - 2))) := by
  obtain ⟨j, rfl⟩ := Nat.exists_eq_add_of_le' h2
  unfold custRegs
  rw [List.getD_cons_succ, List.getD_cons_succ, List.getD_eq_getElem _ _ (by simpa using (by omega : j < 14)), List.getElem_map, List.getElem_range]
  rfl

/-- CUSTn, its entry in the table present and whole, enters the routine. -/
theorem execCust_enters {s : State} {n : SiteId} {w : Word64} {entry limit : Nat} (low : 0x20 ≤ opcodeOf w) (high : opcodeOf w ≤ 0x3F)
    (h : s.Executes n w (opcodeOf w)) (whole : s.store.needsRepair (custKey (opcodeOf w - 0x20)) = false) :
    let u := (s.begun n w 5 true).readStore (custKey (opcodeOf w - 0x20))
    (u.store.word (custKey (opcodeOf w - 0x20))).isSome = true → u.store.custEntry (opcodeOf w - 0x20) = some (entry, limit) →
      exec (.cust n w) s = .next (u.enterCust n (s.seat n) w entry limit) := by
  intro u present found
  have repairs : s.custRepairs n w = none := by
    unfold State.custRepairs
    rw [Option.filter_eq_none_iff]
    intro k hk
    unfold State.custReads at hk
    dsimp only at hk
    split at hk
    · injection hk with hk
      rw [← hk, whole]
      simp
    · cases hk
  show execCust n w s = _
  unfold execCust
  rw [repairs, if_neg (by simp), if_pos ⟨low, high⟩]
  refine State.instr_of_custom h (by simp [opcodeListed, low, high]) ?_
  dsimp only
  have notLost : ¬(u.store.word (custKey (opcodeOf w - 0x20))).isNone = true := by
    rw [Option.isNone_iff_eq_none, ← Option.not_isSome_iff_eq_none]
    exact not_not.mpr present
  rw [if_neg notLost, found]
  rfl

/-- Settles O11: the state after CUSTn is `State.enterCust`. -/
theorem custEntersItsRoutine : Obligations.CustEntersItsRoutine := by
  intro s n w entry limit low high h k u whole present found
  refine ⟨u.enterCust n (s.seat n) w entry limit, execCust_enters low high h whole present found, ?_⟩
  rw [State.ctx_enterCust]
  exact ⟨rfl, rfl, fun i h2 h16 => custRegs_free w _ h2 h16, rfl, rfl, rfl, rfl, rfl, rfl,
    fun c hc => State.ctx_enterCust_of_ne u n w entry limit hc⟩

end Sys2Proof.Machine
end

section
/-! SUPPORT. What the instructions of the vector path stage, and what rides to the next vector (R44-R46, R52-R55). -/

namespace Sys2Proof.Machine

/-- A check that passes: its test is false. -/
theorem not_bnot {b : Bool} (h : b = true) : ¬(!b) = true := by simp [h]

/-! ### VEC (R45) -/

section Vec

variable {u v : State} {n c count : Nat}

theorem State.vecRun_nothing (v : State) (n c : Nat) :
    v.vecRun n c 0 = .next ((v.modThread n fun t => { t with vecLeft := none }).advance n) := rfl

/-- A run of VEC that the queue takes whole. -/
theorem State.vecRun_whole (nonzero : count ≠ 0) (room : v.queueRoom n = true) (ok : v.stagingOk n = true)
    (all : (v.emitRun n c 64 (v.site n).thread.vp count).1 = 0) :
    v.vecRun n c count = .next ((((v.emitRun n c 64 (v.site n).thread.vp count).2.modThread n
      fun t => { t with vp := (v.site n).thread.vp + (count - (v.emitRun n c 64 (v.site n).thread.vp count).1) }).modThread n
        fun t => { t with vecLeft := none }).advance n) := by
  unfold State.vecRun
  rw [if_neg nonzero, if_neg (not_bnot room), if_neg (not_bnot ok)]
  exact if_pos all

/-- A run of VEC that fills the queue and leaves the rest to a further run. -/
theorem State.vecRun_part (nonzero : count ≠ 0) (room : v.queueRoom n = true) (ok : v.stagingOk n = true)
    (left : (v.emitRun n c 64 (v.site n).thread.vp count).1 ≠ 0) :
    v.vecRun n c count = .partly (((v.emitRun n c 64 (v.site n).thread.vp count).2.modThread n
      fun t => { t with vp := (v.site n).thread.vp + (count - (v.emitRun n c 64 (v.site n).thread.vp count).1) }).modThread n
        fun t => { t with vecLeft := some (v.emitRun n c 64 (v.site n).thread.vp count).1 }) := by
  unfold State.vecRun
  rw [if_neg nonzero, if_neg (not_bnot room), if_neg (not_bnot ok)]
  exact if_neg left

end Vec

/-- Settles O12, from the bodies of the instructions and the runs of VEC. -/
theorem patternInstructions : Obligations.PatternInstructions := by
  intro s n w c next
  refine ⟨fun h => ?_, fun h => ?_, fun h => ?_, fun h => ?_, fun h => ?_, fun h => ?_⟩
  case refine_1 =>
    intro u start count fresh inside v
    have body : ∀ d : Done, v.vecRun n c count = d →
        (fun (s : State) (c : Nat) =>
          let t := (s.site n).thread
          match t.vecLeft with
          | some left => s.vecRun n c left
          | none =>
            let abs := bit w 47
            let start := if abs then bits w 46 16 else t.vp
            let count := if abs then (if bits w 15 0 = 0 then 65536 else bits w 15 0) else bits w 31 0
            if start + count > s.nreg (siteObj n 1) 5 then .fault fRange
            else (s.modThread n fun t => { t with vp := start }).vecRun n c count) u c = d := by
      intro d hd
      dsimp only
      rw [fresh]
      exact (if_neg (Nat.not_lt.mpr inside)).trans hd
    constructor
    · intro zero
      show execVec n w s = _
      exact State.instr_of_next h rfl (body _ ((congrArg _ zero).trans (State.vecRun_nothing v n c)))
    · intro nonzero room ok r x
      constructor <;> intro rest <;> show execVec n w s = _
      · exact State.instr_of_next h rfl (body _ (State.vecRun_whole nonzero room ok rest))
      · exact State.instr_of_partly h rfl (body _ (State.vecRun_part nonzero room ok rest))
  case refine_2 =>
    intro u pattern
    refine ⟨fun zero => ?_, fun nonzero room ok => ?_⟩ <;> show execRpt n w s = _
    · refine State.instr_of_next h rfl ?_
      dsimp only
      rw [if_neg (not_bnot pattern), if_pos zero]
      rfl
    · refine State.instr_of_next h rfl ?_
      dsimp only
      rw [if_neg (not_bnot pattern), if_neg nonzero, if_neg (not_bnot room), if_neg (not_bnot ok)]
      rfl
  case refine_3 =>
    intro u
    refine ⟨fun hold zero => ?_, fun hold nonzero room => ?_, fun time room => ?_⟩
    · show execWaitHold n w s = _
      unfold execWaitHold
      rw [if_neg (by simp [hold])]
      refine State.instr_of_next h rfl ?_
      exact if_pos (by rw [zero])
    · show execWaitHold n w s = _
      unfold execWaitHold
      rw [if_neg (by simp [hold])]
      refine State.instr_of_next h rfl ?_
      dsimp only
      rw [if_neg (by omega), if_neg (not_bnot room)]
      rfl
    · show execWaitTime n w s = _
      unfold execWaitTime
      rw [if_neg (not_bnot time)]
      refine State.instr_of_next h rfl ?_
      exact if_neg (not_bnot room)
  case refine_4 =>
    intro u valid room
    show execTset n w s = _
    refine State.instr_of_next h rfl ?_
    dsimp only
    rw [if_neg (not_bnot valid), if_neg (not_bnot room)]
    rfl
  case refine_5 =>
    intro u long room
    show execPeriod n w s = _
    refine State.instr_of_next h rfl ?_
    dsimp only
    rw [if_neg (by omega), if_neg (not_bnot room)]
    rfl
  case refine_6 =>
    intro u len vp pins known mask inside room ok v hf ha hh
    show execMatchI n w s = _
    refine State.instr_of_drain (t := v) h rfl ?_ hf ha hh
    dsimp only
    rw [known]
    dsimp only
    rw [if_neg mask, if_neg (Nat.not_lt.mpr inside), if_neg (not_bnot room), if_neg (not_bnot ok)]

/-! ### CAP, MEAS, TRIG and SERIAL (R44, R55) -/

/-- A CAP of action a executes where ACTION is a. -/
theorem State.capInstr_acts {s : State} {n a : Nat} {w : Word64} (h : s.Executes n w 0x0E) (ha : bits w 2 0 = a) (listed : a ≤ 4) :
    let u := s.begun n w 9 true
    s.capInstr n a w = .next (((if (u.capIssue n a).1 then (u.capIssue n a).2.emit n (s.seat n) (.rider (.cap a (bits w 15 8)))
      else (u.capIssue n a).2).modThread n fun t => { t with idx := t.idx + 1 }).boundary n (s.seat n) (s.site n).thread.idx none false false) := by
  intro u
  unfold State.capInstr
  rw [if_neg (by omega)]
  refine State.instr_of_next h rfl ?_
  exact if_neg (by omega)

/-- A TRIG of action a executes where ACTION is a and the site owns the unit. -/
theorem State.trigInstr_acts {s : State} {n a : Nat} {w : Word64} (h : s.Executes n w 0x10) (ha : bits w 5 4 = a) (listed : a ≤ 2)
    (own : (s.begun n w 8 true).nreg (tuObj (bits w 3 0)) 1 = n) :
    s.trigInstr n a w = .next ((((s.begun n w 8 true).emit n (s.seat n) (.rider (.trig (bits w 3 0) a))).modThread n
      fun t => { t with idx := t.idx + 1 }).boundary n (s.seat n) (s.site n).thread.idx none false false) := by
  unfold State.trigInstr
  rw [if_neg (by omega)]
  refine State.instr_of_next h rfl ?_
  dsimp only
  rw [if_neg (by omega), if_neg (not_not.mpr own)]
  rfl

/-- Settles O13. -/
theorem ridingInstructions : Obligations.RidingInstructions := by
  intro s n w c next
  refine ⟨fun h => ?_, fun h => ?_, fun h => ?_, fun h => ?_⟩
  case refine_1 =>
    intro u done
    exact ⟨fun a => State.capInstr_acts h a (by decide), fun a => State.capInstr_acts h a (by decide),
      fun a => State.capInstr_acts h a (by decide), fun a => State.capInstr_acts h a (by decide), fun a => State.capInstr_acts h a (by decide)⟩
  case refine_2 =>
    intro u d own mode v
    show execMeas n w s = _
    refine State.instr_of_next h rfl ?_
    dsimp only
    rw [if_neg (not_bnot own), if_neg mode]
    rfl
  case refine_3 =>
    intro u own
    exact ⟨fun a => State.trigInstr_acts h a (by decide) own, fun a => State.trigInstr_acts h a (by decide) own,
      fun a => State.trigInstr_acts h a (by decide) own⟩
  case refine_4 =>
    intro u k g known
    refine ⟨fun enters free => ?_, fun leaves => ?_⟩
    · show execSerialEnter n w s = _
      unfold execSerialEnter
      rw [if_neg fun both => not_bnot enters both.1]
      refine State.instr_of_next h rfl ?_
      dsimp only
      rw [known]
      exact if_neg (by rw [free]; simp)
    · show execSerialLeave n w s = _
      unfold execSerialLeave
      rw [if_neg (by simp [leaves])]
      refine State.instr_of_next h rfl ?_
      dsimp only
      rw [known]
      rfl

end Sys2Proof.Machine
end

section
/-! SUPPORT. Drain points (R50, R52, R57, R59, R60, R82): the state at which one is entered. -/

namespace Sys2Proof.Machine

/-! ### What an instruction's body finds -/

theorem State.Executes.busy {s : State} {n op : Nat} {w : Word64} (h : s.Executes n w op) : (s.site n).st.busy = true := by
  have := h.runs
  unfold State.mayRun at this
  simp only [Bool.and_eq_true] at this
  exact this.1.1.1.1

/-- Where nothing stops its thread, the body of an instruction finds its site as it was, but for cycles, the fail epoch and flags, and the
marks that reaching the instruction clears. -/
theorem State.begun_site {s : State} {n op cost : Nat} {w : Word64} {clrf : Bool} (h : s.Executes n w op) (g : s.Unstopped n cost) :
    ∃ k j e f, (s.begun n w cost clrf).site n
      = { s.site n with cycles := k, issued := j, flags := f, thread := { (s.site n).thread.pass (opcodeOf w) with epoch := e } } := by
  obtain ⟨⟨k, j, site⟩, -⟩ := State.begun_unstopped (clrf := clrf) h g
  rw [site]
  split
  · exact ⟨k, j, _, _, rfl⟩
  · exact ⟨k, j, _, _, rfl⟩

/-- State v stands before the drain point of an instruction that site n executes in s: nothing stops the thread, and its place, the state of
the site, the other contexts, memory and the clocks are as they were. -/
structure State.AtDrain (s : State) (n : Nat) (v : State) : Prop where
  busy : (s.site n).st.busy = true
  index : (v.site n).thread.idx = (s.site n).thread.idx
  st : (v.site n).st = (s.site n).st
  noAbort : (v.site n).abort = none
  noHalt : (v.site n).halted = false
  noFault : (v.ctx (s.seat n)).fault = none
  regs : (v.ctx (s.seat n)).ms = (s.ctx (s.seat n)).ms
  others : ∀ d, d ≠ s.seat n → v.ctx d = s.ctx d
  mem : v.mem = s.mem
  clk : v.clk = s.clk

namespace State.AtDrain

variable {s v : State} {n : Nat}

theorem of_begun {op cost : Nat} {w : Word64} {clrf : Bool} (h : s.Executes n w op) (g : s.Unstopped n cost) :
    s.AtDrain n (s.begun n w cost clrf) := by
  obtain ⟨k, j, e, f, site⟩ := State.begun_site (clrf := clrf) h g
  obtain ⟨-, ctx, others, -, mem, clk, -, -⟩ := State.begun_unstopped (clrf := clrf) h g
  exact { busy := h.busy, index := by rw [site]; rfl, st := by rw [site], noAbort := by rw [site]; exact g.noAbort,
          noHalt := by rw [site]; exact g.noHalt, noFault := by rw [ctx]; exact g.noFault, regs := by rw [ctx], others, mem, clk }

/-- The site v has may take values that neither its place nor what stops it depend on. -/
theorem site_ne (h : s.AtDrain n v) {x : Site} (hx : x.st = (v.site n).st) : x ≠ {} :=
  Site.ne_default (by rw [hx, h.st]; exact h.busy)

theorem site_modSite (h : s.AtDrain n v) {f : Site → Site} (hst : (f (v.site n)).st = (v.site n).st) :
    (v.modSite n f).site n = f (v.site n) := State.site_setSite_self (h.site_ne hst)

theorem modSite (h : s.AtDrain n v) {f : Site → Site} (hst : (f (v.site n)).st = (v.site n).st)
    (hidx : (f (v.site n)).thread.idx = (v.site n).thread.idx) (ha : (f (v.site n)).abort = (v.site n).abort)
    (hh : (f (v.site n)).halted = (v.site n).halted) : s.AtDrain n (v.modSite n f) := by
  have site := h.site_modSite hst
  exact { h with index := by rw [site, hidx, h.index], st := by rw [site, hst, h.st], noAbort := by rw [site, ha, h.noAbort],
                 noHalt := by rw [site, hh, h.noHalt] }

/-- The instruction enters its drain point. -/
theorem enters (h : s.AtDrain n v) {op cost : Nat} {w : Word64} {early : Bool} {body : State → Nat → Done} {k : DrainKind}
    (hx : s.Executes n w op) (listed : opcodeListed op = true) (hb : body (s.begun n w cost early) (s.seat n) = .drain v k) :
    ∃ t, s.instr n w op cost early body = .next t
      ∧ t.site n = { v.site n with drain := some { kind := k, entered := s.clk.frames, index := (s.site n).thread.idx },
                                   st := if (s.site n).st = .running then .waiting else (s.site n).st }
      ∧ (t.ctx (s.seat n)).st = .waiting ∧ (t.ctx (s.seat n)).run = 0 ∧ (t.ctx (s.seat n)).ms = (s.ctx (s.seat n)).ms
      ∧ (∀ d, d ≠ s.seat n → t.ctx d = s.ctx d) ∧ t.pins = v.pins ∧ t.mem = s.mem ∧ t.clk = s.clk := by
  obtain ⟨site, ctx, others, pins, mem, clk⟩ := State.enterDrain_holds (t := v) (c := s.seat n) (k := k) (by rw [h.st]; exact h.busy)
  refine ⟨_, State.instr_of_drain hx listed hb h.noFault h.noAbort h.noHalt, ?_, ?_, ?_, ?_, fun d hd => ?_, pins, ?_, ?_⟩
  · rw [site, h.index, h.st, h.clk]
  · rw [ctx]
  · rw [ctx]
  · rw [ctx]
    exact h.regs
  · rw [others d hd, h.others d hd]
  · rw [mem, h.mem]
  · rw [clk, h.clk]

end State.AtDrain

/-! ### Descriptors staged -/

/-- Taking descriptors from the queue leaves the site but for the queue and the run FIFO. -/
theorem State.site_takeHead {u : State} {n : Nat} (busy : (u.site n).st.busy = true) :
    ∃ q r k, (u.takeHead n).site n = { u.site n with queue := q, runs := r, runSerial := k } := by
  have pins : ∀ (a : State) (i : Nat) (k : DescKind), (a.takePins n i k).site n = a.site n := fun a i k => by
    unfold State.site
    rw [(State.takePins_keeps (k := (· = .pins)) rfl Keeps.refl).parts .sites (by simp)]
  unfold State.takeHead
  dsimp only
  split
  · exact ⟨_, _, _, rfl⟩
  · exact ⟨_, _, _, (pins _ _ _).trans (State.site_setSite_self (Site.ne_default busy))⟩

theorem State.site_takeFree {n : Nat} (m : Nat) {u : State} (busy : (u.site n).st.busy = true) :
    ∃ q r k, (u.takeFree n m).site n = { u.site n with queue := q, runs := r, runSerial := k } := by
  induction m generalizing u with
  | zero => exact ⟨_, _, _, rfl⟩
  | succ m ih =>
    unfold State.takeFree
    split
    · split
      · obtain ⟨q, r, k, head⟩ := State.site_takeHead busy
        obtain ⟨q', r', k', rest⟩ := ih (u := u.takeHead n) (by rw [head]; exact busy)
        exact ⟨q', r', k', by rw [rest, head]⟩
      · exact ⟨_, _, _, rfl⟩
    · exact ⟨_, _, _, rfl⟩

/-- Taking descriptors touches no context, no memory and no clock. -/
theorem State.takeFree_others (u : State) (n m : Nat) :
    (∀ d, (u.takeFree n m).ctx d = u.ctx d) ∧ (u.takeFree n m).mem = u.mem ∧ (u.takeFree n m).clk = u.clk := by
  have keeps : Keeps (fun p => p = .sites ∨ p = .pins) u (u.takeFree n m) := State.takeFree_keeps (Or.inl rfl) (Or.inr rfl) Keeps.refl
  exact ⟨fun d => keeps.ctx (by simp) d, keeps.parts .memory (by simp), keeps.parts .clocks (by simp)⟩

namespace State.AtDrain

variable {s v : State} {n : Nat}

theorem modCtx (h : s.AtDrain n v) {f : Ctx → Ctx} (listed : f (v.ctx (s.seat n)) ≠ {})
    (hf : (f (v.ctx (s.seat n))).fault = (v.ctx (s.seat n)).fault) (hm : (f (v.ctx (s.seat n))).ms = (v.ctx (s.seat n)).ms) :
    s.AtDrain n (v.modCtx (s.seat n) f) := by
  have ctx : (v.modCtx (s.seat n) f).ctx (s.seat n) = f (v.ctx (s.seat n)) := State.ctx_setCtx_of_ne listed
  exact { h with noFault := by rw [ctx, hf, h.noFault], regs := by rw [ctx, hm, h.regs],
                 others := fun d hd => (State.ctx_setCtx_other (Ne.symm hd)).trans (h.others d hd) }

theorem takeFree (h : s.AtDrain n v) (m : Nat) : s.AtDrain n (v.takeFree n m) := by
  obtain ⟨q, r, k, site⟩ := State.site_takeFree m (u := v) (n := n) (by rw [h.st]; exact h.busy)
  obtain ⟨ctx, mem, clk⟩ := State.takeFree_others v n m
  exact { busy := h.busy, index := by rw [site, ← h.index], st := by rw [site, ← h.st], noAbort := by rw [site, ← h.noAbort],
          noHalt := by rw [site, ← h.noHalt], noFault := by rw [ctx, h.noFault], regs := by rw [ctx, h.regs],
          others := fun d hd => by rw [ctx, h.others d hd], mem := by rw [mem, h.mem], clk := by rw [clk, h.clk] }

/-- A descriptor of vectors staged leaves a state that stands before a drain point. -/
theorem emitVectors (h : s.AtDrain n v) (issuing : (v.ctx (s.seat n)).st = .issuing) (k : DescKind) :
    s.AtDrain n (v.emitVectors n (s.seat n) k) := by
  have staged : s.AtDrain n (v.stage n k (v.tainting (s.seat n)) true) := h.modSite rfl rfl rfl rfl
  have listed : ((v.stage n k (v.tainting (s.seat n)) true).ctx (s.seat n)).countTaint ≠ {} := fun e => by
    have free := congrArg Ctx.st e
    change (v.ctx (s.seat n)).st = .free at free
    rw [issuing] at free
    cases free
  have counted := staged.modCtx listed rfl rfl
  unfold State.emitVectors State.emit State.modThread
  exact (counted.takeFree 130).modSite rfl rfl rfl rfl

end State.AtDrain

/-! ### What a MATCH asks (R52) -/

section Match

variable {s u : State} {n : Nat}

/-- The pins of a site and what is stored of them follow the dictionary and the pins. -/
theorem State.nreg_of_regs (h : u.regs = s.regs) (i j : Nat) : u.nreg i j = s.nreg i j := by
  unfold State.nreg State.reg
  rw [h]

theorem State.sitePins_of_regs (h : u.regs = s.regs) (n : Nat) : u.sitePins n = s.sitePins n := by
  unfold State.sitePins State.pinMap
  rw [State.nreg_of_regs h]

theorem State.matchPins_of_regs (h : u.regs = s.regs) (n bank mask expect : Nat) :
    u.matchPins n bank mask expect = s.matchPins n bank mask expect := by
  unfold State.matchPins
  rw [State.sitePins_of_regs h]

/-- The check of R164 asks the dictionary, the pins and the thread's timing. -/
theorem State.stagingOk_congr (h : u.regs = s.regs) (hp : u.pins = s.pins)
    (ht : ∃ op e, (u.site n).thread = { (s.site n).thread.pass op with epoch := e }) : u.stagingOk n = s.stagingOk n := by
  obtain ⟨op, e, ht⟩ := ht
  have summary : ∀ p k, u.summary p k = s.summary p k := fun p k => by
    unfold State.summary State.tset State.pin
    rw [hp]
  unfold State.stagingOk
  simp only [ht, State.sitePins_of_regs h, summary]
  rfl

end Match

/-- The site as the body of a drain point's instruction leaves it: its vectors, runs and playback as they were, and the SYNC it serves. -/
structure State.AtDrain.Calm (s : State) (n : Nat) (v : State) (y : Option SyncRun) : Prop where
  ready : s.AtDrain n v
  queue : (v.site n).queue = (s.site n).queue
  runs : (v.site n).runs = (s.site n).runs
  play : (v.site n).play = (s.site n).play
  sync : (v.site n).sync = y
  pins : v.pins = s.pins

namespace State.AtDrain.Calm

variable {s v : State} {n : Nat} {y : Option SyncRun}

theorem of_begun {op cost : Nat} {w : Word64} {clrf : Bool} (h : s.Executes n w op) (g : s.Unstopped n cost) :
    Calm s n (s.begun n w cost clrf) (s.site n).sync := by
  obtain ⟨k, j, e, f, site⟩ := State.begun_site (clrf := clrf) h g
  obtain ⟨-, -, -, pins, -⟩ := State.begun_unstopped (clrf := clrf) h g
  exact ⟨State.AtDrain.of_begun h g, by rw [site], by rw [site], by rw [site], by rw [site], pins⟩

/-- The SYNC of a site set, with the agreements it forgets. -/
theorem setSync (h : Calm s n v y) (r : SyncRun) :
    Calm s n (v.modSite n fun x => { x with agreed := x.agreed.filter (· ≠ r.id), sync := some r }) (some r) := by
  have site := h.ready.site_modSite (f := fun x => { x with agreed := x.agreed.filter (· ≠ r.id), sync := some r }) rfl
  exact ⟨h.ready.modSite rfl rfl rfl rfl, by rw [site]; exact h.queue, by rw [site]; exact h.runs, by rw [site]; exact h.play, by rw [site],
    h.pins⟩

/-- The drain point is entered with nothing else of the site changed. -/
theorem enters (h : Calm s n v y) {op cost : Nat} {w : Word64} {early : Bool} {body : State → Nat → Done} {k : DrainKind}
    (hx : s.Executes n w op) (listed : opcodeListed op = true) (hb : body (s.begun n w cost early) (s.seat n) = .drain v k) :
    ∃ t, s.instr n w op cost early body = .next t
      ∧ (t.site n).drain = some { kind := k, entered := s.clk.frames, index := (s.site n).thread.idx } ∧ (t.site n).sync = y
      ∧ (t.site n).st = (if (s.site n).st = .running then .waiting else (s.site n).st) ∧ (t.site n).thread.idx = (s.site n).thread.idx
      ∧ (t.site n).queue = (s.site n).queue ∧ (t.site n).runs = (s.site n).runs ∧ (t.site n).play = (s.site n).play
      ∧ (t.ctx (s.seat n)).st = .waiting ∧ (t.ctx (s.seat n)).run = 0 ∧ (t.ctx (s.seat n)).ms = (s.ctx (s.seat n)).ms
      ∧ (∀ d, d ≠ s.seat n → t.ctx d = s.ctx d) ∧ t.pins = s.pins ∧ t.mem = s.mem ∧ t.clk = s.clk := by
  obtain ⟨t, next, site, st, run, ms, others, pins, mem, clk⟩ := h.ready.enters (k := k) hx listed hb
  refine ⟨t, next, ?_, ?_, ?_, ?_, ?_, ?_, ?_, st, run, ms, others, pins.trans h.pins, mem, clk⟩
  · rw [site]
  · rw [site]; exact h.sync
  · rw [site]
  · rw [site]; exact h.ready.index
  · rw [site]; exact h.queue
  · rw [site]; exact h.runs
  · rw [site]; exact h.play

end State.AtDrain.Calm

/-- A site whose MATCH awaits its answer, with neither flag of its outcome. -/
def Site.asksMatch (m : MatchRun) (x : Site) : Site := ({ x with mtch := some m }.flag flagMatched false).flag flagTimeout false

theorem State.AtDrain.asksMatch {s v : State} {n : Nat} (h : s.AtDrain n v) (m : MatchRun) :
    s.AtDrain n (v.modSite n (Site.asksMatch m)) ∧ (v.modSite n (Site.asksMatch m)).site n = (v.site n).asksMatch m :=
  ⟨h.modSite rfl rfl rfl rfl, h.site_modSite rfl⟩

/-- A MATCH whose checks pass stages its block and enters its drain point (R52). -/
theorem execMatchI_enters {s : State} {n : SiteId} {w : Word64} (h : s.Executes n w 0x0A) (g : s.Unstopped n 14)
    {pins : List (Nat × Nat)} (known : s.matchPins n (bits w 47 46) (bits w 45 30) (bits w 29 14) = some pins) (mask : bits w 45 30 ≠ 0)
    (inside : (s.site n).thread.vp + (bits w 13 9 + 1) ≤ s.nreg (siteObj n 1) 5) (room : s.queueRoom n = true) (ok : s.stagingOk n = true) :
    ∃ t, exec (.matchI n w) s = .next t
      ∧ (t.site n).drain = some { kind := .match, entered := s.clk.frames, index := (s.site n).thread.idx }
      ∧ (t.site n).mtch = some { first := (s.site n).thread.vp, len := bits w 13 9 + 1, masked := pins, timeout := bits w 4 0 * 4 ^ bits w 8 5 }
      ∧ (t.site n).st = (if (s.site n).st = .running then .waiting else (s.site n).st)
      ∧ (t.ctx (s.seat n)).st = .waiting ∧ (t.ctx (s.seat n)).ms = (s.ctx (s.seat n)).ms
      ∧ (∀ d, d ≠ s.seat n → t.ctx d = s.ctx d) ∧ t.mem = s.mem ∧ t.clk = s.clk := by
  obtain ⟨k, j, e, f, site⟩ := State.begun_site (clrf := true) h g
  obtain ⟨-, ctx, -, hpins, -, -, regs, -⟩ := State.begun_unstopped (clrf := true) h g
  have begun := State.AtDrain.of_begun (clrf := true) h g
  have vp : ((s.begun n w 14 true).site n).thread.vp = (s.site n).thread.vp := by rw [site]; rfl
  have queue : (s.begun n w 14 true).queueRoom n = true := by
    unfold State.queueRoom at room ⊢
    rw [site]
    exact room
  have staging : (s.begun n w 14 true).stagingOk n = true := by
    rw [State.stagingOk_congr regs hpins ⟨_, e, by rw [site]⟩, ok]
  have staged := begun.emitVectors (by rw [ctx]) (.block (s.site n).thread.vp (bits w 13 9 + 1))
  let m : MatchRun := { first := (s.site n).thread.vp, len := bits w 13 9 + 1, masked := pins, timeout := bits w 4 0 * 4 ^ bits w 8 5 }
  obtain ⟨asked, after⟩ := staged.asksMatch m
  show ∃ t, execMatchI n w s = .next t ∧ _
  refine (asked.enters (k := .match) h rfl ?_).imp fun t ⟨next, st, hst, _, ms, others, _, mem, clk⟩ =>
    ⟨next, by rw [st], by rw [st, after]; rfl, by rw [st], hst, ms, others, mem, clk⟩
  dsimp only
  rw [State.matchPins_of_regs regs, known, vp, State.nreg_of_regs regs]
  dsimp only
  rw [if_neg mask, if_neg (Nat.not_lt.mpr inside), if_neg (not_bnot queue), if_neg (not_bnot staging)]
  rfl

/-- Settles O14: every drain point is entered from a state as `State.AtDrain` describes. -/
theorem drainPoints : Obligations.DrainPoints := by
  intro s n w c x held
  refine ⟨fun h g vote timeout => ?_, fun h g => ?_, fun h g => ?_, fun h g drain first inside own most => ?_, fun h g => ?_⟩
  case refine_1 =>
    show held (execSync n w s) _ _
    refine ((State.AtDrain.Calm.of_begun (clrf := false) h g).setSync _).enters h rfl ?_
    exact (if_neg (Nat.not_lt.mpr vote)).trans (if_neg timeout)
  case refine_2 =>
    show held (execSealI n w s) _ _
    exact (State.AtDrain.Calm.of_begun (clrf := true) h g).enters h rfl rfl
  case refine_3 =>
    show held (execHalt n w s) _ _
    exact (State.AtDrain.Calm.of_begun (clrf := true) h g).enters h rfl rfl
  case refine_4 =>
    show held (execJfail n w s) _ _
    obtain ⟨k, j, e, f, site⟩ := State.begun_site (clrf := false) h g
    refine (State.AtDrain.Calm.of_begun (clrf := false) h g).enters h rfl ?_
    dsimp only
    rw [State.jumpFault_eq_none first (by rw [site]; exact inside) (by rw [site]; exact own) most]
    exact if_pos drain
  case refine_5 =>
    intro len pins known mask inside room ok
    exact execMatchI_enters h g known mask inside room ok

end Sys2Proof.Machine
end

section
/-! SUPPORT. Microwords of arithmetic and logic, and microwords that execute as NOP (R70, R72, R74). -/

namespace Sys2Proof.Machine

/-! ### Flags of a sum and of a difference -/

theorem toInt_add_ne_iff_saddOverflow (a b : Word32) : decide ((a + b).toInt ≠ a.toInt + b.toInt) = a.saddOverflow b := by
  have lo := BitVec.le_two_mul_toInt (x := a + b)
  have hi := BitVec.two_mul_toInt_lt (x := a + b)
  have sum := BitVec.toInt_add a b
  simp only [Int.bmod] at sum
  rw [Bool.eq_iff_iff, decide_eq_true_eq]
  simp only [BitVec.saddOverflow, Bool.or_eq_true, decide_eq_true_eq]
  have := BitVec.le_two_mul_toInt (x := a)
  have := BitVec.two_mul_toInt_lt (x := a)
  have := BitVec.le_two_mul_toInt (x := b)
  have := BitVec.two_mul_toInt_lt (x := b)
  split at sum <;> omega

theorem toInt_sub_ne_iff_ssubOverflow (a b : Word32) : decide ((a - b).toInt ≠ a.toInt - b.toInt) = a.ssubOverflow b := by
  have lo := BitVec.le_two_mul_toInt (x := a - b)
  have hi := BitVec.two_mul_toInt_lt (x := a - b)
  have sum := BitVec.toInt_sub (x := a) (y := b)
  simp only [Int.bmod] at sum
  rw [Bool.eq_iff_iff, decide_eq_true_eq]
  simp only [BitVec.ssubOverflow, Bool.or_eq_true, decide_eq_true_eq]
  have := BitVec.le_two_mul_toInt (x := a)
  have := BitVec.two_mul_toInt_lt (x := a)
  have := BitVec.le_two_mul_toInt (x := b)
  have := BitVec.two_mul_toInt_lt (x := b)
  split at sum <;> omega

/-! ### The registers after an operation -/

section Result

variable (m : MicroState) (d : Nat) (a b x : Word32)

theorem MicroState.alu_aluZN_step : (m.alu (some d) (aluZN x)).step = m.result d x (x == 0) (x.getLsbD 31) m.c m.v := rfl

theorem MicroState.alu_aluAdd_step : (m.alu (some d) (aluAdd a b)).step
    = m.result d (a + b) (a + b == 0) ((a + b).getLsbD 31) (decide (2 ^ 32 ≤ a.toNat + b.toNat)) (a.saddOverflow b) := by
  rw [← toInt_add_ne_iff_saddOverflow]
  rfl

theorem MicroState.alu_aluSub_step : (m.alu (some d) (aluSub a b)).step
    = m.result d (a - b) (a - b == 0) ((a - b).getLsbD 31) (decide (b.toNat ≤ a.toNat)) (a.ssubOverflow b) := by
  rw [← toInt_sub_ne_iff_ssubOverflow]
  rfl

theorem MicroState.alu_none_aluSub_step : (m.alu none (aluSub a b)).step
    = { m with z := a - b == 0, n := (a - b).getLsbD 31, c := decide (b.toNat ≤ a.toNat), v := a.ssubOverflow b, pc := m.pc + 1 } := by
  rw [← toInt_sub_ne_iff_ssubOverflow]
  rfl

end Result

/-! ### Microwords that issue -/

section Micro

variable {s : State} {c op : Nat} {f : BitVec 26}

/-- A microword of one cycle that issues: its body at the state it acts on. -/
theorem State.micro_one {body : State → State} (h : s.Issues c op f 1) : s.micro c op f false body = .next (body (s.issued c 1)) :=
  State.micro_issues h

/-- A microword whose body executes as NOP holds its fault at the address it had before it issued, and goes on. -/
theorem State.micro_nop {body : State → State} {code : Nat} (h : s.Issues c op f 1)
    (hb : body (s.issued c 1) = (s.issued c 1).nopFault c code) :
    s.micro c op f false body = .next (((s.issued c 1).holdFault c code (s.ctx c).ms.pc).modMs c MicroState.step) := by
  rw [State.micro_one h, hb, State.nopFault_issued h.idle]

/-- A microword whose body changes the registers of its context alone. -/
theorem State.micro_registers {body : State → State} {g : MicroState → MicroState} (h : s.Issues c op f 1)
    (hb : body (s.issued c 1) = (s.issued c 1).modMs c g) :
    s.micro c op f false body = .next ((s.issued c 1).modMs c fun _ => g (s.ctx c).ms) := by
  rw [State.micro_one h, hb, State.modMs_issued h.idle]

end Micro

/-! ### Operations of mA and source B -/

section Binary

variable {s : State} {c op : Nat} {f : BitVec 26} {d : Option Nat} {aUsed : Bool} {g : Word32 → Word32 → AluOut} {b : Word32}

/-- An operation whose source is legal and whose unused fields are 0. -/
theorem State.micro_binary (h : s.Issues c op f 1) (source : sourceB (s.ctx c).ms f = some b) (ha : aUsed = true ∨ fA f = 0)
    (hd : d.isSome = true ∨ fD f = 0) :
    s.micro c op f false (fun s => s.binary c f d aUsed g)
      = .next ((s.issued c 1).modMs c fun _ => ((s.ctx c).ms.alu d (g ((s.ctx c).ms.reg (fA f)) b)).step) := by
  have legal : ¬((!aUsed) = true ∧ fA f ≠ 0 ∨ d.isNone = true ∧ fD f ≠ 0) := by
    rintro (⟨unused, fa⟩ | ⟨none_, fd⟩)
    · rcases ha with ha | ha
      · simp [ha] at unused
      · exact fa ha
    · rcases hd with hd | hd
      · rw [Option.isNone_iff_eq_none] at none_
        simp [none_] at hd
      · exact fd hd
  refine State.micro_registers (g := fun m => (m.alu d (g (m.reg (fA f)) b)).step) h ?_
  unfold State.binary
  dsimp only
  rw [State.issued_ms h.idle, source]
  exact if_neg legal

/-- An operation with a reserved operand bit. -/
theorem State.micro_binary_reserved (h : s.Issues c op f 1) (source : sourceB (s.ctx c).ms f = none) :
    s.micro c op f false (fun s => s.binary c f d aUsed g)
      = .next (((s.issued c 1).holdFault c fMicro (s.ctx c).ms.pc).modMs c MicroState.step) := by
  refine State.micro_nop h ?_
  unfold State.binary
  dsimp only
  rw [State.issued_ms h.idle, source]

/-- An operation with a field set that it does not use. -/
theorem State.micro_binary_unused (h : s.Issues c op f 1) (unused : aUsed = false ∧ fA f ≠ 0 ∨ d = none ∧ fD f ≠ 0) :
    s.micro c op f false (fun s => s.binary c f d aUsed g)
      = .next (((s.issued c 1).holdFault c fMicro (s.ctx c).ms.pc).modMs c MicroState.step) := by
  refine State.micro_nop h ?_
  unfold State.binary
  dsimp only
  split
  · rfl
  · exact if_pos (by rcases unused with ⟨rfl, fa⟩ | ⟨rfl, fd⟩ <;> simp_all)

end Binary

/-- Register form with a bit of B[16:4] set has no source B. -/
theorem sourceB_eq_none {m : MicroState} {f : BitVec 26} (imm : fImm f = false) (reserved : bits f 16 4 ≠ 0) : sourceB m f = none := by
  unfold sourceB
  rw [if_neg (by simp [imm]), if_neg reserved]

/-! ### Which cycles a branch takes -/

theorem State.brTaken_eq_false {s : State} {c : Nat} {f : BitVec 26}
    (h : branchTarget (s.ctx c).ms f = none ∨ fA f ≠ 0 ∨ condHolds (s.ctx c).ms (fD f) = false) : s.brTaken c f = false := by
  unfold State.brTaken
  dsimp only
  split
  · rename_i t ht
    rcases h with h | h | h
    · rw [ht] at h; cases h
    · simp [h]
    · simp [h]
  · rfl

theorem State.callTaken_eq_false {s : State} {c : Nat} {f : BitVec 26}
    (h : branchTarget (s.ctx c).ms f = none ∨ fA f ≠ 0 ∨ fD f ≠ 0 ∨ 8 ≤ (s.ctx c).ms.stack.length) : s.callTaken c f = false := by
  unfold State.callTaken
  dsimp only
  rcases h with h | h | h | h
  · simp [h]
  · simp [h]
  · simp [h]
  · simp [Nat.not_lt.mpr h]

/-! ### The microwords of O17 -/

section Words

variable {s : State} {c : CtxId} {f : BitVec 26}

theorem exec_movh (h : s.Issues c 0x02 f 1) (imm : fImm f = true) (clear : bits f 16 15 = 0) (a : fA f = 0) :
    exec (.movh c f) s = .next ((s.issued c 1).modMs c fun _ =>
      let x := BitVec.ofNat 32 (bits f 14 0 * 2 ^ 17 + ((s.ctx c).ms.reg (fD f)).toNat % 2 ^ 17)
      (s.ctx c).ms.result (fD f) x (x == 0) (x.getLsbD 31) (s.ctx c).ms.c (s.ctx c).ms.v) := by
  show execMovh c f s = _
  refine State.micro_registers (g := fun m =>
    (m.alu (some (fD f)) (aluZN (BitVec.ofNat 32 (bits f 14 0 * 2 ^ 17 + (m.reg (fD f)).toNat % 2 ^ 17)))).step) h ?_
  exact if_neg (by simp [imm, clear, a])

theorem exec_crc {p : Word32} {w k : Nat} (h : s.Issues c 0x0A f 1) (form : crcForm (s.ctx c).ms f = some (p, w, k)) :
    exec (.crc c f) s = .next ((s.issued c 1).modMs c fun _ =>
      let x := BitVec.ofNat 32 (crcSteps w p.toNat ((s.ctx c).ms.reg (fA f)).toNat k ((s.ctx c).ms.reg (fD f)).toNat)
      { (s.ctx c).ms.put (fD f) x with z := x == 0, pc := (s.ctx c).ms.pc + 1 }) := by
  show execCrc c f s = _
  refine State.micro_registers (g := fun m => (m.alu (some (fD f)) (aluCrc w k p (m.reg (fA f)) (m.reg (fD f)))).step) h ?_
  rw [State.issued_ms h.idle, form]

theorem exec_nop (h : s.Issues c 0x00 0 1) :
    exec (.nop c 0) s = .next ((s.issued c 1).modMs c fun _ => { (s.ctx c).ms with pc := (s.ctx c).ms.pc + 1 }) := by
  show execNop c 0 s = _
  unfold execNop
  rw [if_neg (by decide)]
  exact State.micro_registers (g := MicroState.step) h (if_pos rfl)

/-- Arithmetic and logic with legal operands. -/
theorem exec_arithmetic {b : Word32} (source : sourceB (s.ctx c).ms f = some b) :
    let m := (s.ctx c).ms
    let a := m.reg (fA f)
    let put (v : Word32) (cf vf : Bool) : Out :=
      .next ((s.issued c 1).modMs c fun _ => m.result (fD f) v (v == 0) (v.getLsbD 31) cf vf)
    (s.Issues c 0x03 f 1 → exec (.add c f) s = put (a + b) (decide (2 ^ 32 ≤ a.toNat + b.toNat)) (a.saddOverflow b))
    ∧ (s.Issues c 0x04 f 1 → exec (.sub c f) s = put (a - b) (decide (b.toNat ≤ a.toNat)) (a.ssubOverflow b))
    ∧ (s.Issues c 0x05 f 1 → exec (.and c f) s = put (a &&& b) m.c m.v)
    ∧ (s.Issues c 0x06 f 1 → exec (.or c f) s = put (a ||| b) m.c m.v)
    ∧ (s.Issues c 0x07 f 1 → exec (.xor c f) s = put (a ^^^ b) m.c m.v)
    ∧ (s.Issues c 0x01 f 1 → fA f = 0 → exec (.mov c f) s = put b m.c m.v)
    ∧ (s.Issues c 0x09 f 1 → fD f = 0 → exec (.cmp c f) s
        = .next ((s.issued c 1).modMs c fun _ => { m with
            z := a - b == 0, n := (a - b).getLsbD 31, c := decide (b.toNat ≤ a.toNat), v := a.ssubOverflow b, pc := m.pc + 1 })) := by
  intro m a put
  refine ⟨fun h => ?_, fun h => ?_, fun h => ?_, fun h => ?_, fun h => ?_, fun h ha => ?_, fun h hd => ?_⟩
  · show execAdd c f s = _
    exact (State.micro_binary h source (.inl rfl) (.inl rfl)).trans (by rw [MicroState.alu_aluAdd_step])
  · show execSub c f s = _
    exact (State.micro_binary h source (.inl rfl) (.inl rfl)).trans (by rw [MicroState.alu_aluSub_step])
  · show execAnd c f s = _
    exact State.micro_binary h source (.inl rfl) (.inl rfl)
  · show execOr c f s = _
    exact State.micro_binary h source (.inl rfl) (.inl rfl)
  · show execXor c f s = _
    exact State.micro_binary h source (.inl rfl) (.inl rfl)
  · show execMov c f s = _
    exact State.micro_binary h source (.inr ha) (.inl rfl)
  · show execCmp c f s = _
    exact (State.micro_binary h source (.inl rfl) (.inr hd)).trans (by rw [MicroState.alu_none_aluSub_step])

end Words

/-! ### Words that execute as NOP (R70, R72) -/

section Illegal

variable {s : State} {c : CtxId} {f : BitVec 26}

/-- What a microword with reserved operand bits comes to: ILLEGAL_MICROWORD held, nothing else done. -/
def State.illegalWord (s : State) (c : Nat) : Out :=
  .next (((s.issued c 1).holdFault c 0x0010 (s.ctx c).ms.pc).modMs c fun m => { m with pc := m.pc + 1 })

/-- Register form of an operation with a bit of B[16:4] set. -/
theorem exec_arithmetic_reserved (imm : fImm f = false) (reserved : bits f 16 4 ≠ 0) :
    (s.Issues c 0x03 f 1 → exec (.add c f) s = s.illegalWord c) ∧ (s.Issues c 0x04 f 1 → exec (.sub c f) s = s.illegalWord c)
    ∧ (s.Issues c 0x05 f 1 → exec (.and c f) s = s.illegalWord c) ∧ (s.Issues c 0x06 f 1 → exec (.or c f) s = s.illegalWord c)
    ∧ (s.Issues c 0x07 f 1 → exec (.xor c f) s = s.illegalWord c) ∧ (s.Issues c 0x01 f 1 → exec (.mov c f) s = s.illegalWord c)
    ∧ (s.Issues c 0x09 f 1 → exec (.cmp c f) s = s.illegalWord c) := by
  have source : sourceB (s.ctx c).ms f = none := sourceB_eq_none imm reserved
  refine ⟨fun h => ?_, fun h => ?_, fun h => ?_, fun h => ?_, fun h => ?_, fun h => ?_, fun h => ?_⟩
  · show execAdd c f s = _
    exact State.micro_binary_reserved h source
  · show execSub c f s = _
    exact State.micro_binary_reserved h source
  · show execAnd c f s = _
    exact State.micro_binary_reserved h source
  · show execOr c f s = _
    exact State.micro_binary_reserved h source
  · show execXor c f s = _
    exact State.micro_binary_reserved h source
  · show execMov c f s = _
    exact State.micro_binary_reserved h source
  · show execCmp c f s = _
    exact State.micro_binary_reserved h source

theorem exec_br_illegal (h : s.Issues c 0x0B f 1) (ill : branchTarget (s.ctx c).ms f = none ∨ fA f ≠ 0 ∨ fD f = 15) :
    exec (.br c f) s = s.illegalWord c := by
  show execBr c f s = _
  unfold execBr
  rw [State.brTaken_eq_false (ill.imp_right (Or.imp_right fun d => by rw [d]; rfl))]
  refine State.micro_nop h ?_
  dsimp only
  rw [State.issued_ms h.idle]
  split
  · rfl
  · rename_i t ht
    exact if_pos (ill.resolve_left (by rw [ht]; simp))

theorem exec_callu_illegal (h : s.Issues c 0x0C f 1) (ill : branchTarget (s.ctx c).ms f = none ∨ fA f ≠ 0 ∨ fD f ≠ 0) :
    exec (.callu c f) s = s.illegalWord c := by
  show execCallu c f s = _
  unfold execCallu
  rw [State.callTaken_eq_false (ill.imp_right (Or.imp_right Or.inl))]
  refine State.micro_nop h ?_
  dsimp only
  rw [State.issued_ms h.idle]
  split
  · rfl
  · rename_i t ht
    exact if_pos (ill.resolve_left (by rw [ht]; simp))

theorem exec_retu_illegal (h : s.Issues c 0x0D f 1) (nonzero : f ≠ 0) : exec (.retu c f) s = s.illegalWord c := by
  show execRetu c f s = _
  unfold execRetu
  have free : s.retTaken c f = false := by
    unfold State.retTaken
    rw [beq_false_of_ne nonzero]
    rfl
  rw [free]
  exact State.micro_nop h (if_pos nonzero)

/-- An EMIT whose kind or operand bits are reserved. -/
theorem State.emitMicro_illegal {k : Nat} (h : s.Issues c 0x11 f 1) (mine : fD f = k ∨ 5 < fD f)
    (ill : fD f > 5 ∨ fImm f = true ∨ ((k = 0 ∨ k = 2) ∧ bits f 16 4 ≠ 0) ∨ (¬(k = 0 ∨ k = 2) ∧ bits f 17 0 ≠ 0)) :
    s.emitMicro c k f = s.illegalWord c := by
  unfold State.emitMicro
  rw [if_neg (by omega)]
  refine State.micro_nop h ?_
  dsimp only
  exact if_pos (by simpa using ill)


theorem exec_nop_unlisted {w : Word32} (nonzero : w ≠ 0) (unlisted : bits w 31 26 = 0 ∨ 0x16 ≤ bits w 31 26 ∧ bits w 31 26 ≤ 0x3E)
    (h : s.Issues c (bits w 31 26) (BitVec.ofNat 26 w.toNat) 1) : exec (.nop c w) s = s.illegalWord c := by
  show execNop c w s = _
  unfold execNop
  rw [if_neg (by omega)]
  exact State.micro_nop h (if_neg nonzero)

end Illegal

/-- Settles O17. That SHF with B[16:7] set is no shift rests on log 41. -/
theorem microArithmetic : Obligations.MicroArithmetic := by
  refine ⟨fun s c f => ?_, fun s c f => ?_⟩
  · intro m a put
    exact ⟨fun b source => exec_arithmetic source, exec_movh, fun h p w k form => exec_crc h form, exec_nop⟩
  · intro m illegal
    refine ⟨exec_arithmetic_reserved, fun h a => ?_, fun h d => ?_, fun h ill => ?_, fun h ill => ?_, fun h form => ?_, exec_br_illegal,
      exec_callu_illegal, exec_retu_illegal, fun h ill => ?_, fun h ill => ?_, fun h ill => ?_, fun h => ⟨fun d => ?_, fun ill => ⟨fun d => ?_, fun d => ?_⟩,
      fun ill => ⟨fun d => ?_, fun d => ?_, fun d => ?_, fun d => ?_⟩⟩, fun h ill => ?_, fun h ill => ?_, fun h d d8 => ?_, fun h ill => ?_,
      fun w => exec_nop_unlisted⟩
    case refine_1 =>
      show execMov c f s = _
      exact State.micro_binary_unused h (.inl ⟨rfl, a⟩)
    case refine_2 =>
      show execCmp c f s = _
      exact State.micro_binary_unused h (.inr ⟨rfl, d⟩)
    case refine_3 =>
      show execMovh c f s = _
      exact State.micro_nop h (if_pos (by simpa using ill))
    case refine_4 =>
      exact exec_shf_of_no_form h (by unfold shiftForm; rw [if_pos ill])
    case refine_5 =>
      show execCrc c f s = _
      refine State.micro_nop h ?_
      rw [State.issued_ms h.idle, form]
      rfl
    case refine_6 =>
      show execFetch c f s = _
      exact State.micro_nop h (if_pos (by simpa using ill))
    case refine_7 =>
      show execLdt c f s = _
      unfold execLdt
      rw [if_neg ?_]
      · exact State.micro_nop h (if_pos (by simpa using ill))
      · unfold State.ldtRepairs
        dsimp only
        rw [if_neg]
        · simp
        · rintro ⟨imm, space, -⟩
          rcases ill with reg | beyond
          · rw [reg] at imm
            cases imm
          · omega
    case refine_8 =>
      show execStt c f s = _
      exact State.micro_nop h (if_pos (by simpa using ill))
    case refine_9 => exact State.emitMicro_illegal h (.inr d) (.inl d)
    case refine_10 =>
      exact State.emitMicro_illegal h (.inl d) (.inr (ill.elim .inl fun b => .inr (.inl ⟨.inl rfl, b⟩)))
    case refine_11 =>
      exact State.emitMicro_illegal h (.inl d) (.inr (ill.elim .inl fun b => .inr (.inl ⟨.inr rfl, b⟩)))
    case refine_12 => exact State.emitMicro_illegal h (.inl d) (.inr (.inr (.inr ⟨by decide, ill⟩)))
    case refine_13 => exact State.emitMicro_illegal h (.inl d) (.inr (.inr (.inr ⟨by decide, ill⟩)))
    case refine_14 => exact State.emitMicro_illegal h (.inl d) (.inr (.inr (.inr ⟨by decide, ill⟩)))
    case refine_15 => exact State.emitMicro_illegal h (.inl d) (.inr (.inr (.inr ⟨by decide, ill⟩)))
    case refine_16 =>
      show execWaitc c f s = _
      exact State.micro_nop h (if_pos (by simpa using ill))
    case refine_17 =>
      show execEvt c f s = _
      exact State.micro_nop h (if_pos (by simpa using ill))
    case refine_18 =>
      show s.capcMicro c 0 f = _
      unfold State.capcMicro
      rw [if_neg (by omega)]
      exact State.micro_nop h (if_pos (.inr ⟨d, d8⟩))
    case refine_19 =>
      show execPost c f s = _
      exact State.micro_nop h (if_pos (by simpa using ill))

end Sys2Proof.Machine
end

section
/-! SUPPORT. Branches of microcode (R71, R72, R87). -/

namespace Sys2Proof.Machine

section Branches

variable {s : State} {c : CtxId} {f : BitVec 26} {t : BitVec 16} {k : Nat}

/-- Customer code may not go into the vendor half. -/
theorem Ctx.barred_eq_true {x : Ctx} : x.barred t = true ↔ 0x8000 ≤ x.ms.pc.toNat ∧ t.toNat < 0x8000 := by
  unfold Ctx.barred Ctx.customer
  rw [Bool.and_eq_true, decide_eq_true_eq, decide_eq_true_eq]

/-- Whether a transfer is barred follows the address of the microword, which issuing does not change. -/
theorem State.barred_issued (idle : (s.ctx c).wait = none) : ((s.issued c k).ctx c).barred t = (s.ctx c).barred t := by
  unfold Ctx.barred Ctx.customer
  rw [State.issued_ms idle]

/-- A microword of two cycles whose body changes the registers of its context alone. -/
theorem State.micro_transfer {op : Nat} {body : State → State} {g : MicroState → MicroState} (h : s.Issues c op f 2)
    (hb : body (s.issued c 2) = (s.issued c 2).modMs c g) :
    s.micro c op f true body = .next ((s.issued c 2).modMs c fun _ => g (s.ctx c).ms) := by
  rw [State.micro_issues (taken := true) h, ← State.modMs_issued h.idle]
  exact congrArg Host.Outcome.next hb

/-- A transfer of two cycles that holds a fault and goes on at the next address. -/
theorem State.micro_transfer_nop {op code : Nat} {body : State → State} (h : s.Issues c op f 2)
    (hb : body (s.issued c 2) = (s.issued c 2).nopFault c code) :
    s.micro c op f true body = .next (((s.issued c 2).holdFault c code (s.ctx c).ms.pc).modMs c MicroState.step) := by
  rw [State.micro_issues (taken := true) h, ← State.nopFault_issued h.idle]
  exact congrArg Host.Outcome.next hb

/-! ### BR -/

theorem State.brTaken_eq_true (target : branchTarget (s.ctx c).ms f = some t) (a : fA f = 0) (cond : condHolds (s.ctx c).ms (fD f) = true)
    (free : (s.ctx c).barred t = false) : s.brTaken c f = true := by
  unfold State.brTaken
  simp only [target, a, cond, free]
  rfl

theorem State.brTaken_of_barred (target : branchTarget (s.ctx c).ms f = some t) (barred : (s.ctx c).barred t = true) :
    s.brTaken c f = false := by
  unfold State.brTaken
  simp only [target, barred]
  exact Bool.and_false _

theorem exec_br_taken (target : branchTarget (s.ctx c).ms f = some t) (a : fA f = 0) (d : fD f ≠ 15)
    (cond : condHolds (s.ctx c).ms (fD f) = true) (free : (s.ctx c).barred t = false) (h : s.Issues c 0x0B f 2) :
    exec (.br c f) s = .next ((s.issued c 2).modMs c fun _ => { (s.ctx c).ms with pc := t }) := by
  show execBr c f s = _
  unfold execBr
  rw [State.brTaken_eq_true target a cond free]
  refine State.micro_transfer (g := fun m => { m with pc := t }) h ?_
  dsimp only
  rw [State.issued_ms h.idle, target]
  dsimp only
  rw [if_neg (by simp [a, d]), if_neg (by simp [cond]), State.barred_issued h.idle, if_neg (by simp [free])]

theorem exec_br_not_taken (target : branchTarget (s.ctx c).ms f = some t) (a : fA f = 0) (d : fD f ≠ 15)
    (cond : condHolds (s.ctx c).ms (fD f) = false) (h : s.Issues c 0x0B f 1) :
    exec (.br c f) s = .next ((s.issued c 1).modMs c fun _ => { (s.ctx c).ms with pc := (s.ctx c).ms.pc + 1 }) := by
  show execBr c f s = _
  unfold execBr
  rw [State.brTaken_eq_false (.inr (.inr cond))]
  refine State.micro_registers (g := MicroState.step) h ?_
  dsimp only
  rw [State.issued_ms h.idle, target]
  dsimp only
  rw [if_neg (by simp [a, d]), if_pos (by simp [cond])]

theorem exec_br_barred (target : branchTarget (s.ctx c).ms f = some t) (a : fA f = 0) (d : fD f ≠ 15)
    (cond : condHolds (s.ctx c).ms (fD f) = true) (barred : (s.ctx c).barred t = true) (h : s.Issues c 0x0B f 1) :
    exec (.br c f) s = .next (((s.issued c 1).holdFault c fProtect (s.ctx c).ms.pc).modMs c MicroState.step) := by
  show execBr c f s = _
  unfold execBr
  rw [State.brTaken_of_barred target barred]
  refine State.micro_nop h ?_
  dsimp only
  rw [State.issued_ms h.idle, target]
  dsimp only
  rw [if_neg (by simp [a, d]), if_neg (by simp [cond]), State.barred_issued h.idle, if_pos barred]

/-! ### CALLU -/

theorem State.callTaken_eq_true (target : branchTarget (s.ctx c).ms f = some t) (a : fA f = 0) (d : fD f = 0)
    (room : (s.ctx c).ms.stack.length < 8) : s.callTaken c f = true := by
  unfold State.callTaken
  simp only [target, a, d, room, decide_true]
  rfl

theorem exec_callu_taken (target : branchTarget (s.ctx c).ms f = some t) (a : fA f = 0) (d : fD f = 0)
    (room : (s.ctx c).ms.stack.length < 8) (free : (s.ctx c).barred t = false) (h : s.Issues c 0x0C f 2) :
    exec (.callu c f) s = .next ((s.issued c 2).modMs c fun _ =>
      { (s.ctx c).ms with pc := t, stack := ((s.ctx c).ms.pc + 1) :: (s.ctx c).ms.stack }) := by
  show execCallu c f s = _
  unfold execCallu
  rw [State.callTaken_eq_true target a d room]
  refine State.micro_transfer (g := fun m => { m with pc := t, stack := (m.pc + 1) :: m.stack }) h ?_
  dsimp only
  rw [State.issued_ms h.idle, target]
  dsimp only
  rw [if_neg (by simp [a, d]), if_neg (Nat.not_le.mpr room), State.barred_issued h.idle, if_neg (by simp [free])]

theorem exec_callu_full (target : branchTarget (s.ctx c).ms f = some t) (a : fA f = 0) (d : fD f = 0)
    (full : 8 ≤ (s.ctx c).ms.stack.length) (h : s.Issues c 0x0C f 1) :
    exec (.callu c f) s = .next (((s.issued c 1).holdFault c fMstack (s.ctx c).ms.pc).modMs c MicroState.step) := by
  show execCallu c f s = _
  unfold execCallu
  rw [State.callTaken_eq_false (.inr (.inr (.inr full)))]
  refine State.micro_nop h ?_
  dsimp only
  rw [State.issued_ms h.idle, target]
  dsimp only
  rw [if_neg (by simp [a, d]), if_pos full]

theorem exec_callu_barred (target : branchTarget (s.ctx c).ms f = some t) (a : fA f = 0) (d : fD f = 0)
    (room : (s.ctx c).ms.stack.length < 8) (barred : (s.ctx c).barred t = true) (h : s.Issues c 0x0C f 2) :
    exec (.callu c f) s = .next (((s.issued c 2).holdFault c fProtect (s.ctx c).ms.pc).modMs c MicroState.step) := by
  show execCallu c f s = _
  unfold execCallu
  rw [State.callTaken_eq_true target a d room]
  refine State.micro_transfer_nop h ?_
  dsimp only
  rw [State.issued_ms h.idle, target]
  dsimp only
  rw [if_neg (by simp [a, d]), if_neg (Nat.not_le.mpr room), State.barred_issued h.idle, if_pos barred]

/-! ### RETU -/

theorem State.retTaken_zero : s.retTaken c 0 = !(s.ctx c).ms.stack.isEmpty := Bool.true_and _

theorem exec_retu_taken {rest : List (BitVec 16)} (stack : (s.ctx c).ms.stack = t :: rest) (free : (s.ctx c).barred t = false)
    (h : s.Issues c 0x0D 0 2) :
    exec (.retu c 0) s = .next ((s.issued c 2).modMs c fun _ => { (s.ctx c).ms with pc := t, stack := rest }) := by
  show execRetu c 0 s = _
  unfold execRetu
  rw [State.retTaken_zero, stack]
  refine State.micro_transfer (g := fun m => { m with pc := t, stack := rest }) h ?_
  dsimp only
  rw [if_neg (not_not.mpr rfl), State.issued_ms h.idle, stack]
  dsimp only
  rw [State.barred_issued h.idle, if_neg (by simp [free])]

theorem exec_retu_empty (stack : (s.ctx c).ms.stack = []) (h : s.Issues c 0x0D 0 1) :
    exec (.retu c 0) s = .next (((s.issued c 1).holdFault c fMstack (s.ctx c).ms.pc).modMs c MicroState.step) := by
  show execRetu c 0 s = _
  unfold execRetu
  rw [State.retTaken_zero, stack]
  refine State.micro_nop h ?_
  dsimp only
  rw [if_neg (not_not.mpr rfl), State.issued_ms h.idle, stack]

theorem exec_retu_barred {rest : List (BitVec 16)} (stack : (s.ctx c).ms.stack = t :: rest) (barred : (s.ctx c).barred t = true)
    (h : s.Issues c 0x0D 0 2) :
    exec (.retu c 0) s = .next (((s.issued c 2).holdFault c fProtect (s.ctx c).ms.pc).modMs c MicroState.step) := by
  show execRetu c 0 s = _
  unfold execRetu
  rw [State.retTaken_zero, stack]
  refine State.micro_transfer_nop h ?_
  dsimp only
  rw [if_neg (not_not.mpr rfl), State.issued_ms h.idle, stack]
  dsimp only
  rw [State.barred_issued h.idle, if_pos barred]

end Branches

/-- Settles O18, one lemma per branch and outcome. -/
theorem microBranches : Obligations.MicroBranches := by
  intro s c f m barred
  have free : ∀ {t}, ¬barred t → (s.ctx c).barred t = false := fun h => Bool.eq_false_iff.mpr (mt Ctx.barred_eq_true.mp h)
  have held : ∀ {t}, barred t → (s.ctx c).barred t = true := Ctx.barred_eq_true.mpr
  refine ⟨fun t target a d => ⟨fun cond out h => ?_, exec_br_not_taken target a d⟩, fun h t target a d room out => ?_,
    fun h t rest stack out => ?_, fun t target a => ⟨fun d cond out h => ?_, exec_callu_full target a, fun d room out h => ?_⟩,
    exec_retu_empty, fun t rest stack out h => ?_⟩
  · exact exec_br_taken target a d cond (free out) h
  · exact exec_callu_taken target a d room (free out) h
  · exact exec_retu_taken stack (free out) h
  · exact exec_br_barred target a d cond (held out) h
  · exact exec_callu_barred target a d room (held out) h
  · exact exec_retu_barred stack (held out) h

end Sys2Proof.Machine
end

section
/-! SUPPORT. FETCH, LDT and STT (R75, R76, R85). -/

namespace Sys2Proof.Machine

section Tables

variable {s : State} {c : CtxId} {f : BitVec 26} {k : Nat}

/-- Reading the store leaves the registers of every context. -/
theorem State.readStore_ctx (u : State) (k d : Nat) : (u.readStore k).ctx d = u.ctx d :=
  Keeps.ctx (State.readStore_keeps (k := fun p => p ≠ .contexts) (by simp) (by simp) (by simp) Keeps.refl) (by simp) d

/-- Whether the next word is customer code follows its address, which issuing does not change. -/
theorem State.customer_issued (idle : (s.ctx c).wait = none) :
    ((s.issued c k).ctx c).customer = decide ((s.ctx c).ms.pc.toNat ≥ 0x8000) := by
  unfold Ctx.customer
  rw [State.issued_ms idle]

theorem State.not_customer_issued (idle : (s.ctx c).wait = none) (vendor : (s.ctx c).ms.pc.toNat < 0x8000) :
    ((s.issued c k).ctx c).customer = false := by
  rw [State.customer_issued idle]
  exact decide_eq_false (by omega)

/-- A fault held by a microword is held at the address it had before it issued. -/
theorem State.hold_issued (idle : (s.ctx c).wait = none) (code : Nat) :
    (s.issued c k).hold c code = (s.issued c k).holdFault c code (s.ctx c).ms.pc := by
  unfold State.hold
  rw [State.issued_ms idle]

/-! ### FETCH -/

section Fetch

variable (h : s.Issues c 0x0E f 1) (imm : fImm f = true) (clear : bits f 16 15 = 0) (even : fD f % 2 = 0)
include h imm clear even

theorem exec_fetch (inside : ((s.ctx c).ms.reg (fA f)).toNat + bits f 14 0 < ((s.issued c 1).site ((s.issued c 1).owningSite c)).length) :
    exec (.fetch c f) s = .next ((s.issued c 1).modCtx c fun x => { x with
      fetch := x.fetch ++ [{ pair := fD f,
                             addr := (s.issued c 1).nreg (siteObj ((s.issued c 1).owningSite c) 1) 2
                               + 8 * (((s.ctx c).ms.reg (fA f)).toNat + bits f 14 0),
                             pc := (s.ctx c).ms.pc, since := (s.issued c 1).clk.frames }]
      ms := { (s.ctx c).ms with pc := (s.ctx c).ms.pc + 1 } }) := by
  show execFetch c f s = _
  refine (State.micro_one h).trans (congrArg Host.Outcome.next ?_)
  have ms := State.issued_ms (k := 1) h.idle
  dsimp only
  rw [ms, if_neg (by simp [imm, clear, even]), if_neg (Nat.not_le.mpr inside)]
  unfold State.modCtx
  dsimp only
  rw [ms]
  rfl

theorem exec_fetch_beyond (beyond : ((s.issued c 1).site ((s.issued c 1).owningSite c)).length ≤ ((s.ctx c).ms.reg (fA f)).toNat + bits f 14 0) :
    exec (.fetch c f) s = .next (((s.issued c 1).holdFault c 0x0015 (s.ctx c).ms.pc).modMs c
      fun m => { (m.put (fD f) 0).put (fD f + 1) 0 with pc := m.pc + 1 }) := by
  show execFetch c f s = _
  refine (State.micro_one h).trans (congrArg Host.Outcome.next ?_)
  dsimp only
  rw [State.issued_ms h.idle, if_neg (by simp [imm, clear, even]), if_pos beyond, State.hold_issued h.idle]
  rfl

end Fetch

/-! ### LDT -/

section Ldt

variable (h : s.Issues c 0x0F f 1) (imm : fImm f = true)
include h imm

/-- What LDT does in a space of its own, where it has the right to the word: the word goes to mD. -/
theorem exec_ldt_word {v : Word32} {space : Nat} (hs : bits f 16 14 = space) (small : space ≤ 3)
    (inside : (s.ctx c).ms.tableWord f < spaceSize space) (right : space ≠ 3 ∨ (s.ctx c).ms.pc.toNat < 0x8000)
    (word : (match space with
      | 0 => Table.get 0 ((s.issued c 1).site ((s.issued c 1).owningSite c)).scratch ((s.ctx c).ms.tableWord f)
      | 1 => Table.get 0 ((s.issued c 1).site ((s.issued c 1).owningSite c)).identity ((s.ctx c).ms.tableWord f)
      | 2 => (s.issued c 1).siteInfo ((s.issued c 1).owningSite c) ((s.ctx c).ms.tableWord f)
      | _ => (s.issued c 1).threadWord ((s.issued c 1).owningSite c) ((s.ctx c).ms.tableWord f)) = v) :
    exec (.ldt c f) s = .next ((s.issued c 1).modMs c fun _ => { (s.ctx c).ms.put (fD f) v with pc := (s.ctx c).ms.pc + 1 }) := by
  show execLdt c f s = _
  unfold execLdt
  have repairs : s.ldtRepairs c f = none := if_neg (by rw [hs]; omega)
  rw [repairs, if_neg (by simp)]
  refine State.micro_registers (g := fun m => (m.put (fD f) v).step) h ?_
  dsimp only
  rw [State.issued_ms h.idle, hs, if_neg (by simp [imm]; omega), if_neg (Nat.not_le.mpr inside), if_neg ?_]
  · have cases : space = 0 ∨ space = 1 ∨ space = 2 ∨ space = 3 := by omega
    rcases cases with rfl | rfl | rfl | rfl <;> exact word ▸ rfl
  · rintro ⟨customer, at3 | ⟨at4, -⟩⟩
    · have vendor := right.resolve_left (not_not.mpr at3)
      rw [State.not_customer_issued h.idle vendor] at customer
      cases customer
    · omega

/-- LDT of a word that is refused: 0 goes to mD, and the fault is held. -/
theorem exec_ldt_refused {code : Nat} (space : bits f 16 14 ≤ 4)
    (refused : code = fAddress ∧ spaceSize (bits f 16 14) ≤ (s.ctx c).ms.tableWord f
      ∨ code = fProtect ∧ (s.ctx c).ms.tableWord f < spaceSize (bits f 16 14) ∧ 0x8000 ≤ (s.ctx c).ms.pc.toNat
        ∧ (bits f 16 14 = 3 ∨ bits f 16 14 = 4 ∧ (s.ctx c).ms.tableWord f < 0x8000)) :
    exec (.ldt c f) s = .next (((s.issued c 1).holdFault c code (s.ctx c).ms.pc).modMs c fun m => { m.put (fD f) 0 with pc := m.pc + 1 }) := by
  show execLdt c f s = _
  unfold execLdt
  have repairs : s.ldtRepairs c f = none := by
    refine if_neg ?_
    rintro ⟨-, at4, low, right, -⟩
    rcases refused with ⟨-, beyond⟩ | ⟨-, -, customer, at3 | ⟨-, vendor⟩⟩
    · rw [at4] at beyond
      exact Nat.not_lt.mpr beyond low
    · omega
    · exact right ⟨decide_eq_true customer, vendor⟩
  rw [repairs, if_neg (by simp)]
  refine (State.micro_one h).trans (congrArg Host.Outcome.next ?_)
  dsimp only
  rw [State.issued_ms h.idle, State.hold_issued h.idle, State.hold_issued h.idle, if_neg (by simp [imm]; omega)]
  rcases refused with ⟨rfl, beyond⟩ | ⟨rfl, inside, customer, barred⟩
  · rw [if_pos beyond]
    rfl
  · rw [if_neg (Nat.not_le.mpr inside), if_pos ⟨(State.customer_issued h.idle).trans (decide_eq_true customer), barred⟩]
    rfl

/-- LDT of the control store: what the store holds after its entry has been read. -/
theorem exec_ldt_store (at4 : bits f 16 14 = 4) (inside : (s.ctx c).ms.tableWord f < 65536)
    (right : (s.ctx c).ms.pc.toNat < 0x8000 ∨ 0x8000 ≤ (s.ctx c).ms.tableWord f)
    (whole : s.store.needsRepair ((s.ctx c).ms.tableWord f / 2) = false) :
    let r := (s.issued c 1).readStore ((s.ctx c).ms.tableWord f / 2)
    (∀ v, r.store.micro ((s.ctx c).ms.tableWord f) = some v → exec (.ldt c f) s
      = .next (r.modMs c fun _ => { (s.ctx c).ms.put (fD f) v with pc := (s.ctx c).ms.pc + 1 }))
    ∧ (r.store.micro ((s.ctx c).ms.tableWord f) = none → exec (.ldt c f) s
      = .next (({ r with freeCtr := r.freeCtr + 1 }.holdFault c fPoison (s.ctx c).ms.pc).modMs c
          fun m => { m.put (fD f) (BitVec.ofNat 32 (Config.freeValue r.freeCtr)) with pc := m.pc + 1 })) := by
  intro r
  have ms : (r.ctx c).ms = (s.ctx c).ms := by rw [State.readStore_ctx, State.issued_ms h.idle]
  have repairs : s.ldtRepairs c f = none := if_neg (by rw [whole]; simp)
  have allowed : ¬(((s.issued c 1).ctx c).customer = true ∧ (bits f 16 14 = 3 ∨ bits f 16 14 = 4 ∧ (s.ctx c).ms.tableWord f < 0x8000)) := by
    rw [State.customer_issued h.idle, decide_eq_true_eq]
    omega
  have body : exec (.ldt c f) s = .next (match r.store.micro ((s.ctx c).ms.tableWord f) with
      | some v => r.modMs c fun m => (m.put (fD f) v).step
      | none => (({ r with freeCtr := r.freeCtr + 1 } : State).hold c fPoison).modMs c
          fun m => (m.put (fD f) (BitVec.ofNat 32 (Config.freeValue r.freeCtr))).step) := by
    show execLdt c f s = _
    unfold execLdt
    rw [repairs, if_neg (by simp)]
    refine (State.micro_one h).trans (congrArg Host.Outcome.next ?_)
    dsimp only
    rw [State.issued_ms h.idle, if_neg (by simp [imm, at4]), if_neg (by rw [at4]; exact Nat.not_le.mpr inside), if_neg allowed, at4]
    rfl
  refine ⟨fun v word => ?_, fun lost => ?_⟩
  · rw [body, word]
    unfold State.modMs State.modCtx
    dsimp only
    rw [ms]
    rfl
  · rw [body, lost]
    have free : (({ r with freeCtr := r.freeCtr + 1 } : State).ctx c).ms = (s.ctx c).ms := ms
    unfold State.hold
    rw [free]
    rfl

end Ldt

/-! ### STT -/

section Stt

variable (h : s.Issues c 0x10 f 1) (imm : fImm f = true)
include h imm

/-- STT to a space that is stored to: mD goes to its word, and the run has an effect. -/
theorem exec_stt_word {g : Site → Site} {space : Nat} (hs : bits f 16 14 = space) (stored : space = 0 ∨ space = 1 ∨ space = 3)
    (inside : (s.ctx c).ms.tableWord f < spaceSize space) (right : space ≠ 3 ∨ (s.ctx c).ms.pc.toNat < 0x8000)
    (word : (match space with
      | 0 => fun y : Site => { y with scratch := Table.set 0 y.scratch ((s.ctx c).ms.tableWord f) ((s.ctx c).ms.reg (fD f)) }
      | 1 => fun y : Site => { y with identity := Table.set 0 y.identity ((s.ctx c).ms.tableWord f) ((s.ctx c).ms.reg (fD f)) }
      | _ => fun y : Site => { y with thread := y.thread.setWord ((s.ctx c).ms.tableWord f) ((s.ctx c).ms.reg (fD f)) }) = g) :
    exec (.stt c f) s = .next ((((s.issued c 1).modSite ((s.issued c 1).owningSite c) g).modCtx c fun y => { y with effects := true }).modMs c
      fun m => { m with pc := m.pc + 1 }) := by
  show execStt c f s = _
  refine (State.micro_one h).trans (congrArg Host.Outcome.next ?_)
  dsimp only
  rw [State.issued_ms h.idle, hs, if_neg (by simp [imm]; omega), if_neg ?_, if_neg (Nat.not_le.mpr inside)]
  · rcases stored with rfl | rfl | rfl <;> exact word ▸ rfl
  · rintro (at2 | at4 | ⟨customer, at3⟩)
    · omega
    · omega
    · rw [State.not_customer_issued h.idle (right.resolve_left (not_not.mpr at3))] at customer
      cases customer

/-- STT that is refused holds its fault and stores nothing. -/
theorem exec_stt_refused {code : Nat}
    (refused : code = fProtect ∧ (bits f 16 14 = 2 ∨ bits f 16 14 = 4 ∨ bits f 16 14 = 3 ∧ 0x8000 ≤ (s.ctx c).ms.pc.toNat)
      ∨ code = fAddress ∧ (bits f 16 14 < 2 ∨ bits f 16 14 = 3 ∧ (s.ctx c).ms.pc.toNat < 0x8000)
        ∧ spaceSize (bits f 16 14) ≤ (s.ctx c).ms.tableWord f) :
    exec (.stt c f) s = .next (((s.issued c 1).holdFault c code (s.ctx c).ms.pc).modMs c fun m => { m with pc := m.pc + 1 }) := by
  show execStt c f s = _
  refine (State.micro_one h).trans (congrArg Host.Outcome.next ?_)
  dsimp only
  rw [State.issued_ms h.idle, State.hold_issued h.idle, State.hold_issued h.idle, if_neg (by simp [imm]; omega), State.customer_issued h.idle]
  rcases refused with ⟨rfl, barred⟩ | ⟨rfl, free, beyond⟩
  · rw [if_pos (by rw [decide_eq_true_eq]; omega)]
    rfl
  · rw [if_neg (by rw [decide_eq_true_eq]; omega), if_pos beyond]
    rfl

end Stt

end Tables

/-- A word of THREAD is a stored item, a word stored aside, or a free value (log 44). -/
theorem State.threadWord_eq (u : State) (n a : Nat) :
    (∀ v, (u.site n).thread.item (Config.threadItem a) = some v → u.threadWord n a = BitVec.ofNat 32 v)
    ∧ ((u.site n).thread.item (Config.threadItem a) = none → (u.site n).thread.aux.any (·.1 = a) = true →
        u.threadWord n a = Table.get 0 (u.site n).thread.aux a)
    ∧ ((u.site n).thread.item (Config.threadItem a) = none → (u.site n).thread.aux.any (·.1 = a) = false →
        u.threadWord n a = BitVec.ofNat 32 (Config.threadWord n a)) := by
  unfold State.threadWord
  dsimp only
  refine ⟨fun v item => ?_, fun item aux => ?_, fun item aux => ?_⟩
  · rw [item]
  · rw [item]
    exact if_pos aux
  · rw [item]
    exact if_neg (by rw [aux]; simp)

/-- Settles O19. -/
theorem microTables : Obligations.MicroTables := by
  intro s c f m u n addr load
  refine ⟨fun h imm clear even => ⟨exec_fetch h imm clear even, exec_fetch_beyond h imm clear even⟩, fun h imm => ?_, fun h imm => ?_⟩
  · obtain ⟨item, aux, other⟩ := u.threadWord_eq n addr
    refine ⟨fun hs small => ?_, fun hs small => ?_, fun hs small => ?_, fun hs small vendor => ⟨fun v hv => ?_, fun hi ha => ?_, fun hi ha => ?_⟩,
      fun hs => exec_ldt_store h imm hs, fun most beyond => ?_, fun hs small customer => ?_, fun hs small customer => ?_⟩
    · exact exec_ldt_word h imm hs (by decide) small (.inl (by decide)) rfl
    · exact exec_ldt_word h imm hs (by decide) small (.inl (by decide)) rfl
    · exact exec_ldt_word h imm hs (by decide) small (.inl (by decide)) rfl
    · exact exec_ldt_word h imm hs (by decide) small (.inr vendor) (item v hv)
    · exact exec_ldt_word h imm hs (by decide) small (.inr vendor) (aux hi ha)
    · exact exec_ldt_word h imm hs (by decide) small (.inr vendor) (other hi ha)
    · exact exec_ldt_refused h imm most (.inl ⟨rfl, beyond⟩)
    · exact exec_ldt_refused h imm (by omega) (.inr ⟨rfl, by rw [hs]; exact small, customer, .inl hs⟩)
    · exact exec_ldt_refused h imm (by omega) (.inr ⟨rfl, by rw [hs]; exact lt_trans small (by decide), customer, .inr ⟨hs, small⟩⟩)
  · refine ⟨fun hs small => ?_, fun hs small => ?_, fun hs small vendor => ?_, fun barred => ?_, fun space beyond => ?_⟩
    · exact exec_stt_word h imm hs (.inl rfl) small (.inl (by decide)) rfl
    · exact exec_stt_word h imm hs (.inr (.inl rfl)) small (.inl (by decide)) rfl
    · exact exec_stt_word h imm hs (.inr (.inr rfl)) small (.inr vendor) rfl
    · exact exec_stt_refused h imm (.inl ⟨rfl, barred⟩)
    · exact exec_stt_refused h imm (.inr ⟨rfl, space, beyond⟩)

end Sys2Proof.Machine
end

section
/-! SUPPORT. EMIT (R77, R78, R164). -/

namespace Sys2Proof.Machine

/-! ### What an EMIT asks for -/

section Asks

variable {u : State} {n : Nat} {a b : Word32}

theorem State.emitOf_stream (h : 1 ≤ a.toNat ∧ a.toNat ≤ 4096 ∧ b.toNat + a.toNat ≤ u.nreg (siteObj n 1) 5 ∧ u.stagingOk n = true) :
    u.emitOf n 0 a b = some (.stream b.toNat a.toNat, Thread.staged) := if_pos h

theorem State.emitOf_stream_none
    (h : a.toNat = 0 ∨ 4096 < a.toNat ∨ u.nreg (siteObj n 1) 5 < b.toNat + a.toNat ∨ u.stagingOk n = false) : u.emitOf n 0 a b = none :=
  if_neg fun ⟨one, most, inside, ok⟩ => by
    rcases h with h | h | h | h
    · omega
    · omega
    · omega
    · rw [ok] at h; cases h

theorem State.emitOf_repeat (h : 1 ≤ a.toNat ∧ (u.site n).thread.anyPattern = true ∧ u.stagingOk n = true) :
    u.emitOf n 1 a b = some (.repeat a.toNat, Thread.staged) := if_pos h

theorem State.emitOf_repeat_none (h : a.toNat = 0 ∨ (u.site n).thread.anyPattern = false ∨ u.stagingOk n = false) :
    u.emitOf n 1 a b = none :=
  if_neg fun ⟨one, pattern, ok⟩ => by
    rcases h with h | h | h
    · omega
    · rw [pattern] at h; cases h
    · rw [ok] at h; cases h

theorem State.emitOf_hold (h : 1 ≤ a.toNat) : u.emitOf n 3 a b = some (.hold a.toNat, (·.addHold (some a.toNat))) := if_pos h

theorem State.emitOf_hold_none (h : a.toNat = 0) : u.emitOf n 3 a b = none := if_neg (by omega)

theorem State.emitOf_period (h : 2500 ≤ a.toNat) :
    u.emitOf n 4 a b = some (.period a.toNat, fun t => { t with period := some a.toNat }) := if_pos h

theorem State.emitOf_period_none (h : a.toNat < 2500) : u.emitOf n 4 a b = none := if_neg (by omega)

theorem State.emitOf_tset (h : a.toNat < 64 ∧ u.setValid n a.toNat = true) :
    u.emitOf n 5 a b = some (.tset a.toNat, fun t => { t with tset := a.toNat }) := if_pos h

theorem State.emitOf_tset_none (h : 64 ≤ a.toNat ∨ u.setValid n a.toNat = false) : u.emitOf n 5 a b = none :=
  if_neg fun ⟨small, valid⟩ => by
    rcases h with h | h
    · omega
    · rw [valid] at h; cases h

/-- The literal of a whole word, or of a slot whose pin takes no microcode words, may be staged. -/
theorem State.emitOf_literal (clear : bits b 31 20 = 0) (bit11 : bit b 11 = false) (pattern : (u.site n).thread.anyPattern = true)
    (ok : u.stagingOk n = true)
    (slot : ∃ p, (u.sitePins n)[bits b 5 0]? = some p ∧ (bits b 10 6 = 31 ∨
      ∀ e, (u.site n).thread.inSerial.find? (·.1 = p) = some e → ∀ g, u.serialCfg n e.2 = some g → g.src ≠ 4)) :
    u.emitOf n 2 a b = some (.literal a (bits b 19 16) (bits b 15 12) (bits b 10 6 + 1) (bits b 5 0), Thread.staged) := by
  obtain ⟨p, pin, free⟩ := slot
  unfold State.emitOf
  dsimp only
  rw [pin]
  dsimp only
  refine if_pos ⟨clear, by simp [bit11], ?_, pattern, ok⟩
  cases he : (u.site n).thread.inSerial.find? (·.1 = p) with
  | none => rfl
  | some e =>
    cases hg : u.serialCfg n e.2 with
    | none => simp [hg]
    | some g =>
      rcases free with whole | other
      · simp [hg, whole]
      · simp [hg, other e he g hg]

theorem State.emitOf_literal_none
    (h : bits b 31 20 ≠ 0 ∨ bit b 11 = true ∨ (u.site n).thread.anyPattern = false ∨ u.stagingOk n = false) : u.emitOf n 2 a b = none :=
  if_neg fun ⟨clear, bit11, _, pattern, ok⟩ => by
    rcases h with h | h | h | h
    · exact h clear
    · rw [h] at bit11; cases bit11
    · rw [pattern] at h; cases h
    · rw [ok] at h; cases h

end Asks

/-! ### An EMIT that issues -/

section Emit

variable {s : State} {c : CtxId} {f : BitVec 26} {k : Nat}

/-- The state in which an EMIT has staged descriptor d: provisional, counted where it carries TAINT, the thread before it remembered. -/
def State.emitted (u : State) (c : Nat) (d : DescKind) (g : Thread → Thread) : State :=
  let n := u.owningSite c
  let t := (u.site n).thread
  let v := u.modCtx c fun x => { x with tainted := if x.taint then x.tainted + 1 else x.tainted, before := x.before.or (some t) }
  ((v.stageBy n c d).modThread n g).modMs c fun m => { m with z := true, pc := m.pc + 1 }

/-- An EMIT of kind k whose operand bits are clear: by what it asks for and the room of the queue. -/
theorem State.emitMicro_issues (h : s.Issues c 0x11 f 1) (mine : fD f = k) (small : k ≤ 5) (imm : fImm f = false)
    (form : ((k = 0 ∨ k = 2) → bits f 16 4 = 0) ∧ (¬(k = 0 ∨ k = 2) → bits f 17 0 = 0)) :
    let u := s.issued c 1
    let n := u.owningSite c
    s.emitMicro c k f = .next (match u.emitOf n k ((s.ctx c).ms.reg (fA f)) ((s.ctx c).ms.reg (bits f 3 0)) with
      | none => (u.holdFault c 0x0016 (s.ctx c).ms.pc).modMs c fun m => { m with z := u.queueRoom n, pc := m.pc + 1 }
      | some (d, g) => if u.queueRoom n then u.emitted c d g else u.modMs c fun m => { m with z := false, pc := m.pc + 1 }) := by
  intro u n
  unfold State.emitMicro
  rw [if_neg (by omega)]
  refine (State.micro_one h).trans (congrArg Host.Outcome.next ?_)
  have legal : ¬(fD f > 5 ∨ fImm f = true ∨ (k = 0 ∨ k = 2) ∧ bits f 16 4 ≠ 0 ∨ (!decide (k = 0 ∨ k = 2)) = true ∧ bits f 17 0 ≠ 0) := by
    rintro (beyond | immediate | ⟨reg, set⟩ | ⟨other, set⟩)
    · omega
    · rw [imm] at immediate; cases immediate
    · exact set (form.1 reg)
    · exact set (form.2 (by simpa using other))
  dsimp only
  rw [State.issued_ms h.idle, State.hold_issued h.idle, if_neg legal]
  show (match u.emitOf n k _ _ with | none => _ | some (d, g) => _) = _
  cases u.emitOf n k ((s.ctx c).ms.reg (fA f)) ((s.ctx c).ms.reg (bits f 3 0)) with
  | none => rfl
  | some e =>
    obtain ⟨d, g⟩ := e
    show (if (!u.queueRoom n) = true then _ else _) = if u.queueRoom n = true then _ else _
    cases hr : u.queueRoom n with
    | false => rfl
    | true => rfl

section Outcome

variable (h : s.Issues c 0x11 f 1) (mine : fD f = k) (small : k ≤ 5) (imm : fImm f = false)
  (form : ((k = 0 ∨ k = 2) → bits f 16 4 = 0) ∧ (¬(k = 0 ∨ k = 2) → bits f 17 0 = 0))
include h mine small imm form

theorem State.emitMicro_stages {d : DescKind} {g : Thread → Thread} (room : (s.issued c 1).queueRoom ((s.issued c 1).owningSite c) = true)
    (asks : (s.issued c 1).emitOf ((s.issued c 1).owningSite c) k ((s.ctx c).ms.reg (fA f)) ((s.ctx c).ms.reg (bits f 3 0)) = some (d, g)) :
    s.emitMicro c k f = .next ((s.issued c 1).emitted c d g) := by
  rw [State.emitMicro_issues h mine small imm form, asks]
  exact congrArg Host.Outcome.next (if_pos room)

theorem State.emitMicro_full {d : DescKind} {g : Thread → Thread} (full : (s.issued c 1).queueRoom ((s.issued c 1).owningSite c) = false)
    (asks : (s.issued c 1).emitOf ((s.issued c 1).owningSite c) k ((s.ctx c).ms.reg (fA f)) ((s.ctx c).ms.reg (bits f 3 0)) = some (d, g)) :
    s.emitMicro c k f = .next ((s.issued c 1).modMs c fun m => { m with z := false, pc := m.pc + 1 }) := by
  rw [State.emitMicro_issues h mine small imm form, asks]
  exact congrArg Host.Outcome.next (if_neg (by simp [full]))

theorem State.emitMicro_invalid
    (asks : (s.issued c 1).emitOf ((s.issued c 1).owningSite c) k ((s.ctx c).ms.reg (fA f)) ((s.ctx c).ms.reg (bits f 3 0)) = none) :
    s.emitMicro c k f = .next (((s.issued c 1).holdFault c 0x0016 (s.ctx c).ms.pc).modMs c
      fun m => { m with z := (s.issued c 1).queueRoom ((s.issued c 1).owningSite c), pc := m.pc + 1 }) := by
  rw [State.emitMicro_issues h mine small imm form, asks]

end Outcome

end Emit

/-- STREAM and LITERAL keep B[16:4] clear, the other kinds B[17:0]. -/
theorem emitForm_register {k : Nat} {f : BitVec 26} (hk : k = 0 ∨ k = 2) (clear : bits f 16 4 = 0) :
    ((k = 0 ∨ k = 2) → bits f 16 4 = 0) ∧ (¬(k = 0 ∨ k = 2) → bits f 17 0 = 0) := ⟨fun _ => clear, fun other => absurd hk other⟩

theorem emitForm_plain {k : Nat} {f : BitVec 26} (hk : ¬(k = 0 ∨ k = 2)) (clear : bits f 17 0 = 0) :
    ((k = 0 ∨ k = 2) → bits f 16 4 = 0) ∧ (¬(k = 0 ∨ k = 2) → bits f 17 0 = 0) := ⟨fun reg => absurd reg hk, fun _ => clear⟩

/-- Settles O20. That Z gives the queue's room after an invalid EMIT, and that reserved LITERAL bits make one invalid, is log 42. -/
theorem microEmit : Obligations.MicroEmit := by
  intro s c f h m u n t a b staged imm
  refine ⟨fun room => ⟨?stream, ?rep, ?literal, ?hold, ?period, ?tset⟩, fun full => ⟨?streamFull, ?repFull, ?holdFull, ?periodFull, ?tsetFull⟩,
    ⟨?streamBad, ?repBad, ?literalBad, ?holdBad, ?periodBad, ?tsetBad⟩⟩
  case stream =>
    exact fun d clear one most inside ok => State.emitMicro_stages h d (by decide) imm (emitForm_register (.inl rfl) clear) room
      (State.emitOf_stream ⟨one, most, inside, ok⟩)
  case rep =>
    exact fun d clear one pattern ok => State.emitMicro_stages h d (by decide) imm (emitForm_plain (by decide) clear) room
      (State.emitOf_repeat ⟨one, pattern, ok⟩)
  case literal =>
    exact fun d clear high bit11 pattern ok slot => State.emitMicro_stages h d (by decide) imm (emitForm_register (.inr rfl) clear) room
      (State.emitOf_literal high bit11 pattern ok slot)
  case hold =>
    exact fun d clear one => State.emitMicro_stages h d (by decide) imm (emitForm_plain (by decide) clear) room (State.emitOf_hold one)
  case period =>
    exact fun d clear long => State.emitMicro_stages h d (by decide) imm (emitForm_plain (by decide) clear) room (State.emitOf_period long)
  case tset =>
    exact fun d clear small valid => State.emitMicro_stages h d (by decide) imm (emitForm_plain (by decide) clear) room
      (State.emitOf_tset ⟨small, valid⟩)
  case streamFull =>
    exact fun d clear one most inside ok => State.emitMicro_full h d (by decide) imm (emitForm_register (.inl rfl) clear) full
      (State.emitOf_stream ⟨one, most, inside, ok⟩)
  case repFull =>
    exact fun d clear one pattern ok => State.emitMicro_full h d (by decide) imm (emitForm_plain (by decide) clear) full
      (State.emitOf_repeat ⟨one, pattern, ok⟩)
  case holdFull =>
    exact fun d clear one => State.emitMicro_full h d (by decide) imm (emitForm_plain (by decide) clear) full (State.emitOf_hold one)
  case periodFull =>
    exact fun d clear long => State.emitMicro_full h d (by decide) imm (emitForm_plain (by decide) clear) full (State.emitOf_period long)
  case tsetFull =>
    exact fun d clear small valid => State.emitMicro_full h d (by decide) imm (emitForm_plain (by decide) clear) full
      (State.emitOf_tset ⟨small, valid⟩)
  case streamBad =>
    exact fun d clear bad => State.emitMicro_invalid h d (by decide) imm (emitForm_register (.inl rfl) clear) (State.emitOf_stream_none bad)
  case repBad =>
    exact fun d clear bad => State.emitMicro_invalid h d (by decide) imm (emitForm_plain (by decide) clear) (State.emitOf_repeat_none bad)
  case literalBad =>
    exact fun d clear bad => State.emitMicro_invalid h d (by decide) imm (emitForm_register (.inr rfl) clear) (State.emitOf_literal_none bad)
  case holdBad =>
    exact fun d clear bad => State.emitMicro_invalid h d (by decide) imm (emitForm_plain (by decide) clear) (State.emitOf_hold_none bad)
  case periodBad =>
    exact fun d clear bad => State.emitMicro_invalid h d (by decide) imm (emitForm_plain (by decide) clear) (State.emitOf_period_none bad)
  case tsetBad =>
    exact fun d clear bad => State.emitMicro_invalid h d (by decide) imm (emitForm_plain (by decide) clear) (State.emitOf_tset_none bad)

end Sys2Proof.Machine
end

section
/-! SUPPORT. WAITC, EVT, CAPC and POST (R79, R80). -/

namespace Sys2Proof.Machine

section Requests

variable {s : State} {c : CtxId} {f : BitVec 26}

/-! ### WAITC -/

section Waitc

variable (h : s.Issues c 0x12 f 1) (imm : fImm f = true) (cond : fD f ≤ 8)
include h imm cond

/-- What a WAITC that issues comes to: a fault, an end at once, or a wait. -/
theorem exec_waitc :
    let u := s.issued c 1
    let n := u.owningSite c
    let m := (s.ctx c).ms
    let arg := m.reg (fA f)
    exec (.waitc c f) s = .next (
      if !u.waitOwned n (fD f) arg (u.ctx c).customer then (u.holdFault c 0x0011 m.pc).modMs c fun m => { m with z := false, pc := m.pc + 1 }
      else if (u.ctx c).fault.isSome ∨ (u.ctx c).orphan.isSome ∨ (!(u.ctx c).task ∧ ((u.site n).abort.isSome ∨ (u.site n).halted)) then
        u.modMs c fun _ => { m with z := false, pc := m.pc + 1 }
      else if u.waitTrue n (fD f) arg u.clk.frames false then u.modMs c fun _ => { m with z := true, pc := m.pc + 1 }
      else (u.modMs c fun _ => { m with pc := m.pc + 1 }).modCtx c fun y => { y with
        st := .waiting, wait := some { cond := fD f, arg := arg, since := u.clk.frames,
                                       deadline := if bits f 16 0 = 0 then none else some (u.clk.frames + bits f 16 0) } }) := by
  intro u n m arg
  show execWaitc c f s = _
  refine (State.micro_one h).trans (congrArg Host.Outcome.next ?_)
  dsimp only
  rw [State.issued_ms h.idle, State.hold_issued h.idle, if_neg (by simp [imm]; omega),
    State.modMs_issued h.idle fun m => MicroState.step { m with z := false },
    State.modMs_issued h.idle fun m => MicroState.step { m with z := true }, State.modMs_issued h.idle MicroState.step]
  rfl

theorem exec_waitc_protected (own : (s.issued c 1).waitOwned ((s.issued c 1).owningSite c) (fD f) ((s.ctx c).ms.reg (fA f))
      ((s.issued c 1).ctx c).customer = false) :
    exec (.waitc c f) s = .next (((s.issued c 1).holdFault c 0x0011 (s.ctx c).ms.pc).modMs c fun m => { m with z := false, pc := m.pc + 1 }) := by
  rw [exec_waitc h imm cond, if_pos (by rw [own]; rfl)]

theorem exec_waitc_stopped (own : (s.issued c 1).waitOwned ((s.issued c 1).owningSite c) (fD f) ((s.ctx c).ms.reg (fA f))
      ((s.issued c 1).ctx c).customer = true)
    (stopped : ((s.issued c 1).ctx c).fault.isSome = true ∨ ((s.issued c 1).ctx c).orphan.isSome = true
      ∨ ((s.issued c 1).ctx c).task = false ∧ (((s.issued c 1).site ((s.issued c 1).owningSite c)).abort.isSome = true
        ∨ ((s.issued c 1).site ((s.issued c 1).owningSite c)).halted = true)) :
    exec (.waitc c f) s = .next ((s.issued c 1).modMs c fun _ => { (s.ctx c).ms with z := false, pc := (s.ctx c).ms.pc + 1 }) := by
  rw [exec_waitc h imm cond, if_neg (not_bnot own), if_pos (stopped.imp_right (Or.imp_right (And.imp_left fun t => by rw [t]; rfl)))]

theorem exec_waitc_waits (own : (s.issued c 1).waitOwned ((s.issued c 1).owningSite c) (fD f) ((s.ctx c).ms.reg (fA f))
      ((s.issued c 1).ctx c).customer = true)
    (hf : ((s.issued c 1).ctx c).fault = none) (ho : ((s.issued c 1).ctx c).orphan = none)
    (goes : ((s.issued c 1).ctx c).task = true ∨ ((s.issued c 1).site ((s.issued c 1).owningSite c)).abort = none
      ∧ ((s.issued c 1).site ((s.issued c 1).owningSite c)).halted = false) :
    let u := s.issued c 1
    let m := (s.ctx c).ms
    exec (.waitc c f) s = .next (
      if u.waitTrue (u.owningSite c) (fD f) (m.reg (fA f)) u.clk.frames false then u.modMs c fun _ => { m with z := true, pc := m.pc + 1 }
      else (u.modMs c fun _ => { m with pc := m.pc + 1 }).modCtx c fun y => { y with
        st := .waiting, wait := some { cond := fD f, arg := m.reg (fA f), since := u.clk.frames,
                                       deadline := if bits f 16 0 = 0 then none else some (u.clk.frames + bits f 16 0) } }) := by
  intro u m
  rw [exec_waitc h imm cond, if_neg (not_bnot own), if_neg]
  rintro (fault | orphan | ⟨thread, site⟩)
  · rw [hf] at fault; cases fault
  · rw [ho] at orphan; cases orphan
  · rcases goes with task | ⟨abort, halted⟩
    · rw [task] at thread; cases thread
    · rw [abort, halted] at site
      rcases site with site | site <;> cases site

end Waitc

/-! ### The end of a wait -/

section Wake

variable {w : Wait} (waits : (s.ctx c).wait = some w)
include waits

theorem exec_waitcWake (holds : s.waitTrue (s.owningSite c) w.cond w.arg w.since true = true) :
    exec (.waitcWake c) s = .next (s.wake c true) := by
  show execWaitcWake c s = _
  unfold execWaitcWake
  rw [waits]
  exact if_pos holds

theorem exec_waitcTimeout {d : Nat} (deadline : w.deadline = some d) (reached : d ≤ s.clk.frames)
    (fails : s.waitTrue (s.owningSite c) w.cond w.arg w.since false = false) : exec (.waitcTimeout c) s = .next (s.wake c false) := by
  show execWaitcTimeout c s = _
  obtain ⟨cond, arg, since, dl⟩ := w
  cases deadline
  unfold execWaitcTimeout
  rw [waits]
  exact if_pos ⟨reached, by rw [fails]; rfl⟩

end Wake

/-! ### EVT -/

section Evt

variable (h : s.Issues c 0x13 f 1) (imm : fImm f = true) (d : fD f = 0) (a : fA f = 0) (clear : bits f 16 12 = 0)
include h imm d a clear

/-- EVT of a source of the whole engine. -/
theorem exec_evt_global (wide : bit f 11 = true) :
    exec (.evt c f) s = .next (if 0x8000 ≤ (s.ctx c).ms.pc.toNat then
      ((s.issued c 1).holdFault c 0x0011 (s.ctx c).ms.pc).modMs c fun m => { m with pc := m.pc + 1 }
      else ((s.issued c 1).raiseBy c (bits f 10 0)).modMs c fun m => { m with pc := m.pc + 1 }) := by
  show execEvt c f s = _
  refine (State.micro_one h).trans (congrArg Host.Outcome.next ?_)
  dsimp only
  rw [if_neg (by simp [imm, d, a, clear, wide]), if_pos wide, State.customer_issued h.idle, State.hold_issued h.idle]
  simp only [decide_eq_true_eq]
  rfl

/-- EVT of a source of its site. -/
theorem exec_evt_site (own : bit f 11 = false) (small : bits f 10 2 = 0) :
    exec (.evt c f) s = .next (((s.issued c 1).raiseBy c (1024 + 8 * (s.issued c 1).owningSite c + (4 + bits f 1 0))).modMs c
      fun m => { m with pc := m.pc + 1 }) := by
  show execEvt c f s = _
  refine (State.micro_one h).trans (congrArg Host.Outcome.next ?_)
  dsimp only
  rw [if_neg (by simp [imm, d, a, clear, small]), if_neg (by simp [own])]
  rfl

end Evt

/-! ### CAPC -/

/-- A CAPC of kind k asks the acquisition engine; what it accepts rides to the next vector. -/
theorem State.capcMicro_asks {k : Nat} (h : s.Issues c 0x14 f 1) (imm : fImm f = true) (mine : fD f = k) (listed : k ≤ 4 ∨ k = 8) :
    let u := s.issued c 1
    let n := u.owningSite c
    let v := (u.capIssue n k).2
    s.capcMicro c k f =
      if (u.capIssue n k).1 then
        .next (((v.stageBy n c (.rider (if k = 8 then .mark ((s.ctx c).ms.reg (fA f)) else .cap k (bits f 7 0)))).modCtx c
          fun y => { y with effects := true }).modMs c fun m => { m with z := true, pc := m.pc + 1 })
      else .next (v.modMs c fun m => { m with z := false, pc := m.pc + 1 }) := by
  intro u n v
  unfold State.capcMicro
  rw [if_neg (by omega)]
  refine (State.micro_one h).trans ?_
  dsimp only
  rw [State.issued_ms h.idle, if_neg (by simp [imm]; omega)]
  show Host.Outcome.next _ = if (u.capIssue n k).1 = true then _ else _
  cases hr : (u.capIssue n k).1 with
  | false => rfl
  | true => rfl

/-! ### POST -/

section Post

variable (h : s.Issues c 0x15 f 1) (imm : fImm f = true) (clear : bits f 16 12 = 0)
include h imm clear

theorem exec_post_protected (customer : ((s.issued c 1).ctx c).customer = true)
    (barred : bits f 2 0 ≤ 2 ∨ ((s.ctx c).ms.reg (fA f)).toNat % 65536 < 0x8000) :
    exec (.post c f) s = .next (((s.issued c 1).holdFault c 0x0011 (s.ctx c).ms.pc).modMs c fun m => { m with pc := m.pc + 1 }) := by
  show execPost c f s = _
  refine (State.micro_one h).trans (congrArg Host.Outcome.next ?_)
  dsimp only
  rw [State.issued_ms h.idle, State.hold_issued h.idle, if_neg (by simp [imm, clear]), if_pos ⟨customer, barred⟩]
  rfl

theorem exec_post_asks (free : ((s.issued c 1).ctx c).customer = false
      ∨ 2 < bits f 2 0 ∧ 0x8000 ≤ ((s.ctx c).ms.reg (fA f)).toNat % 65536) :
    let u := s.issued c 1
    let m := (s.ctx c).ms
    let r := u.postTask (u.owningSite c) ((m.reg (fA f)).toNat % 65536) (bits f 2 0) (m.reg (fD f))
      (if bit f 3 then some (bits f 11 4) else none) (u.ctx c).customer
    exec (.post c f) s
      = if r.1 then .next ((r.2.modCtx c fun y => { y with effects := true }).modMs c fun m => { m with z := true, pc := m.pc + 1 })
        else .next (r.2.modMs c fun m => { m with z := false, pc := m.pc + 1 }) := by
  intro u m r
  show execPost c f s = _
  refine (State.micro_one h).trans ?_
  have legal : ¬(((s.issued c 1).ctx c).customer = true ∧ (bits f 2 0 ≤ 2 ∨ ((s.ctx c).ms.reg (fA f)).toNat % 65536 < 0x8000)) := by
    rintro ⟨customer, barred⟩
    rcases free with vendor | ⟨prio, entry⟩
    · rw [vendor] at customer; cases customer
    · omega
  dsimp only
  rw [State.issued_ms h.idle, if_neg (by simp [imm, clear]), if_neg legal]
  show Host.Outcome.next (State.modMs (if r.1 = true then _ else _) c fun m => MicroState.step { m with z := r.1 }) = if r.1 = true then _ else _
  cases hr : r.1 with
  | false => rfl
  | true => rfl

end Post

end Requests

/-- Settles O21. That TIME ends a wait within a frame is log 159, that CAPC ignores B[16:8] log 149, that POST ignores B[11:4] where B[3] = 0
log 150. -/
theorem microWaitsAndRequests : Obligations.MicroWaitsAndRequests := by
  refine ⟨⟨fun s c f h imm cond => ?_, fun s c w waits => ⟨exec_waitcWake waits, fun d => exec_waitcTimeout waits⟩⟩, fun s c f => ?_⟩
  · refine ⟨exec_waitc_protected h imm cond, exec_waitc_stopped h imm cond, fun own hf ho goes => ⟨fun yes => ?_, fun no => ?_⟩⟩
    · rw [exec_waitc_waits h imm cond own hf ho goes, if_pos yes]
    · rw [exec_waitc_waits h imm cond own hf ho goes, if_neg (by rw [no]; simp)]
  · refine ⟨fun h imm d a clear => ⟨fun wide vendor => ?_, exec_evt_site h imm d a clear, fun wide customer => ?_⟩, fun h imm => ?_,
      fun h imm clear => ⟨exec_post_protected h imm clear, exec_post_asks h imm clear⟩⟩
    · rw [exec_evt_global h imm d a clear wide, if_neg (Nat.not_le.mpr vendor)]
    · rw [exec_evt_global h imm d a clear wide, if_pos customer]
    · exact ⟨fun mine => State.capcMicro_asks h imm mine (by decide), fun mine => State.capcMicro_asks h imm mine (by decide),
        fun mine => State.capcMicro_asks h imm mine (by decide), fun mine => State.capcMicro_asks h imm mine (by decide),
        fun mine => State.capcMicro_asks h imm mine (by decide), fun mine => State.capcMicro_asks h imm mine (by decide)⟩

end Sys2Proof.Machine
end

section
/-! SUPPORT. The reference (R11, R460), the end of runs (R65, R75, R82, R86) and restarts (R91). -/

namespace Sys2Proof.Machine

/-! ### The reference -/

section Reference

variable {s : State}

/-- The clocks after REFCLK has been lost from a locked PLL. -/
def Clocks.lost (c : Clocks) (ref : RefState) : Clocks := { c with ref := ref, presentFor := 0, beat := .holdover, lostFor := 0 }

/-- What a loss of REFCLK from a locked PLL leads to beyond the clocks (R11, R460). -/
def State.loseRef (s : State) : State :=
  let u := (s.raise 1543).handFault { resource := 8, level := 8, source := 1543 }
  let w := u.loseLock.each siteNos fun x n => if (x.site n).st.live then x.modSite n (·.flag flagRefclk true) else x
  w.each w.spanning fun x n => (x.sendAbort n 2 x.abortTick).convoyFault n 0x0101

/-- The consequences of a loss of REFCLK leave the clocks. -/
theorem State.loseRef_clk (s : State) : s.loseRef.clk = s.clk := by
  have keeps : Keeps (· ≠ .clocks) s s.loseRef := by
    refine Keeps.each (Keeps.each ?_ fun _ _ h => ?_) fun _ _ h => ?_
    · exact State.loseLock_keeps (by simp) (State.handFault_keeps (by simp) (by simp) (State.raise_keeps Keeps.refl))
    · exact Keeps.ite (fun _ => State.modSite_keeps (by simp) h) fun _ => h
    · exact State.convoyFault_keeps (by simp) (by simp) (by simp) (by simp) (by simp) (by simp) (by simp) (by simp) (by simp) (by simp) (by simp)
        (State.sendAbort_keeps (by simp) h)
  exact keeps.parts .clocks (by simp)

theorem exec_refclkPresent (on : s.mode ≠ .off) (absent : s.clk.ref ≠ .present) :
    exec .refclkPresent s = .next { s with clk := { s.clk with ref := .present, presentFor := 0 } }.startPorts := by
  show execRefclkPresent s = _
  exact if_neg (not_or.mpr ⟨on, absent⟩)

section Lost

variable (o : Bool) (on : s.mode ≠ .off) (present : s.clk.ref = .present)
include on present

theorem refclk_leaves : ¬(s.mode = .off ∨ s.clk.ref = if o = true then RefState.outside else .absent) := by
  rw [present]
  cases o <;> simp [on]

theorem exec_refclkLost_locked (locked : s.clk.beat = .locked) :
    exec (.refclkLost o) s = .next { s with clk := s.clk.lost (if o then .outside else .absent) }.loseRef := by
  show execRefclkLost o s = _
  unfold execRefclkLost
  have beats : (s.modClk fun c => { c with ref := if o = true then RefState.outside else .absent, presentFor := 0 }).clk.beat = .locked := locked
  rw [if_neg (refclk_leaves o on present)]
  dsimp only
  rw [if_neg (by rw [present, beats]; simp)]
  unfold State.modClk
  dsimp only
  rw [locked]
  rfl

theorem exec_refclkLost_unlocked (unlocked : s.clk.beat = .unlocked) :
    exec (.refclkLost o) s = .next { s with clk := { s.clk with ref := if o then .outside else .absent, presentFor := 0 } } := by
  show execRefclkLost o s = _
  unfold execRefclkLost
  rw [if_neg (refclk_leaves o on present)]
  exact if_pos (.inr unlocked)

end Lost

theorem exec_longHoldover (holdover : s.clk.beat = .holdover) (long : 1250000 ≤ s.clk.lostFor) (first : s.clk.longHoldover = false) :
    exec .longHoldover s = .next { s with clk := { s.clk with longHoldover := true } }.taintLive := by
  show execLongHoldover s = _
  unfold execLongHoldover
  rw [if_pos ⟨holdover, long, by simp [first]⟩]
  rfl

theorem exec_refclkRelocked (holdover : s.clk.beat = .holdover) (steady : s.refSteady = true) (idle : s.anyBusy = false) :
    exec .refclkRelocked s
      = .next (({ s with clk := { s.clk with beat := .locked, lostFor := 0, longHoldover := false } }.raise 1544).recovered 8
          (s.usSince (((s.faultOf 8).map fun (f : FaultRec) => f.frame).getD s.clk.frames))) := by
  show execRefclkRelocked s = _
  exact if_pos ⟨holdover, steady, by simp [idle]⟩

end Reference

/-- Settles O23. -/
theorem referenceLostAndFound : Obligations.ReferenceLostAndFound := by
  intro s
  exact ⟨exec_refclkPresent, fun o on present => ⟨fun locked => ⟨exec_refclkLost_locked o on present locked, State.loseRef_clk { s with clk := s.clk.lost (if o then .outside else .absent) }⟩,
    exec_refclkLost_unlocked o on present⟩, exec_longHoldover, exec_refclkRelocked⟩

/-! ### Runs -/

section Runs

variable {s : State} {c : CtxId} {f : BitVec 26}

theorem exec_fetchData {p : FetchPend} {i : Nat} {flips : Flips}
    (oldest : ((s.ctx c).fetch.zipIdx.find? fun e => s.serves 4 (256 * c.val + e.2) e.1.addr) = some (p, i)) :
    let u := (s.passOlder 4 (256 * c.val + i) p.addr).passCycles 1
    let r := u.takeLine (64 * (p.addr / 64)) flips
    let d := checkWord (r.1.getD (p.addr / 8 % 8) {})
    let t := r.2.modCtx c fun y => { y with
      fetch := y.fetch.eraseIdx i, stalled := false, st := if y.stalled then .ready else y.st
      readySince := if y.stalled then u.inn.clock else y.readySince
      ms := (y.ms.put p.pair (BitVec.ofNat 32 (bits d.data 63 32))).put (p.pair + 1) (BitVec.ofNat 32 (bits d.data 31 0)) }
    exec (.fetchData c flips) s = .next (if d.ok = true then t else t.holdFault c fPoison p.pc) := by
  intro u r d t
  show execFetchData c flips s = _
  unfold execFetchData
  rw [oldest]

/-- An END whose form is legal and, where it goes on, whose resume address is not barred. -/
theorem exec_endI (h : s.Issues c 0x3F f 1) (clear : bits f 23 18 = 0) (b16 : bit f 16 = false) (form : bit f 17 = bit f 25)
    (resume : bit f 25 = false → bits f 15 0 = 0) (task : bit f 25 = true → ((s.issued c 1).ctx c).task = false)
    (free : bit f 25 = true → ((s.issued c 1).ctx c).barred (BitVec.ofNat 16 (bits f 15 0)) = false) :
    let u := s.issued c 1
    let n := u.owningSite c
    exec (.endI c f) s = .next (
      if (u.ctx c).orphan.isSome then u.endOrphan n c
      else if (u.ctx c).task then ((u.release n c).modCtx c fun y => { y with snap := y.ms }).endTask c
      else u.endThread n c (bit f 25) (bit f 24) (BitVec.ofNat 16 (bits f 15 0))) := by
  intro u n
  show execEndI c f s = _
  refine (State.micro_one h).trans (congrArg Host.Outcome.next ?_)
  have legal : ¬(bits f 23 18 ≠ 0 ∨ bit f 17 ≠ bit f 25 ∨ bit f 16 = true ∨ (!bit f 25) = true ∧ BitVec.ofNat 16 (bits f 15 0) ≠ 0
      ∨ ((s.issued c 1).ctx c).task = true ∧ bit f 25 = true) := by
    rintro (set | differs | set | ⟨stops, set⟩ | ⟨isTask, goes⟩)
    · exact set clear
    · exact differs form
    · rw [b16] at set; cases set
    · rw [resume (by simpa using stops)] at set
      exact set rfl
    · rw [task goes] at isTask; cases isTask
  have free16 : ¬(bit f 25 = true ∧ ((s.issued c 1).ctx c).barred (BitVec.ofNat 16 (bits f 15 0)) = true) := by
    rintro ⟨goes, barred⟩
    rw [free goes] at barred
    cases barred
  dsimp only
  rw [if_neg legal, if_neg free16]

theorem exec_watchdog (turn : s.mayIssue c = true) (micro : s.inMicro c = true) (limit : s.overLimit c = true) :
    let n := s.owningSite c
    let u := ((s.hold c fWatchdog).bump (0x4010 + c / 8) 6).discard n c
    exec (.watchdog c) s = .next (if (s.ctx c).orphan.isSome = true then u.endOrphan n c
      else if (s.ctx c).task = true then u.endTask c
      else u.boundary n c (u.site n).thread.idx (some (s.ctx c).ms.pc) false false) := by
  show execWatchdog c s = _
  exact if_neg (by simp [turn, micro, limit])

theorem exec_savingDone (saving : (s.ctx c).st = .saving) : exec (.savingDone c) s = .next (s.freeCtx c) := if_pos saving

end Runs

/-- Settles O24. The order in which several FETCHes of a context end is log 43. -/
theorem runsEndAndGoOn : Obligations.RunsEndAndGoOn := by
  intro s c
  refine ⟨fun p i flips => exec_fetchData, fun f h clear b16 => ?_, exec_watchdog, exec_savingDone⟩
  intro u n
  refine ⟨fun stops b17 zero => ?_, fun goes b17 orphan task out => ?_⟩
  · have ends := exec_endI h clear b16 (b17.trans stops.symm) (fun _ => zero) (fun x => by rw [stops] at x; cases x)
      (fun x => by rw [stops] at x; cases x)
    refine ⟨fun orphan => ?_, fun orphan task => ?_, fun orphan task => ?_⟩
    · rw [ends, if_pos orphan]
    · rw [ends, if_neg (by rw [orphan]; simp), if_pos task]
    · rw [ends, if_neg (by rw [orphan]; simp), if_neg (by rw [task]; simp), stops, zero]
      rfl
  · rw [exec_endI h clear b16 (b17.trans goes.symm) (fun x => by rw [goes] at x; cases x) (fun _ => task) (fun _ => out),
      if_neg (by rw [orphan]; simp), if_neg (by rw [task]; simp), goes]

/-! ### Restart -/

/-- The run of context c repeated from its last snapshot in context d (R91). -/
def State.repeated (u : State) (c d n : Nat) : State :=
  let x := u.ctx c
  let v := u.setCtx d { x with st := .ready, ms := x.snap, run := 0, fetch := [], wait := none, stalled := false, readySince := u.inn.clock,
                                effects := false, restarted := true }
  let w := match x.owner with | some i => v.setEntry i { v.entry i with context := d } | none => v
  if x.effects = true then (w.modCtx d fun z => { z with taint := true }).taint n else w

/-- The entry that a context in microcode reads repaired, and its run repeated in a spare context. -/
theorem exec_csRestart {s t u : State} {c : CtxId} {k d n : Nat} (selfTest : Bool) (turn : s.mayIssue c = true) (repairs : s.repairs c = some k)
    (hn : s.owningSite c = n)
    (ht : ((((s.correctCopy true k).repairCopy false k).bump (0x4010 + c.val / 8) 7).passCycles 1).reportFault
      { resource := 0x80 + c, level := 5, site := n, source := 1547 } = t)
    (hu : t.discard n c = u) (spare : u.spareCtx c = some d) :
    exec (.csRestart c selfTest) s = .next (if selfTest then (u.repeated c d n).setCtx c {} else (u.repeated c d n).retire c n) := by
  show execCsRestart c selfTest s = _
  have engine : ((c / 8 : CtxId) : Nat) = c.val / 8 := rfl
  unfold execCsRestart
  rw [if_neg (by simp [turn]), repairs]
  dsimp only
  rw [engine, hn, ht, hu, spare]
  rfl

/-- Settles O25. -/
theorem restartRepairsAndRepeats : Obligations.RestartRepairsAndRepeats := by
  intro s c k d turn micro repairs n e t u x spare v w y
  have hn : s.owningSite c = n := rfl
  have ht : ((((s.correctCopy true k).repairCopy false k).bump (0x4010 + c.val / 8) 7).passCycles 1).reportFault
      { resource := 0x80 + c, level := 5, site := n, source := 1547 } = t := rfl
  have hu : t.discard n c = u := rfl
  clear_value u
  clear_value t n
  have passed := exec_csRestart true turn repairs hn ht hu spare
  have failed := exec_csRestart false turn repairs hn ht hu spare
  rw [if_pos rfl] at passed
  rw [if_neg (by decide)] at failed
  exact ⟨passed, failed⟩

end Sys2Proof.Machine
end

section
/-! SUPPORT. Commands that a host writes as numbers (R343, R344, R506), and those of a site (R29). -/

namespace Sys2Proof.Machine

/-! ### Numbers of one sub -/

/-- A sub that takes a number of up to 8 bytes with no limit but what its governing rules say. -/
structure PlainRow (i j : Nat) (d : SubRow) : Prop where
  row : findSub i j = some d
  right : writeRight i j = 0
  numeric : d.ty.numeric = true
  short : d.ty.bytes ≤ 8
  noTop : d.top = none
  noRange : d.range = none
  noMask : d.reserved = 0
  notRequest : i ≠ 0x2001

/-- A number of the length of its type passes the check of length. -/
theorem lengthStatus_numeric {cap i j n : Nat} {d : SubRow} (row : findSub i j = some d) (numeric : d.ty.numeric = true)
    (len : n = d.ty.bytes) : lengthStatus cap i j n = 0 := by
  unfold lengthStatus
  rw [row]
  dsimp only
  split
  · rename_i limit ht
    rw [ht] at numeric; cases numeric
  · rename_i limit ht
    rw [ht] at numeric; cases numeric
  · exact if_neg (not_not.mpr len)

section Number

variable {s t : State} {r : Req} {i j st : Nat} {d : SubRow} {b : List Byte} {v : Int}

/-- A number written to a plain sub, which passes its governing rules, is stored or carried out as `putNum` says. -/
theorem State.hostWrite_plain (h : s.Writes r i j) (p : PlainRow i j d) (len : b.length = d.ty.bytes) (holds : typeHolds d.ty b = true)
    (value : decodeNum d.ty.signed b = v) (cond : (s.taken r).condOk d.cond i j v.toNat = true) (legal : badReserved i j v.toNat = false)
    (inside : (s.taken r).inRange i j v = true) (agrees : ((s.taken r).stored i j v).consistent i j = true)
    (put : (s.taken r).putNum ((s.taken r).stored i j v) i j v = (st, t)) :
    s.hostWrite r i j b = t.answered r (writeAsk i j) { status := st } := by
  refine State.hostWrite_carried h p.right (len.trans_le p.short) p.notRequest ?_
  rw [State.writeValue_number p.row (lengthStatus_numeric p.row p.numeric len) holds p.numeric value cond
    (fun m hm => by rw [p.noTop] at hm; cases hm) (by rw [p.noMask]; exact Nat.and_zero _) legal
    (fun a z hr => by rw [p.noRange] at hr; cases hr) inside agrees, put]

end Number

/-- An unsigned number is read from its bytes. -/
theorem decodeNum_beBytes {n v : Nat} (h : v < 256 ^ n) : decodeNum false (beBytes n v) = (v : Int) := by
  unfold decodeNum
  rw [ofBytes_beBytes, Nat.mod_eq_of_lt h]
  rfl

/-! ### COMMAND of a site (R27, R29) -/

/-- The row of COMMAND. -/
def siteCommandRow : SubRow := { n := 2, ty := .u8, acc := .wo }

theorem siteCommandRow_plain (n : SiteId) : PlainRow (siteObj n 0) 2 siteCommandRow := by
  have rows : ∀ n : SiteId, findSub (siteObj n 0) 2 = some siteCommandRow ∧ writeRight (siteObj n 0) 2 = 0 := by decide +kernel
  exact ⟨(rows n).1, (rows n).2, rfl, by decide, rfl, rfl, rfl, by unfold siteObj; omega⟩

/-- COMMAND is limited by no range but its codes, and agrees with every other number. -/
theorem siteCommand_free (n : SiteId) (u : State) (code : Nat) :
    badReserved (siteObj n 0) 2 code = false ∧ u.inRange (siteObj n 0) 2 code = true ∧ u.consistent (siteObj n 0) 2 = true := by
  have low : 0x3400 ≤ siteObj n 0 := by unfold siteObj; omega
  have high : siteObj n 0 < 0x3800 := by unfold siteObj; omega
  have first : siteObj n 0 % 16 = 0 := by unfold siteObj; omega
  generalize siteObj n 0 = i at *
  refine ⟨?_, ?_, ?_⟩
  · unfold badReserved
    repeat rw [if_neg (by omega)]
  · unfold State.inRange
    rw [if_neg (by omega), if_pos ⟨low, high⟩, if_neg (by omega)]
  · unfold State.consistent
    repeat rw [if_neg (by omega)]

/-- COMMAND written is carried out by `siteCommand`. -/
theorem State.putNum_siteCommand (u t : State) (n : SiteId) (code : Nat) : u.putNum t (siteObj n 0) 2 (code : Int) = u.siteCommand n code := by
  have low : 0x3400 ≤ siteObj n 0 := by unfold siteObj; omega
  have high : siteObj n 0 < 0x3800 := by unfold siteObj; omega
  have first : siteObj n 0 % 16 = 0 := by unfold siteObj; omega
  have site : (siteObj n 0 - 0x3400) / 16 = n := by unfold siteObj; omega
  unfold State.putNum
  dsimp only
  rw [if_neg (by omega), if_neg (by omega), if_pos high, if_pos ⟨first, rfl⟩, site]
  rfl

/-- A site command that is carried out: its own effect, LAST_STATUS, and the response with its status. -/
theorem State.commandSite_carried {s t : State} {r : Req} {n : SiteId} {code st : Nat} {result : Nat × State}
    (h : s.Writes r (siteObj n 0) 2) (byte : code < 256)
    (does : (s.taken r).siteCommand n code = (result.1, result.2.setNat (siteObj n 0) 4 result.1)) (gives : result = (st, t)) :
    Host.Outcome.next (s.commandSite r n code)
      = (.next ((t.setNat (siteObj n 0) 4 st).answered r (writeAsk (siteObj n 0) 2) { status := st }) : Out) := by
  refine congrArg Host.Outcome.next ?_
  unfold State.commandSite
  refine State.hostWrite_plain h (siteCommandRow_plain n) (beBytes_length 1 code) rfl (decodeNum_beBytes (by simpa using byte)) rfl
    (siteCommand_free n s code).1 (siteCommand_free n _ code).2.1 (siteCommand_free n _ code).2.2 ?_
  rw [State.putNum_siteCommand, does, gives]

/-! ### The commands of a site, by the state it is in (R29, R30, R31, R36) -/

section Commands

variable {u : State} {n : Nat}

/-! #### LOAD -/

theorem State.cmdLoad_of_busy (h : (u.site n).st ≠ .free) : u.cmdLoad n = (0x0302, u) := if_pos h

/-- LOAD whose header is not valid. -/
theorem State.cmdLoad_of_bad_header (free : (u.site n).st = .free)
    (bad : (u.readWord (u.nreg (siteObj n 1) 2)).2.header n (u.readWord (u.nreg (siteObj n 1) 2)).1 = none) :
    u.cmdLoad n = (0x0303, (u.readWord (u.nreg (siteObj n 1) 2)).2) := by
  unfold State.cmdLoad
  rw [if_neg (not_not.mpr free)]
  dsimp only
  rw [bad]

/-- Whether the setup of a site passes LOAD's checks beyond the header (R30). -/
def State.setupFails (x : State) (n : Nat) : Prop :=
  x.pinMap n = 0 ∨ x.mapFree n = false ∨ x.nreg (siteObj n 1) 5 = 0 ∨ (x.spans n = true ∧ x.nreg (siteObj n 1) 6 ≠ x.nreg 0xA100 7)

theorem State.cmdLoad_of_bad_setup {e : Nat × Nat} (free : (u.site n).st = .free)
    (valid : (u.readWord (u.nreg (siteObj n 1) 2)).2.header n (u.readWord (u.nreg (siteObj n 1) 2)).1 = some e)
    (bad : (u.readWord (u.nreg (siteObj n 1) 2)).2.setupFails n) :
    u.cmdLoad n = (0x0303, (u.readWord (u.nreg (siteObj n 1) 2)).2) := by
  unfold State.cmdLoad
  rw [if_neg (not_not.mpr free)]
  dsimp only
  rw [valid]
  exact if_pos (bad.imp_right (Or.imp_left fun m => by rw [m]; rfl))

/-- The effect of LOAD. -/
def State.loadsWith (x : State) (n budget len : Nat) : State :=
  let v := ((((x.setNat (siteObj n 1) 7 budget).hashLoad n len).enter n .loaded).modSite n fun x => { x with length := len }).pinsOff n
  v.each (v.sitePins n) State.clearDecisions

theorem State.cmdLoad_of_good {budget len : Nat} (free : (u.site n).st = .free)
    (valid : (u.readWord (u.nreg (siteObj n 1) 2)).2.header n (u.readWord (u.nreg (siteObj n 1) 2)).1 = some (budget, len))
    (good : ¬(u.readWord (u.nreg (siteObj n 1) 2)).2.setupFails n) :
    u.cmdLoad n = (0, (u.readWord (u.nreg (siteObj n 1) 2)).2.loadsWith n budget len) := by
  unfold State.cmdLoad
  rw [if_neg (not_not.mpr free)]
  dsimp only
  rw [valid]
  refine (if_neg fun bad => good ?_).trans rfl
  exact bad.imp_right (Or.imp_left fun m => by simpa using m)

/-! #### ARM -/

/-- What ARM_CHECK refuses beyond the grade (R31). -/
def State.armFails (u : State) (n : Nat) : Prop :=
  u.serialArm n u.admittedSites ≠ 0 ∨ u.calibrating n = true ∨ u.reg 0xA100 5 = 1
    ∨ (u.spans n = true ∧ ((u.laneOf n).isNone = true ∨ u.reg 0xA100 1 = 0 ∨ u.nreg (siteObj n 1) 6 ≠ u.nreg 0xA100 7))

theorem State.cmdArm_of_other (h : (u.site n).st ≠ .loaded) : u.cmdArm n = (0x0302, u) := if_pos h

section Arm

variable (loaded : (u.site n).st = .loaded)
include loaded

theorem State.cmdArm_of_sleep {t : Nat} (sleep : u.start.sleepAsked = some t) : u.cmdArm n = (0x010A, u) := by
  unfold State.cmdArm
  rw [if_neg (not_not.mpr loaded), if_pos (by rw [sleep]; rfl)]

variable (awake : u.start.sleepAsked = none)
include awake

theorem State.cmdArm_of_grade (grade : u.serialArm n u.admittedSites = 0x0301) : u.cmdArm n = (0x0301, u) := by
  unfold State.cmdArm
  rw [if_neg (not_not.mpr loaded), if_neg (by rw [awake]; simp)]
  exact if_pos grade

variable (grade : u.serialArm n u.admittedSites ≠ 0x0301)
include grade

theorem State.cmdArm_of_check (bad : u.armFails n) : u.cmdArm n = (0x0305, u) := by
  unfold State.cmdArm
  rw [if_neg (not_not.mpr loaded), if_neg (by rw [awake]; simp)]
  dsimp only
  rw [if_neg grade]
  exact if_pos bad

variable (good : ¬u.armFails n)
include good

theorem State.cmdArm_of_store (store : u.store.cust = .opened ∨ u.store.cust = .closing) : u.cmdArm n = (0x0307, u) := by
  unfold State.cmdArm
  rw [if_neg (not_not.mpr loaded), if_neg (by rw [awake]; simp)]
  dsimp only
  rw [if_neg grade]
  exact (if_neg good).trans (if_pos store)

variable (opened : u.store.cust ≠ .opened) (closing : u.store.cust ≠ .closing)
include opened closing

theorem State.cmdArm_of_refusal {reason : Nat} (admits : u.admission n = .inr reason) :
    u.cmdArm n = (0x0304, (u.setNat 0x5001 7 reason).raise 1603) := by
  unfold State.cmdArm
  rw [if_neg (not_not.mpr loaded), if_neg (by rw [awake]; simp)]
  dsimp only
  rw [if_neg grade, admits]
  exact (if_neg good).trans (if_neg (not_or.mpr ⟨opened, closing⟩))

theorem State.cmdArm_of_admission {e : Nat} (admits : u.admission n = .inl e) :
    u.cmdArm n = (0, (if u.reg 0x2100 6 = 1 ∧ Table.get 255 u.inn.engines n < 16 ∧ e ≠ Table.get 255 u.inn.engines n then u.bump 0x5001 15
      else u).armOn n e) := by
  unfold State.cmdArm
  rw [if_neg (not_not.mpr loaded), if_neg (by rw [awake]; simp)]
  dsimp only
  rw [if_neg grade, admits]
  exact (if_neg good).trans (if_neg (not_or.mpr ⟨opened, closing⟩))

end Arm

/-! #### START, HALT and DISARM -/

theorem State.cmdStart_of_other (h : (u.site n).st ≠ .ready) : u.cmdStart n = (0x0302, u) := if_pos h

theorem State.cmdStart_of_unaligned (ready : (u.site n).st = .ready) (spans : u.spans n = true) (chain : u.reg 0xA100 5 ≠ 2) :
    u.cmdStart n = (0x0306, u) := (if_neg (not_not.mpr ready)).trans (if_pos ⟨spans, chain⟩)

theorem State.cmdStart_of_ready (ready : (u.site n).st = .ready) (chain : u.spans n = false ∨ u.reg 0xA100 5 = 2) :
    u.cmdStart n = (0, (if u.nreg (siteObj n 0) 3 ≠ 0 ∧ ofTime80 (u.nreg (siteObj n 0) 3) ≤ u.localTime then u.bump 0x8000 15
      else u).modSite n fun x => { x with startAsked := true }) := by
  refine (if_neg (not_not.mpr ready)).trans (if_neg ?_)
  rintro ⟨spans, unaligned⟩
  rcases chain with alone | aligned
  · rw [alone] at spans; cases spans
  · exact unaligned aligned

theorem State.cmdHalt_of_ready (ready : (u.site n).st = .ready) : u.cmdHalt n = (0, (u.haltSite n).dropPath n) := if_pos ready

theorem State.cmdHalt_of_other (other : (u.site n).st ≠ .ready) (ended : (u.site n).st.live = false ∨ (u.site n).sealing = true) :
    u.cmdHalt n = (0x0302, u) := (if_neg other).trans (if_pos (ended.imp_left fun l => by rw [l]; rfl))

theorem State.cmdHalt_of_live (live : (u.site n).st.live = true) (runs : (u.site n).sealing = false) :
    u.cmdHalt n = (0, u.modSite n fun x => { x with haltAsked := true }) := by
  refine (if_neg fun ready => ?_).trans (if_neg ?_)
  · rw [ready] at live; cases live
  · simp [live, runs]

theorem State.cmdDisarm_of_other (h : (u.site n).st ≠ .ready) : u.cmdDisarm n = (0x0302, u) := if_pos h

theorem State.cmdDisarm_of_ready (ready : (u.site n).st = .ready) :
    u.cmdDisarm n = (0, (((((u.releaseBudget n).cancelTasks n).cancelSiteMeas n).endCapture n).dropPath n).enter n .loaded |>.modSite n
      fun x => { x with startAsked := false, drain := none, sync := none, mtch := none, atResume := [] }) := if_neg (not_not.mpr ready)

/-! #### RESET, RELEASE and SEAL_HALTED -/

theorem State.cmdReset_of_other (h1 : (u.site n).st ≠ .halted) (h2 : (u.site n).st ≠ .faulted) (h3 : (u.site n).st ≠ .sealed) :
    u.cmdReset n = (0x0302, u) := if_pos ⟨h1, h2, h3⟩

theorem State.cmdReset_of_ended (ended : (u.site n).st = .halted ∨ (u.site n).st = .faulted ∨ (u.site n).st = .sealed) :
    u.cmdReset n = if (u.site n).playout then (0, u.modSite n fun x => { x with deferred := some false }) else (0, u.resetNow n) :=
  if_neg fun ⟨h1, h2, h3⟩ => by rcases ended with h | h | h <;> contradiction

theorem State.cmdRelease_of_other (h : (u.site n).st = .free ∨ (u.site n).st = .ready ∨ (u.site n).st.live = true) :
    u.cmdRelease n = (0x0302, u) := by
  refine if_pos ?_
  rcases h with h | h | h
  · rw [h]; decide
  · rw [h]; decide
  · refine ⟨?_, ?_, ?_, ?_⟩ <;> intro st <;> rw [st] at h <;> cases h

theorem State.cmdRelease_of_ended
    (ended : (u.site n).st = .loaded ∨ (u.site n).st = .halted ∨ (u.site n).st = .faulted ∨ (u.site n).st = .sealed) :
    u.cmdRelease n = if (u.site n).playout then (0, u.modSite n fun x => { x with deferred := some true }) else (0, u.releaseNow n) :=
  if_neg fun ⟨h1, h2, h3, h4⟩ => by rcases ended with h | h | h | h <;> contradiction

theorem State.cmdSealHalted_of_other (h : (u.site n).st ≠ .halted) : u.cmdSealHalted n = (0x0302, u) := if_pos h

theorem State.cmdSealHalted_of_halted (halted : (u.site n).st = .halted) :
    u.cmdSealHalted n = (0, ((u.enter n .sealed).disarmUnits n).modSite n fun x => { x with form := some (u.clk.frames + 1, 3) }) :=
  if_neg (not_not.mpr halted)

end Commands

/-! ### Each command of a site as exec carries it -/

section Carried

variable {s : State} {r : Req} {n : SiteId}

/-- What a site command leaves that answers `st` in the state `t`: LAST_STATUS and the response. -/
abbrev siteAnswered (r : Req) (n : SiteId) (st : Nat) (t : State) : Out :=
  .next ((t.setNat (siteObj n 0) 4 st).answered r (writeAsk (siteObj n 0) 2) { status := st })

variable (h : s.Writes r (siteObj n 0) 2)
include h

theorem exec_load {st : Nat} {t : State} (gives : (s.taken r).cmdLoad n = (st, t)) :
    exec (.load r n) s = siteAnswered r n st t := State.commandSite_carried h (by decide) rfl gives

theorem exec_arm {st : Nat} {t : State} (gives : (s.taken r).cmdArm n = (st, t)) :
    exec (.arm r n) s = siteAnswered r n st t := State.commandSite_carried h (by decide) rfl gives

theorem exec_start {st : Nat} {t : State} (gives : (s.taken r).cmdStart n = (st, t)) :
    exec (.start r n) s = siteAnswered r n st t := State.commandSite_carried h (by decide) rfl gives

theorem exec_haltCommand {st : Nat} {t : State} (gives : (s.taken r).cmdHalt n = (st, t)) :
    exec (.haltCommand r n) s = siteAnswered r n st t := State.commandSite_carried h (by decide) rfl gives

theorem exec_disarm {st : Nat} {t : State} (gives : (s.taken r).cmdDisarm n = (st, t)) :
    exec (.disarm r n) s = siteAnswered r n st t := State.commandSite_carried h (by decide) rfl gives

theorem exec_reset {st : Nat} {t : State} (gives : (s.taken r).cmdReset n = (st, t)) :
    exec (.reset r n) s = siteAnswered r n st t := State.commandSite_carried h (by decide) rfl gives

theorem exec_release {st : Nat} {t : State} (gives : (s.taken r).cmdRelease n = (st, t)) :
    exec (.release r n) s = siteAnswered r n st t := State.commandSite_carried h (by decide) rfl gives

theorem exec_sealHalted {st : Nat} {t : State} (gives : (s.taken r).cmdSealHalted n = (st, t)) :
    exec (.sealHalted r n) s = siteAnswered r n st t := State.commandSite_carried h (by decide) rfl gives

end Carried

/-! ### The obligation -/

/-- ARM's checks, from the conditions under which it is carried out. -/
theorem State.armFails_not {u : State} {n : Nat} (serial : u.serialArm n u.admittedSites = 0) (calibrating : u.calibrating n = false)
    (chain : u.reg 0xA100 5 ≠ 1)
    (lane : u.spans n = false ∨ (u.laneOf n).isSome = true ∧ u.reg 0xA100 1 ≠ 0 ∧ u.nreg (siteObj n 1) 6 = u.nreg 0xA100 7) : ¬u.armFails n := by
  rintro (bad | bad | bad | ⟨spans, bad⟩)
  · exact bad serial
  · rw [calibrating] at bad; cases bad
  · exact chain bad
  · rcases lane with alone | ⟨placed, aligned, same⟩
    · rw [alone] at spans; cases spans
    · rcases bad with bad | bad | bad
      · rw [Option.isNone_iff_eq_none] at bad
        rw [bad] at placed; cases placed
      · exact aligned bad
      · exact bad same

/-- A site that passes ARM's checks is not refused for its grade. -/
theorem State.serial_ne_grade {u : State} {n : Nat} (good : ¬u.armFails n) : u.serialArm n u.admittedSites ≠ 0x0301 := fun grade =>
  good (.inl (by rw [grade]; decide))

/-- The setup checks of LOAD, from the conditions under which it is carried out. -/
theorem State.setupFails_not {x : State} {n : Nat} (pins : x.pinMap n ≠ 0) (free : x.mapFree n = true) (sub : x.nreg (siteObj n 1) 5 ≠ 0)
    (chain : x.spans n = false ∨ x.nreg (siteObj n 1) 6 = x.nreg 0xA100 7) : ¬x.setupFails n := by
  rintro (bad | bad | bad | ⟨spans, bad⟩)
  · exact pins bad
  · rw [free] at bad; cases bad
  · exact sub bad
  · rcases chain with alone | same
    · rw [alone] at spans; cases spans
    · exact bad same

/-- RESET in a state that it ends. -/
theorem exec_reset_ended {s : State} {r : Req} {n : SiteId} (h : s.Writes r (siteObj n 0) 2)
    (ended : ((s.taken r).site n).st = .halted ∨ ((s.taken r).site n).st = .faulted ∨ ((s.taken r).site n).st = .sealed) :
    (((s.taken r).site n).playout = false → exec (.reset r n) s = siteAnswered r n 0 ((s.taken r).resetNow n))
    ∧ (((s.taken r).site n).playout = true →
        exec (.reset r n) s = siteAnswered r n 0 ((s.taken r).modSite n fun x => { x with deferred := some false })) := by
  have gives := State.cmdReset_of_ended ended
  constructor <;> intro playout <;> rw [playout] at gives <;> exact exec_reset h gives

/-- RELEASE in a state that it ends. -/
theorem exec_release_ended {s : State} {r : Req} {n : SiteId} (h : s.Writes r (siteObj n 0) 2)
    (ended : ((s.taken r).site n).st = .loaded ∨ ((s.taken r).site n).st = .halted ∨ ((s.taken r).site n).st = .faulted
      ∨ ((s.taken r).site n).st = .sealed) :
    (((s.taken r).site n).playout = false → exec (.release r n) s = siteAnswered r n 0 ((s.taken r).releaseNow n))
    ∧ (((s.taken r).site n).playout = true →
        exec (.release r n) s = siteAnswered r n 0 ((s.taken r).modSite n fun x => { x with deferred := some true })) := by
  have gives := State.cmdRelease_of_ended ended
  constructor <;> intro playout <;> rw [playout] at gives <;> exact exec_release h gives

/-- Settles O26: a site command is a write of its COMMAND object that R506 lets through; what it answers is given by its lemma for the state the site
is in. The order of ARM's checks is log 28's, HALT at once from READY log 29's, the lists of LOAD's and ARM's checks are logs 145 and 146. -/
theorem siteCommands : Obligations.SiteCommands := by
  unfold Obligations.SiteCommands
  refine ⟨fun s r n => ?_, fun s r n => ?_⟩
  · intro q u done h
    refine ⟨fun budget len free valid pins mapped sub chain => ?_, fun e loaded awake serial calibrating chain lane opened closing admits => ?_,
      fun ready chain => ?_, fun ready => ?_, fun live runs => ?_, exec_reset_ended h, exec_release_ended h, fun halted => ?_, fun ready => ?_⟩
    · refine (exec_load h (State.cmdLoad_of_good free valid (State.setupFails_not pins mapped sub chain))).trans ?_
      unfold State.loadsWith
      rfl
    · exact exec_arm h (State.cmdArm_of_admission loaded awake (by rw [serial]; decide) (State.armFails_not serial calibrating chain lane)
        opened closing admits)
    · exact exec_start h (State.cmdStart_of_ready ready chain)
    · exact exec_haltCommand h (State.cmdHalt_of_ready ready)
    · exact exec_haltCommand h (State.cmdHalt_of_live live runs)
    · exact exec_sealHalted h (State.cmdSealHalted_of_halted halted)
    · exact exec_disarm h (State.cmdDisarm_of_ready ready)
  · intro q u with_ refused h
    refine ⟨fun busy => ?_, fun free => ⟨fun bad => ?_, fun e valid bad => ?_⟩, fun other => ?_,
      fun loaded => ⟨fun t asleep => ?_, fun awake => ⟨fun grade => ?_, fun grade clash => ?_, fun good store => ?_,
        fun good opened closing reason admits => ?_⟩⟩,
      fun other => ⟨?_, ?_⟩, fun ready spans chain => ?_, fun other ended => ?_, fun other => ?_, fun h1 h2 h3 => ?_, fun other => ?_⟩
    · exact exec_load h (State.cmdLoad_of_busy busy)
    · exact exec_load h (State.cmdLoad_of_bad_header free bad)
    · exact exec_load h (State.cmdLoad_of_bad_setup free valid bad)
    · exact exec_arm h (State.cmdArm_of_other other)
    · exact exec_arm h (State.cmdArm_of_sleep loaded asleep)
    · exact exec_arm h (State.cmdArm_of_grade loaded awake grade)
    · exact exec_arm h (State.cmdArm_of_check loaded awake grade clash)
    · exact exec_arm h (State.cmdArm_of_store loaded awake (State.serial_ne_grade good) good store)
    · exact exec_arm h (State.cmdArm_of_refusal loaded awake (State.serial_ne_grade good) good opened closing admits)
    · exact exec_start h (State.cmdStart_of_other other)
    · exact exec_disarm h (State.cmdDisarm_of_other other)
    · exact exec_start h (State.cmdStart_of_unaligned ready spans chain)
    · exact exec_haltCommand h (State.cmdHalt_of_other other ended)
    · exact exec_sealHalted h (State.cmdSealHalted_of_other other)
    · exact exec_reset h (State.cmdReset_of_other h1 h2 h3)
    · exact exec_release h (State.cmdRelease_of_other other)

end Sys2Proof.Machine
end

section
/-! SUPPORT. Rows that no cross-check touches, and the commands of the customer half, of a monitor, of a trigger unit and of the link. -/

namespace Sys2Proof.Machine

/-! ### Rows that no cross-check touches -/

/-- A plain sub whose values no further range and no other object limits. -/
structure FreeRow (i j : Nat) (d : SubRow) : Prop extends PlainRow i j d where
  inside : ∀ (s : State) (v : Int), s.inRange i j v = true
  agrees : ∀ s : State, s.consistent i j = true

section Number

variable {s t : State} {r : Req} {i j st : Nat} {d : SubRow} {b : List Byte} {v : Int}

/-- A number written to such a sub in its write condition, no reserved code, is stored or carried out as `putNum` says. -/
theorem State.hostWrite_free (h : s.Writes r i j) (p : FreeRow i j d) (len : b.length = d.ty.bytes) (holds : typeHolds d.ty b = true)
    (value : decodeNum d.ty.signed b = v) (cond : (s.taken r).condOk d.cond i j v.toNat = true) (legal : badReserved i j v.toNat = false)
    (put : (s.taken r).putNum ((s.taken r).stored i j v) i j v = (st, t)) :
    s.hostWrite r i j b = t.answered r (writeAsk i j) { status := st } :=
  State.hostWrite_plain h p.toPlainRow len holds value cond legal (p.inside _ v) (p.agrees _) put

/-- A one-byte command of a constant code. -/
theorem State.hostWrite_code {code : Nat} (h : s.Writes r i j) (p : FreeRow i j d) (one : d.ty = .u8) (byte : code < 256)
    (cond : (s.taken r).condOk d.cond i j code = true) (legal : badReserved i j code = false)
    (put : (s.taken r).putNum ((s.taken r).stored i j code) i j code = (st, t)) :
    s.hostWrite r i j (beBytes 1 code) = t.answered r (writeAsk i j) { status := st } := by
  refine State.hostWrite_free (v := code) h p (by rw [one]; rfl) (by rw [one]; rfl) ?_ cond legal put
  rw [one]
  exact decodeNum_beBytes (by simpa using byte)

end Number

/-! ### CUST_COMMAND (R90) -/

theorem custCommand_free : FreeRow 0x4000 4 { n := 4, ty := .u8, acc := .wo } where
  row := by decide +kernel
  right := by decide +kernel
  numeric := rfl
  short := by decide
  noTop := rfl
  noRange := rfl
  noMask := rfl
  notRequest := by decide
  inside _ _ := rfl
  agrees _ := rfl

/-- A customer half's command that is carried out. -/
theorem State.custCommand_carried {s t : State} {r : Req} {code st : Nat} (h : s.Writes r 0x4000 4) (byte : code < 256)
    (legal : badReserved 0x4000 4 code = false) (gives : (s.taken r).custCommand code = (st, t)) :
    s.hostWrite r 0x4000 4 (beBytes 1 code) = t.answered r (writeAsk 0x4000 4) { status := st } :=
  State.hostWrite_code h custCommand_free rfl byte rfl legal gives

theorem State.custOpen_of_open {u : State} (state : u.store.cust = .empty ∨ u.store.cust = .closed) (calm : u.anyBusy = false) :
    u.custOpen = (0, { u with store := { u.store with cust := .opened } }) := by
  refine if_neg ?_
  rw [calm]
  rintro (⟨notEmpty, notClosed⟩ | bad)
  · exact state.elim notEmpty notClosed
  · cases bad

/-- CUST_CLOSE, from the state `v` that reading and mending the table leaves (R91). -/
theorem State.custClose_of_opened {u v : State} (mends : (u.each (List.range 32) fun v n => v.scrubEntry (custKey n)) = v)
    (state : u.store.cust = .opened) (ok : (List.range 32).all v.store.entryOk = true) :
    u.custClose = (0, { v with store := { v.store with cust := .closing } }) := by
  unfold State.custClose
  rw [if_neg (not_not.mpr state)]
  dsimp only
  rw [mends]
  exact if_neg (by rw [ok]; decide)

theorem State.custClear_of_full {u : State} (state : u.store.cust = .opened ∨ u.store.cust = .closed) (calm : u.anyBusy = false) :
    u.custClear = (0, u.custEmpty) := by
  refine if_neg ?_
  rw [calm]
  rintro (⟨notOpened, notClosed⟩ | bad)
  · exact state.elim notOpened notClosed
  · cases bad

/-! ### MON_ENABLE (R201) -/

theorem monEnable_free (n : PinId) : FreeRow (pinObj n 5) 1 { n := 1, ty := .bool, acc := .rw } := by
  have rows : ∀ n : PinId, findSub (pinObj n 5) 1 = some { n := 1, ty := .bool, acc := .rw } ∧ writeRight (pinObj n 5) 1 = 0 := by
    decide +kernel
  have place : ∃ p, p < 64 ∧ pinObj n 5 = 0x3000 + 16 * p + 5 := ⟨n, n.isLt, rfl⟩
  obtain ⟨p, low, place⟩ := place
  refine { row := (rows n).1, right := (rows n).2, numeric := rfl, short := by decide, noTop := rfl, noRange := rfl, noMask := rfl,
           notRequest := by omega, inside := fun s v => ?_, agrees := fun s => ?_ }
  · unfold State.inRange
    repeat rw [if_neg (by omega)]
  · unfold State.consistent
    have kind : pinObj n 5 % 16 = 5 := by omega
    rw [if_neg (by omega), if_pos (by omega), kind]
    rfl

theorem monEnable_legal (n : PinId) : badReserved (pinObj n 5) 1 1 = false := by
  have place : ∃ p, p < 64 ∧ pinObj n 5 = 0x3000 + 16 * p + 5 := ⟨n, n.isLt, rfl⟩
  obtain ⟨p, low, place⟩ := place
  unfold badReserved
  repeat rw [if_neg (by omega)]

/-- 1 written to MON_ENABLE restarts the monitor. -/
theorem State.putNum_monEnable (u t : State) (n : PinId) : u.putNum t (pinObj n 5) 1 1 = (0, t.monEnable n true) := by
  have low := n.isLt
  have kind : pinObj n 5 % 16 = 5 := by unfold pinObj; omega
  have pin : (pinObj n 5 - 0x3000) / 16 = n := by unfold pinObj; omega
  unfold State.putNum
  dsimp only
  rw [if_neg (by unfold pinObj; omega), if_pos (by unfold pinObj; omega), kind, pin]
  rfl

/-! ### COMMAND of a trigger unit (R221, R226) -/

theorem unitCommand_free (k : UnitId) : FreeRow (tuObj k) 2 { n := 2, ty := .u8, acc := .wo } := by
  have rows : ∀ k : UnitId, findSub (tuObj k) 2 = some { n := 2, ty := .u8, acc := .wo } ∧ writeRight (tuObj k) 2 = 0 := by decide +kernel
  have place : ∃ p, p < 16 ∧ tuObj k = 0x7300 + p := ⟨k, k.isLt, rfl⟩
  obtain ⟨p, low, place⟩ := place
  refine { row := (rows k).1, right := (rows k).2, numeric := rfl, short := by decide, noTop := rfl, noRange := rfl, noMask := rfl,
           notRequest := by omega, inside := fun s v => ?_, agrees := fun s => ?_ }
  · unfold State.inRange
    repeat rw [if_neg (by omega)]
    rw [if_pos (by omega)]
    rfl
  · unfold State.consistent
    repeat rw [if_neg (by omega)]

theorem unitCommand_legal (k : UnitId) {code : Nat} (low : code ≠ 0) (high : code ≤ 3) : badReserved (tuObj k) 2 code = false := by
  have place : ∃ p, p < 16 ∧ tuObj k = 0x7300 + p := ⟨k, k.isLt, rfl⟩
  obtain ⟨p, below, place⟩ := place
  unfold badReserved
  rw [if_neg (by omega), if_neg (by omega), if_neg (by omega), if_pos (by omega), if_pos rfl]
  simp only [decide_eq_false_iff_not]
  omega

theorem State.putNum_unitCommand (u t : State) (k : UnitId) (code : Nat) :
    u.putNum t (tuObj k) 2 (code : Int) = (0, u.unitCommand k code) := by
  have place : ∃ p, p < 16 ∧ tuObj k = 0x7300 + p := ⟨k, k.isLt, rfl⟩
  obtain ⟨p, below, place⟩ := place
  have unit : tuObj k - 0x7300 = k := by unfold tuObj; omega
  unfold State.putNum
  dsimp only
  rw [if_neg (by omega), if_neg (by omega), if_neg (by omega), if_neg (by omega), if_neg (by omega), if_pos (by omega), unit]
  rfl

/-- A command of a trigger unit that is carried out. -/
theorem State.unitCommand_carried {s t : State} {r : Req} {k : UnitId} {code : Nat} (h : s.Writes r (tuObj k) 2) (low : code ≠ 0)
    (high : code ≤ 3) (gives : (s.taken r).unitCommand k code = t) :
    s.hostWrite r (tuObj k) 2 (beBytes 1 code) = t.answered r (writeAsk (tuObj k) 2) {} := by
  refine State.hostWrite_code h (unitCommand_free k) rfl (by omega) rfl (unitCommand_legal k low high) ?_
  rw [State.putNum_unitCommand, gives]

/-! ### HOST_TRIGGER (R240) -/

theorem hostTrigger_free (n : SiteId) : FreeRow (capStat n) 11 { n := 11, ty := .u64, acc := .wo } := by
  have rows : ∀ n : SiteId, findSub (capStat n) 11 = some { n := 11, ty := .u64, acc := .wo } ∧ writeRight (capStat n) 11 = 0 := by
    decide +kernel
  have place : ∃ p, p < 64 ∧ capStat n = 0x7200 + p := ⟨n, n.isLt, rfl⟩
  obtain ⟨p, low, place⟩ := place
  refine { row := (rows n).1, right := (rows n).2, numeric := rfl, short := by decide, noTop := rfl, noRange := rfl, noMask := rfl,
           notRequest := by omega, inside := fun s v => ?_, agrees := fun s => ?_ }
  · unfold State.inRange
    repeat rw [if_neg (by omega)]
  · unfold State.consistent
    repeat rw [if_neg (by omega)]

theorem hostTrigger_legal (n : SiteId) (k : Nat) : badReserved (capStat n) 11 k = false := by
  have place : ∃ p, p < 64 ∧ capStat n = 0x7200 + p := ⟨n, n.isLt, rfl⟩
  obtain ⟨p, low, place⟩ := place
  unfold badReserved
  repeat rw [if_neg (by omega)]

theorem State.putNum_hostTrigger (u t : State) (n : SiteId) (k : Nat) : u.putNum t (capStat n) 11 (k : Int) = u.hostTrigger n k := by
  have low := n.isLt
  have site : capStat n - 0x7200 = n := by unfold capStat; omega
  have place : ∃ p, p < 64 ∧ capStat n = 0x7200 + p := ⟨n, n.isLt, rfl⟩
  obtain ⟨p, below, place⟩ := place
  unfold State.putNum
  dsimp only
  rw [if_neg (by omega), if_neg (by omega), if_neg (by omega), if_neg (by omega), if_pos (by omega), site]
  rfl

theorem State.hostTrigger_of_pre {u : State} {n k : Nat} (on : u.reg 0x2100 4 = 1) (runs : (u.cap n).st ≠ .idle)
    (pre : (u.cap n).phase = .pre) (low : (u.cap n).preFrom ≤ k) (high : k < (u.cap n).next)
    (recent : (u.cap n).next - 1 - k ≤ u.nreg (capObj n) 11) : u.hostTrigger n k = (0, u.setCap n { u.cap n with hostAt := some k }) := by
  unfold State.hostTrigger
  exact (if_neg (not_not.mpr on)).trans (if_pos ⟨runs, pre, low, high, recent⟩)

/-! ### The obligation -/

/-- Settles O27: each command is a write that R506 lets through, whose effect is its lemma's for the state of its unit. -/
theorem unitCommands : Obligations.UnitCommands := by
  unfold Obligations.UnitCommands
  intro s r u
  refine ⟨fun h => ⟨fun state calm => ?_, fun state => ?_, fun state calm => ?_⟩, fun n h => ?_, fun k h => ⟨?_, ?_, ?_⟩,
    fun n k fits h on runs pre low high recent => ?_⟩
  · exact congrArg Host.Outcome.next (State.custCommand_carried (code := 1) h (by decide) (by decide) (State.custOpen_of_open state calm))
  · intro v ok
    have mends : (u.each (List.range 32) fun v n => v.scrubEntry (custKey n)) = v := rfl
    clear_value v
    exact congrArg Host.Outcome.next (State.custCommand_carried (code := 2) h (by decide) (by decide) (State.custClose_of_opened mends state ok))
  · exact congrArg Host.Outcome.next (State.custCommand_carried (code := 3) h (by decide) (by decide) (State.custClear_of_full state calm))
  · refine congrArg Host.Outcome.next ?_
    exact State.hostWrite_free h (monEnable_free n) rfl rfl rfl rfl (monEnable_legal n) (State.putNum_monEnable _ _ n)
  · exact congrArg Host.Outcome.next (State.unitCommand_carried (code := 1) h (by decide) (by decide) rfl)
  · exact congrArg Host.Outcome.next (State.unitCommand_carried (code := 2) h (by decide) (by decide) rfl)
  · exact congrArg Host.Outcome.next (State.unitCommand_carried (code := 3) h (by decide) (by decide) rfl)
  · refine congrArg Host.Outcome.next ?_
    refine State.hostWrite_free h (hostTrigger_free n) (beBytes_length 8 k) rfl (decodeNum_beBytes (by simpa using fits)) rfl
      (hostTrigger_legal n k) ?_
    rw [State.putNum_hostTrigger, State.hostTrigger_of_pre on runs pre low high recent]

end Sys2Proof.Machine
end

section
/-! SUPPORT. The commands of the link and of the chain, the codes of REQUEST, and values written whole in one segment. -/

namespace Sys2Proof.Machine

/-! ### RESTORE, WIDTH_CHOICE and ALIGN (R300, R301, R312) -/

theorem restore_free : FreeRow 0xA000 17 { n := 17, ty := .u8, acc := .wo, cond := .noBusySite } where
  row := by decide +kernel
  right := by decide +kernel
  numeric := rfl
  short := by decide
  noTop := rfl
  noRange := rfl
  noMask := rfl
  notRequest := by decide
  inside _ _ := rfl
  agrees _ := rfl

theorem widthChoice_free : FreeRow 0xA000 15 { n := 15, ty := .u8, acc := .wo } where
  row := by decide +kernel
  right := by decide +kernel
  numeric := rfl
  short := by decide
  noTop := rfl
  noRange := rfl
  noMask := rfl
  notRequest := by decide
  inside _ _ := rfl
  agrees _ := rfl

theorem align_free : FreeRow 0xA100 3 { n := 3, ty := .u8, acc := .wo, cond := .convoyHead } where
  row := by decide +kernel
  right := by decide +kernel
  numeric := rfl
  short := by decide
  noTop := rfl
  noRange := rfl
  noMask := rfl
  notRequest := by decide
  inside _ _ := rfl
  agrees _ := rfl

/-- A choice of a width that hardware would allow, within its deadline, decides the degradation that waits for it. -/
theorem State.widthByHost_of_choice {u : State} {w d : Nat} {f : FaultRec} (asked : u.sl.choiceBy = some d) (inTime : u.clk.frames ≤ d)
    (width : w = 4 ∨ w = 8 ∨ w = 12 ∨ w = 16) (allowed : w ≤ hwWidth (u.nreg 0xA000 3) u.rxFailed) (current : u.handler.current = some f)
    (link : f.resource = 3) (level : f.level = 3) :
    u.widthByHost w = (0, { u with sl := { u.sl with chosen := some w, choiceBy := none } }.decideCurrent f 3) := by
  have listed : ([4, 8, 12, 16] : List Nat).contains w = true := by
    rcases width with h | h | h | h <;> rw [h] <;> rfl
  have good : (! ([4, 8, 12, 16] : List Nat).contains w || decide (w > hwWidth (u.nreg 0xA000 3) u.rxFailed)) = false := by
    rw [listed, decide_eq_false (Nat.not_lt.mpr allowed)]
    rfl
  unfold State.widthByHost
  rw [asked]
  dsimp only
  rw [good, current]
  exact (if_neg (Nat.not_lt.mpr inTime)).trans (if_pos ⟨link, level⟩)

theorem State.startAlign_of_calm {u : State} (calm : u.alignBusy = false) :
    u.startAlign = { (u.setNat 0xA100 5 1).setNat 0xA100 6 0 with convoy := { u.convoy with cmd := some (cmdWord 1 false 1) } } := by
  unfold State.startAlign
  rw [calm]
  rfl

/-- Settles O28: each command is a write that R506 lets through in its condition (log 81, 82). -/
theorem linkCommands : Obligations.LinkCommands := by
  unfold Obligations.LinkCommands
  intro s r u
  refine ⟨fun h calm => ?_, fun w d f h asked inTime width allowed current link level => ?_, fun h head calm => ?_⟩
  · refine congrArg Host.Outcome.next (State.hostWrite_code (code := 1) h restore_free rfl (by decide) ?_ (by decide) rfl)
    show (!u.anyBusy) = true
    rw [calm]; rfl
  · refine congrArg Host.Outcome.next (State.hostWrite_code (code := w) h widthChoice_free rfl (by omega) rfl rfl ?_)
    exact State.widthByHost_of_choice asked inTime width allowed current link level
  · refine congrArg Host.Outcome.next (State.hostWrite_code (code := 1) h align_free rfl (by decide) ?_ (by decide)
      (congrArg (Prod.mk 0) (State.startAlign_of_calm calm)))
    show (u.reg 0xA100 1 == 1) = true
    rw [head]; rfl

/-! ### REQUEST (R361) -/

/-- A code of REQUEST in a state that accepts it: its response leaves, then it takes effect. -/
theorem State.request_carried {s : State} {r : Req} {code : Nat} (h : s.Writes r 0x2001 1) (low : code ≠ 0) (high : code ≤ 4)
    (ok : (s.taken r).requestOk code = true) :
    s.hostWrite r 0x2001 1 (beBytes 1 code)
      = ((s.taken r).answered r (writeAsk 0x2001 1) { after := code }).request code := by
  have spelt : ofBytes (beBytes 1 code) = code := by
    rw [ofBytes_beBytes]
    exact Nat.mod_eq_of_lt (by omega)
  have body : State.writeBody r 0x2001 1 (beBytes 1 code) (s.taken r) = ({ after := code }, s.taken r) := by
    unfold State.writeBody
    rw [if_neg (by decide), h.free, if_neg (by decide), if_neg (by rw [beBytes_length]; decide)]
    unfold State.putBody State.requestBody
    rw [if_pos rfl, if_neg (by rw [beBytes_length]; decide), spelt, if_neg (by omega), ok, if_neg (by decide)]
  show s.serve r (writeAsk 0x2001 1) _ = _
  rw [State.serve_carried_after h.carries (by rw [body]; exact low), body]

/-- The mode of a request's state is the one it was taken in. -/
theorem State.answered_mode {u : State} {r : Req} {q : Ask} {a : Answer} : (u.answered r q a).mode = u.mode :=
  ((State.keep_keeps (k := (· ≠ .device)) (by simp) (State.sendReply_keeps (by simp) Keeps.refl)).parts .device (by simp)).1

section Effects

variable {v : State}

theorem State.request_of_service (mode : v.mode = .service) : v.request 1 = v.beginWarm 5 := by
  unfold State.request
  rw [mode]
  rfl

theorem State.request_of_warmStart (mode : v.mode = .warmStart) : v.request 1 = v.beginWarm v.start.type := by
  unfold State.request
  rw [mode]
  rfl

theorem State.request_of_coldStart (mode : v.mode = .coldStart) : v.request 1 = v.coldFrom v.start.type 0 := by
  unfold State.request
  rw [mode]
  rfl

end Effects

/-- Settles O29: each code answers and then takes effect as the mode has it; the TYPE and FAILED_COLD of a start asked for anew follow R361 and R474
(log 96). -/
theorem startRequests : Obligations.StartRequests := by
  unfold Obligations.StartRequests
  intro s r h done
  refine ⟨?_, fun mode => ?_, fun mode => ?_, fun mode => ?_, fun idle awake => ?_, fun mode still => ?_⟩
  · exact congrArg Host.Outcome.next (State.request_carried (code := 2) h (by decide) (by decide) rfl)
  · refine congrArg Host.Outcome.next ((State.request_carried (code := 1) h (by decide) (by decide) ?_).trans ?_)
    · unfold State.requestOk; rw [mode]; rfl
    · exact State.request_of_service (State.answered_mode.trans mode)
  · refine congrArg Host.Outcome.next ((State.request_carried (code := 1) h (by decide) (by decide) ?_).trans ?_)
    · unfold State.requestOk; rw [mode]; rfl
    · exact State.request_of_warmStart (State.answered_mode.trans mode)
  · refine congrArg Host.Outcome.next ((State.request_carried (code := 1) h (by decide) (by decide) ?_).trans ?_)
    · unfold State.requestOk; rw [mode]; rfl
    · exact State.request_of_coldStart (State.answered_mode.trans mode)
  · refine congrArg Host.Outcome.next ((State.request_carried (code := 3) h (by decide) (by decide) idle).trans (if_neg ?_))
    show ¬(done 3).start.sleepAsked.isSome = true
    rw [awake]; decide
  · refine congrArg Host.Outcome.next ((State.request_carried (code := 4) h (by decide) (by decide) ?_).trans (if_pos still))
    unfold State.requestOk; rw [mode]; rfl

/-! ### A value written whole (R352) -/

/-- The state that a transfer opened on index:sub acts on: what was remembered of the object is forgotten. -/
abbrev State.wholeFrom (u : State) (r : Req) (i j : Nat) : State :=
  ((u.forget i j (some r.sa)).forget i j none).closeTransfer i j

/-- A segment that is the whole value is written at once. -/
theorem State.hostWhole_carried {s : State} {r : Req} {i j st : Nat} {b : List Byte} {t : State}
    (h : s.Carries r { service := 3, index := i, sub := j }) (right : writeRight i j = 0)
    (noTransfer : (s.taken r).transferOn i j = none) (noUpload : (s.taken r).uploadOn i j = none) (room : (s.taken r).openCount < 8)
    (len : lengthStatus (domainLimit ((s.taken r).levelOf r.src)) i j b.length = 0) (notRequest : i ≠ 0x2001)
    (writes : ((s.taken r).wholeFrom r i j).writeValue (domainLimit ((s.taken r).levelOf r.src)) i j b = (st, t)) :
    s.hostWhole r i j b = t.answered r { service := 3, index := i, sub := j } { status := st } := by
  have body : State.segmentBody r i j 0 b.length true b (s.taken r) = ({ status := st }, t) := by
    generalize s.taken r = u at *
    have order : segmentOrder 0 0 b.length b.length true = false := by simp [segmentOrder]
    unfold State.segmentBody
    dsimp only
    rw [if_neg (not_not.mpr right), noTransfer]
    dsimp only
    have closed : ((u.forget i j (some r.sa)).uploadOn i j).isSome = false := by
      show (u.uploadOn i j).isSome = false
      rw [noUpload]; rfl
    rw [closed, order, len]
    have few : ¬(u.forget i j (some r.sa)).openCount ≥ 8 := Nat.not_le.mpr room
    rw [if_neg (by decide), if_neg (by omega), if_neg (by decide), if_neg few, if_neg (by decide)]
    unfold State.takeSegment
    dsimp only
    rw [if_pos rfl, List.nil_append]
    unfold State.putBody
    rw [if_neg notRequest]
    dsimp only
    rw [writes]
  show s.serve r { service := 3, index := i, sub := j } _ = _
  rw [State.serve_carried h (by rw [body]), body]

end Sys2Proof.Machine
end

section
/-! SUPPORT. The commands of network time, of calibration, of the Passport, of faults and of events. -/

namespace Sys2Proof.Machine

/-! ### Network time (R368, R376, R379) -/

theorem offsetAdj_free : FreeRow 0x8010 2 { n := 2, ty := .i64, acc := .wo, cond := .hostServo } where
  row := by decide +kernel
  right := by decide +kernel
  numeric := rfl
  short := by decide
  noTop := rfl
  noRange := rfl
  noMask := rfl
  notRequest := by decide
  inside _ _ := rfl
  agrees _ := rfl

theorem rateSet_free : FreeRow 0x8010 3 { n := 3, ty := .i64, acc := .wo, cond := .hostServo } where
  row := by decide +kernel
  right := by decide +kernel
  numeric := rfl
  short := by decide
  noTop := rfl
  noRange := rfl
  noMask := rfl
  notRequest := by decide
  inside _ _ := rfl
  agrees _ := rfl

/-- A signed number of 8 bytes is read from them. -/
theorem decodeNum_i64 {v : Int} (low : -(2 ^ 63) ≤ v) (high : v < 2 ^ 63) : decodeNum true (encodeInt 8 v) = v :=
  decodeNum_encodeInt 8 v (by omega) (by omega)

/-- A rate word is kept within its range, a clamp counted (R367). -/
theorem State.clampRate_eq (u : State) (v : Int) :
    u.clampRate v = (max (-rateMax) (min rateMax v), if v > rateMax ∨ v < -rateMax then u.bump 0x8000 14 else u) := by
  have pos : rateMax = 281474976710 := rfl
  unfold State.clampRate
  by_cases high : v > rateMax
  · rw [if_pos high, if_pos (.inl high)]
    congr 1
    omega
  · by_cases low : v < -rateMax
    · rw [if_neg high, if_pos low, if_pos (.inr low)]
      congr 1
      omega
    · rw [if_neg high, if_neg low, if_neg (not_or.mpr ⟨high, low⟩)]
      congr 1
      omega

theorem State.rateSet_eq (u : State) (v : Int) :
    u.rateSet v = (if v > rateMax ∨ v < -rateMax then u.bump 0x8000 14 else u).modTime fun x =>
      { x with nextRate := some (max (-rateMax) (min rateMax v)), hostAt := some u.clk.frames } := by
  unfold State.rateSet
  rw [State.clampRate_eq]
  rfl

theorem State.offsetAdj_eq (u : State) (d : Int) :
    u.offsetAdj d = (u.askPhase d).modTime fun x => { x with hostAt := some u.clk.frames } := rfl

/-- The sub of a time set, which one segment writes. -/
def timeSetRow : SubRow := { n := 14, ty := .time80, acc := .wo, cond := .timeHost }

theorem timeSet_found : findSub 0x8001 14 = some timeSetRow := by decide +kernel

/-- A time of R368 written to TIME_SET while the host sets the time. -/
theorem State.writeValue_timeSet {u : State} {cap t : Nat} (fits : t < 2 ^ 80) (nanos : t % 2 ^ 32 < 1000000000) (host : u.reg 0x8001 1 = 2) :
    u.writeValue cap 0x8001 14 (beBytes 10 t) = (0, u.timeSet t) := by
  have fits : t < 256 ^ 10 := fits
  have spelt : ofBytes (beBytes 10 t) = t := by rw [ofBytes_beBytes, Nat.mod_eq_of_lt fits]
  have value : decodeNum timeSetRow.ty.signed (beBytes 10 t) = (t : Int) := decodeNum_beBytes fits
  refine (State.writeValue_number timeSet_found (lengthStatus_numeric timeSet_found rfl (beBytes_length 10 t)) ?_ rfl value ?_
    (fun m h => by cases h) (Nat.and_zero _) rfl (fun a z h => by cases h) rfl rfl).trans rfl
  · show decide (ofBytes (beBytes 10 t) % 2 ^ 32 < 1000000000) = true
    rw [spelt]
    exact decide_eq_true nanos
  · show (u.reg 0x8001 1 == 2) = true
    rw [host]; rfl

/-! ### Calibration (R395, R398) -/

theorem calCommand_free : FreeRow 0xB002 1 { n := 1, ty := .u8, acc := .wo } where
  row := by decide +kernel
  right := by decide +kernel
  numeric := rfl
  short := by decide
  noTop := rfl
  noRange := rfl
  noMask := rfl
  notRequest := by decide
  inside _ _ := rfl
  agrees _ := rfl

theorem State.calStart_of_idle {u : State} (still : u.cal.domain = none) (service : u.inService = true) (mask : u.nreg 0xB002 2 ≠ 0)
    (pins : (setBits 64 (u.nreg 0xB002 3)).any u.pinBusy = false) : u.calStart.1 = 0 := by
  unfold State.calStart
  rw [if_neg]
  rintro (bad | bad | bad | bad)
  · rw [still] at bad; cases bad
  · rw [service] at bad; cases bad
  · exact mask bad
  · rw [pins] at bad; cases bad

theorem State.calCancel_of_run {u : State} (run : u.cal.domain ≠ none) :
    u.calCancel = u.modCal fun c => { c with cancel := true, waitFrom := none, got := [] } :=
  if_pos (Option.isSome_iff_ne_none.mpr run)

theorem State.calCancel_of_none {u : State} (still : u.cal.domain = none) : u.calCancel = u :=
  if_neg (by rw [still]; decide)

/-- Settles O30: each command is a number that R506 lets through. CANCEL with no run answers OK (log 110), and TIME_SET is a slew or a step by its size
(log 104). -/
theorem timeAndCalibrationCommands : Obligations.TimeAndCalibrationCommands := by
  unfold Obligations.TimeAndCalibrationCommands
  intro s r u
  refine ⟨fun d low high h on closed => ?_, fun v low high h on closed => ?_, fun t fits nanos => ?_,
    fun h => ⟨fun still service mask pins => ⟨?_, ?_⟩, fun run => ?_, fun still => ?_⟩⟩
  · refine congrArg Host.Outcome.next ?_
    refine State.hostWrite_free h offsetAdj_free (beBytes_length 8 _) rfl (decodeNum_i64 low high) ?_ rfl rfl
    show (!u.hostServoClosed) = true
    rw [closed]; rfl
  · refine congrArg Host.Outcome.next ?_
    refine State.hostWrite_free h rateSet_free (beBytes_length 8 _) rfl (decodeNum_i64 low high) ?_ rfl
      (congrArg (Prod.mk 0) (State.rateSet_eq _ v))
    show (!u.hostServoClosed) = true
    rw [closed]; rfl
  · intro q h noTransfer noUpload room host
    exact congrArg Host.Outcome.next (State.hostWhole_carried (b := beBytes 10 t) h (by decide +kernel) noTransfer noUpload room
      (lengthStatus_numeric timeSet_found rfl (beBytes_length 10 t)) (by decide) (State.writeValue_timeSet fits nanos host))
  · refine congrArg Host.Outcome.next (State.hostWrite_code (code := 1) h calCommand_free rfl (by decide) rfl (by decide) ?_)
    show u.calStart = (0, u.calStart.2)
    rw [← State.calStart_of_idle still service mask pins]
  · exact State.calStart_of_idle still service mask pins
  · exact congrArg Host.Outcome.next (State.hostWrite_code (code := 2) h calCommand_free rfl (by decide) rfl (by decide)
      (congrArg (Prod.mk 0) (State.calCancel_of_run run)))
  · exact congrArg Host.Outcome.next (State.hostWrite_code (code := 2) h calCommand_free rfl (by decide) rfl (by decide)
      (congrArg (Prod.mk 0) (State.calCancel_of_none still)))

/-! ### The Passport (R424, R432, R435) -/

theorem ackBatch_free : FreeRow 0xC002 5 { n := 5, ty := .u64, acc := .wo } where
  row := by decide +kernel
  right := by decide +kernel
  numeric := rfl
  short := by decide
  noTop := rfl
  noRange := rfl
  noMask := rfl
  notRequest := by decide
  inside _ _ := rfl
  agrees _ := rfl

theorem advance_free : FreeRow 0xC010 3 { n := 3, ty := .u8, acc := .wo, cond := .epochRoom } where
  row := by decide +kernel
  right := by decide +kernel
  numeric := rfl
  short := by decide
  noTop := rfl
  noRange := rfl
  noMask := rfl
  notRequest := by decide
  inside _ _ := rfl
  agrees _ := rfl

theorem windowCommand_free (w : Fin 32) : FreeRow (winObj w) 3 { n := 3, ty := .u8, acc := .wo } := by
  have rows : ∀ w : Fin 32, findSub (winObj w) 3 = some { n := 3, ty := .u8, acc := .wo } ∧ writeRight (winObj w) 3 = 0 := by decide +kernel
  have place : ∃ p, p < 32 ∧ winObj w = 0xC020 + p := ⟨w, w.isLt, rfl⟩
  obtain ⟨p, low, place⟩ := place
  refine { row := (rows w).1, right := (rows w).2, numeric := rfl, short := by decide, noTop := rfl, noRange := rfl, noMask := rfl,
           notRequest := by omega, inside := fun s v => ?_, agrees := fun s => ?_ }
  · unfold State.inRange
    repeat rw [if_neg (by omega)]
  · unfold State.consistent
    repeat rw [if_neg (by omega)]

theorem windowCommand_legal (w : Fin 32) {code : Nat} (low : code ≠ 0) (high : code ≤ 3) : badReserved (winObj w) 3 code = false := by
  have place : ∃ p, p < 32 ∧ winObj w = 0xC020 + p := ⟨w, w.isLt, rfl⟩
  obtain ⟨p, below, place⟩ := place
  unfold badReserved
  repeat rw [if_neg (by omega)]
  rw [if_pos (by omega)]
  simp only [decide_eq_false_iff_not]
  omega

theorem State.putNum_windowCommand (u t : State) (w : Fin 32) (code : Nat) :
    u.putNum t (winObj w) 3 (code : Int) = u.windowCommand w code := by
  have place : ∃ p, p < 32 ∧ winObj w = 0xC020 + p := ⟨w, w.isLt, rfl⟩
  obtain ⟨p, below, place⟩ := place
  have window : winObj w - 0xC020 = w := by unfold winObj; omega
  unfold State.putNum
  dsimp only
  repeat rw [if_neg (by omega)]
  rw [if_pos (by omega), window]
  rfl

/-- A command of a load window that is carried out. -/
theorem State.windowCommand_carried {s t : State} {r : Req} {w : Fin 32} {code : Nat} (h : s.Writes r (winObj w) 3) (low : code ≠ 0)
    (high : code ≤ 3) (gives : (s.taken r).windowCommand w code = (0, t)) :
    s.hostWrite r (winObj w) 3 (beBytes 1 code) = t.answered r (writeAsk (winObj w) 3) {} := by
  refine State.hostWrite_code h (windowCommand_free w) rfl (by omega) rfl (windowCommand_legal w low high) ?_
  rw [State.putNum_windowCommand, gives]

theorem State.windowOpen_of_free {u : State} {w : Nat} (free : u.reg (winObj w) 4 = 0)
    (apart : u.windowMeets w (u.nreg (winObj w) 1) (u.nreg (winObj w) 2) = false) (base : u.nreg (winObj w) 1 % 64 = 0)
    (filled : u.nreg (winObj w) 2 ≠ 0) (lines : u.nreg (winObj w) 2 % 64 = 0)
    (inside : u.nreg (winObj w) 1 + u.nreg (winObj w) 2 ≤ u.memCapacity) :
    u.windowOpen w = (0, ((u.setNat (winObj w) 4 1).setNat (winObj w) 5 0).modPass fun p =>
      { p with hashers := Table.insert p.hashers w Hasher.start }) := by
  unfold State.windowOpen
  refine (if_neg ?_).trans (if_neg ?_)
  · rintro (bad | bad)
    · exact bad free
    · rw [apart] at bad; cases bad
  · rintro (bad | bad | bad | bad)
    · exact bad base
    · exact filled bad
    · exact bad lines
    · exact Nat.not_lt.mpr inside bad

theorem State.windowFree_of_loaded {u : State} {w : Nat} (loaded : u.reg (winObj w) 4 = 2) (unused : u.reg (winObj w) 7 = 0) :
    u.windowFree w = (0, u.setNat (winObj w) 4 0) :=
  if_neg (not_or.mpr ⟨not_not.mpr loaded, not_not.mpr unused⟩)

theorem State.windowAbandon_of_open {u : State} {w : Nat} (opened : u.reg (winObj w) 4 = 1) :
    u.windowAbandon w = (0, (u.setNat (winObj w) 4 0).modPass fun p => { p with hashers := Table.erase p.hashers w }) :=
  if_neg (not_not.mpr opened)

/-! ### Faults and events (R449, R452, R458) -/

theorem decision_free : FreeRow 0xD201 4 { n := 4, ty := .u8, acc := .wo } where
  row := by decide +kernel
  right := by decide +kernel
  numeric := rfl
  short := by decide
  noTop := rfl
  noRange := rfl
  noMask := rfl
  notRequest := by decide
  inside _ _ := rfl
  agrees _ := rfl

theorem raise_free : FreeRow 0xD010 6 { n := 6, ty := .bool, acc := .wo } where
  row := by decide +kernel
  right := by decide +kernel
  numeric := rfl
  short := by decide
  noTop := rfl
  noRange := rfl
  noMask := rfl
  notRequest := by decide
  inside _ _ := rfl
  agrees _ := rfl

theorem tail_free : FreeRow 0xD100 6 { n := 6, ty := .u32, acc := .wo } where
  row := by decide +kernel
  right := by decide +kernel
  numeric := rfl
  short := by decide
  noTop := rfl
  noRange := rfl
  noMask := rfl
  notRequest := by decide
  inside _ _ := rfl
  agrees _ := rfl

theorem State.decideByHost_of_offered {u : State} {l d : Nat} {f : FaultRec} (fault : u.offeredFault = some f)
    (offered : u.handler.offered = some d) (inTime : u.clk.frames ≤ d) (allowed : (allowedLevels f).contains l = true) :
    u.decideByHost l = (0, u.decideCurrent f l) := by
  unfold State.decideByHost
  rw [fault]
  dsimp only
  rw [allowed, offered, if_neg (by decide)]
  exact if_neg (Nat.not_lt.mpr inTime)

theorem State.raiseByHost_of_user {u : State} {e : Nat} (user : userSource e = true) : u.raiseByHost e true = (0, u.raise e) := by
  unfold State.raiseByHost
  rw [user]
  rfl

/-- Settles O31: each command is a number that R506 lets through, carried out as its lemma says. ACK_BATCH of any number answers OK (log 111). -/
theorem passportFaultAndEventCommands : Obligations.PassportFaultAndEventCommands := by
  unfold Obligations.PassportFaultAndEventCommands
  refine ⟨fun s r => ⟨fun n fits h => ?_, fun w h => ⟨fun free apart base filled lines inside => ?_, fun loaded unused => ?_, fun opened => ?_⟩,
    fun h room => ?_⟩, fun s r => ⟨fun l f d byte h fault offered inTime allowed => ?_, fun e h named still user => ?_, fun n fits h => ?_⟩⟩
  · exact congrArg Host.Outcome.next (State.hostWrite_free h ackBatch_free (beBytes_length 8 n) rfl
      (decodeNum_beBytes (by simpa using fits)) rfl rfl rfl)
  · exact congrArg Host.Outcome.next (State.windowCommand_carried (code := 1) h (by decide) (by decide)
      (State.windowOpen_of_free free apart base filled lines inside))
  · exact congrArg Host.Outcome.next (State.windowCommand_carried (code := 2) h (by decide) (by decide)
      (State.windowFree_of_loaded loaded unused))
  · exact congrArg Host.Outcome.next (State.windowCommand_carried (code := 3) h (by decide) (by decide)
      (State.windowAbandon_of_open opened))
  · exact congrArg Host.Outcome.next (State.hostWrite_code (code := 1) h advance_free rfl (by decide) (decide_eq_true room) (by decide) rfl)
  · exact congrArg Host.Outcome.next (State.hostWrite_code (code := l) h decision_free rfl byte rfl rfl
      (State.decideByHost_of_offered fault offered inTime allowed))
  · refine (if_pos named).trans (congrArg Host.Outcome.next ?_)
    refine State.hostWrite_free (v := 1) h raise_free rfl rfl rfl rfl rfl ?_
    show (s.taken r).raiseByHost ((s.taken r).nreg 0xD010 1) true = _
    rw [still]
    exact State.raiseByHost_of_user user
  · exact congrArg Host.Outcome.next (State.hostWrite_free h tail_free (beBytes_length 4 n) rfl
      (decodeNum_beBytes (by simpa using fits)) rfl rfl rfl)

end Sys2Proof.Machine
end

section
/-! SUPPORT. Requests that are carried out by their bodies: segments, snapshots, subscriptions, levels, whole values, and what stops a request. -/

namespace Sys2Proof.Machine

/-- A request that is carried out, by what its body gives. -/
theorem State.serve_body {s t : State} {r : Req} {q : Ask} {a : Answer} {body : State → Answer × State} (h : s.Carries r q)
    (gives : body (s.taken r) = (a, t)) (stays : a.after = 0 := by rfl) : s.serve r q body = t.answered r q a := by
  rw [State.serve_carried h (by rw [gives]; exact stays), gives]

/-- A request that is carried out, by the result of its body as a pair. -/
theorem State.serve_result {s : State} {r : Req} {q : Ask} {w : Answer × State} {body : State → Answer × State} (h : s.Carries r q)
    (gives : body (s.taken r) = w) (stays : w.1.after = 0) : s.serve r q body = w.2.answered r q w.1 :=
  State.serve_body h gives stays

/-! ### Segmented writes (R352) -/

section Segments

variable {u : State} {r : Req} {i j off total : Nat} {last : Bool} {b : List Byte} {t : Transfer}

theorem segmentOrder_open {done off total n : Nat} (follows : off = done) (short : off + n < total) : segmentOrder done off total n false = false := by
  subst follows
  have fits : ¬off + n > total := by omega
  have more : ¬off + n = total := by omega
  simp [segmentOrder, fits, more]

theorem segmentOrder_last {done off total n : Nat} (follows : off = done) (ends : off + n = total) : segmentOrder done off total n true = false := by
  subst follows ends
  simp [segmentOrder]

variable (right : writeRight i j = 0)
include right

/-- The first of several segments opens a transfer. -/
theorem State.segmentBody_first (noTransfer : u.transferOn i j = none) (noUpload : u.uploadOn i j = none) (short : b.length < total)
    (room : u.openCount < 8) (len : lengthStatus (domainLimit (u.levelOf r.src)) i j total = 0) :
    State.segmentBody r i j 0 total false b u = ({}, (u.wholeFrom r i j).modRosec fun x => { x with transfers := x.transfers ++
      [{ index := i, sub := j, sa := r.sa, total := total, data := b, touched := u.clk.frames }] }) := by
  have closed : ((u.forget i j (some r.sa)).uploadOn i j).isSome = false := by
    show (u.uploadOn i j).isSome = false
    rw [noUpload]; rfl
  have few : ¬(u.forget i j (some r.sa)).openCount ≥ 8 := Nat.not_le.mpr room
  unfold State.segmentBody
  dsimp only
  rw [if_neg (not_not.mpr right), noTransfer]
  dsimp only
  rw [closed, segmentOrder_open rfl (by omega), len, if_neg (by decide), if_neg (by omega), if_neg (by decide), if_neg few, if_neg (by decide)]
  rfl

variable (opened : u.transferOn i j = some t)
include opened

theorem State.segmentBody_busy (other : t.sa ≠ r.sa) : State.segmentBody r i j off total last b u = ({ status := 0x0203 }, u) := by
  unfold State.segmentBody
  dsimp only
  rw [if_neg (not_not.mpr right), opened]
  exact if_pos other

variable (same : t.sa = r.sa)
include same

theorem State.segmentBody_order (bad : segmentOrder t.data.length off t.total b.length last = true) :
    State.segmentBody r i j off total last b u = ({ status := 0x0204 }, u) := by
  unfold State.segmentBody
  dsimp only
  rw [if_neg (not_not.mpr right), opened]
  exact (if_neg (not_not.mpr same)).trans (if_pos bad)

variable (good : segmentOrder t.data.length off t.total b.length last = false)
include good

theorem State.segmentBody_long (len : lengthStatus (domainLimit (u.levelOf r.src)) i j total ≠ 0) :
    State.segmentBody r i j off total last b u = ({ status := lengthStatus (domainLimit (u.levelOf r.src)) i j total }, u) := by
  unfold State.segmentBody
  dsimp only
  rw [if_neg (not_not.mpr right), opened]
  exact (if_neg (not_not.mpr same)).trans ((if_neg (by rw [good]; decide)).trans (if_pos len))

theorem State.segmentBody_taken (len : lengthStatus (domainLimit (u.levelOf r.src)) i j total = 0) :
    State.segmentBody r i j off total last b u = u.takeSegment (u.levelOf r.src) t b last := by
  unfold State.segmentBody
  dsimp only
  rw [if_neg (not_not.mpr right), opened]
  exact (if_neg (not_not.mpr same)).trans ((if_neg (by rw [good]; decide)).trans (if_neg (not_not.mpr len)))

end Segments

/-- A segment that does not end its transfer joins it. -/
theorem State.takeSegment_open (u : State) (level : Nat) (t : Transfer) (b : List Byte) :
    u.takeSegment level t b false = ({}, (u.closeTransfer t.index t.sub).modRosec fun x =>
      { x with transfers := x.transfers ++ [{ t with data := t.data ++ b, touched := u.clk.frames }] }) := rfl

/-- The last segment writes the whole value. -/
theorem State.takeSegment_last (u : State) (level : Nat) (t : Transfer) (b : List Byte) (notRequest : t.index ≠ 0x2001) :
    u.takeSegment level t b true
      = ({ status := ((u.closeTransfer t.index t.sub).writeValue (domainLimit level) t.index t.sub (t.data ++ b)).1 },
         ((u.closeTransfer t.index t.sub).writeValue (domainLimit level) t.index t.sub (t.data ++ b)).2) := by
  unfold State.takeSegment State.putBody
  exact if_neg notRequest

/-- ABORT of a transfer by its requester. -/
theorem State.abortBody_transfer {u : State} {r : Req} {i j : Nat} {t : Transfer} (right : writeRight i j = 0) (opened : u.transferOn i j = some t)
    (same : t.sa = r.sa) : State.abortBody r i j false u = ({ status := 0x0207 }, u.closeTransfer i j) := by
  unfold State.abortBody
  simp only [Bool.false_eq_true, if_false]
  rw [if_neg (not_not.mpr right), opened]
  exact if_neg (not_not.mpr same)

/-! ### Segmented reads (R353) -/

section Uploads

variable {u : State} {r : Req} {i j off n : Nat} {up : Upload} (right : readRight i j = 0) (noTransfer : u.transferOn i j = none)
include right noTransfer

/-- A read from OFFSET 0 takes a snapshot. -/
theorem State.uploadBody_first (noUpload : u.uploadOn i j = none) (room : u.openCount < 8) :
    State.uploadBody r i j 0 n u
      = (((u.takeValue i j).2.forget i j none).modRosec fun x => { x with timedOut := x.timedOut.filter (· ≠ (i, j, r.sa)) }).piece
          { index := i, sub := j, sa := r.sa, data := (u.takeValue i j).1,
            touched := (((u.takeValue i j).2.forget i j none).modRosec fun x =>
              { x with timedOut := x.timedOut.filter (· ≠ (i, j, r.sa)) }).clk.frames } 0 n := by
  unfold State.uploadBody
  dsimp only
  rw [if_neg (not_not.mpr right), noUpload]
  dsimp only
  rw [noTransfer, if_neg (by decide), if_neg (by decide), if_neg (Nat.not_le.mpr room)]
  rfl

omit noTransfer in
theorem State.uploadBody_piece (held : u.uploadOn i j = some up) (same : up.sa = r.sa) : State.uploadBody r i j off n u = u.piece up off n := by
  unfold State.uploadBody
  dsimp only
  rw [if_neg (not_not.mpr right), held]
  exact if_neg (not_not.mpr same)

omit noTransfer in
theorem State.uploadBody_busy (held : u.uploadOn i j = some up) (other : up.sa ≠ r.sa) :
    State.uploadBody r i j off n u = ({ status := 0x0203 }, u) := by
  unfold State.uploadBody
  dsimp only
  rw [if_neg (not_not.mpr right), held]
  exact if_pos other

/-- ABORT of a snapshot by its requester. -/
theorem State.abortBody_upload (held : u.uploadOn i j = some up) (same : up.sa = r.sa) :
    State.abortBody r i j true u = ({ status := 0x0207 }, u.closeUpload i j) := by
  unfold State.abortBody
  dsimp only
  rw [if_pos rfl, if_neg (not_not.mpr right), noTransfer, held]
  exact if_neg (not_not.mpr same)

end Uploads

/-- A piece of a snapshot asks for no start. -/
theorem State.piece_stays (u : State) (up : Upload) (off n : Nat) : (u.piece up off n).1.after = 0 := by
  unfold State.piece
  split <;> rfl

theorem State.takeValue_blob (u : State) : u.takeValue 0xB010 1 = u.exportBlob := if_pos ⟨rfl, rfl⟩

/-- Settles O33: the segment's body answers by the transfer or the snapshot that stands on the object. -/
theorem segmentedTransfers : Obligations.SegmentedTransfers := by
  unfold Obligations.SegmentedTransfers
  refine ⟨fun s r i j off total last b => ?_, fun s r => ⟨fun i j n off => ?_, ?_⟩⟩
  · intro u q right h
    refine ⟨fun noTransfer noUpload start short more room len => ?_, fun t opened index sub => ⟨fun other => ?_, fun same gap => ?_,
      fun same good len => ?_, fun same follows short more len => ?_, fun same follows ends final notRequest len => ?_, fun same place => ?_⟩⟩
    · subst start more
      exact congrArg Host.Outcome.next (State.serve_body h (State.segmentBody_first right noTransfer noUpload short room len))
    · exact congrArg Host.Outcome.next (State.serve_body h (State.segmentBody_busy right opened other))
    · exact congrArg Host.Outcome.next (State.serve_body h (State.segmentBody_order right opened same (by simp [segmentOrder, gap])))
    · exact congrArg Host.Outcome.next (State.serve_body h (State.segmentBody_long right opened same good len))
    · subst more
      refine congrArg Host.Outcome.next (State.serve_body h ((State.segmentBody_taken right opened same (segmentOrder_open follows short) len).trans
        ((State.takeSegment_open _ _ t b).trans ?_)))
      rw [index, sub]
    · subst final
      refine congrArg Host.Outcome.next (State.serve_body h ((State.segmentBody_taken right opened same (segmentOrder_last follows ends) len).trans
        ((State.takeSegment_last _ _ t b (index ▸ notRequest)).trans ?_)))
      rw [index, sub]
    · subst place
      exact congrArg Host.Outcome.next (State.serve_body h (State.abortBody_transfer right opened same))
  · intro q right h v
    refine ⟨fun start noTransfer noUpload room => ?_, fun up noTransfer held => ⟨fun same => ⟨fun place => ?_, ?_⟩, fun other => ?_⟩⟩
    · subst start
      exact congrArg Host.Outcome.next (State.serve_result h (State.uploadBody_first right noTransfer noUpload room) (State.piece_stays _ _ _ _))
    · subst place
      exact congrArg Host.Outcome.next (State.serve_body h (State.abortBody_upload right noTransfer held same))
    · exact congrArg Host.Outcome.next (State.serve_result h (State.uploadBody_piece right held same) (State.piece_stays _ _ _ _))
    · exact congrArg Host.Outcome.next (State.serve_body h (State.uploadBody_busy right held other))
  · intro q h noTransfer noUpload room
    have first := State.uploadBody_first (r := r) (n := 4096) (by decide +kernel) noTransfer noUpload room
    rw [State.takeValue_blob] at first
    exact congrArg Host.Outcome.next (State.serve_result h first (State.piece_stays _ _ _ _))

end Sys2Proof.Machine
end

section
/-! SUPPORT. Subscriptions, levels, values written whole, and what stops a request. -/

namespace Sys2Proof.Machine

/-! ### SUBSCRIBE and UNSUBSCRIBE (R354) -/

section Subscribe

variable {u : State} {r : Req} {i j p : Nat}

/-- Whether a subscription is the one of this requester to index:sub. -/
abbrev Subscription.isOf (x : Subscription) (r : Req) (i j : Nat) : Bool := x.src == r.src && x.index == i && x.sub == j

/-- The subscription that a request makes. -/
abbrev State.newSubscription (u : State) (r : Req) (i j p : Nat) : Subscription :=
  { src := r.src, index := i, sub := j, period := p, due := u.clk.frames + 1 }

variable (right : readRight i j = 0) (free : u.snapshotOf r.sa i j = false)
include right free

theorem State.unsubscribeBody_eq : State.unsubscribeBody r i j u
    = ({}, u.modRosec fun x => { x with subs := x.subs.filter fun y => !y.isOf r i j }) := by
  unfold State.unsubscribeBody
  dsimp only
  rw [if_neg (not_not.mpr right), free, if_neg (by decide)]

variable (short : shortestPeriod (u.levelOf r.src) ≤ p) (long : p ≤ 16777215) (fits : u.valueLength i j ≤ 4096)
include short long fits

theorem State.subscribeBody_new (fresh : (u.rosec.subs.any fun x => x.isOf r i j) = false) (room : u.rosec.subs.length < 64) :
    State.subscribeBody r i j p u = ({}, u.modRosec fun x => { x with subs := x.subs ++ [u.newSubscription r i j p] }) := by
  unfold State.subscribeBody
  dsimp only
  rw [if_neg (not_not.mpr right), free, fresh, if_neg (by decide), if_neg (by omega), if_neg (by omega), if_neg (by omega), if_neg (by decide)]
  rfl

theorem State.subscribeBody_renewed (known : (u.rosec.subs.any fun x => x.isOf r i j) = true) :
    State.subscribeBody r i j p u
      = ({}, u.modRosec fun x => { x with subs := x.subs.map fun y => if y.isOf r i j then u.newSubscription r i j p else y }) := by
  unfold State.subscribeBody
  dsimp only
  rw [if_neg (not_not.mpr right), free, known, if_neg (by decide), if_neg (by simp), if_neg (by omega), if_neg (by omega), if_pos rfl]
  rfl

end Subscribe

/-! ### NEGOTIATE (R356) -/

/-- Two bytes side by side are read apart. -/
theorem State.negotiateBody_common {u : State} {r : Req} {lo hi : Nat} (byteLo : lo < 256) (byteHi : hi < 256) (ordered : lo ≤ hi)
    (low : lo ≤ 5) (high : 3 ≤ hi) (station : r.src ≠ 0) (unicast : r.src ≤ 254) :
    State.negotiateBody r (beBytes 1 lo ++ beBytes 1 hi) u
      = ({ data := beBytes 1 3 ++ beBytes 1 5 ++ beBytes 1 (min hi 5) }, u.setNat 0x1021 r.src (min hi 5)) := by
  have first : ofBytes ((beBytes 1 lo ++ beBytes 1 hi).take 1) = lo := by
    rw [List.take_left' (beBytes_length 1 lo), ofBytes_beBytes]
    exact Nat.mod_eq_of_lt byteLo
  have second : ofBytes ((beBytes 1 lo ++ beBytes 1 hi).drop 1) = hi := by
    rw [List.drop_left' (beBytes_length 1 lo), ofBytes_beBytes]
    exact Nat.mod_eq_of_lt byteHi
  unfold State.negotiateBody
  dsimp only
  rw [first, second, if_neg (by simp), if_neg (by omega), if_neg (by omega), if_pos ⟨low, high⟩]

/-- Settles O34: the request's body, in the state it is taken in, by the subscriptions that stand and the levels that both sides have. -/
theorem subscriptionsAndLevels : Obligations.SubscriptionsAndLevels := by
  unfold Obligations.SubscriptionsAndLevels
  intro s r u
  refine ⟨fun i j p => ?_, fun h lo hi byteLo byteHi ordered low high station unicast => ?_, fun h => ?_⟩
  · intro q right h free mine new
    refine ⟨fun period short long fits => ⟨fun fresh room => ?_, fun known => ?_⟩, ?_, fun zero => ?_⟩
    · refine congrArg Host.Outcome.next (State.serve_body h ?_)
      rw [if_neg period]
      exact State.subscribeBody_new right free short long fits fresh room
    · refine congrArg Host.Outcome.next (State.serve_body h ?_)
      rw [if_neg period]
      exact State.subscribeBody_renewed right free short long fits known
    · exact congrArg Host.Outcome.next (State.serve_body h (State.unsubscribeBody_eq right free))
    · show execSubscribe r i j p s = execUnsubscribe r i j s
      unfold execSubscribe execUnsubscribe
      rw [if_pos zero]
  · exact congrArg Host.Outcome.next (State.serve_body h (State.negotiateBody_common byteLo byteHi ordered low high station unicast))
  · exact congrArg Host.Outcome.next (State.serve_body h rfl)

/-! ### Values written whole (R89, R283, R404, R408) -/

/-- A value that is not a number, in its write condition, is stored or carried out as `putOct` says. -/
theorem State.writeValue_bytes {u : State} {cap i j limit : Nat} {b : List Byte} {d : SubRow} (row : findSub i j = some d)
    (dom : d.ty = .dom limit) (len : lengthStatus cap i j b.length = 0) (cond : u.condOk d.cond i j 0 = true) :
    u.writeValue cap i j b = u.putOct i j b := by
  have holds : typeHolds d.ty b = true := by rw [dom]; rfl
  have bytes : d.ty.numeric = false := by rw [dom]; rfl
  unfold State.writeValue
  rw [row]
  dsimp only
  rw [len, holds, bytes, if_neg (by decide), if_neg (by decide)]
  simp only [Bool.false_eq_true, if_false, Int.toNat_zero, cond, Bool.not_true, Bool.not_false, if_true]

/-- The length of a domain within its limit and that of the level. -/
theorem lengthStatus_dom {cap i j n limit : Nat} {d : SubRow} (row : findSub i j = some d) (dom : d.ty = .dom limit) (fits : n ≤ min cap limit)
    (header : i = 0x4001 → n = 160) (records : i = 0xB040 → n % 16 = 0) (serial : ¬(0x3400 ≤ i ∧ i < 0x3800)) : lengthStatus cap i j n = 0 := by
  unfold lengthStatus
  rw [row]
  dsimp only
  rw [dom]
  dsimp only
  rw [if_neg fun h => h.2 (header h.1), if_neg fun h => h.2 (records h.1), if_neg (Nat.not_lt.mpr fits), if_neg fun h => serial ⟨h.1, h.2.1⟩]

/-- Every level takes domains of 1,048,576 bytes. -/
theorem le_domainLimit (level : Nat) : 1048576 ≤ domainLimit level := by
  unfold domainLimit
  split
  · decide
  · exact le_refl _

/-- A whole value that is not a number, of a length that fits, is stored or carried out as `putOct` says. -/
theorem State.hostWhole_dom {s t : State} {r : Req} {i j st limit : Nat} {b : List Byte} {d : SubRow}
    (h : s.Carries r { service := 3, index := i, sub := j }) (right : writeRight i j = 0) (row : findSub i j = some d) (dom : d.ty = .dom limit)
    (noTransfer : (s.taken r).transferOn i j = none) (noUpload : (s.taken r).uploadOn i j = none) (room : (s.taken r).openCount < 8)
    (fits : b.length ≤ min (domainLimit ((s.taken r).levelOf r.src)) limit) (header : i = 0x4001 → b.length = 160)
    (records : i = 0xB040 → b.length % 16 = 0) (serial : ¬(0x3400 ≤ i ∧ i < 0x3800)) (notRequest : i ≠ 0x2001)
    (cond : ((s.taken r).wholeFrom r i j).condOk d.cond i j 0 = true) (puts : ((s.taken r).wholeFrom r i j).putOct i j b = (st, t)) :
    s.hostWhole r i j b = t.answered r { service := 3, index := i, sub := j } { status := st } := by
  have len := lengthStatus_dom row dom fits header records serial
  exact State.hostWhole_carried h right noTransfer noUpload room len notRequest ((State.writeValue_bytes row dom len cond).trans puts)

/-- A header of the form that R94 gives is kept in step 5 of a cold start. -/
theorem State.writeHeader_of_good {u : State} {b : List Byte} (len : b.length = 160) (cold : u.mode = .coldStart) (step : u.start.step = 5)
    (reserved : field b 10 11 = 0) (magic : field b 0 3 = 0x564D4331) (words : field b 12 15 = 32768) :
    u.writeHeader b = (0, { u with
      store := { u.store with header := b, vendor := .header }, start := { u.start with headerFresh := true, entries := [] } }) := by
  unfold State.writeHeader
  rw [if_neg (not_not.mpr len), if_neg (not_or.mpr ⟨not_not.mpr cold, not_not.mpr step⟩), if_neg (not_not.mpr reserved),
    if_neg (not_or.mpr ⟨not_not.mpr magic, not_not.mpr words⟩)]

theorem coeffBytes_length (c : CalRec) : (coeffBytes c).length = 16 := by
  simp only [coeffBytes, encodeInt, List.length_append, beBytes_length]

theorem coeffBytes_flatMap_length (l : List CalRec) : (l.flatMap coeffBytes).length = 16 * l.length := by
  induction l with
  | nil => rfl
  | cons c l ih => rw [List.flatMap_cons, List.length_append, coeffBytes_length, ih, List.length_cons]; ring

/-- Records of the step that waits are taken. -/
theorem State.coeffs_of_open {u : State} {l : List CalRec} {d k f : Nat} {qs : List Nat} (step : u.openStep = some (d, k, qs))
    (waits : u.cal.waitFrom = some f)
    (good : ∀ x ∈ l, x.domain = d ∧ x.unitNo = k ∧ qs.contains x.quantity = true ∧ x.run ≤ 1 ∧ x.retry = u.cal.retry ∧ x.reserved = 0) :
    (u.coeffs l).1 = 0 := by
  have clean : (l.any fun r => r.domain != d || r.unitNo != k || !qs.contains r.quantity || decide (r.run > 1) || r.retry != u.cal.retry
      || r.reserved != 0) = false := by
    rw [List.any_eq_false]
    intro x hx
    obtain ⟨domain, unit, quantity, run, retry, reserved⟩ := good x hx
    rw [quantity]
    simp [domain, unit, run, retry, reserved]
  unfold State.coeffs
  rw [step, waits]
  dsimp only
  rw [clean]
  rfl

/-- Step 5 of a cold start. -/
theorem State.inStep5_of {u : State} (cold : u.mode = .coldStart) (step : u.start.step = 5) : u.inStep5 = true := by
  unfold State.inStep5
  rw [cold, step]
  rfl

theorem State.wholeFrom_inStep5 (u : State) {r : Req} {i j : Nat} : (u.wholeFrom r i j).inStep5 = u.inStep5 := rfl

theorem State.wholeFrom_openBlob (u : State) {r : Req} {i j : Nat} (b : List Byte) : (u.wholeFrom r i j).openBlob b = u.openBlob b := rfl

theorem State.wholeFrom_openStep (u : State) {r : Req} {i j : Nat} : (u.wholeFrom r i j).openStep = u.openStep := rfl

theorem State.wholeFrom_hostCal {u : State} {r : Req} {i j a b n : Nat} (on : u.reg 0x2100 2 ≠ 0) :
    (u.wholeFrom r i j).condOk .hostCal a b n = true := decide_eq_true on

/-- The row of TRAINING. -/
def trainingRow : SubRow := { n := 8, ty := .dom 4096, acc := .rws, cond := .step5 }

theorem training_found (c : ChanId) : findSub (0x9001 + c) 8 = some trainingRow ∧ writeRight (0x9001 + c) 8 = 0 := by
  have rows : ∀ c : ChanId, findSub (0x9001 + c) 8 = some trainingRow ∧ writeRight (0x9001 + c) 8 = 0 := by decide +kernel
  exact rows c

theorem State.putOct_training (v : State) (c : ChanId) (b : List Byte) : v.putOct (0x9001 + c) 8 b = (0, v.setOct (0x9001 + c) 8 b) := by
  have low := c.isLt
  unfold State.putOct
  rw [if_neg (by omega), if_neg (by omega), if_neg (by omega), if_neg (by omega)]

theorem State.putOct_blob (v : State) (b : List Byte) : v.putOct 0xB010 1 b = v.importBlob b := by
  unfold State.putOct
  rw [if_neg (by decide), if_neg (by decide), if_pos rfl]

/-- Settles O35: one segment that is the whole value, written as its row lets it. -/
theorem wholeValuesWritten : Obligations.WholeValuesWritten := by
  unfold Obligations.WholeValuesWritten
  intro s r b u quiet v done
  refine ⟨?_, fun c => ?_, ?_, fun l => ?_⟩
  · rintro ⟨h, noTransfer, noUpload, room⟩ len cold step reserved magic words
    have fits : b.length ≤ min (domainLimit (u.levelOf r.src)) 16777216 := by
      have := le_domainLimit (u.levelOf r.src)
      omega
    exact congrArg Host.Outcome.next (State.hostWhole_dom (d := { n := 1, ty := .dom 16777216, acc := .wo, cond := .step5 }) h
      (by decide +kernel) (by decide +kernel) rfl noTransfer noUpload room fits (fun _ => len) (fun bad => absurd bad (by decide)) (by decide)
      (by decide) ((State.wholeFrom_inStep5 u).trans (State.inStep5_of cold step)) (State.writeHeader_of_good len cold step reserved magic words))
  · rintro ⟨h, noTransfer, noUpload, room⟩ len cold step
    have low := c.isLt
    have fits : b.length ≤ min (domainLimit (u.levelOf r.src)) 4096 := by
      have := le_domainLimit (u.levelOf r.src)
      omega
    have cond : (u.wholeFrom r (0x9001 + c) 8).inStep5 = true := (State.wholeFrom_inStep5 u).trans (State.inStep5_of cold step)
    exact congrArg Host.Outcome.next (State.hostWhole_dom h (training_found c).2 (training_found c).1 rfl noTransfer noUpload room fits
      (fun bad => by omega) (fun bad => by omega) (by omega) (by omega) cond (State.putOct_training _ c b))
  · rintro ⟨h, noTransfer, noUpload, room⟩ level limit cold step
    have fits : b.length ≤ min (domainLimit (u.levelOf r.src)) 16777216 := by omega
    have taken : ∀ st t, (v 0xB010 1).importBlob b = (st, t) →
        exec (.blobImport r b) s = .next (t.answered r { service := 3, index := 0xB010, sub := 1 } { status := st }) := fun st t gives =>
      congrArg Host.Outcome.next (State.hostWhole_dom (d := { n := 1, ty := .dom 16777216, acc := .rws, cond := .blob }) h
        (by decide +kernel) (by decide +kernel) rfl noTransfer noUpload room fits (fun bad => absurd bad (by decide))
        (fun bad => absurd bad (by decide)) (by decide) (by decide) ((State.wholeFrom_inStep5 u).trans (State.inStep5_of cold step)) ((State.putOct_blob _ b).trans gives))
    have same : (v 0xB010 1).openBlob b = u.openBlob b := State.wholeFrom_openBlob u b
    unfold State.importBlob at taken
    rw [same] at taken
    rcases opened : u.openBlob b with _ | plain
    · rw [opened] at taken
      exact taken _ _ rfl
    · rw [opened] at taken
      exact taken _ _ rfl
  · rintro ⟨h, noTransfer, noUpload, room⟩ limit on records w
    have len := coeffBytes_flatMap_length l
    have fits : (l.flatMap coeffBytes).length ≤ min (domainLimit (u.levelOf r.src)) 16777216 := by
      have := le_domainLimit (u.levelOf r.src)
      omega
    refine ⟨?_, fun d k qs f step waits good => State.coeffs_of_open (u := v 0xB040 2) ((State.wholeFrom_openStep u).trans step) waits good⟩
    refine congrArg Host.Outcome.next (State.hostWhole_dom (d := { n := 2, ty := .dom 16777216, acc := .wo, cond := .hostCal }) h
      (by decide +kernel) (by decide +kernel) rfl noTransfer noUpload room fits (fun bad => absurd bad (by decide))
      (fun _ => by omega) (by decide) (by decide) (State.wholeFrom_hostCal on) ?_)
    show (v 0xB040 2).coeffs (calRecords ((l.flatMap coeffBytes).length / 16) (l.flatMap coeffBytes)) = _
    rw [len, Nat.mul_div_cancel_left _ (by decide)]

/-! ### What stops a request (R349, R350, R506) -/

section Stopped

variable {s : State} {r : Req} {q : Ask} {body : State → Answer × State}

theorem State.serve_of_silent (silent : s.responds = false) : s.serve r q body = s := by
  unfold State.serve
  rw [silent]
  rfl

theorem State.serve_of_passing (responds : s.responds = true) (passing : (s.arrives r).1 = false) : s.serve r q body = (s.arrives r).2 := by
  unfold State.serve
  rw [responds]
  dsimp only
  rw [passing]
  rfl

theorem State.serve_of_consumed (responds : s.responds = true) (consumed : (s.arrives r).1 = true) :
    s.serve r q body = (s.arrives r).2.answer r q body := by
  unfold State.serve
  rw [responds]
  dsimp only
  rw [consumed]
  rfl

theorem State.answer_of_full {v : State} (full : v.queueLimit ≤ r.ahead) : v.answer r q body = v.sendReply (v.replyTo r q { status := 0x0209 }) :=
  if_pos full

theorem State.answer_of_kept {v : State} {k : Kept} (room : r.ahead < v.queueLimit) (kept : (v.peak 0x1020 6 (r.ahead + 1)).keptFor r q = some k) :
    v.answer r q body = ((v.peak 0x1020 6 (r.ahead + 1)).bump 0x1020 5).sendReply k.reply := by
  unfold State.answer
  rw [if_neg (Nat.not_le.mpr room)]
  dsimp only
  rw [kept]

theorem State.answer_of_gate {v : State} (room : r.ahead < v.queueLimit) (fresh : (v.peak 0x1020 6 (r.ahead + 1)).keptFor r q = none)
    (gate : (v.peak 0x1020 6 (r.ahead + 1)).gate r q ≠ 0) :
    v.answer r q body = (v.peak 0x1020 6 (r.ahead + 1)).answered r q { status := (v.peak 0x1020 6 (r.ahead + 1)).gate r q } := by
  unfold State.answer
  rw [if_neg (Nat.not_le.mpr room)]
  dsimp only
  rw [fresh]
  dsimp only
  rw [if_pos gate]
  rfl

end Stopped

/-- Settles O36: what stands before the body of a request, in the order of R506. A QUEUE_FULL response is not kept (log 87). -/
theorem requestsTurnedAway : Obligations.RequestsTurnedAway := by
  unfold Obligations.RequestsTurnedAway
  intro s r i j q v
  refine ⟨fun silent => ?_, fun responds passing => ?_, fun responds consumed full => ?_, fun responds consumed room =>
    ⟨fun k kept => ?_, fun fresh gate => ?_⟩⟩
  · exact congrArg Host.Outcome.next (State.serve_of_silent silent)
  · exact congrArg Host.Outcome.next (State.serve_of_passing responds passing)
  · exact congrArg Host.Outcome.next ((State.serve_of_consumed responds consumed).trans (State.answer_of_full full))
  · exact congrArg Host.Outcome.next ((State.serve_of_consumed responds consumed).trans (State.answer_of_kept room kept))
  · exact congrArg Host.Outcome.next ((State.serve_of_consumed responds consumed).trans (State.answer_of_gate room fresh gate))

end Sys2Proof.Machine
end

section
/-! SUPPORT. What ends the wait of a site (R50-R61). -/

namespace Sys2Proof.Machine

section Waits

variable {s : State} {n : SiteId}

/-! ### START and the decisions of a drain (R9, R50) -/

theorem execStartTakesEffect_due (ready : (s.site n).st = .ready) (asked : (s.site n).startAsked = true)
    (time : s.nreg (siteObj n 0) 3 = 0 ∨ ofTime80 (s.nreg (siteObj n 0) 3) ≤ s.localTime) (held : s.frameHeld n 0 = true)
    (chain : s.spans n = true → s.reg 0xA100 5 = 2) : execStartTakesEffect n s = .next (s.enterRunning n) :=
  if_pos ⟨ready, asked, time, held, chain⟩

section Decision

variable {d : Drain} (drain : (s.site n).drain = some d) (waits : (s.site n).st = .waiting) (later : d.entered < s.clk.frames)
  (undecided : d.decided = none) (drained : s.drained n = true)
include waits later undecided drained

/-- A drain whose decision tick has come is not put off. -/
theorem drainDecision_due : ¬((s.site n).st ≠ .waiting ∨ s.now ≤ d.entered ∨ d.decided.isSome ∨ !s.drained n) := by
  rw [undecided, drained]
  simp [waits, State.now, later]

include drain

theorem execDrainDecision_jfail {sense : Bool} {target pop : Nat} {clrf : Bool} (kind : d.kind = .jfail sense target pop clrf) :
    execDrainDecision n s = .next (s.decideJfail n sense target pop clrf) := by
  unfold execDrainDecision
  dsimp only
  rw [drain]
  dsimp only
  rw [if_neg (drainDecision_due waits later undecided drained), kind]

theorem execDrainDecision_seal {bin : Nat} {src : Bool} (kind : d.kind = .seal bin src) : execDrainDecision n s = .next (s.decideSeal n) := by
  unfold execDrainDecision
  dsimp only
  rw [drain]
  dsimp only
  rw [if_neg (drainDecision_due waits later undecided drained), kind]

theorem execDrainDecision_halt (kind : d.kind = .halt) : execDrainDecision n s = .next (s.decideHalt n) := by
  unfold execDrainDecision
  dsimp only
  rw [drain]
  dsimp only
  rw [if_neg (drainDecision_due waits later undecided drained), kind]

end Decision

/-! ### MATCH (R53) -/

theorem execMatched_found (matching : (s.site n).matching = true) (found : s.matchFound n = true) :
    execMatched n s = .next ((s.modSite n (·.flag flagMatched true)).endMatch n) := if_pos ⟨matching, found⟩

theorem execMatchTimeout_expired {u : State} (flags : (s.modSite n fun x => (x.flag flagTimeout true).flag flagFail true) = u)
    (matching : (s.site n).matching = true) (missing : s.matchFound n = false) (expired : s.matchExpired n = true) :
    execMatchTimeout n s = .next (((u.bareFail n (u.site n).thread.epoch).raise (siteEvent n 2)).endMatch n) := by
  unfold execMatchTimeout
  dsimp only
  rw [if_pos ⟨matching, by rw [missing]; rfl, expired⟩, flags]

/-! ### SYNC (R57, R58, R308) -/

section Sync

variable {y : SyncRun} (syncing : (s.site n).syncing = some y)
include syncing

omit syncing in
theorem Site.sync_of_syncing {x : Site} (h : x.syncing = some y) : x.sync = some y := by
  unfold Site.syncing at h
  split at h
  · exact h
  · cases h

theorem execSyncPost_due {d : Drain} {t : State} (drain : (s.site n).drain = some d) (unposted : y.posted = none)
    (later : d.entered < s.clk.frames) (drained : s.drained n = true)
    (posts : (s.modSite n fun z => { z with sync := some { y with
      posted := some s.clk.frames, value := (s.site n).voteOf y.vote,
      latest := if s.spans n = true then none else some (s.clk.frames, (s.site n).voteOf y.vote) } }) = t) :
    execSyncPost n s = .next (if y.clrf = true then t.newEpoch n else t) := by
  have due : s.postDue n = some y := by
    unfold State.postDue
    rw [syncing, drain]
    exact if_pos ⟨by rw [unposted]; rfl, later, drained⟩
  have alone : (if (!s.spans n) = true then some (s.now, (s.site n).voteOf y.vote) else none)
      = if s.spans n = true then none else some (s.clk.frames, (s.site n).voteOf y.vote) := by
    cases s.spans n <;> rfl
  unfold execSyncPost
  rw [due]
  dsimp only
  rw [alone, ← posts]
  rfl

theorem execSyncTimeout_expired {p : Nat} (posted : y.posted = some p) (expired : p + y.timeout ≤ s.clk.frames) (pending : s.agreed n = false) :
    execSyncTimeout n s = .next ((s.sendAbort n 0 s.clk.frames).threadFault n 0x0008) := by
  refine if_pos ?_
  obtain ⟨id, comb, vote, timeout, post, value, latest, clrf⟩ := y
  subst posted
  unfold State.syncExpired
  rw [syncing]
  simp [pending, State.now, expired]

theorem execSyncAgreement_reached {t : Nat} {v : Bool} {u w : State} (agreement : s.agreement n = some (t, v)) (reached : t ≤ s.clk.frames)
    (agrees : ((if s.spans n = true then s.bump 0xA100 12 else s).modSite n fun z => { z.flag flagSync v with
      sync := none, lastSync := z.sync.map (t, ·), agreed := z.agreed.filter (fun k => !([y.id] : List Nat).contains k) ++ [y.id] }) = u)
    (leaves : u.leaveDrain n ((u.site n).thread.idx + 1) = w) :
    execSyncAgreement n s = .next (if (w.entry n).state = .placed then w.charge (w.entry n).context 4 else w) := by
  have counted : ((if s.spans n = true then s.bump 0xA100 12 else s).site n).sync = some y := by
    have held := Site.sync_of_syncing syncing
    split <;> exact held
  unfold execSyncAgreement
  rw [agreement]
  dsimp only
  rw [if_pos (show s.now ≥ t from reached), counted]
  dsimp only
  rw [agrees, leaves]

end Sync

/-! ### The resume tick, the verdict and the end of play-out (R51, R59, R61) -/

/-- Behind a barrier no entry is passed. -/
theorem State.skipFlat_barrier {r : Run} {rest : List Run} {k fuel : Nat} (runs : (s.site n).runs = r :: rest) (kind : r.kind = .barrier k) :
    s.skipFlat n fuel = s := by
  have long : r.flat (s.site n).play.tu = false := by
    unfold Run.flat
    rw [kind]
  cases fuel with
  | zero => rfl
  | succ fuel =>
    unfold State.skipFlat
    rw [runs]
    dsimp only
    rw [long]
    exact if_pos (.inr rfl)

theorem execResumeTick_reached {r : Run} {rest : List Run} {k : Nat} {u : State} (runs : (s.site n).runs = r :: rest)
    (kind : r.kind = .barrier k) (waits : (s.site n).st = .waiting) (tick : k ≤ s.clk.frames)
    (played : (s.site n).f0 + ((s.site n).play.tu + 319999) / 320000 ≤ s.clk.frames)
    (resumes : s.resumeSite n (max k ((s.site n).f0 + ((s.site n).play.tu + 319999) / 320000)) = u) :
    execResumeTick n s = .next (u.judgeLead n (u.site n).issuedLast) := by
  have barrier : (s.site n).barrier = some (max k ((s.site n).f0 + ((s.site n).play.tu + 319999) / 320000)) := by
    obtain ⟨what⟩ := r
    subst kind
    unfold Site.barrier
    rw [runs]
  unfold execResumeTick
  dsimp only
  rw [State.skipFlat_barrier runs kind, barrier]
  dsimp only
  rw [if_pos ⟨waits, show _ ≤ s.clk.frames from max_le tick played⟩, resumes]

theorem execVerdictRecord_due {d : Drain} {bin t : Nat} {src : Bool} (drain : (s.site n).drain = some d) (kind : d.kind = .seal bin src)
    (decided : d.decided = some t) (waits : (s.site n).st = .waiting) (later : t + 1 ≤ s.clk.frames) :
    execVerdictRecord n s = .next ((s.sealSite n (s.sealOutcome n) bin src).playOut n) := by
  obtain ⟨what, entered, tick, index⟩ := d
  subst kind decided
  unfold execVerdictRecord
  rw [drain]
  exact if_pos ⟨waits, later⟩

theorem execPlayoutEnd_due (playout : (s.site n).playout = true) (runs : (s.site n).runs = []) (queue : (s.site n).queue = [])
    (ended : (s.site n).play.lastEnd ≤ s.frameEnd n) :
    execPlayoutEnd n s
      = .next ((s.park n (s.site n).play.lastEnd).modSite n fun y => { y.flag flagPlayout false with playout := false }) :=
  if_pos ⟨playout, by rw [runs]; rfl, by rw [queue]; rfl, ended⟩

end Waits

/-- Settles O37: each wait ends as its lemma says where its condition holds. The decision tick is the row's tick (log 32), a site that agrees with
itself posts for itself (log 36), and the agreement is charged 4 cycles (log 158). -/
theorem waitsEnd : Obligations.WaitsEnd := by
  unfold Obligations.WaitsEnd
  intro s n x
  refine ⟨execStartTakesEffect_due, fun d drain waits later undecided drained => ⟨fun sense target pop clrf kind => ?_, fun bin src kind => ?_,
      fun kind => ?_⟩,
    fun matching => ⟨execMatched_found matching, fun missing expired => ?_⟩, fun y d syncing drain => ⟨fun unposted later drained => ?_,
      fun t v agreement reached => ?_, fun p posted expired unagreed => ?_⟩, fun r rest k runs kind waits tick played => ?_,
    fun d bin src t drain kind decided waits later => ?_, execPlayoutEnd_due⟩
  · exact execDrainDecision_jfail drain waits later undecided drained kind
  · exact execDrainDecision_seal drain waits later undecided drained kind
  · exact execDrainDecision_halt drain waits later undecided drained kind
  · exact execMatchTimeout_expired rfl matching missing expired
  · exact execSyncPost_due syncing drain unposted later drained rfl
  · exact execSyncAgreement_reached syncing agreement reached rfl rfl
  · exact execSyncTimeout_expired syncing posted expired unagreed
  · exact execResumeTick_reached runs kind waits tick played rfl
  · exact execVerdictRecord_due drain kind decided waits later

end Sys2Proof.Machine
end

section
/-! SUPPORT. The vector path: descriptors taken, lines read, vectors started (R134, R138, R165). -/

namespace Sys2Proof.Machine

/-! ### Sites and pins read after they are written -/

/-- A site written with a value that is not the default is read as written. -/
theorem State.site_setSite (s : State) (n : Nat) {x : Site} (listed : x ≠ {}) : (s.setSite n x).site n = x := by
  show Table.get {} (Table.set {} s.sites n x) n = x
  unfold Table.set
  rw [if_neg listed]
  exact Table.get_insert_self _ _ _ _

theorem Site.ne_default_of_runs {x : Site} {r : Run} {rest : List Run} (runs : x.runs = r :: rest) : x ≠ {} := by
  intro bad
  rw [bad] at runs
  cases runs

/-- A pin written with a value that is not the default is read as written. -/
theorem State.pin_setPin (s : State) (p : Nat) {q : Pin} (listed : q ≠ {}) : (s.setPin p q).pin p = q := by
  show Table.get {} (Table.set {} s.pins p q) p = q
  unfold Table.set
  rw [if_neg listed]
  exact Table.get_insert_self _ _ _ _

theorem State.pin_setPin_of_ne (s : State) {p i : Nat} (q : Pin) (other : p ≠ i) : (s.setPin p q).pin i = s.pin i :=
  Table.get_set_of_ne _ _ other _

/-! ### The fetch unit takes a descriptor (R134) -/

section Take

variable {s : State} {n : Nat} {d : Desc} {rest : List Desc}

/-- Nothing goes with a descriptor before it where the queue begins with one that is not released or that needs a run entry. -/
theorem State.takeFree_of_head {k : Nat} (stays : ∀ e more, (s.site n).queue = e :: more → e.released = false ∨ e.counts = true) :
    s.takeFree n k = s := by
  cases k with
  | zero => rfl
  | succ k =>
    unfold State.takeFree
    rcases queue : (s.site n).queue with _ | ⟨e, more⟩
    · rfl
    · refine if_neg ?_
      rcases stays e more queue with h | h <;> simp [h]

/-- What a run entry does to the pins of its site leaves the site. -/
theorem State.takePins_site (t : State) (m serial : Nat) (k : DescKind) : (t.takePins m serial k).site n = t.site n := by
  have sites : (t.takePins m serial k).sites = t.sites :=
    (State.takePins_keeps (k := (· = .pins)) rfl Keeps.refl).parts .sites (by decide)
  unfold State.site
  rw [sites]

/-- The site once the descriptor at the head of its queue is a run entry. -/
abbrev State.taking (s : State) (n : Nat) (d : Desc) (rest : List Desc) : Site :=
  { s.site n with
    queue := rest, runSerial := (s.site n).runSerial + 1,
    runs := (s.site n).runs ++ [{ kind := d.kind, epoch := d.epoch, taint := d.taint, serial := (s.site n).runSerial, flip := d.flip,
                                  skip := s.streamingPins n }] }

theorem State.takeHead_eq (queue : (s.site n).queue = d :: rest) :
    s.takeHead n = (s.setSite n (s.taking n d rest)).takePins n (s.site n).runSerial d.kind := by
  unfold State.takeHead
  dsimp only
  rw [queue]

theorem State.takeHead_queue (queue : (s.site n).queue = d :: rest) : ((s.takeHead n).site n).queue = rest := by
  have listed : s.taking n d rest ≠ {} := by
    intro bad
    have runs : (s.taking n d rest).runs = [] := by rw [bad]
    exact List.append_ne_nil_of_right_ne_nil _ (by simp) runs
  rw [State.takeHead_eq queue, State.takePins_site, State.site_setSite _ _ listed]

theorem execDescriptorTake_head {n : SiteId} (queue : (s.site n).queue = d :: rest) (released : d.released = true) (counts : d.counts = true)
    (room : (s.site n).runCount < 256) (words : s.wordsFull n d.kind = false)
    (next : ∀ e more, rest = e :: more → e.released = false ∨ e.counts = true) :
    execDescriptorTake n s = .next ((s.setSite n (s.taking n d rest)).takePins n (s.site n).runSerial d.kind) := by
  have before : s.takeFree n (s.site n).queue.length = s := State.takeFree_of_head fun e more h => by
    rw [queue] at h
    cases h
    exact .inr counts
  have after : ∀ k, (s.takeHead n).takeFree n k = s.takeHead n := fun k => State.takeFree_of_head fun e more h => by
    rw [State.takeHead_queue queue] at h
    exact next e more h
  unfold execDescriptorTake
  dsimp only
  rw [before, queue]
  dsimp only
  rw [if_pos ⟨released, room, by rw [words]; rfl⟩, after, State.takeHead_eq queue]

end Take

/-! ### The fetch states noted (R137) -/

/-- A pin whose feeds have other fetch states. -/
def Pin.refetch (q : Pin) (g : Feed → Nat) : Pin := { q with feeds := q.feeds.map fun f => { f with fetch := g f } }

theorem Pin.refetch_self (q : Pin) : q.refetch (·.fetch) = q := by
  unfold Pin.refetch
  rw [List.map_id']

theorem Pin.refetch_refetch (q : Pin) (g h : Feed → Nat) : (q.refetch g).refetch h = q.refetch fun f => h { f with fetch := g f } := by
  unfold Pin.refetch
  rw [List.map_map]
  rfl

/-- The feed of a session, but for its fetch state. -/
theorem Pin.feedOf_refetch {q : Pin} {g : Feed → Nat} {no : Nat} {f : Feed} (h : q.feedOf no = some f) :
    (q.refetch g).feedOf no = some { f with fetch := g f } := by
  unfold Pin.feedOf at *
  show List.find? _ (q.feeds.map _) = _
  rw [List.find?_map]
  exact congrArg (Option.map _) h

/-- A state that differs only in fetch states of feeds. -/
structure State.Refetched (s t : State) : Prop where
  rest : t = { s with pins := t.pins }
  pins : ∀ p, ∃ g, t.pin p = (s.pin p).refetch g

theorem State.Refetched.refl (s : State) : s.Refetched s := ⟨rfl, fun _ => ⟨_, (Pin.refetch_self _).symm⟩⟩

theorem State.Refetched.trans {s t u : State} (h : s.Refetched t) (k : t.Refetched u) : s.Refetched u := by
  refine ⟨?_, fun p => ?_⟩
  · rw [k.rest, h.rest]
  · obtain ⟨g, hg⟩ := h.pins p
    obtain ⟨g', hg'⟩ := k.pins p
    exact ⟨_, by rw [hg', hg, Pin.refetch_refetch]⟩

theorem State.Refetched.modPin {s : State} {p : Nat} {g : Feed → Nat}
    (feeds : (s.pin p).feeds ≠ []) :
    s.Refetched (s.modPin p fun q => q.refetch g) := by
  refine ⟨rfl, fun i => ?_⟩
  by_cases same : p = i
  · subst same
    refine ⟨g, State.pin_setPin _ _ fun bad => feeds ?_⟩
    exact List.map_eq_nil_iff.mp (congrArg Pin.feeds bad)
  · exact ⟨_, (State.pin_setPin_of_ne _ _ same).trans (Pin.refetch_self _).symm⟩

theorem State.Refetched.each {s : State} {l : List Nat} {f : State → Nat → State} (step : ∀ (s : State) (p : Nat), s.Refetched (f s p)) : s.Refetched (s.each l f) := by
  induction l generalizing s with
  | nil => exact .refl s
  | cons p l ih => exact (step s p).trans ih

/-- Noting the fetch states of a site changes the fetch state of the site and those of its feeds. -/
theorem State.noteFetch_refetched (s : State) (n : Nat) :
    (s.modSite n fun x => { x with play := { x.play with fetch := s.fetchState n } }).Refetched (s.noteFetch n) := by
  refine State.Refetched.each fun t p => ?_
  rcases feeds : (t.pin p).feeds with _ | ⟨f, more⟩
  · exact .refl t
  · exact State.Refetched.modPin (g := t.feedState n p) (by rw [feeds]; simp)

section Refetched

variable {s t : State} (h : s.Refetched t)
include h

theorem State.Refetched.site (n : Nat) : t.site n = s.site n := by rw [h.rest]; rfl

theorem State.Refetched.sitePins (n : Nat) : t.sitePins n = s.sitePins n := by rw [h.rest]; rfl

theorem State.Refetched.reads : t.reads = s.reads := by rw [h.rest]

theorem State.Refetched.slotsTaken (n p : Nat) : t.slotsTaken n p = s.slotsTaken n p := by
  obtain ⟨g, pin⟩ := h.pins p
  unfold State.slotsTaken State.pinCount Pin.slotsHeld
  rw [h.site, h.sitePins, pin]
  simp only [Pin.refetch, List.map_map]
  rfl

theorem State.Refetched.runReady (n : Nat) : t.runReady n = s.runReady n := by
  have slots : t.slotsTaken n = s.slotsTaken n := funext (h.slotsTaken n)
  unfold State.runReady State.pinCount
  rw [h.site, h.sitePins, slots]

end Refetched

/-- A site with runs changed but for its runs. -/
theorem State.runReady_modSite {s : State} {n : Nat} {f : Site → Site} (runs : (f (s.site n)).runs = (s.site n).runs)
    (filled : (s.site n).runs ≠ []) : (s.modSite n f).runReady n = s.runReady n := by
  have listed : f (s.site n) ≠ {} := fun bad => filled (by rw [← runs, bad])
  have site : (s.modSite n f).site n = f (s.site n) := State.site_setSite _ _ listed
  have slots : (s.modSite n f).slotsTaken n = s.slotsTaken n := by
    funext p
    unfold State.slotsTaken
    dsimp only
    rw [site, runs]
    rfl
  unfold State.runReady
  dsimp only
  rw [site, runs, slots]
  rfl

theorem State.runs_of_runReady {s : State} {n : Nat} {r : Run} (ready : s.runReady n = some r) : (s.site n).runs ≠ [] := by
  intro empty
  unfold State.runReady at ready
  dsimp only at ready
  rw [empty] at ready
  cases ready

/-- The first run of a site with a line to read looks at nothing that noting its fetch states changes. -/
theorem State.runReady_noteFetch {s : State} {n : Nat} {r : Run} (ready : s.runReady n = some r) : (s.noteFetch n).runReady n = some r :=
  ((s.noteFetch_refetched n).runReady n).trans ((State.runReady_modSite rfl (State.runs_of_runReady ready)).trans ready)

/-! ### Line reads (R138, R270) -/

section Issue

variable {s : State} {o : Source} (first : firstSource s.sources = some o)
include first

theorem execLineReadIssue_first : execLineReadIssue s = .next ((s.noteFetch o.site).issueRead o) := by
  unfold execLineReadIssue
  rw [first]

theorem execLineReadIssue_run {r : Run} (run : o.feed = none) (ready : s.runReady o.site = some r) :
    ∃ t, execLineReadIssue s = .next t
      ∧ t.reads = s.reads ++ [{ who := .run o.site r.serial, line := r.issued, addr := o.addr, urgent := o.state == 2 }] := by
  refine ⟨_, execLineReadIssue_first first, ?_⟩
  have reads : (s.noteFetch o.site).reads = s.reads := (s.noteFetch_refetched o.site).reads
  unfold State.issueRead
  rw [run]
  dsimp only
  rw [State.runReady_noteFetch ready]
  exact congrArg (· ++ _) reads

theorem execLineReadIssue_stream {p no : Nat} {f : Feed} (stream : o.feed = some (p, no)) (held : (s.pin p).feedOf no = some f) :
    ∃ t, execLineReadIssue s = .next t
      ∧ t.reads = s.reads ++ [{ who := .stream p no, line := f.issued, addr := o.addr, urgent := o.state == 2 }] := by
  refine ⟨_, execLineReadIssue_first first, ?_⟩
  have reads : (s.noteFetch o.site).reads = s.reads := (s.noteFetch_refetched o.site).reads
  obtain ⟨g, pin⟩ := (s.noteFetch_refetched o.site).pins p
  have noted : ((s.noteFetch o.site).pin p).feedOf no = some { f with fetch := g f } := by
    rw [pin]
    exact Pin.feedOf_refetch held
  unfold State.issueRead
  rw [stream]
  dsimp only
  rw [noted]
  exact congrArg (· ++ _) reads

end Issue

theorem execLineReadReturn_served {s : State} {i : Nat} {flips : List (BitVec 640)} {o : MemRead} {v : State} {w : List Codeword × State}
    (read : s.reads[i]? = some o) (serves : s.serves o.cls i o.addr = true)
    (passes : ({ s.passOlder o.cls i o.addr with reads := (s.passOlder o.cls i o.addr).reads.eraseIdx i } : State) = v)
    (takes : v.takeLine o.addr flips = w) :
    execLineReadReturn i flips s = .next (((w.2.noteFetch (v.readSite o)).giveLine o w.1).noteFetch (v.readSite o)) := by
  unfold execLineReadReturn
  rw [read]
  dsimp only
  rw [if_neg (by rw [serves]; decide), passes, takes]

/-! ### Vectors and holds started (R165) -/

/-- A site that plays and whose next vector starts in the open frame is not held back. -/
theorem Site.startNext_open {x : Site} {limit : Nat} (playing : x.playing = true) (time : x.play.tu < limit) :
    ¬((!x.playing) = true ∨ x.play.tu ≥ limit) := by
  rw [playing]
  rintro (bad | bad)
  · cases bad
  · omega

theorem execVectorStart_of_start {s t : State} {n : SiteId} {inputs : List StrobeInput}
    (starts : s.startNext n (s.frameEnd n) inputs (2 * (s.site n).runs.length + 3 + 1) = some t) :
    execVectorStart n inputs s = .next t := by
  have fuel : (s.site n).fuel = 2 * (s.site n).runs.length + 3 + 1 := rfl
  unfold execVectorStart
  rw [fuel, starts]

section Start

variable {s : State} {n : SiteId} {inputs : List StrobeInput} {r : Run} {rest : List Run} (playing : (s.site n).playing = true)
  (time : (s.site n).play.tu < s.frameEnd n) (runs : (s.site n).runs = r :: rest) (good : flipResult r.flip ≠ 2)
include playing time runs good

theorem execVectorStart_hold {span : Nat} (kind : r.kind = .hold span) (long : span ≠ 0) :
    execVectorStart n inputs s = .next (s.playHold n span) := by
  refine execVectorStart_of_start ?_
  unfold State.startNext
  dsimp only
  rw [if_neg (Site.startNext_open playing time), runs]
  dsimp only
  rw [if_neg good, kind]
  exact if_neg long

theorem execVectorStart_repeat {c : Nat} (kind : r.kind = .repeat c) :
    execVectorStart n inputs s = .next ((s.playVec n r none inputs fun s _ p => ((s.pin p).lastCode, s)).setHead n
      (Run.stepped c)) := by
  refine execVectorStart_of_start ?_
  unfold State.startNext
  dsimp only
  rw [if_neg (Site.startNext_open playing time), runs]
  dsimp only
  rw [if_neg good, kind]

theorem execVectorStart_stream {f c : Nat} (kind : r.kind = .stream f c) (held : r.done < r.held (s.pinCount n) f c) :
    execVectorStart n inputs s = .next ((s.playVec n r none inputs fun s _ p =>
      if r.skip.contains p then ((s.pin p).lastCode, s) else s.popCode n p).setHead n (Run.stepped c)) := by
  refine execVectorStart_of_start ?_
  unfold State.startNext
  dsimp only
  rw [if_neg (Site.startNext_open playing time), runs]
  dsimp only
  rw [if_neg good, kind]
  exact if_pos held

theorem execVectorStart_literal {d : Word32} {a1 a0 c slot : Nat} (kind : r.kind = .literal d a1 a0 c slot) {v : State}
    (stamps : (if r.done = 0 then match (s.sitePins n)[slot]? with
        | some p => s.modPin p fun q => { q with words := stampWord r.serial (s.site n).play.tu q.words }
        | none => s
      else s) = v) :
    execVectorStart n inputs s = .next ((v.playVec n r none inputs fun t k p =>
      if k = slot ∧ !t.microPin n p (s.site n).play.tu then (literalCode d a1 a0 c r.done, t) else ((t.pin p).lastCode, t)).setHead n
        (Run.stepped c)) := by
  refine execVectorStart_of_start ?_
  unfold State.startNext
  dsimp only
  rw [if_neg (Site.startNext_open playing time), runs]
  dsimp only
  rw [if_neg good, kind]
  subst stamps
  rfl

end Start

/-- A starved site whose next frame is held resumes at the tick (R147). -/
theorem execStarveResume_held {s : State} {n : SiteId} {e : Nat} (starved : (s.site n).play.starvedFrom = some e) (due : e ≤ s.tickTu n)
    (held : s.frameHeld n (s.tickTu n) = true) (live : (s.site n).st.live = true) : execStarveResume n s = .next (s.unstarve n) := by
  refine if_pos ⟨?_, live⟩
  unfold State.starveOver
  rw [starved, held]
  simp [due]

theorem State.unstarve_eq {s : State} {n e : Nat} (starved : (s.site n).play.starvedFrom = some e) :
    s.unstarve n = ((s.holdMarker n (s.tickTu n - e) (s.tickTu n)).count (0x6100 + n) 7 (s.tickTu n - e)).modSite n fun x =>
      { x with play := { x.play with starvedFrom := none, tu := s.tickTu n, holdTu := x.play.holdTu + (s.tickTu n - e),
                                     starveTu := x.play.starveTu + (s.tickTu n - e) } } := by
  unfold State.unstarve
  rw [starved]

/-- Settles O38: each step of the path by its lemma for the entry, the source or the read that it takes. -/
theorem vectorPathMoves : Obligations.VectorPathMoves := by
  unfold Obligations.VectorPathMoves
  intro s n x
  refine ⟨fun d rest queue released counts room words next => ?_, fun o first => ⟨fun r run ready => ?_, fun p no f stream held => ?_⟩,
    fun i flips o read serves => ?_, fun inputs r rest playing time runs good => ⟨fun span kind long => ?_, fun c kind => ?_,
      fun f c kind held => ?_, fun d a1 a0 c slot kind => ?_⟩, fun e starved due held live => ?_⟩
  · exact execDescriptorTake_head queue released counts room words next
  · exact execLineReadIssue_run first run ready
  · exact execLineReadIssue_stream first stream held
  · exact execLineReadReturn_served read serves rfl rfl
  · exact execVectorStart_hold playing time runs good kind long
  · exact execVectorStart_repeat playing time runs good kind
  · exact execVectorStart_stream playing time runs good kind held
  · exact execVectorStart_literal playing time runs good kind rfl
  · exact (execStarveResume_held starved due held live).trans (congrArg Host.Outcome.next (State.unstarve_eq starved))

end Sys2Proof.Machine
end

section
/-! SUPPORT. Tasks placed, and serial sessions. -/

namespace Sys2Proof.Machine

/-! ### The Innkeeper and the control store (R90, R104, R120, R121) -/

theorem execDispatch_first {s : State} {i e : Nat} (awake : s.mode ≠ .sleep) (healthy : s.mode ≠ .safeHalt) (on : s.mode ≠ .off)
    (first : (s.readyList.findSome? fun i => (s.engineFor i).map fun e => (i, e)) = some (i, e))
    (ready : ((s.readEntry i).entry i).state = .ready) : execDispatch s = .next ((s.readEntry i).place i e) := by
  unfold execDispatch
  rw [if_neg (not_or.mpr ⟨awake, not_or.mpr ⟨healthy, on⟩⟩), first]
  dsimp only
  rw [if_pos ready]

theorem execCaravanStall_due {s : State} {c : Fin 256} (long : 1024 ≤ (s.caravan c).stalled) (once : (s.caravan c).stallRaised = false) :
    execCaravanStall c s = .next ((s.setCaravan c { s.caravan c with stallRaised := true }).raise 1605) :=
  if_pos ⟨long, by rw [once]; rfl⟩

/-- Settles O39: DISPATCH by the first entry that an engine may take, the others by their one branch. -/
theorem tasksArePlaced : Obligations.TasksArePlaced := by
  unfold Obligations.TasksArePlaced
  intro s
  refine ⟨fun i e awake healthy on first ready => ?_, fun c => rfl, fun c long once => ?_, fun closing => ?_⟩
  · exact execDispatch_first awake healthy on first ready
  · exact execCaravanStall_due long once
  · exact if_pos closing

/-! ### Serial sessions (R173-R180) -/

section Serial

variable {s : State} {n : PinId} {x : Serial}

theorem execSerialSessionStart_awaited {k c t : Nat} (site : s.pinSite n = some k) (awaits : (s.pin n).awaiting = some c)
    (vector : (s.pin n).sessionAt = some t) : execSerialSessionStart n s = .next (s.serialStart k n c t) := by
  unfold execSerialSessionStart
  dsimp only
  rw [site, awaits, vector]

variable (runs : (s.pin n).serial = some x)
include runs

theorem execSerialSessionEnd_due {k t : Nat} (site : s.pinSite n = some k) (exit : x.exitAt = some t) (due : t < s.frameEnd k) :
    execSerialSessionEnd n s = .next (s.serialEnd k n t) := by
  unfold execSerialSessionEnd
  rw [site, runs]
  dsimp only
  rw [exit]
  exact if_pos due

theorem execSerialLock_acquired (acquiring : x.rx = .acquiring) :
    execSerialLock n s = .next (((({ s with freeCtr := s.freeCtr + 1 }.modPin n fun q =>
      { q with serial := some { x.resync with rx := .locked, lockBy := none } })).setReg (pinObj n 1) 8
        ((Config.freeValue s.freeCtr % 60001 : Nat) - 30000)).raise 1614) := by
  unfold execSerialLock
  rw [runs]
  exact if_pos acquiring

theorem execSerialLockLost_locked {beat : Nat} (locked : x.rx = .locked) (inFrame : beat < 64) :
    execSerialLockLost n beat s = .next ((((s.modPin n fun q => { q with serial := some { x.resync with rx := .acquiring } }).bump
      (pinObj n 1) 6).raise 1615).failNow n beat) := by
  unfold execSerialLockLost
  rw [runs]
  exact if_pos ⟨locked, inFrame⟩

theorem execSerialLockTimeout_due {k t : Nat} (site : s.pinSite n = some k) (limit : x.lockBy = some t) (acquiring : x.rx = .acquiring)
    (due : t < s.frameEnd k) :
    execSerialLockTimeout n s = .next (((s.modPin n fun q => { q with serial := some { x with lockBy := none } }).raise 1615).failNow n
      ((t - (s.clk.frames - (s.site k).f0) * 320000) / 5000)) := by
  unfold execSerialLockTimeout
  rw [site, runs]
  dsimp only
  rw [limit]
  exact if_pos ⟨acquiring, due⟩

section Slip

variable {beat : Nat} {u : State} (locked : x.rx = .locked) (inFrame : beat < 64)
  (slips : (((s.modPin n fun q => { q with serial := some x.resync }).bump 0x6018 4).raise 1613).failNow n beat = u)
include locked inFrame slips

theorem execCdrSlip_capture {k : Nat} (site : u.pinSite n = some k) (captures : (u.cap k).st ≠ .idle) (serial : u.reg (capObj k) 1 = 1)
    (pin : (u.sitePins k)[u.nreg (capObj k) 3]? = some n.val) :
    execCdrSlip n beat s = .next (u.setCap k { u.cap k with gap := true }) := by
  unfold execCdrSlip
  rw [runs]
  dsimp only
  rw [if_pos ⟨locked, inFrame⟩, slips, site]
  exact if_pos ⟨captures, serial, pin⟩

theorem execCdrSlip_plain {k : Nat} (site : u.pinSite n = some k)
    (other : (u.cap k).st = .idle ∨ u.reg (capObj k) 1 ≠ 1 ∨ (u.sitePins k)[u.nreg (capObj k) 3]? ≠ some n.val) :
    execCdrSlip n beat s = .next u := by
  unfold execCdrSlip
  rw [runs]
  dsimp only
  rw [if_pos ⟨locked, inFrame⟩, slips, site]
  refine if_neg fun ⟨h1, h2, h3⟩ => ?_
  rcases other with h | h | h
  · exact h1 h
  · exact h h2
  · exact h h3

end Slip

section Words

variable {k : Nat} {g : SerialCfg} (site : s.pinSite n = some k) (cfg : s.serialCfg k x.cfg = some g)
include site cfg

theorem execSerialUnderrun_due {t : Nat}
    (instant : bitStart x.resumed g.ui (max (x.sentAt + (if x.streamed % 64 = 0 then 0 else 64 - x.streamed % 64)) x.holdUntil) + 1 = t)
    (stream : g.src = 3) (empty : ∀ f, (s.pin n).feedOf x.no = some f → f.fifo = []) (due : t ≤ s.frameEnd k)
    (active : s.parkedPin n (t - 1) = false) : execSerialUnderrun n s = .next (s.serialAdvance k n t) := by
  have queued : (((s.pin n).feedOf x.no).map (·.fifo.length)).getD 0 = 0 := by
    rcases feed : (s.pin n).feedOf x.no with _ | f
    · rfl
    · show f.fifo.length = 0
      rw [empty f feed]; rfl
  unfold execSerialUnderrun
  rw [site, runs]
  dsimp only
  rw [cfg]
  dsimp only
  rw [instant, queued, active]
  exact if_pos ⟨stream, rfl, due, rfl⟩

theorem execWordSlot_due {t : Nat} (instant : bitStart x.resumed g.ui (x.rest + 32 * x.slots) + 1 = t) (micro : g.src = 4)
    (due : t ≤ s.frameEnd k) (active : s.parkedPin n (t - 1) = false) : execWordSlot n s = .next (s.serialAdvance k n t) := by
  unfold execWordSlot
  rw [site, runs]
  dsimp only
  rw [cfg]
  dsimp only
  rw [instant, active]
  exact if_pos ⟨micro, due, rfl⟩

/-! #### Bits recovered (R175, R176, R178) -/

section Bits

variable {value : Bool} {beat ends : Nat}

/-- The bit received by a locked CDR within the frame is taken. -/
structure Serial.Takes (x : Serial) (s : State) (n : PinId) (k : Nat) (g : SerialCfg) (beat ends : Nat) : Prop where
  locked : x.rx = .locked
  inFrame : beat < 64
  active : s.parkedPin n (bitInstant ((s.clk.frames - (s.site k).f0) * 320000 + beat * 5000) ends g.ui) = false
  early : ∀ e, x.exitAt = some e → (s.clk.frames - (s.site k).f0) * 320000 + beat * 5000 + ends ≤ e

variable (takes : x.Takes s n k g beat ends)

omit runs site cfg in
include takes in
theorem Serial.Takes.passes : ¬(x.rx ≠ .locked ∨ s.parkedPin n (bitInstant ((s.now - (s.site k).f0) * 320000 + beat * 5000) ends g.ui) = true
    ∨ (match x.exitAt with | some e => decide (e < (s.now - (s.site k).f0) * 320000 + beat * 5000 + ends) | none => false) = true
    ∨ beat ≥ 64) := by
  obtain ⟨locked, inFrame, active, early⟩ := takes
  rintro (bad | bad | bad | bad)
  · exact bad locked
  · exact Bool.false_ne_true (active.symm.trans bad)
  · rcases exit : x.exitAt with _ | e
    · rw [exit] at bad; cases bad
    · rw [exit] at bad
      exact Nat.not_lt.mpr (early e exit) (of_decide_eq_true bad)
  · omega

/-- The session once a bit has been received. -/
abbrev Serial.counted (x : Serial) : Serial := { x with rxBits := x.rxBits + 1 }

include takes

theorem execSerialBitReceived_capture {j : Nat} {y : Serial} (mode : g.rx = 3)
    (bit : x.capBit.getD (x.counted.bitAt g.ui ((s.clk.frames - (s.site k).f0) * 320000 + beat * 5000 + ends)) = j)
    (joins : { x.counted with capture := x.capture ++ [value], capBit := some j } = y) (pending : y.capture.length ≠ 64) :
    execSerialBitReceived n value { beat := beat, ends := ends } s
      = .next ((s.rxBit n x).modPin n fun q => { q with serial := some y }) := by
  unfold execSerialBitReceived
  rw [site, runs]
  dsimp only
  rw [cfg]
  dsimp only
  refine (if_neg takes.passes).trans ((if_pos mode).trans ?_)
  subst bit joins
  exact if_neg pending

theorem execSerialBitReceived_word {j : Nat} {y : Serial} (mode : g.rx = 3)
    (bit : x.capBit.getD (x.counted.bitAt g.ui ((s.clk.frames - (s.site k).f0) * 320000 + beat * 5000 + ends)) = j)
    (joins : { x.counted with capture := x.capture ++ [value], capBit := some j } = y) (full : y.capture.length = 64) :
    execSerialBitReceived n value { beat := beat, ends := ends } s
      = .next (((s.rxBit n x).serialWord k n y g.ui j).modPin n fun q =>
          { q with serial := some { y with capture := [], capBit := some (j + 64) } }) := by
  unfold execSerialBitReceived
  rw [site, runs]
  dsimp only
  rw [cfg]
  dsimp only
  refine (if_neg takes.passes).trans ((if_pos mode).trans ?_)
  subst bit joins
  exact if_pos full

theorem execSerialBitReceived_ignored (mode : g.rx = 4) :
    execSerialBitReceived n value { beat := beat, ends := ends } s = .next (s.rxBit n x) := by
  unfold execSerialBitReceived
  rw [site, runs]
  dsimp only
  rw [cfg]
  dsimp only
  refine (if_neg takes.passes).trans ?_
  rw [if_neg (by omega), if_neg (by omega)]

section Checked

variable {y : Serial} {d : Option Bool} {u : State} (mode : g.rx = 1 ∨ g.rx = 2)
  (checks : (if g.rx = 1 then x.counted.rxPrbs g value else x.counted.rxLoop g ((s.rxBit n x).oct (0x6500 + n) 1) value) = (y, d))
  (bit : ((s.rxBit n x).modPin n fun q => { q with serial := some y }) = u)
include mode checks bit

theorem execSerialBitReceived_unchecked (unchecked : d = none) : execSerialBitReceived n value { beat := beat, ends := ends } s = .next u := by
  unfold execSerialBitReceived
  rw [site, runs]
  dsimp only
  rw [cfg]
  dsimp only
  refine (if_neg takes.passes).trans ?_
  rw [if_neg (by omega), if_pos mode, checks]
  dsimp only
  rw [unchecked, bit]

theorem execSerialBitReceived_checked {wrong : Bool} {w : State} (checked : d = some wrong)
    (counts : ((u.bump (pinObj n 1) 4).modSite k fun y =>
      { y with bitsDue := max y.bitsDue (u.clk.frames + 1 + (if beat ≤ 47 then 0 else 1)) }) = w) :
    execSerialBitReceived n value { beat := beat, ends := ends } s
      = .next (if wrong then (w.bump (pinObj n 1) 5).failNow n beat else w) := by
  unfold execSerialBitReceived
  rw [site, runs]
  dsimp only
  rw [cfg]
  dsimp only
  refine (if_neg takes.passes).trans ?_
  rw [if_neg (by omega), if_pos mode, checks]
  dsimp only
  rw [checked, bit]
  dsimp only
  rw [← counts]
  rfl

end Checked

end Bits

end Words

end Serial

/-- Settles O40: each event of a session by its lemma; FREQ_OFFSET is a free value (log 76). -/
theorem serialSessions : Obligations.SerialSessions := by
  unfold Obligations.SerialSessions
  intro s n q
  refine ⟨fun k c t site awaits vector => execSerialSessionStart_awaited site awaits vector, fun x runs => ⟨fun k t site exit due => ?_,
    fun acquiring => ?_, fun beat locked inFrame => ?_, fun k t site limit acquiring due => ?_, fun beat locked inFrame => ⟨fun k site cap serial pin => ?_,
      fun k site other => ?_⟩, fun k g site cfg => ⟨fun stream empty due active => ?_, fun micro due active => ?_,
      fun value beat ends locked inFrame active early => ⟨fun mode => ⟨fun opened => ?_, fun full => ?_⟩, fun mode => ?_,
        fun mode y d checks => ⟨fun unchecked => ?_, fun right => ?_, fun wrong => ?_⟩⟩⟩⟩⟩
  · exact execSerialSessionEnd_due runs site exit due
  · exact execSerialLock_acquired runs acquiring
  · exact execSerialLockLost_locked runs locked inFrame
  · exact execSerialLockTimeout_due runs site limit acquiring due
  · exact execCdrSlip_capture runs locked inFrame rfl site cap serial pin
  · exact execCdrSlip_plain runs locked inFrame rfl site other
  · exact execSerialUnderrun_due runs site cfg rfl stream empty due active
  · exact execWordSlot_due runs site cfg rfl micro due active
  · exact execSerialBitReceived_capture runs site cfg ⟨locked, inFrame, active, early⟩ mode rfl rfl opened
  · exact execSerialBitReceived_word runs site cfg ⟨locked, inFrame, active, early⟩ mode rfl rfl full
  · exact execSerialBitReceived_ignored runs site cfg ⟨locked, inFrame, active, early⟩ mode
  · exact execSerialBitReceived_unchecked runs site cfg ⟨locked, inFrame, active, early⟩ mode checks rfl unchecked
  · exact execSerialBitReceived_checked runs site cfg ⟨locked, inFrame, active, early⟩ mode checks rfl right rfl
  · exact execSerialBitReceived_checked runs site cfg ⟨locked, inFrame, active, early⟩ mode checks rfl wrong rfl

end Sys2Proof.Machine
end

section
/-! SUPPORT. Comparators, monitors and supplies. -/

namespace Sys2Proof.Machine

/-! ### Comparators (R191, R246, R475) -/

section Comparator

variable {s u : State} {n : PinId} {vtl above : Bool} {beat tap : Nat}

/-- In SAFE_HALT comparators and monitors stop. -/
theorem State.beatsStop_of_safeHalt (mode : s.mode = .safeHalt) : s.beatsStop = true := by
  unfold State.beatsStop
  rw [mode]
  rfl

theorem execComparatorEdge_of_stop (stop : s.beatsStop = true) : execComparatorEdge n vtl above beat tap s = .next s := if_pos (.inl stop)

variable (beats : s.beatsStop = false) (runs : (s.pin n).runs vtl = true) (inFrame : beat < 64) (inBeat : tap < 500)
  (ball : s.reg (pinObj n 11) 7 ≠ 1)
  (decides : (if vtl = true then s.setHeld n (s.pin n).heldTh (some above) beat tap
    else s.setHeld n (some above) (s.pin n).heldTl beat tap) = u)
include beats runs inFrame inBeat ball decides

/-- A first decision is no edge. -/
theorem execComparatorEdge_first (first : (if vtl = true then (s.pin n).heldTl else (s.pin n).heldTh) = none) :
    execComparatorEdge n vtl above beat tap s = .next u := by
  unfold execComparatorEdge
  dsimp only
  rw [beats, runs, first, decides, if_neg]
  · exact if_pos (.inl rfl)
  · rintro (bad | bad | bad | bad | bad | bad)
    · cases bad
    · cases bad
    · omega
    · omega
    · cases bad
    · exact ball bad

/-- A decision that changes is stamped while the pin is not parked. -/
theorem execComparatorEdge_stamped (changes : (if vtl = true then (s.pin n).heldTl else (s.pin n).heldTh) = some (!above))
    (active : u.parkedPin n ((u.clk.frames - (u.site ((u.pinSite n).getD 64)).f0) * 320000 + beat * 5000 + tap * 10) = false) :
    execComparatorEdge n vtl above beat tap s = .next (u.stamp n vtl above beat tap) := by
  unfold execComparatorEdge
  dsimp only
  rw [beats, runs, changes, decides, if_neg]
  · refine if_neg ?_
    rintro (bad | bad)
    · cases bad
    · exact Bool.false_ne_true (active.symm.trans bad)
  · rintro (bad | bad | bad | bad | bad | bad)
    · cases bad
    · cases bad
    · omega
    · omega
    · cases above <;> cases bad
    · exact ball bad

end Comparator

/-! ### Monitors (R203, R204) -/

section Monitor

variable {s : State} {n : PinId}

theorem execMonStateChange_of_stop {st beat : Nat} (stop : s.beatsStop = true) : execMonStateChange n st beat s = .next s := by
  unfold execMonStateChange
  dsimp only
  split
  · rfl
  · exact if_pos (.inl stop)

theorem execMonForced_of_stop (stop : s.beatsStop = true) : execMonForced n s = .next s := if_neg fun h => by
  rw [stop] at h
  exact Bool.false_ne_true h.1

section Take

variable {beat : Nat} {t : MonState} (beats : s.beatsStop = false) (on : (s.pin n).mon ≠ .off) (active : (s.pin n).suspended = false)
  (inFrame : beat < 64) (other : (s.pin n).mon ≠ t) (indicates : (s.pin n).indicates = some t)
  (long : (s.pin n).monSeen + s.nInForce (pinObj n 5) 2 ≤ s.clk.c + beat)
include beats on active inFrame other indicates long

/-- A state indicated for MON_FILTER beats is not put off. -/
theorem monStateChange_due : ¬(s.beatsStop = true ∨ (s.pin n).mon = .off ∨ (s.pin n).suspended = true ∨ (s.pin n).mon = t ∨ beat ≥ 64
    ∨ (s.pin n).indicates ≠ some t ∨ s.clk.c + beat < (s.pin n).monSeen + s.nInForce (pinObj n 5) 2) := by
  rw [beats, active]
  rintro (bad | bad | bad | bad | bad | bad | bad)
  · cases bad
  · exact on bad
  · cases bad
  · exact other bad
  · omega
  · exact bad indicates
  · omega

theorem execMonStateChange_inside (state : t = .inside) : execMonStateChange n 2 beat s = .next (s.monTake n t beat) := by
  subst state
  exact if_neg (monStateChange_due beats on active inFrame other indicates long)

theorem execMonStateChange_below (state : t = .below) : execMonStateChange n 3 beat s = .next (s.monTake n t beat) := by
  subst state
  exact if_neg (monStateChange_due beats on active inFrame other indicates long)

theorem execMonStateChange_above (state : t = .above) : execMonStateChange n 4 beat s = .next (s.monTake n t beat) := by
  subst state
  exact if_neg (monStateChange_due beats on active inFrame other indicates long)

end Take

theorem execMonForced_due {u : State} (beats : s.beatsStop = false) (undecided : (s.pin n).mon = .undecided)
    (active : (s.pin n).suspended = false) (long : (s.pin n).monSince + 125000 ≤ s.clk.frames)
    (holds : (s.monChanges n 64).setHeld n (some ((s.pin n).heldTh.getD false)) (some ((s.pin n).heldTl.getD true)) 64 0 = u) :
    execMonForced n s
      = .next (((u.modPin n fun q => { q with mon := .inside, monSince := s.clk.frames }).bump (pinObj n 5) 6).raise (pinEvent n 3)) := by
  unfold execMonForced
  dsimp only
  rw [if_pos ⟨by rw [beats]; rfl, undecided, by rw [active]; rfl, long⟩, holds]
  rfl

end Monitor

/-! ### Supplies (R206, R207, R461) -/

section Supply

variable {s : State} {m : Fin 9}

section Change

variable (on : s.mode ≠ .off)
include on

/-- A change to another state of a monitor is taken while the device has power. -/
theorem supplyMonChange_due {st : Nat} (low : 2 ≤ st) (high : st ≤ 4) (other : st ≠ s.nreg (supplyObj m) 4) :
    ¬(st < 2 ∨ st > 4 ∨ st = s.nreg (supplyObj m) 4 ∨ s.mode = .off) := by
  rintro (bad | bad | bad | bad)
  · omega
  · omega
  · exact other bad
  · exact on bad

theorem execSupplyMonChange_in (before : s.nreg (supplyObj m) 4 < 2) :
    execSupplyMonChange m 2 s = .next ((s.setNat (supplyObj m) 4 2).supplyEnds m) := by
  unfold execSupplyMonChange
  dsimp only
  rw [if_neg (supplyMonChange_due on (by omega) (by omega) (by omega)), if_pos rfl, if_neg (by omega)]

theorem execSupplyMonChange_back (before : 3 ≤ s.nreg (supplyObj m) 4) :
    execSupplyMonChange m 2 s = .next (((s.setNat (supplyObj m) 4 2).raise 1630).supplyEnds m) := by
  unfold execSupplyMonChange
  dsimp only
  rw [if_neg (supplyMonChange_due on (by omega) (by omega) (by omega)), if_pos rfl, if_pos before]

theorem execSupplyMonChange_out {st : Nat} {u : State} (out : st = 3 ∨ st = 4) (before : s.nreg (supplyObj m) 4 < 3)
    (alarms : ((s.setNat (supplyObj m) 4 st).bump (supplyObj m) 5).raise (1620 + m) = u)
    (fresh : u.handler.supply.any (·.1 = m.val) = false) :
    execSupplyMonChange m st s = .next (if supplyCore m = true then u.supplyFault m else u.taintLive) := by
  unfold execSupplyMonChange
  dsimp only
  rw [if_neg (supplyMonChange_due on (by omega) (by omega) (by omega)), if_neg (by omega), if_neg (by omega), alarms, fresh, if_neg (by decide)]
  split <;> rfl

end Change

theorem execSupplyMonForced_due (undecided : s.nreg (supplyObj m) 4 = 1) (on : s.mode ≠ .off)
    (long : Table.get 0 s.handler.undecided m + 125000 ≤ s.clk.frames) :
    execSupplyMonForced m s = .next ((((s.setNat (supplyObj m) 4 2).bump (supplyObj m) 6).raise 1629).supplyEnds m) :=
  if_pos ⟨undecided, on, long⟩

theorem execSupplyFaultTimeout_due {t : Nat} (out : s.handler.supply.find? (·.1 = m.val) = some (m.val, t)) (long : t + 1250 ≤ s.clk.frames) :
    execSupplyFaultTimeout m s = .next ((s.modHandler fun h => { h with supply := [] }).climb
      { ((s.faultOf 11).getD { resource := 11, level := 7, source := 1620 + m.val }) with level := 10, severity := 3 }) := by
  unfold execSupplyFaultTimeout
  rw [out]
  exact if_neg (Nat.not_lt.mpr long)

end Supply

/-- Settles O41: each change by its lemma. Comparators and monitors stop in SLEEP too, where the beat PLL is off (log 99). -/
theorem comparatorsAndMonitors : Obligations.ComparatorsAndMonitors := by
  unfold Obligations.ComparatorsAndMonitors
  intro s
  refine ⟨fun n vtl above beat tap beats runs inFrame inBeat ball => ⟨fun first => ?_, fun changes active => ?_⟩,
    fun halt => ⟨fun n vtl above beat tap => ?_, fun n st beat => ?_, fun n => ?_⟩,
    fun n beat t beats on active inFrame other indicates long => ⟨fun state => ?_, fun state => ?_, fun state => ?_⟩,
    fun n beats undecided active long => ?_, fun m on => ⟨fun old was low => ?_, fun old was high => ?_, fun st out before => ?_,
      fun undecided long => ?_, fun t out long => ?_⟩⟩
  · exact execComparatorEdge_first beats runs inFrame inBeat ball rfl first
  · exact execComparatorEdge_stamped beats runs inFrame inBeat ball rfl changes active
  · exact execComparatorEdge_of_stop (State.beatsStop_of_safeHalt halt)
  · exact execMonStateChange_of_stop (State.beatsStop_of_safeHalt halt)
  · exact execMonForced_of_stop (State.beatsStop_of_safeHalt halt)
  · exact execMonStateChange_inside beats on active inFrame other indicates long state
  · exact execMonStateChange_below beats on active inFrame other indicates long state
  · exact execMonStateChange_above beats on active inFrame other indicates long state
  · exact execMonForced_due beats undecided active long rfl
  · exact execSupplyMonChange_in on (was ▸ low)
  · exact execSupplyMonChange_back on (was ▸ high)
  · exact execSupplyMonChange_out on out before rfl
  · exact execSupplyMonForced_due undecided on long
  · exact execSupplyFaultTimeout_due out long

end Sys2Proof.Machine
end

section
/-! SUPPORT. Acquisition, and the gates and conversions of measurements. -/

namespace Sys2Proof.Machine

/-! ### Acquisition (R219, R224, R225) -/

section Acquisition

variable {s : State}

theorem execHoldoffEnd_due {n : SiteId} (runs : (s.cap n).st ≠ .idle) (phase : (s.cap n).phase = .holdoff)
    (passed : (s.cap n).holdoffEnd ≤ s.clk.frames) : execHoldoffEnd n s = .next (((s.retune n).openEntry n).enterPre n) :=
  if_pos ⟨runs, phase, passed⟩

theorem execAutoTrigger_due {n : SiteId} {f : Nat} (auto : (s.cap n).autoFrom = some f) (runs : (s.cap n).st = .capturing)
    (pre : (s.cap n).phase = .pre) (passed : 25 * s.nreg (capObj n) 7 ≤ 2 * (s.clk.frames + 1 - f)) :
    execAutoTrigger n s = .next (s.setCap n { s.cap n with forced := true, autoFrom := none }) := by
  unfold execAutoTrigger
  dsimp only
  rw [auto]
  exact if_pos ⟨runs, pre, passed⟩

theorem execRecordExported_acked {k : Nat} (packaged : (s.rcd k).stage = .packaged) (sent : (s.rcd k).unsent = false)
    (acked : (s.inFlight fun p => p.type == 0x06 && p.tag == k) = false) :
    execRecordExported k s = .next (s.setRec k { s.rcd k with stage := .exported }).freeRing :=
  if_pos ⟨packaged, by rw [sent]; rfl, by rw [acked]; rfl⟩

end Acquisition

/-! ### Gates that open (R251, R254) -/

section Gates

variable {s : State} {d : DefId} {t : Nat}

section Open

variable {a : Nat} (armed : (s.mdef d).st = .armed) (armAt : (s.mdef d).armAt = some a) (later : a ≤ t)
  (reached : (s.site (s.mdef d).site).f0 + t / 320000 ≤ s.clk.frames)
include later reached

theorem gateOpen_due : ¬(t < a ∨ (s.site (s.mdef d).site).f0 + t / 320000 > s.now) :=
  not_or.mpr ⟨Nat.not_lt.mpr later, Nat.not_lt.mpr reached⟩

include armed armAt

theorem execGateOpen_immediate (mode : (s.mdef d).val 10 = 0) (now : t = a) : execGateOpen d t s = .next (s.openGate d t false) := by
  unfold execGateOpen
  dsimp only
  rw [armed, armAt]
  dsimp only
  rw [if_neg (gateOpen_due later reached), mode]
  exact if_pos now

theorem execGateOpen_ext (mode : (s.mdef d).val 10 = 1) (opens : s.extOpens (s.mdef d) (s.site (s.mdef d).site).f0 a t = true) :
    execGateOpen d t s = .next (s.openGate d t false) := by
  unfold execGateOpen
  dsimp only
  rw [armed, armAt]
  dsimp only
  rw [if_neg (gateOpen_due later reached), mode]
  exact if_pos opens

theorem execGateOpen_late (mode : (s.mdef d).val 10 = 2) (now : t = a)
    (late : ofTime80 ((s.mdef d).val 12) < s.ptpOf (s.site (s.mdef d).site).f0 a) : execGateOpen d t s = .next (s.openGate d t true) := by
  unfold execGateOpen
  dsimp only
  rw [armed, armAt]
  dsimp only
  rw [if_neg (gateOpen_due later reached), mode]
  exact if_pos ⟨now, late⟩

theorem execGateOpen_target (mode : (s.mdef d).val 10 = 2) (beat : t % 5000 = 0) (after : a < t)
    (come : ofTime80 ((s.mdef d).val 12) ≤ s.ptpOf (s.site (s.mdef d).site).f0 t)
    (first : s.ptpOf (s.site (s.mdef d).site).f0 (t - 5000) < ofTime80 ((s.mdef d).val 12)) :
    execGateOpen d t s = .next (s.openGate d t false) := by
  unfold execGateOpen
  dsimp only
  rw [armed, armAt]
  dsimp only
  rw [if_neg (gateOpen_due later reached), mode]
  exact (if_neg fun h => Nat.ne_of_gt after h.1).trans (if_pos ⟨come, beat, .inr first⟩)

end Open

theorem execGateOpen_next (gate : (s.mdef d).st = .gate) (armed : (s.mdef d).armAt.isSome = true) (freq : (s.mdef d).mode = 5)
    (ext : (s.mdef d).val 10 = 1) (closed : (s.mdef d).counting = false) (after : (s.mdef d).after < t)
    (opens : s.extOpens (s.mdef d) (s.site (s.mdef d).site).f0 (s.mdef d).after t = true) :
    execGateOpen d t s = .next (s.setDef d { s.mdef d with counting := true, openAt := t }) := by
  obtain ⟨a, armAt⟩ := Option.isSome_iff_exists.mp armed
  unfold execGateOpen
  dsimp only
  rw [gate, armAt]
  exact if_pos ⟨freq, ext, by rw [closed]; rfl, after, opens⟩

/-! ### Gates that close (R251, R254) -/

section Close

/-- The gate input of a measurement goes inactive at t. -/
def State.gateEnds (s : State) (d t : Nat) : Prop :=
  (s.mdef d).val 10 = 1 ∧ s.gateActive ((s.mdef d).val 11) = false
    ∧ (t : Int) = s.evtTime (s.site (s.mdef d).site).f0 ((s.mdef d).val 11 % 8)

theorem State.gateEnds_iff (s : State) (d t : Nat) : ((s.mdef d).val 10 == 1 && !s.gateActive ((s.mdef d).val 11)
    && (t : Int) == s.evtTime (s.site (s.mdef d).site).f0 ((s.mdef d).val 11 % 8)) = true ↔ s.gateEnds d t := by
  unfold State.gateEnds
  simp only [Bool.and_eq_true, beq_iff_eq, Bool.not_eq_true', and_assoc]

variable (gate : (s.mdef d).st = .gate) (counting : (s.mdef d).counting = true) (opened : (s.mdef d).openAt ≤ t)
  (reached : (s.site (s.mdef d).site).f0 + t / 320000 ≤ s.clk.frames)
include gate counting opened reached

/-- A gate that counts is looked at. -/
theorem gateClose_due : ¬((s.mdef d).st ≠ .gate ∨ (!(s.mdef d).counting) = true ∨ t < (s.mdef d).openAt
    ∨ (s.site (s.mdef d).site).f0 + t / 320000 > s.now) := by
  rw [counting]
  rintro (bad | bad | bad | bad)
  · exact bad gate
  · cases bad
  · omega
  · exact Nat.not_lt.mpr reached bad

section Other

variable (mode : (s.mdef d).mode ≠ 5) (ends : t = (s.mdef d).openAt + 5000 * (s.mdef d).val 13 ∨ s.gateEnds d t)
include mode ends

theorem execGateClose_complete (idle : (s.mdef d).pair = none) :
    execGateClose d t s = .next ((s.setDef d ((s.mdef d).stale t)).completeMeas d t t) := by
  unfold execGateClose
  dsimp only
  rw [if_neg (gateClose_due gate counting opened reached), if_neg mode, if_pos (ends.symm.imp_left (s.gateEnds_iff d t).mpr), idle]
  rfl

theorem execGateClose_converting {y : Nat × Nat} (converts : (s.mdef d).pair = some y) :
    execGateClose d t s = .next (s.setDef d { s.mdef d with closeAt := some t }) := by
  unfold execGateClose
  dsimp only
  rw [if_neg (gateClose_due gate counting opened reached), if_neg mode, if_pos (ends.symm.imp_left (s.gateEnds_iff d t).mpr), converts]
  rfl

end Other

section Freq

variable (mode : (s.mdef d).mode = 5)
include mode

/-- Whether the gate of FREQ is short: of fewer than 800 beats, or ended before 4,000,000 tu. -/
def State.gateShort (s : State) (d t : Nat) : Prop :=
  (s.mdef d).val 13 < 800 ∨ (s.gateEnds d t ∧ t < (s.mdef d).openAt + 4000000)

theorem execGateClose_freq_short (short : s.gateShort d t) (ends : s.gateEnds d t ∨ t = (s.mdef d).openAt + 2 * (5000 * (s.mdef d).val 13)
      ∨ t = (s.mdef d).openAt + 5000 * (s.mdef d).val 13) :
    execGateClose d t s = .next ((s.setDef d ((s.mdef d).orFlags 64)).completeMeas d t t) := by
  unfold State.gateShort at short
  rw [← s.gateEnds_iff d t] at short ends
  unfold execGateClose
  dsimp only
  rw [if_neg (gateClose_due gate counting opened reached), if_pos mode,
    if_pos (ends.imp_right (Or.imp_right fun spans => ⟨short, spans⟩)), if_pos short]

theorem execGateClose_freq_full (full : ¬s.gateShort d t) (ends : s.gateEnds d t ∨ t = (s.mdef d).openAt + 2 * (5000 * (s.mdef d).val 13)) :
    execGateClose d t s = .next ((s.setDef d (s.mdef d)).completeMeas d t t) := by
  unfold State.gateShort at full
  rw [← s.gateEnds_iff d t] at full ends
  unfold execGateClose
  dsimp only
  rw [if_neg (gateClose_due gate counting opened reached), if_pos mode, if_pos (ends.imp_right Or.inl), if_neg full]

end Freq

end Close

end Gates

/-! ### Conversions (R247) -/

section Conversion

/-- The fine part of a conversion, from a free value: an even part of at most 8 tu, no sign where both edges share their tap (log 70). -/
abbrev vernierFine (y : MeasDef) (free a b : Nat) : Int :=
  if y.coinc = true then 0 else if a = b ∧ ¬(y.mode = 1 ∧ y.val 9 = 0) then ((2 * ((free % 9 : Nat) - 4) : Int).natAbs : Int)
    else 2 * ((free % 9 : Nat) - 4)

/-- A definition whose conversion has ended at `ended` with a total between its edges. -/
abbrev vernierConverted (y : MeasDef) (ended a b : Nat) (total : Rat) : MeasDef :=
  let x := { y with pair := none, after := ended, coinc := false }
  let x := if y.mode = 1 ∧ total = 0 then x.orFlags 1 else if y.mode = 1 ∧ total < 0 then x.orFlags 2 else x
  if 4000000 < max a b - min a b then x.orFlags 8 else x.convert total (min a b)

theorem execVernierDone_converted {s : State} {v : Fin 4} {e : Nat × MeasDef} {a b ended : Nat} {total : Rat} {z : MeasDef} {w : State}
    (found : s.defs.find? (fun e => e.2.vernier && e.2.conv == some v.val && e.2.pair.isSome) = some e)
    (pair : (s.mdef e.1).pair = some (a, b)) (now : (s.clk.frames - (s.site (s.mdef e.1).site).f0) * 320000 = ended)
    (sums : tuBetween a b + (vernierFine (s.mdef e.1) (Config.freeValue s.freeCtr) a b : Rat) = total)
    (converts : vernierConverted (s.mdef e.1) ended a b total = z) (puts : { s with freeCtr := s.freeCtr + 1 }.setDef e.1 z = w) :
    execVernierDone v s = .next (if z.closeAt.isSome = true ∨ z.openAt + 5000 * z.val 13 ≤ ended
      then w.completeMeas e.1 ended (z.closeAt.getD ended) else w.checkRepeat e.1 ended) := by
  subst now sums converts puts
  unfold execVernierDone
  rw [found]
  dsimp only
  rw [pair]
  exact (apply_ite Host.Outcome.next _ _ _).symm

end Conversion

/-- Settles O42: acquisition, gates and conversions by their lemmas. The fine part of a vernier result is even and at most 8 tu (log 70). -/
theorem acquisitionAndMeasurements : Obligations.AcquisitionAndMeasurements := by
  unfold Obligations.AcquisitionAndMeasurements
  refine ⟨fun s => ⟨fun n runs phase passed => execHoldoffEnd_due runs phase passed, fun n f auto runs pre passed => ?_,
      fun k packaged sent acked => execRecordExported_acked packaged sent acked⟩, fun s d t => ⟨fun a armed armAt later reached =>
      ⟨fun mode now => ?_, fun mode opens => ?_, fun mode now late => ?_, fun mode beat after come first early => ?_⟩,
    fun gate armed freq ext closed after opens => ?_, fun gate counting opened reached => ⟨fun mode ends => ⟨fun idle => ?_, fun y converts => ?_⟩,
      fun mode lasts => ⟨fun ends => ?_, fun short ends => ?_⟩, fun mode ends long late => ?_, fun mode ends short => ?_⟩,
    fun v e a b found => ?_⟩⟩
  · exact execAutoTrigger_due auto runs pre passed
  · exact execGateOpen_immediate armed armAt later reached mode now
  · exact execGateOpen_ext armed armAt later reached mode opens
  · exact execGateOpen_late armed armAt later reached mode now late
  · exact execGateOpen_target armed armAt later reached mode beat after come first
  · exact execGateOpen_next gate armed freq ext closed after opens
  · exact execGateClose_complete gate counting opened reached mode ends idle
  · exact execGateClose_converting gate counting opened reached mode ends converts
  · by_cases few : (s.mdef d).val 13 < 800
    · rw [if_pos few]
      exact execGateClose_freq_short gate counting opened reached mode (.inl few) (.inr (.inl ends))
    · rw [if_neg few]
      exact execGateClose_freq_full gate counting opened reached mode (not_or.mpr ⟨few, fun h => lasts h.1⟩) (.inr ends)
  · exact execGateClose_freq_short gate counting opened reached mode (.inl short) (.inr (.inr ends))
  · exact execGateClose_freq_full gate counting opened reached mode
      (not_or.mpr ⟨Nat.not_lt.mpr long, fun h => Nat.not_lt.mpr late h.2⟩) (.inl ends)
  · exact execGateClose_freq_short gate counting opened reached mode (short.imp_right fun early => ⟨ends, early⟩) (.inl ends)
  · intro y pair
    exact execVernierDone_converted found pair rfl rfl rfl rfl

end Sys2Proof.Machine
end

section
/-! SUPPORT. The channels of vector memory. -/

namespace Sys2Proof.Machine

/-! ### Alerts, replays and retrains (R281, R282) -/

section Channel

variable {s : State} {c : ChanId}

theorem execDramAlert_used {crc : Bool} (used : (s.chan c).mode = .serving ∨ (s.chan c).mode = .replay ∨ (s.chan c).mode = .retrain) :
    execDramAlert c crc s = .next ((s.bump (0x9001 + c) (if crc = true then 10 else 9)).memError c true) := if_pos used

theorem execReplayDone_ended {u : State} (counts : (s.bump (0x9001 + c) 11).raise 1673 = u) (mode : (s.chan c).mode = .replay)
    (level : (s.chan c).level = 1) (ends : s.memEnds c 1 = true) :
    execReplayDone c s = .next ((u.recovered (c + 1) (u.usSince (s.chan c).since)).serveAgain c) := by
  unfold execReplayDone
  dsimp only
  rw [if_pos ⟨mode, level, ends⟩, counts]

theorem execRetrainDone_converged (mode : (s.chan c).mode = .retrain) (level : (s.chan c).level = 2) (ends : s.memEnds c 2 = true) :
    execRetrainDone c s = .next (((s.recovered (c + 1) (s.usSince (s.chan c).since)).storeTraining c).serveAgain c) :=
  if_pos ⟨mode, level, ends⟩

theorem execRetrainTimeout_passed (mode : (s.chan c).mode = .retrain) (level : (s.chan c).level = 2)
    (passed : (s.chan c).since + 5000 ≤ s.clk.frames) : execRetrainTimeout c s = .next (s.memClimb c 4) := if_pos ⟨mode, level, passed⟩

theorem execEscalateWindowEnd_passed {t : Nat} (ended : (s.chan c).endedAt = some t) (passed : t + s.nInForce 0x9000 6 ≤ s.clk.frames) :
    execEscalateWindowEnd c s = .next (s.setChan c { s.chan c with level := 0, endedAt := none, bad := 0 }) := by
  unfold execEscalateWindowEnd
  dsimp only
  rw [ended]
  exact if_pos passed

end Channel

/-! ### Refresh, power-down and MR4 (R276, R277, R280) -/

section Rank

variable {s : State} {sc rank : Fin 4}

/-- The record of a rank of a subchannel. -/
abbrev State.rankRecord (s : State) (sc rank : Fin 4) : Rank := Table.get {} (s.chan (sc.val / 2)).ranks (4 * (sc.val % 2) + rank.val)

section Refresh

variable {held : Bool} {u v : State} (mode : (s.chan (sc.val / 2)).mode = .serving ∨ (s.chan (sc.val / 2)).mode = .replay
    ∨ (s.chan (sc.val / 2)).mode = .retrain ∨ (s.chan (sc.val / 2)).mode = .fenced)
  (fitted : rank.val < s.rankCount (sc.val / 2)) (due : (s.rankRecord sc rank).lastDue + (if (s.rankRecord sc rank).hot then 24 else 48) ≤ s.clk.frames)
include mode fitted due

/-- A refresh that falls due on a rank of a channel in use is owed. -/
theorem refreshDue_owed : ¬((s.chan (sc.val / 2)).mode = .absent ∨ (s.chan (sc.val / 2)).mode = .training ∨ (s.chan (sc.val / 2)).mode = .selfRefresh
    ∨ rank.val ≥ s.rankCount (sc.val / 2)
    ∨ s.now < (s.rankRecord sc rank).lastDue + (if (s.rankRecord sc rank).hot then 24 else 48)) := by
  rintro (bad | bad | bad | bad | bad)
  · rw [bad] at mode; simp at mode
  · rw [bad] at mode; simp at mode
  · rw [bad] at mode; simp at mode
  · exact Nat.not_lt.mpr bad fitted
  · exact Nat.not_lt.mpr due bad

variable (peaks : s.peak (0x9010 + sc.val) 7 (min 4 ((s.rankRecord sc rank).owed + 1)) = u)
  (owes : (u.modRank (sc.val / 2) (4 * (sc.val % 2) + rank.val) fun r =>
    { r with owed := min 4 ((s.rankRecord sc rank).owed + 1), lastDue := u.clk.frames }) = v)
include peaks owes

/-- A replay lets no refresh through. -/
theorem execRefreshDue_replay (replay : (s.chan (sc.val / 2)).mode = .replay) : execRefreshDue sc rank held s = .next v := by
  unfold execRefreshDue
  dsimp only
  rw [if_neg (refreshDue_owed mode fitted due), if_pos replay, peaks, ← owes]
  rfl

theorem execRefreshDue_served {w : State} (serves : (s.chan (sc.val / 2)).mode ≠ .replay)
    (units : v.refreshUnits (sc.val / 2) (4 * (sc.val % 2) + rank.val)
      (if held = true then [v.heldIndex sc.val (4 * (sc.val % 2) + rank.val)] else []) 5 = w) :
    execRefreshDue sc rank held s = .next (if (Table.get {} (w.chan (sc.val / 2)).ranks (4 * (sc.val % 2) + rank.val)).owed = 4
      then w.splitBurst sc.val (4 * (sc.val % 2) + rank.val) else w) := by
  unfold execRefreshDue
  dsimp only
  subst units owes
  rw [if_neg (refreshDue_owed mode fitted due), if_neg serves, peaks]
  exact (apply_ite Host.Outcome.next _ _ _).symm

end Refresh

theorem execPowerDown_idle (timer : s.nInForce 0x9000 4 ≠ 0) (mode : (s.chan (sc.val / 2)).mode = .serving)
    (fitted : rank.val < s.rankCount (sc.val / 2)) (up : (s.rankRecord sc rank).down = false)
    (idle : (s.rankRecord sc rank).lastUse + s.nInForce 0x9000 4 ≤ s.clk.frames) :
    execPowerDown sc rank s = .next ((s.setChan (sc.val / 2) { s.chan (sc.val / 2) with
      ranks := Table.set {} (s.chan (sc.val / 2)).ranks (4 * (sc.val % 2) + rank.val) { s.rankRecord sc rank with down := true } }).bump
        (0x9010 + sc.val) 9) := by
  refine if_neg ?_
  rintro (bad | bad | bad | bad | bad)
  · exact timer bad
  · exact bad mode
  · exact Nat.not_lt.mpr bad fitted
  · exact Bool.false_ne_true (up.symm.trans bad)
  · exact Nat.not_lt.mpr idle bad

end Rank

/-- Settles O43: each event of a channel or a rank by its lemma. MR4 of a fenced channel is not read (log 173), and the bank index that a burst holds
and the units discharged are log 72's. -/
theorem channelsAreServed : Obligations.ChannelsAreServed := by
  unfold Obligations.ChannelsAreServed
  intro s
  refine ⟨fun c => ⟨fun crc used => execDramAlert_used used, fun mode level ends => ?_, fun mode level ends => ?_, fun mode level passed => ?_,
    fun t ended passed => ?_⟩, fun sc rank => ⟨fun mode fitted due held => ⟨fun replay => ?_, fun serves => ?_⟩, fun timer mode fitted up idle => ?_⟩,
    fun hot tick => ?_⟩
  · exact execReplayDone_ended rfl mode level ends
  · exact execRetrainDone_converged mode level ends
  · exact execRetrainTimeout_passed mode level passed
  · exact execEscalateWindowEnd_passed ended passed
  · exact execRefreshDue_replay mode fitted due rfl rfl replay
  · exact execRefreshDue_served mode fitted due rfl rfl serves rfl
  · exact execPowerDown_idle timer mode fitted up idle
  · exact if_neg (not_not.mpr tick)

end Sys2Proof.Machine
end

section
/-! SUPPORT. Packets from the host, and the receive buffer that serves them (R290-R296). -/

namespace Sys2Proof.Machine

/-! ### The receive buffer is left by what is sent -/

/-- The link is left by what changes no part of it. -/
theorem Keeps.same_sl {k : Part → Prop} {s t : State} (h : Keeps k s t) (other : ¬k .link) : t.sl = s.sl := h.parts .link other

theorem State.startPacket_rx (s : State) (p : SlPacket) : (s.startPacket p).sl.rx = s.sl.rx := by
  have sl : (s.crossed 4 1 false).sl = s.sl := (State.crossed_keeps (k := fun _ => False) Keeps.refl).same_sl id
  show (s.crossed 4 1 false).sl.rx = s.sl.rx
  rw [sl]

theorem State.flushFrom_rx (s : State) (l : List SlPacket) : (s.flushFrom l).sl.rx = s.sl.rx := by
  induction l generalizing s with
  | nil => rfl
  | cons p t ih =>
    unfold State.flushFrom
    split
    · exact (ih _).trans (s.startPacket_rx p)
    · rfl

theorem State.slSend_rx (s : State) (p : SlPacket) : (s.slSend p).sl.rx = s.sl.rx := s.flushFrom_rx _

/-- A packet served leaves the receive buffer. -/
theorem State.popRx_rx (s : State) (status : Nat) (tag : Word32) : (s.popRx status tag).sl.rx = s.sl.rx.drop 1 := by
  unfold State.popRx
  dsimp only
  split
  · rfl
  · exact State.slSend_rx _ _

/-! ### The buffer served -/

theorem State.pumpRx_of_empty {s : State} (empty : s.sl.rx = []) (k : Nat) : s.pumpRx k = s := by
  cases k with
  | zero => rfl
  | succ k =>
    unfold State.pumpRx State.serveRx
    rw [empty]

/-- A packet alone in the buffer that is done in one step. -/
theorem State.pump_of_one {s t : State} {x : RxPacket} (rx : s.sl.rx = [x]) (serves : s.serveRx = some t) (done : t.sl.rx = []) :
    s.pump = t.holdOutNow := by
  have steps : s.sl.rxSteps = x.pkt.lines.length + x.pkt.count + 1 + 1 := by
    unfold Link.rxSteps
    rw [rx]
    rfl
  unfold State.pump
  rw [steps]
  unfold State.pumpRx
  rw [serves]
  dsimp only
  rw [State.pumpRx_of_empty done]

/-- A packet alone in the buffer that is done in two steps. -/
theorem State.pump_of_two {s t u : State} {x : RxPacket} (rx : s.sl.rx = [x]) (count : x.pkt.count = 1) (serves : s.serveRx = some t)
    (answers : t.serveRx = some u) (done : u.sl.rx = []) : s.pump = u.holdOutNow := by
  have steps : s.sl.rxSteps = x.pkt.lines.length + 1 + 1 + 1 := by
    unfold Link.rxSteps
    rw [rx, List.map_singleton, List.sum_singleton, count]
  unfold State.pump
  rw [steps]
  unfold State.pumpRx
  rw [serves]
  dsimp only
  unfold State.pumpRx
  rw [answers]
  dsimp only
  rw [State.pumpRx_of_empty done]

/-- A MEM_READ_REQ whose lines have all been read is answered. -/
theorem State.serveRx_read_done {t : State} {y : RxPacket} {rest : List RxPacket} (rx : t.sl.rx = y :: rest) (good : y.status = 0)
    (type : y.type = 2) (aligned : y.pkt.addr % 64 = 0) (few : y.pkt.count ≤ 32) (done : y.pkt.count ≤ y.served) :
    t.serveRx = some ((t.popRx 0 y.pkt.tag).slSend { type := 0x03, tag := y.pkt.tag.toNat, addr := y.pkt.addr, lines := y.got }) := by
  unfold State.serveRx
  rw [rx]
  dsimp only
  rw [if_neg (not_not.mpr good), type]
  exact (if_neg (by omega)).trans (if_pos done)

section Serve

variable {s : State} {p : Packet} {x : RxPacket} (rx : s.sl.rx = [x]) (pkt : x.pkt = p)
include rx pkt

theorem State.pump_refused (bad : x.status ≠ 0) : s.pump = (s.popRx x.status p.tag).holdOutNow := by
  refine State.pump_of_one rx ?_ (by rw [State.popRx_rx, rx]; rfl)
  unfold State.serveRx
  rw [rx]
  dsimp only
  rw [if_pos bad, pkt]

variable (good : x.status = 0)
include good

theorem State.pump_csWrite (type : x.type = 4) : s.pump = ((s.csWrite p).2.popRx (s.csWrite p).1 p.tag).holdOutNow := by
  have sl : (s.csWrite p).2.sl = s.sl := (State.csWrite_keeps (k := (· ≠ .link)) (by simp) (by simp) Keeps.refl).same_sl (by simp)
  refine State.pump_of_one rx ?_ (by rw [State.popRx_rx, sl, rx]; rfl)
  unfold State.serveRx
  rw [rx]
  dsimp only
  rw [if_neg (not_not.mpr good), type, pkt]
  rfl

theorem State.pump_tsetWrite (type : x.type = 5) : s.pump = ((s.tsetWrite p).2.popRx (s.tsetWrite p).1 p.tag).holdOutNow := by
  have sl : (s.tsetWrite p).2.sl = s.sl := (State.tsetWrite_keeps (k := (· ≠ .link)) (by simp) Keeps.refl).same_sl (by simp)
  refine State.pump_of_one rx ?_ (by rw [State.popRx_rx, sl, rx]; rfl)
  unfold State.serveRx
  rw [rx]
  dsimp only
  rw [if_neg (not_not.mpr good), type, pkt]
  rfl

variable (first : x.served = 0)
include first

/-- A MEM_WRITE of one line that X2 has room for. -/
theorem State.pump_memWrite {l : List Codeword} (type : x.type = 1) (lines : p.lines = [l]) (check : s.memWriteCheck p = 0)
    (room : s.x2Room p.addr = true) : s.pump = ((s.hostLine p.addr l).popRx 0 p.tag).holdOutNow := by
  have sl : (s.hostLine p.addr l).sl = s.sl :=
    (State.hostLine_keeps (k := (· ≠ .link)) (by simp) (by simp) (by simp) Keeps.refl).same_sl (by simp)
  have passes : s.nextLineCheck x = 0 := by
    unfold State.nextLineCheck
    rw [if_pos first, pkt, check]
  refine State.pump_of_one rx ?_ (by rw [State.popRx_rx, sl, rx]; rfl)
  unfold State.serveRx
  rw [rx]
  dsimp only
  rw [if_neg (not_not.mpr good), type]
  refine (if_neg (not_not.mpr passes)).trans ?_
  rw [pkt, lines, first, mul_zero, add_zero]
  refine (if_pos room).trans (congrArg some ?_)
  unfold State.writeNext
  dsimp only
  rw [first, pkt, lines]
  exact if_pos rfl

/-- A MEM_READ_REQ of one line in the turn of class 7. -/
theorem State.pump_memRead {w : List Codeword × State} {v : State} (type : x.type = 2) (aligned : p.addr % 64 = 0) (one : p.count = 1)
    (fresh : x.got = []) (turn : s.bulkTurn p.addr = true) (reads : (s.bulkSlot p.addr).readLine p.addr (x.flips.getD 0 []) = w)
    (crosses : w.2.crossed 1 1 false = v) :
    s.pump = (({ v with sl := { v.sl with rx := v.sl.rx.drop 1 } }).slSend
      { type := 0x03, tag := p.tag.toNat, addr := p.addr, lines := [w.1] }).holdOutNow := by
  have sl : v.sl = s.sl := by
    rw [← crosses, ← reads]
    exact (State.crossed_keeps (State.readLine_keeps (k := (· ≠ .link)) (by simp) (by simp) (by simp)
      (State.bulkSlot_keeps (by simp) Keeps.refl))).same_sl (by simp)
  have step : s.serveRx = some (v.lineServed { x with served := 1, got := [w.1] }) := by
    unfold State.serveRx
    rw [rx]
    dsimp only
    rw [if_neg (not_not.mpr good), type, pkt, first]
    refine (if_neg (by omega)).trans ((if_neg (by omega)).trans ((if_pos turn).trans ?_))
    rw [mul_zero, add_zero, reads, crosses, fresh]
    rfl
  refine State.pump_of_two rx (by rw [pkt, one]) step ?_ (by rw [State.slSend_rx, sl, rx]; rfl)
  refine (State.serveRx_read_done (y := { x with served := 1, got := [w.1] }) (rest := v.sl.rx.drop 1) rfl good type (by rw [pkt]; exact aligned)
    (by rw [pkt, one]; decide) (by rw [pkt]; exact one.le)).trans ?_
  rw [pkt]
  rfl

end Serve

/-! ### A packet on its arrival (R294, R295) -/

/-- A packet that has not been served has all its lines to serve. -/
theorem RxPacket.size_fresh (type : Nat) (p : Packet) (flips : List (List (BitVec 640))) :
    ({ type := type, pkt := p, flips := flips } : RxPacket).size = 24 + 72 * p.lines.length := by
  unfold RxPacket.size
  dsimp only
  rw [ite_self, Nat.sub_zero]

section Arrival

variable {z s : State} {p : Packet} {type : Nat} {flips : List (List (BitVec 640))} (blocks : z.blockErrors p.blockErrors = s)
  (up : s.linkState = 2)
include blocks up

theorem State.receive_badCrc (crc : crcMatches p type = false) : z.receive type p flips = s.badCrc := by
  unfold State.receive
  dsimp only
  rw [blocks, if_neg (not_not.mpr up), crc]
  rfl

variable (crc : crcMatches p type = true)
include crc

theorem State.receive_again (other : p.seq ≠ s.sl.expect) (seq : p.seq < 4096) (near : (s.sl.expect + 4096 - p.seq) % 4096 ≤ 2048) :
    z.receive type p flips = s.send (.ack ((s.sl.expect + 4095) % 4096)) := by
  unfold State.receive
  dsimp only
  rw [blocks, if_neg (not_not.mpr up), crc, if_neg (by decide), if_pos other, if_pos ⟨near, seq⟩]

theorem State.receive_gap (other : p.seq ≠ s.sl.expect) (far : 2048 < (s.sl.expect + 4096 - p.seq) % 4096) :
    z.receive type p flips = s.rejectPacket := by
  unfold State.receive
  dsimp only
  rw [blocks, if_neg (not_not.mpr up), crc, if_neg (by decide), if_pos other, if_neg fun h => Nat.not_lt.mpr h.1 far]

variable (due : p.seq = s.sl.expect)
include due

theorem State.receive_full (full : rxBytes < s.sl.rxUsed + (24 + 72 * p.lines.length)) :
    z.receive type p flips = ({ s with sl := { s.sl with nakked := false } } : State).rejectPacket := by
  unfold State.receive
  dsimp only
  rw [blocks, if_neg (not_not.mpr up), crc, if_neg (by decide), if_neg (not_not.mpr due), RxPacket.size_fresh]
  exact if_pos full

theorem State.receive_taken {u v : State} (room : s.sl.rxUsed + (24 + 72 * p.lines.length) ≤ rxBytes) (link : s.faultOf 3 = none)
    (accepts : { s with sl := { s.sl with expect := (p.seq + 1) % 4096, nakked := false, naks := 0 } } = u)
    (acks : ({ u with sl := { u.sl with rx := u.sl.rx ++
      [{ type := type, pkt := p, flips := flips, status := u.arrivalStatus type p }] } } : State).send (.ack p.seq) = v) :
    z.receive type p flips = ((v.crossed 3 v.sl.rxUsed true).holdOutNow).pump := by
  have fault : u.faultOf 3 = none := by rw [← accepts]; exact link
  unfold State.receive
  dsimp only
  rw [blocks, if_neg (not_not.mpr up), crc, if_neg (by decide), if_neg (not_not.mpr due), RxPacket.size_fresh, if_neg (Nat.not_lt.mpr room),
    accepts, fault]
  dsimp only
  rw [acks]

end Arrival

/-! ### The status of a packet (R294, R506) -/

theorem State.arrivalStatus_reserved {s : State} {type : Nat} {p : Packet} (other : [1, 2, 4, 5].contains type = false) :
    s.arrivalStatus type p = 0x0403 := by
  unfold State.arrivalStatus
  rw [other]
  rfl

section Status

variable {s : State} {type : Nat} {p : Packet} (known : [1, 2, 4, 5].contains type = true)
include known

theorem State.arrivalStatus_state (barred : s.packetAllowed (type == 4) = false) : s.arrivalStatus type p = 0x010A := by
  unfold State.arrivalStatus
  rw [known, barred]
  rfl

variable (allowed : s.packetAllowed (type == 4) = true)
include allowed

theorem State.arrivalStatus_fields (bad : p.reserved ≠ 0 ∨ p.poisonLines ≠ 0) : s.arrivalStatus type p = 0x0107 := by
  unfold State.arrivalStatus
  rw [known, allowed]
  exact if_pos bad

theorem State.arrivalStatus_good (reserved : p.reserved = 0) (poison : p.poisonLines = 0) : s.arrivalStatus type p = 0 := by
  unfold State.arrivalStatus
  rw [known, allowed]
  exact if_neg (not_or.mpr ⟨not_not.mpr reserved, not_not.mpr poison⟩)

end Status

/-- Settles O44: a packet's arrival and the service of the receive buffer by their lemmas. The 24 and 72 bytes and the service of the buffer are
log 131's, the NAK and the repeated ACK log 78's, the rank of reserved fields log 175's. -/
theorem packetsInOrder : Obligations.PacketsInOrder := by
  unfold Obligations.PacketsInOrder
  intro z p s up
  refine ⟨fun due link room => ?_, fun type => ⟨State.arrivalStatus_reserved, fun known => ⟨State.arrivalStatus_state known,
      State.arrivalStatus_fields known, State.arrivalStatus_good known⟩⟩,
    fun crc => ?_, fun crc => ?_, fun crc flips => ?_, fun crc => ?_, fun other seq crc => ⟨fun near => ?_, fun far => ?_⟩, fun full due crc => ?_,
    fun x rx pkt first fresh => ⟨State.pump_refused rx pkt, State.pump_csWrite rx pkt, State.pump_tsetWrite rx pkt,
      fun l good type lines check room => ?_, fun good type aligned one turn => ?_⟩⟩
  · intro u taken
    have accepts : ∀ type flips, crcMatches p type = true → Host.Outcome.next (z.receive type p flips) = taken type flips := fun type flips crc =>
      congrArg Host.Outcome.next (State.receive_taken rfl up crc due room link rfl rfl)
    refine ⟨accepts 1 [], fun crc flips => accepts 2 flips crc, accepts 4 [], accepts 5 [], fun type other crc => ?_⟩
    exact (if_neg (by rw [other]; decide)).trans (accepts type.toNat [] crc)
  · exact congrArg Host.Outcome.next (State.receive_badCrc rfl up crc)
  · exact congrArg Host.Outcome.next (State.receive_badCrc rfl up crc)
  · exact congrArg Host.Outcome.next (State.receive_badCrc rfl up crc)
  · exact congrArg Host.Outcome.next (State.receive_badCrc rfl up crc)
  · exact congrArg Host.Outcome.next (State.receive_again rfl up crc other seq near)
  · exact congrArg Host.Outcome.next (State.receive_gap rfl up crc other far)
  · exact congrArg Host.Outcome.next (State.receive_full rfl up crc due full)
  · exact State.pump_memWrite rx pkt good first type lines check room
  · exact State.pump_memRead rx pkt good first type aligned one fresh turn rfl rfl

end Sys2Proof.Machine
end

section
/-! SUPPORT. The link itself: acknowledgements, bring-up, failed lanes, widths and the Convoy (R295-R304). -/

namespace Sys2Proof.Machine

section Link

variable {s : State}

/-! ### Acknowledgements (R295) -/

theorem execSlAck_advances {seq : Nat} {keep : List (Nat × SlPacket)}
    (keeps : (s.sl.unacked.dropWhile fun e => decide ((seq + 4096 - e.1) % 4096 < 2048)) = keep) (up : 2 ≤ s.linkState)
    (enough : keep.length ≠ s.sl.unacked.length) (link : s.faultOf 4 = none) :
    execSlAck seq s = .next ({ s with sl := { s.sl with unacked := keep, ackAt := s.clk.frames, replays := 0 } }.settleExports.flush) := by
  have fault : ({ s with sl := { s.sl with unacked := keep, ackAt := s.now, replays := 0 } } : State).faultOf 4 = none := link
  unfold execSlAck
  dsimp only
  rw [keeps, if_neg (not_or.mpr ⟨Nat.not_lt.mpr up, enough⟩), fault]
  rfl

theorem execSlNak_up {seq : Nat} (up : s.linkState = 2) (enough : s.sl.unacked ≠ []) : execSlNak seq s = .next (s.replayOnce seq) :=
  if_neg (not_or.mpr ⟨not_not.mpr up, fun empty => enough (List.isEmpty_iff.mp empty)⟩)

theorem execSlAckTimeout_passed {e : Nat × SlPacket} {rest : List (Nat × SlPacket)} (unacked : s.sl.unacked = e :: rest) (up : s.linkState = 2)
    (passed : s.sl.ackAt + 125 ≤ s.clk.frames) : execSlAckTimeout s = .next (s.replayOnce e.1) := by
  unfold execSlAckTimeout
  rw [unacked]
  exact if_pos ⟨up, passed⟩

/-! ### Bring-up (R292) -/

section Bringup

variable {lo hi v : Nat} (down : s.linkState < 2) (first : s.sl.retrain = false) (runs : s.linkRuns = true) (common : min hi (s.nreg 0xA000 2) = v)
include down first runs common

theorem execSlBringupDone_none (fresh : v < max lo (s.nreg 0xA000 1)) :
    execSlBringupDone lo hi s = .next ((s.send (.versionBlock (s.nreg 0xA000 1) (s.nreg 0xA000 2))).linkDown.raiseRanges 1684
      (s.nreg 0xA000 1) (s.nreg 0xA000 2) lo hi) := by
  unfold execSlBringupDone
  rw [first, runs, if_neg (by simp; omega)]
  dsimp only
  rw [common, if_pos fresh]

theorem execSlBringupDone_up {o u up : State} {rx tx : Nat} (enough : max lo (s.nreg 0xA000 1) ≤ v) (receives : hwWidth v s.rxFailed = rx)
    (transmits : hwWidth v s.txFailed = tx) (rx0 : rx ≠ 0) (tx0 : tx ≠ 0) (sends : s.send (.versionBlock (s.nreg 0xA000 1) (s.nreg 0xA000 2)) = o)
    (sets : ((((o.setNat 0xA000 3 v).setNat 0xA000 4 2).setNat 0xA000 5 rx).setNat 0xA000 6 tx).setLanes (widthLanes v s.rxFailed rx) 2 = u)
    (recovers : (u.recovered 3 (u.usSince (((u.faultOf 3).map fun (f : FaultRec) => f.frame).getD u.clk.frames))).recovered 4
      (u.usSince (((u.faultOf 4).map fun (f : FaultRec) => f.frame).getD u.clk.frames)) = up) :
    execSlBringupDone lo hi s = .next (((up.deskew (widthLanes v up.rxFailed rx)).raise 1680).resume) := by
  unfold execSlBringupDone
  rw [first, runs, if_neg (by simp; omega)]
  dsimp only
  rw [common, if_neg (Nat.not_lt.mpr enough), receives, transmits, if_neg (not_or.mpr ⟨rx0, tx0⟩)]
  subst recovers sets sends
  rfl

end Bringup

/-! ### Failed lanes (R298) -/

theorem execLaneFail_clock {cause : Nat} (known : cause ≤ 3) (on : s.linkState ≠ 0) :
    execLaneFail 16 cause s = .next (((s.setFailed 65535 s.txFailed).raise 1681).loseLink 3) :=
  (if_neg (not_or.mpr ⟨on, Nat.not_lt.mpr known⟩)).trans (if_pos rfl)

/-- What the cause of a failed lane counts, case by case as the model has it. -/
def State.laneCause (s : State) (o cause : Nat) : State :=
  match cause with
  | 0 => s.bump o 2
  | 1 => s.bump o 3
  | 2 => s.count o 4 16
  | _ => s.free.2.setReg o 5 ((49 + s.free.1 % 79 : Nat) : Int)

theorem State.laneCause_eq (s : State) (o cause : Nat) : s.laneCause o cause
    = if cause = 0 then s.bump o 2 else if cause = 1 then s.bump o 3 else if cause = 2 then s.count o 4 16
      else { s with freeCtr := s.freeCtr + 1 }.setReg o 5 ((49 + Config.freeValue s.freeCtr % 79 : Nat) : Int) := by
  unfold State.laneCause
  split
  · rfl
  · rfl
  · rfl
  · rename_i h0 h1 h2
    rw [if_neg h0, if_neg h1, if_neg h2]
    rfl

/-- What follows once a failed lane is marked (R298, R299): the link is lost, or comes up without the lane, or degrades. -/
def State.laneMarked (s : State) : Out :=
  if hwWidth s.linkVersion s.rxFailed = 0 then .next (s.loseLink 3)
  else if s.linkState = 1 ∧ !s.sl.retrain then .next s
  else match s.sl.rxTarget with
    | some _ => .next s.startDegrade
    | none =>
      if (match s.faultOf 3 with | some f => f.level == 3 | none => false) then .next s
      else
        let s := if s.inForce 0x2100 8 = 1 then
          { s with sl := { s.sl with choiceBy := some (s.now + s.nInForce 0x2101 8), chosen := none, late := false } } else s
        match s.faultOf 3 with
        | some f => .next (s.climb { f with level := 3, source := 1681, severity := 2 })
        | none => .next (s.handFault { resource := 3, level := 3, source := 1681 })

theorem State.laneMarked_lost {u : State} (lost : hwWidth u.linkVersion u.rxFailed = 0) : u.laneMarked = .next (u.loseLink 3) := if_pos lost

theorem State.laneMarked_bringup {u : State} (width : hwWidth u.linkVersion u.rxFailed ≠ 0) (training : u.linkState = 1)
    (first : u.sl.retrain = false) : u.laneMarked = .next u :=
  (if_neg width).trans (if_pos ⟨training, by rw [first]; rfl⟩)

theorem State.laneMarked_degrades {u : State} (width : hwWidth u.linkVersion u.rxFailed ≠ 0) (runs : u.linkState ≠ 1 ∨ u.sl.retrain = true)
    (still : u.sl.rxTarget = none) (fresh : u.faultOf 3 = none) (hardware : u.inForce 0x2100 8 ≠ 1) :
    u.laneMarked = .next (u.handFault { resource := 3, level := 3, source := 1681 }) := by
  have notBringup : ¬(u.linkState = 1 ∧ (!u.sl.retrain) = true) := by
    rintro ⟨training, first⟩
    rcases runs with other | again
    · exact other training
    · rw [again] at first; cases first
  unfold State.laneMarked
  rw [if_neg width, if_neg notBringup, still]
  dsimp only
  rw [if_neg hardware, fresh]
  rfl

section Lane

variable {lane : Fin 17} {cause : Nat} {u v : State} (known : cause ≤ 3) (on : s.linkState ≠ 0) (data : lane.val < 16)
  (lit : s.nreg (0xA010 + lane.val) 1 = 1 ∨ s.nreg (0xA010 + lane.val) 1 = 2)
  (counts : (if cause = 0 then s.bump (0xA010 + lane.val) 2 else if cause = 1 then s.bump (0xA010 + lane.val) 3
    else if cause = 2 then s.count (0xA010 + lane.val) 4 16
    else { s with freeCtr := s.freeCtr + 1 }.setReg (0xA010 + lane.val) 5 ((49 + Config.freeValue s.freeCtr % 79 : Nat) : Int)) = v)
  (marks : ((v.setFailed (orBit v.rxFailed lane.val) v.txFailed).setNat (0xA010 + lane.val) 1 3).raise 1681 = u)

include known on data lit counts marks

/-- A data lane that carries traffic is marked, and then the width that is left decides. -/
theorem execLaneFail_marked : execLaneFail lane cause s = u.laneMarked := by
  have caused : s.laneCause (0xA010 + lane.val) cause = v := (s.laneCause_eq _ _).trans counts
  unfold execLaneFail
  rw [if_neg (not_or.mpr ⟨on, Nat.not_lt.mpr known⟩), if_neg (by omega), if_neg (by omega), ← marks, ← caused]
  rfl

end Lane

/-! ### Widths and SL_HOLD_IN (R297, R299) -/

theorem execSlDegradeDone_receive {w : Nat} {u : State} (degrading : s.linkState = 3) (target : s.sl.rxTarget = some w) (other : s.sl.txTarget = none)
    (takes : ((((s.setNat 0xA000 5 w).setLanes (widthLanes (s.nreg 0xA000 3) s.rxFailed w) 2).bump 0xA000 14).raise 1682).recovered 3
      (s.usSince (((s.faultOf 3).map fun (f : FaultRec) => f.frame).getD s.clk.frames)) = u) :
    execSlDegradeDone s = .next ((({ u with sl := { u.sl with rxTarget := none, txTarget := none } }).setNat 0xA000 4 2)).resume := by
  unfold execSlDegradeDone
  dsimp only
  rw [if_neg fun h => by omega, if_pos ⟨degrading, .inl (by rw [target]; rfl)⟩, target, other, ← takes]
  rfl

theorem execSlHoldIn_running {level : Bool} {u : State} (on : s.mode ≠ .off) (running : s.mode ≠ .coldStart ∨ s.start.step ≠ 1)
    (takes : { s with sl := { s.sl with holdIn := level, holdMoved := s.sl.holdMoved || level != s.sl.holdIn } } = u) :
    execSlHoldIn level s = .next (if level = true then u else u.flush) := by
  unfold execSlHoldIn
  rw [if_neg (not_or.mpr ⟨on, fun h => running.elim (fun r => r h.1) fun r => r h.2⟩), ← takes]

section Block

variable {b : WidthBlock} {u : State} {w : Nat} (up : 2 ≤ s.linkState)
  (marks : s.setFailed s.rxFailed (s.txFailed ||| b.failed.toNat) = u) (width : min (hwWidth (u.nreg 0xA000 3) u.txFailed) b.width = w)
include up marks width

theorem execWidthControlBlock_lost (lost : w = 0) : execWidthControlBlock b s = .next (u.loseLink 4) := by
  unfold execWidthControlBlock
  rw [if_neg (Nat.not_lt.mpr up)]
  dsimp only
  rw [marks, width, if_pos lost]

theorem execWidthControlBlock_degrades {v : State} (fits : w ≠ 0)
    (targets : ({ u with sl := { u.sl with txTarget := some w } }).setNat 0xA000 4 3 = v) (fresh : (v.faultOf 4).isSome = false) :
    execWidthControlBlock b s = .next (v.handFault { resource := 4, level := 3, source := 1682 }) := by
  unfold execWidthControlBlock
  rw [if_neg (Nat.not_lt.mpr up)]
  dsimp only
  rw [marks, width, if_neg fits, targets, fresh]
  rfl

end Block

/-! ### The Convoy (R304) -/

section Convoy

variable {w : ConvoyIn} {u : State} (service : s.mode = .service) (slips : (if w.slip = true then s.slipChain else s).crossed 7 1 false = u)
include service slips

theorem execConvoyWord_head (role : s.nreg 0xA100 1 = 1) : execConvoyWord w s = .next (u.headWord w.word.toNat) := by
  unfold execConvoyWord
  dsimp only
  rw [if_neg (by rw [service]; decide), if_neg (by rw [service, role]; decide), slips, if_pos role]

theorem execConvoyWord_member (role : s.nreg 0xA100 1 = 2) : execConvoyWord w s = .next (u.memberWord w.word.toNat w.beat w.fails) := by
  unfold execConvoyWord
  dsimp only
  rw [if_neg (by rw [service]; decide), if_neg (by rw [service, role]; decide), slips, if_neg (by rw [role]; decide)]

end Convoy

end Link

/-- Settles O45: each event of the link by its lemma. SKEW_UI is a free value of 49 to 127 (log 176), and a choice of the partner takes no more lanes
than the quads without a failed lane give (log 184). -/
theorem linkEvents : Obligations.LinkEvents := by
  unfold Obligations.LinkEvents
  intro s
  refine ⟨fun seq up advances link => execSlAck_advances rfl up advances link, fun seq => execSlNak_up, fun e rest => execSlAckTimeout_passed,
    fun lo hi down first runs => ⟨fun apart => ?_, fun common receives transmits => ?_⟩, fun cause known on => execLaneFail_clock known on,
    fun lane cause known on data lit => ?_, fun w degrading target other => execSlDegradeDone_receive degrading target other rfl,
    fun on running level => execSlHoldIn_running on running rfl, fun up => if_pos up,
    fun b up => ⟨fun lost => ?_, fun fits link => ?_⟩, fun w => ⟨fun halt => if_pos halt, fun service => ⟨fun role => ?_, fun role => ?_⟩⟩⟩
  · exact execSlBringupDone_none down first runs rfl apart
  · exact execSlBringupDone_up down first runs rfl common rfl rfl receives transmits rfl rfl rfl
  · intro v u
    have marked := execLaneFail_marked (v := v) (u := u) known on data lit rfl rfl
    clear_value u
    exact ⟨fun lost => marked.trans (State.laneMarked_lost lost),
      fun width training fresh => marked.trans (State.laneMarked_bringup width training fresh),
      fun width runs still fresh hardware => marked.trans (State.laneMarked_degrades width runs still fresh hardware)⟩
  · exact execWidthControlBlock_lost up rfl rfl lost
  · exact fun fresh => execWidthControlBlock_degrades up rfl rfl fits rfl fresh
  · exact execConvoyWord_head service rfl role
  · exact execConvoyWord_member service rfl role

end Sys2Proof.Machine
end

section
/-! SUPPORT. The ports of the ring (R318-R334) and its frames (R322-R324, R333-R337). -/

namespace Sys2Proof.Machine

section Ring

variable {s : State} {p : PortId} {f : RingFrame}

/-! ### Ports -/

theorem execSupervision_heard {m : SupMsg} (on : s.portState p.val ≠ 0) {t : State}
    (answer : (if f.overflow then s.dropFrame
      else if !f.good then (s.bump (portObj p.val) 8).modPort p.val fun x => { x with valid := 0 }
      else if f.etherType ≠ 0x88B5 then s.bump 0x1010 9
      else if m.port ≠ 1 - p.val then s.modPort p.val fun x => { x with valid := 0 }
      else s.supervised p.val m) = t) : execSupervision p f m s = .next t := by
  unfold execSupervision
  rw [if_neg on, ← answer]
  simp only [apply_ite Host.Outcome.next]

theorem execSupervisionSend_due (started : s.ring.started = true)
    (due : (s.port p.val).sentAt = none ∨ ∃ t, (s.port p.val).sentAt = some t ∧ t + 1250 ≤ s.clk.frames) {u : State} (rate : s.changeRate p.val = u)
    {want : Option Bool} (wanted : (u.port p.val).want.filter (u.mayChangeRate p.val) = want) {v : State}
    (marked : (u.modPort p.val fun x => { x with sentAt := some u.clk.frames, asked := x.asked || want.isSome,
                                                 answered := x.answered || x.request.isSome }) = v) :
    execSupervisionSend p s = .next ((v.sendUrgent p.val 64).ownFrame.send (.supervision p.val { v.ownHeader 2 255 16 with dual := false }
      { uid := u.uid, station := u.station, port := p.val, ringState := u.ringState, caps := 15,
        rateDown := want == some true, rateUp := want == some false,
        rateDownAck := (u.port p.val).request == some true, rateUpAck := (u.port p.val).request == some false })) := by
  have passed : (match (s.port p.val).sentAt with
      | some t => decide (s.now ≥ t + 1250)
      | none => true) = true := by
    rcases due with never | ⟨t, at_, late⟩
    · rw [never]
    · rw [at_]
      exact decide_eq_true late
  unfold execSupervisionSend
  dsimp only
  refine (if_pos ⟨started, passed⟩).trans ?_
  rw [rate, wanted]
  subst marked
  rfl

theorem execLinkLost_up (up : s.portState p.val = 1 ∨ s.portState p.val = 2 ∨ s.portState p.val = 3) :
    execLinkLost p s = .next (s.loseRingLink p.val) := if_pos (by simpa using up)

/-! ### Frames sent on (R324) -/

theorem State.sendOn_down {q bytes : Nat} {room : Bool} {m : Sent} (down : s.portUp q = false) : s.sendOn q bytes room m = s := by
  unfold State.sendOn
  rw [down]
  rfl

theorem State.sendOn_full {q bytes : Nat} {room : Bool} {m : Sent} (up : s.portUp q = true) (full : room = false ∨ 32768 < (s.egress q).fwd + bytes) :
    s.sendOn q bytes room m = s.bump (portObj q) 9 := by
  unfold State.sendOn
  rw [up, if_neg (by decide), if_pos]
  simpa [State.fwdRoom] using full

theorem State.sendOn_room {q bytes : Nat} {m : Sent} (up : s.portUp q = true) (fits : (s.egress q).fwd + bytes ≤ 32768) :
    s.sendOn q bytes true m = (s.modPort q fun _ => { s.egress q with fwd := (s.egress q).fwd + bytes }).send m := by
  unfold State.sendOn
  rw [up, if_neg (by decide), if_neg]
  simpa [State.fwdRoom] using fits

theorem execRingFrameForward_sends {room : Bool} (forward : (s.takeFrame p.val f).1.forward = true) : execRingFrameForward p f room s
    = .next ((s.takeFrame p.val f).2.sendOn (1 - p.val) (max 64 (34 + f.payload.length)) (room && f.room) (.frame (1 - p.val) (hopped f))) :=
  congrArg Host.Outcome.next (if_pos forward)

theorem execRingFrameForward_ends {room : Bool} (stays : (s.takeFrame p.val f).1.forward = false) :
    execRingFrameForward p f room s = .next (s.takeFrame p.val f).2 :=
  congrArg Host.Outcome.next (if_neg (by rw [stays]; decide))

/-! ### Walks (R335, R336) -/

section Walk

variable {m : WalkMsg} {k : Taken} {t u : State}

/-- Where a walk goes once this station has done what it does with it. -/
def State.walkOn (s : State) (q : Nat) (f : RingFrame) (m : WalkMsg) (forward acts : Bool) : State :=
  if forward = true ∧ s.portUp q = true then s.sendOn q (wireBytes (walkBytes m)) f.room (.walk q { hopped f with length := walkBytes m } m)
  else if acts = true ∧ s.ringState = 2 ∧ s.portUp q = false then s.returnWalk f m
  else s

theorem execWalk_acts (taken : s.takeFrame p.val { f with type := 3 } = (k, t)) (consume : k.consume = true)
    (noted : (t.setNat 0x1010 4 m.id).setNat 0x1010 3 m.records.length = u) (new : t.ring.walks.contains m.id = false) :
    execWalk p f m s = .next ((u.walked p.val m).1.walkOn (1 - p.val) f (u.walked p.val m).2 k.forward true) := by
  unfold execWalk State.walkOn
  simp only [taken, consume, new, noted, Bool.not_false, Bool.and_true, if_true, true_and, apply_ite Host.Outcome.next, Bool.not_eq_true']

theorem execWalk_again (taken : s.takeFrame p.val { f with type := 3 } = (k, t)) (consume : k.consume = true)
    (noted : (t.setNat 0x1010 4 m.id).setNat 0x1010 3 m.records.length = u) (seen : t.ring.walks.contains m.id = true) :
    execWalk p f m s = .next (u.walkOn (1 - p.val) f m k.forward false) := by
  unfold execWalk State.walkOn
  simp only [taken, consume, seen, noted, Bool.not_true, Bool.and_false, if_true, Bool.false_eq_true, if_false, false_and,
    apply_ite Host.Outcome.next]

theorem execWalk_passes (taken : s.takeFrame p.val { f with type := 3 } = (k, t)) (consume : k.consume = false) :
    execWalk p f m s = .next (t.walkOn (1 - p.val) f m k.forward false) := by
  unfold execWalk State.walkOn
  simp only [taken, consume, Bool.false_and, Bool.false_eq_true, if_false, false_and, apply_ite Host.Outcome.next]

theorem State.walkOn_sends {q : Nat} {forward acts : Bool} (fwd : forward = true) (up : s.portUp q = true) : s.walkOn q f m forward acts
    = s.sendOn q (max 64 (34 + (16 + 16 * m.records.length))) f.room (.walk q { hopped f with length := 16 + 16 * m.records.length } m) :=
  if_pos ⟨fwd, up⟩

theorem State.walkOn_returns {q : Nat} {forward : Bool} (down : s.portUp q = false) (wrapped : s.ringState = 2) :
    s.walkOn q f m forward true = s.returnWalk f m := by
  unfold State.walkOn
  rw [if_neg (by simp [down]), if_pos ⟨rfl, wrapped, down⟩]

theorem State.walkOn_ends {q : Nat} {forward : Bool} (stays : forward = false) : s.walkOn q f m forward false = s := by
  unfold State.walkOn
  rw [if_neg (by simp [stays]), if_neg (by simp)]

end Walk

/-! ### Notices (R333, R334) -/

section Notice

variable {reporter : Nat} {k : Taken} {t : State}

theorem execNoticeBreak_breaks (taken : s.takeFrame p.val { f with type := 4 } = (k, t)) (consume : k.consume = true) :
    execNoticeBreak p f reporter s = .next (t.breakSeen.passNotice p.val f false reporter k) := by
  unfold execNoticeBreak
  dsimp only
  rw [taken, if_pos consume]

theorem execNoticeBreak_passes (taken : s.takeFrame p.val { f with type := 4 } = (k, t)) (consume : k.consume = false) :
    execNoticeBreak p f reporter s = .next (t.passNotice p.val f false reporter k) := by
  unfold execNoticeBreak
  dsimp only
  rw [taken, if_neg (by rw [consume]; decide)]

/-- A CLOSE consumed that closes the ring. -/
def State.closeSeen (s : State) : State :=
  let b := { s with ring := { s.ring with broken := false } }
  let u := ((b.bump 0x1010 6).raise 1693).setNat 0x1010 2 1
  let v := { u with ring := { u.ring with reported := false } }
  if s.ringState = 2 then v.reroute else v

theorem execNoticeClose_closes (taken : s.takeFrame p.val { f with type := 4 } = (k, t)) (consume : k.consume = true)
    (closes : (t.portUp 0 = true ∧ t.portUp 1 = true) ∨ t.ring.reported = false) :
    execNoticeClose p f reporter s = .next (t.closeSeen.passNotice p.val f true reporter k) := by
  unfold execNoticeClose
  dsimp only
  rw [taken]
  dsimp only
  simp only [consume, if_true, true_and, Bool.not_eq_true']
  rw [if_pos (show (State.portUp { t with ring := { t.ring with broken := false } } 0 = true
    ∧ State.portUp { t with ring := { t.ring with broken := false } } 1 = true) ∨ t.ring.reported = false from closes)]
  rfl

theorem execNoticeClose_waits (taken : s.takeFrame p.val { f with type := 4 } = (k, t)) (consume : k.consume = true)
    (down : t.portUp 0 = false ∨ t.portUp 1 = false) (reported : t.ring.reported = true) : execNoticeClose p f reporter s
      = .next (({ t with ring := { t.ring with broken := false } } : State).passNotice p.val f true reporter k) := by
  unfold execNoticeClose
  dsimp only
  rw [taken]
  dsimp only
  simp only [consume, if_true, true_and, Bool.not_eq_true']
  rw [if_neg]
  intro closes
  rcases closes with ⟨up0, up1⟩ | unreported
  · rcases down with down | down
    · exact absurd up0 (by rw [show State.portUp { t with ring := { t.ring with broken := false } } 0 = t.portUp 0 from rfl, down]; decide)
    · exact absurd up1 (by rw [show State.portUp { t with ring := { t.ring with broken := false } } 1 = t.portUp 1 from rfl, down]; decide)
  · exact absurd unreported (by rw [show t.ring.reported = true from reported]; decide)

theorem execNoticeClose_passes (taken : s.takeFrame p.val { f with type := 4 } = (k, t)) (consume : k.consume = false) :
    execNoticeClose p f reporter s = .next (t.passNotice p.val f true reporter k) := by
  unfold execNoticeClose
  dsimp only
  rw [taken]
  dsimp only
  simp only [consume, Bool.false_eq_true, if_false, false_and]

end Notice

/-! ### Numbers assigned (R337) -/

theorem execAssign_received {uid number : Nat} {c : Bool} {t : State}
    (received : s.receiveFrame p.val { f with type := 5, payload := beBytes 8 uid ++ beBytes 1 number } f.room = (c, t)) :
    execAssign p f uid number s = .next (if c = true ∧ uid = t.uid then
      if t.inForce 0x2100 7 = 1 ∧ t.anyBusy = false ∧ 1 ≤ number ∧ number ≤ 254 then t.takeNumber number else t.bump 0x1010 10
    else t) := by
  unfold execAssign
  dsimp only
  rw [received]
  simp only [Bool.not_eq_true']

end Ring

/-- Settles O46, event by event. (SUPERVISION to 0xFF without DUAL rests on log entry 181, DESIGN CHOICE; LINK_LOST, taken when commanded, and the
counts of the neighbour on log entry 83, DEDUCED.) -/
theorem ringPorts : Obligations.RingPorts := by
  intro s p x
  refine ⟨fun started down => ?_, fun on f m => ⟨fun overflow => ?_, fun whole good ring own => ?_, fun whole good ring other => ?_,
    fun whole good foreign => ?_, fun whole bad => ?_⟩, fun started due => ?_, fun up => ?_, fun up lost passed => ?_, fun changing passed => ?_⟩
  · exact if_pos ⟨started, down⟩
  · exact execSupervision_heard on (if_pos overflow)
  · exact execSupervision_heard on (by simp [whole, good, ring, own])
  · exact execSupervision_heard on (by simp [whole, good, ring, other])
  · exact execSupervision_heard on (by simp [whole, good, foreign])
  · exact execSupervision_heard on (by simp [whole, bad])
  · exact execSupervisionSend_due started due rfl rfl rfl
  · exact execLinkLost_up up
  · exact if_pos ⟨up, lost, passed⟩
  · exact if_pos ⟨changing, passed⟩

/-- Settles O47, frame by frame. (The segmented flag byte of E1692 rests on log entry 117 and the form of the walk returned on log entry 182, both
DESIGN CHOICE.) -/
theorem ringFrames : Obligations.RingFrames := by
  intro s p f q
  refine ⟨fun room => ?_, fun m => ?_, fun m => ?_, fun reporter => ⟨fun consume => ⟨?_, fun closes => ?_, fun down reported => ?_⟩,
    fun consume => ⟨?_, ?_⟩⟩, fun uid number => ?_⟩
  · refine ⟨fun forward up space fits enough => ?_, fun forward up full => ?_, fun forward down => ?_, fun stays => ?_⟩
    · refine (execRingFrameForward_sends forward).trans ?_
      rw [space, fits]
      exact congrArg Host.Outcome.next (State.sendOn_room up enough)
    · refine (execRingFrameForward_sends forward).trans (congrArg Host.Outcome.next (State.sendOn_full up ?_))
      rwa [Bool.and_eq_false_iff, or_assoc]
    · exact (execRingFrameForward_sends forward).trans (congrArg Host.Outcome.next (State.sendOn_down down))
    · exact execRingFrameForward_ends stays
  · intro r consume u
    refine ⟨fun new => ⟨fun forward up => ?_, fun down wrapped => ?_⟩, fun seen _ => ⟨fun forward up => ?_, fun stays => ?_⟩⟩
    · exact (execWalk_acts rfl consume rfl new).trans (congrArg Host.Outcome.next (State.walkOn_sends forward up))
    · exact (execWalk_acts rfl consume rfl new).trans (congrArg Host.Outcome.next (State.walkOn_returns down wrapped))
    · exact (execWalk_again rfl consume rfl seen).trans (congrArg Host.Outcome.next (State.walkOn_sends forward up))
    · exact (execWalk_again rfl consume rfl seen).trans (congrArg Host.Outcome.next (State.walkOn_ends stays))
  · intro r consume
    refine ⟨fun forward up => ?_, fun stays => ?_⟩
    · exact (execWalk_passes rfl consume).trans (congrArg Host.Outcome.next (State.walkOn_sends forward up))
    · exact (execWalk_passes rfl consume).trans (congrArg Host.Outcome.next (State.walkOn_ends stays))
  · exact execNoticeBreak_breaks rfl consume
  · exact execNoticeClose_closes rfl consume closes
  · exact execNoticeClose_waits rfl consume down reported
  · exact execNoticeBreak_passes rfl consume
  · exact execNoticeClose_passes rfl consume
  · intro g r
    refine ⟨fun consume named mode idle lo hi => ?_, fun consume named barred => ?_, fun other => ?_⟩
    · refine (execAssign_received (c := r.1) (t := r.2) rfl).trans ?_
      rw [if_pos ⟨consume, named⟩, if_pos ⟨mode, idle, lo, hi⟩]
    · refine (execAssign_received (c := r.1) (t := r.2) rfl).trans ?_
      rw [if_pos ⟨consume, named⟩, if_neg]
      rintro ⟨mode, idle, lo, hi⟩
      rcases barred with other | busy | none_ | large
      · exact other mode
      · exact absurd busy (by rw [idle]; decide)
      · omega
      · omega
    · exact (execAssign_received (c := r.1) (t := r.2) rfl).trans (congrArg Host.Outcome.next (if_neg fun h => other h.2))

end Sys2Proof.Machine
end

section
/-! SUPPORT. What Rosec sends and gives up in time (R352-R355), and power with the pins of a start (R468-R484). -/

namespace Sys2Proof.Machine

section Rosec

variable {s : State}

theorem execSegmentAbandon_due {i j : Nat} {t : Transfer} (open_ : s.transferOn i j = some t) (late : t.touched + 1250000 ≤ s.clk.frames) :
    execSegmentAbandon i j s = .next ((((s.closeTransfer i j).forget i j (some t.sa)).bump 0x1020 8).modRosec fun x =>
      { x with abandoned := (x.abandoned ++ [(i, j, t.sa)]).drop (x.abandoned.length - 7) }) := by
  unfold execSegmentAbandon
  rw [open_]
  exact if_pos late

theorem execUploadRelease_due {i j : Nat} {u : Upload} (open_ : s.uploadOn i j = some u) (late : u.touched + 1250000 ≤ s.clk.frames) :
    execUploadRelease i j s = .next ((s.closeUpload i j).modRosec fun x =>
      { x with timedOut := x.timedOut.filter (· ≠ (i, j, u.sa)) ++ [(i, j, u.sa)] }) := by
  unfold execUploadRelease
  rw [open_]
  exact if_pos late

/-- A subscription whose value is the first due publishes it, where a port carries it. -/
theorem execPublication_first {i t : Nat} {b : List Byte} {y : Subscription} (sub : s.rosec.subs[i]? = some y) (ready : y.ready = some (t, b))
    (first : ∀ z ∈ s.rosec.subs.take i, ∀ u, z.ready = some u → t < u.1) : execPublication i s
      = if s.outPorts.isEmpty = true then .next s
        else .next ((s.modRosec fun x => { x with subs := x.subs.modify i fun y => { y with ready := none } }).originate 1 y.src (32 + b.length)
          fun ps h => .publication ps h y.index y.sub (t % 2 ^ 32) b) := by
  have none_earlier : ((s.rosec.subs.take i).any fun y => match y.ready with | some (u, _) => decide (u ≤ t) | none => false) = false := by
    rw [List.any_eq_false]
    intro z member
    cases at_ : z.ready with
    | none => simp
    | some u => simpa using first z member u at_
  obtain ⟨⟩ := y
  subst ready
  unfold execPublication
  rw [sub]
  by_cases empty : s.outPorts.isEmpty = true
  · rw [if_pos empty]
    exact if_pos (Or.inr empty)
  · rw [if_neg empty]
    exact if_neg (not_or.mpr ⟨by rw [Bool.not_eq_true]; exact none_earlier, empty⟩)

theorem execNotifyConfirm_answers {src tid : Nat} (responds : s.responds = true) : execNotifyConfirm src tid s
    = if s.rosec.notifies.any (·.tid == tid) = true then .next (s.modRosec fun x => { x with notifies := x.notifies.filter (·.tid ≠ tid) })
      else .next (s.bump 0x1020 12) := if_neg (by rw [responds]; decide)

theorem execNotifyRetry_due {tid : Nat} {y : Notify} (waits : s.rosec.notifies.find? (·.tid == tid) = some y) (late : y.sentAt + 12500 ≤ s.clk.frames) :
    execNotifyRetry tid s
      = if y.tries < y.retries then .next ((s.modRosec fun x => { x with notifies := x.notifies.map fun z =>
            if z.tid = tid then { z with tries := z.tries + 1, sentAt := s.clk.frames } else z }).sendNotify y)
        else .next (((s.modRosec fun x => { x with notifies := x.notifies.filter (·.tid ≠ tid) }).bump 0x1020 11).raise 1699) := by
  unfold execNotifyRetry
  rw [waits]
  exact if_neg (Nat.not_lt.mpr late)

end Rosec

/-- Settles O48, event by event. -/
theorem rosecRunsOut : Obligations.RosecRunsOut := by
  intro s
  refine ⟨fun i j t open_ late => execSegmentAbandon_due open_ late, fun i j u open_ late => execUploadRelease_due open_ late,
    fun i y t b sub ready first => ⟨fun silent => ?_, fun carries => ?_⟩, fun src tid responds => ⟨fun known => ?_, fun stray => ?_⟩,
    fun tid y waits late => ⟨fun left => ?_, fun spent => ?_⟩⟩
  · exact (execPublication_first sub ready first).trans (if_pos (List.isEmpty_iff.mpr silent))
  · exact (execPublication_first sub ready first).trans (if_neg fun empty => carries (List.isEmpty_iff.mp empty))
  · exact (execNotifyConfirm_answers (src := src) responds).trans (if_pos known)
  · exact (execNotifyConfirm_answers (src := src) responds).trans (if_neg (by rw [stray]; decide))
  · exact (execNotifyRetry_due waits late).trans (if_pos left)
  · exact (execNotifyRetry_due waits late).trans (if_neg (Nat.not_lt.mpr spent))

section Power

variable {s : State}

theorem execResetN_powerUp {low : Bool} (off : s.mode = .off) : execResetN low true s
    = .next { (({ s with regs := [], start := {} }).coldFrom 1 0) with
        start := { step := 1, type := 1, resetLow := low, warmLow := s.start.warmLow, testEn := s.start.testEn, warningPin := s.start.warningPin } } := by
  unfold execResetN
  rw [if_pos rfl, if_pos off]

theorem execResetN_falls (on : s.mode ≠ .off) (high : s.start.resetLow = false) :
    execResetN true false s = .next (({ s with start := { s.start with resetLow := true } }).coldFrom 2 0) := by
  unfold execResetN
  rw [if_neg (by decide), if_neg (by simp [on, high]), if_pos rfl]

theorem execResetN_rises (on : s.mode ≠ .off) (low : s.start.resetLow = true) : execResetN false false s = .next s.releaseReset := by
  unfold execResetN
  rw [if_neg (by decide), if_neg (by simp [on, low]), if_neg (by decide)]

section WarmN

variable (high : s.start.warmLow = false)
include high

theorem execWarmN_service (mode : s.mode = .service) : execWarmN true s = .next ((s.beginWarm 4).modStart fun x => { x with warmLow := true }) := by
  unfold execWarmN
  rw [high, mode, if_neg (by simp), if_neg (by decide), if_neg (by simp)]

theorem execWarmN_warmStart (mode : s.mode = .warmStart) :
    execWarmN true s = .next ((s.beginWarm s.start.type).modStart fun x => { x with warmLow := true }) := by
  unfold execWarmN
  rw [high, mode, if_neg (by simp), if_neg (by decide), if_neg (by simp)]

theorem execWarmN_coldStart (mode : s.mode = .coldStart) (on : s.start.step ≠ 1) :
    execWarmN true s = .next (({ s with start := { s.start with warmLow := true } }).coldFrom s.start.type s.start.failedCold) := by
  unfold execWarmN
  rw [high, mode, if_neg (by simp), if_neg (by decide), if_neg fun h => on h.2]

theorem execWarmN_stepOne (mode : s.mode = .coldStart) (one : s.start.step = 1) : execWarmN true s = .next s := by
  unfold execWarmN
  rw [high, if_neg (by simp [mode]), if_neg (by decide), if_pos ⟨mode, one⟩]

theorem execWarmN_ignored (mode : s.mode = .sleep ∨ s.mode = .safeHalt) : execWarmN true s = .next (s.raise 1562) := by
  unfold execWarmN
  rw [high]
  rcases mode with mode | mode <;> rw [mode, if_neg (by simp), if_neg (by decide), if_neg (by simp)]

end WarmN

theorem execWarmN_rises (on : s.mode ≠ .off) (low : s.start.warmLow = true) :
    execWarmN false s = .next { s with start := { s.start with warmLow := false } } := by
  unfold execWarmN
  rw [if_neg (by simp [on, low]), if_pos (by decide)]
  rfl

section Warning

variable (high : s.start.warningPin = false)
include high

theorem execPwrWarnN_counts (mode : s.mode = .service ∨ s.mode = .warmStart ∨ s.mode = .sleep ∨ (s.mode = .coldStart ∧ s.start.step ≠ 1)) :
    execPwrWarnN s = .next { s with start := { s.start with warningPin := true, warning := true, halt := true },
                                    pass := { s.pass with trigger := true } } := by
  have known : ¬ (s.mode = .off ∨ (s.mode = .coldStart ∧ s.start.step = 1) ∨ s.start.warningPin = true) ∧ s.mode ≠ .safeHalt := by
    rw [high]
    rcases mode with mode | mode | mode | ⟨mode, on⟩ <;> simp [*]
  exact (if_neg known.1).trans (if_neg known.2)

theorem execPwrWarnN_safeHalt (mode : s.mode = .safeHalt) : execPwrWarnN s = .next { s with start := { s.start with warningPin := true } } :=
  (if_neg (by simp [mode, high])).trans (if_pos mode)

end Warning

theorem execPowerWarningCleared_on (low : s.start.warningPin = true) (on : s.mode ≠ .off) :
    execPowerWarningCleared s = .next ({ s with start := { s.start with warningPin := false } }.raise 1561) :=
  (if_pos low).trans (congrArg Host.Outcome.next (if_neg on))

end Power

/-- Settles O49, pin by pin. (A restart of the same start keeps its TYPE and FAILED_COLD: R473, R474, log entry 96, DEDUCED.) -/
theorem powerAndPins : Obligations.PowerAndPins := by
  intro s
  refine ⟨fun low off => ?_, fun on high => execResetN_falls on high, fun on low => execResetN_rises on low,
    fun high => ⟨execWarmN_service high, execWarmN_warmStart high, execWarmN_coldStart high, execWarmN_stepOne high, execWarmN_ignored high⟩,
    fun on low => execWarmN_rises on low, fun high => ⟨execPwrWarnN_counts high, fun mode one => ?_, execPwrWarnN_safeHalt high⟩,
    fun low on => execPowerWarningCleared_on low on, fun halt on out => ?_, ⟨_, rfl, ?_⟩⟩
  · exact execResetN_powerUp off
  · exact if_pos (Or.inr (Or.inl ⟨mode, one⟩))
  · exact if_pos ⟨halt, on, out⟩
  · simp

end Sys2Proof.Machine
end

section
/-! SUPPORT. The steps of a cold start, of a warm start and of a wake, and the entry into SLEEP (R468-R479). -/

namespace Sys2Proof.Machine

section Steps

variable {s : State}

/-! ### A failed cold start (R474) -/

theorem Table.get_filter {α : Type} (d : α) (keep : Nat → Bool) {i : Nat} (kept : keep i = true) (t : Table α) :
    Table.get d (t.filter fun e => keep e.1) i = Table.get d t i := by
  induction t with
  | nil => rfl
  | cons e t ih =>
    obtain ⟨k, v⟩ := e
    rw [List.filter_cons]
    by_cases same : k = i
    · subst same
      simp [kept, Table.get]
    · by_cases keeps : keep k = true
      · simp [keeps, Table.get, same, ih]
      · simp [keeps, Table.get, same, ih]

theorem State.risingKeys_of_canonical (canonical : s.canonical = true) : risingKeys s.regs = true := by
  simp only [State.canonical, Bool.and_eq_true] at canonical
  tauto

theorem State.reg_noteFailure (cause : Nat) (canonical : s.canonical = true) :
    (s.noteFailure cause).reg 0x2002 2 = cause ∧ (s.noteFailure cause).reg 0x2002 3 = s.start.step := by
  have rising := State.risingKeys_of_canonical canonical
  constructor
  · exact (Table.get_set_of_ne _ _ (by decide) _).trans (Table.get_set_self _ _ _ rising)
  · exact Table.get_set_self _ _ _ (risingKeys_set _ rising _ _)

/-- The objects that survive a cold start keep their values (R345, R362). -/
theorem State.reg_coldFrom (type failed sub : Nat) (inside : sub < 256) : (s.coldFrom type failed).reg 0x2002 sub = s.reg 0x2002 sub :=
  Table.get_filter _ (fun k => decide (k / 256 = 0x2002)) (decide_eq_true (by unfold objKey; omega)) s.regs

section Failed

variable (cause : Nat)

theorem State.failCold_third (third : 2 ≤ s.start.failedCold) : s.failCold cause
    = ((s.noteFailure cause).modStart fun x => { x with failedCold := s.start.failedCold + 1, halt := true }).raise 1554 :=
  if_pos (Nat.succ_le_succ third)

theorem State.failCold_again (first : s.start.failedCold < 2) : s.failCold cause
    = ((s.noteFailure cause).coldFrom s.start.type (s.start.failedCold + 1)).raise 1554 :=
  if_neg (Nat.not_le.mpr (Nat.succ_lt_succ first))

theorem State.failCold_start : (s.failCold cause).start.failedCold = s.start.failedCold + 1 ∧ (s.failCold cause).start.type = s.start.type := by
  rcases Nat.lt_or_ge s.start.failedCold 2 with first | third
  · rw [State.failCold_again cause first]
    exact ⟨rfl, rfl⟩
  · rw [State.failCold_third cause third]
    exact ⟨rfl, rfl⟩

theorem State.reg_failCold (canonical : s.canonical = true) :
    (s.failCold cause).reg 0x2002 2 = cause ∧ (s.failCold cause).reg 0x2002 3 = s.start.step := by
  rcases Nat.lt_or_ge s.start.failedCold 2 with first | third
  · rw [State.failCold_again cause first]
    obtain ⟨noted, step⟩ := State.reg_noteFailure cause canonical
    exact ⟨(State.reg_coldFrom (s := s.noteFailure cause) s.start.type (s.start.failedCold + 1) 2 (by decide)).trans noted,
      (State.reg_coldFrom (s := s.noteFailure cause) s.start.type (s.start.failedCold + 1) 3 (by decide)).trans step⟩
  · rw [State.failCold_third cause third]
    exact State.reg_noteFailure cause canonical

end Failed

/-! ### A cold start (R468-R470) -/

section Cold

variable {seed : Nat} (mode : s.mode = .coldStart) (high : s.start.resetLow = false) (goes : s.start.halt = false)
include mode high goes

theorem execColdStartStepDone_one (one : s.start.step = 1) (ref : s.clk.ref = .present) (warm : s.start.warmLow = false)
    (normal : s.start.testEn = false) : execColdStartStepDone true seed s = .next s.startPorts.nextStep := by
  unfold execColdStartStepDone
  rw [if_neg (by simp [mode, high, goes]), one]
  exact if_pos ⟨ref, by rw [warm]; rfl, by rw [normal]; rfl⟩

theorem execColdStartStepDone_testEn (one : s.start.step = 1) (test : s.start.testEn = true) : execColdStartStepDone true seed s = .next s := by
  unfold execColdStartStepDone
  rw [if_neg (by simp [mode, high, goes]), one]
  exact if_neg fun h => absurd h.2.2 (by rw [test]; decide)

theorem execColdStartStepDone_two {ok : Bool} (two : s.start.step = 2) :
    execColdStartStepDone ok seed s = if ok = true then .next s.nextStep.bringUp else .next (s.failCold 0x010A) := by
  unfold execColdStartStepDone
  rw [if_neg (by simp [mode, high, goes]), two]
  rfl

theorem execColdStartStepDone_three {ok : Bool} (three : s.start.step = 3) :
    execColdStartStepDone ok seed s = if s.clk.ref ≠ .present then .next s else if ok = true then .next s.lockPlls.nextStep
      else if s.refSteady = true then .next (s.failCold 0x010A) else .next s := by
  unfold execColdStartStepDone
  rw [if_neg (by simp [mode, high, goes]), three]
  rfl

theorem execColdStartStepDone_waits (three : s.start.step = 3) (unsteady : s.clk.ref ≠ .present ∨ s.clk.presentFor < 125000) :
    execColdStartStepDone false seed s = .next s := by
  rw [execColdStartStepDone_three mode high goes three]
  rcases unsteady with absent | short
  · exact if_pos absent
  · rw [if_neg (c := false = true) (by decide), if_neg (c := s.refSteady = true) (by simp [State.refSteady]; omega), ite_self]

theorem execColdStartStepDone_unlocked (three : s.start.step = 3) (ref : s.clk.ref = .present) (steady : 125000 ≤ s.clk.presentFor) :
    execColdStartStepDone false seed s = .next (s.failCold 0x010A) := by
  rw [execColdStartStepDone_three mode high goes three, if_neg (not_not.mpr ref), if_neg (by decide)]
  exact if_pos (by simp [State.refSteady, ref, steady])

theorem execColdStartStepDone_four {ok : Bool} (four : s.start.step = 4) : execColdStartStepDone ok seed s
    = if ok = true then .next (s.deriveKeys seed).nextStep else .next ((s.failKeys seed).failCold 0x0309) := by
  unfold execColdStartStepDone
  rw [if_neg (by simp [mode, high, goes]), four]
  rfl

theorem execColdStartStepDone_six (six : s.start.step = 6) : execColdStartStepDone true seed s = .next s.verifyStep := by
  unfold execColdStartStepDone
  rw [if_neg (by simp [mode, high, goes]), six]
  rfl

theorem execColdStartStepDone_seven (seven : s.start.step = 7) : execColdStartStepDone true seed s = .next (s.dramStep seed) := by
  unfold execColdStartStepDone
  rw [if_neg (by simp [mode, high, goes]), seven]
  rfl

theorem execColdStartStepDone_eight (eight : s.start.step = 8) : execColdStartStepDone true seed s = .next s.coldCalibrate.nextStep := by
  unfold execColdStartStepDone
  rw [if_neg (by simp [mode, high, goes]), eight]
  rfl

theorem execColdStartStepDone_nine (nine : s.start.step = 9) : execColdStartStepDone true seed s = .next (s.startDone 1552) := by
  unfold execColdStartStepDone
  rw [if_neg (by simp [mode, high, goes]), nine]
  rfl

end Cold

/-! ### A warm start (R471, R472) -/

section Warm

variable {ok : Bool} (mode : s.mode = .warmStart) (goes : s.start.halt = false)
include mode goes

theorem execWarmStartStepDone_one (one : s.start.step = 1) (high : s.start.warmLow = false) :
    execWarmStartStepDone ok s = .next (if s.pass.trigger = true then s.sealInterrupted else s).nextStep := by
  unfold execWarmStartStepDone
  rw [if_neg (by simp [mode, goes]), one]
  exact if_neg (by rw [high]; decide)

theorem execWarmStartStepDone_two (two : s.start.step = 2) : execWarmStartStepDone ok s
    = if s.clk.ref ≠ .present then .next (s.failWarm 0x010A) else if s.memBusy = true then .next s else .next s.quiesceWarm.nextStep := by
  unfold execWarmStartStepDone
  rw [if_neg (by simp [mode, goes]), two]
  rfl

theorem execWarmStartStepDone_three (three : s.start.step = 3) : execWarmStartStepDone ok s = .next s.clearWarm.nextStep := by
  unfold execWarmStartStepDone
  rw [if_neg (by simp [mode, goes]), three]
  rfl

theorem execWarmStartStepDone_four (four : s.start.step = 4) : execWarmStartStepDone ok s
    = if ok = true ∨ (!(chanNos.any fun c => (s.chan c).mode == .selfRefresh)) = true then .next s.leaveSelfRefresh.nextStep
      else .next (s.failWarm 0x0402) := by
  unfold execWarmStartStepDone
  rw [if_neg (by simp [mode, goes]), four]
  rfl

theorem execWarmStartStepDone_five (five : s.start.step = 5) : execWarmStartStepDone ok s = .next (s.startDone 1553) := by
  unfold execWarmStartStepDone
  rw [if_neg (by simp [mode, goes]), five]
  rfl

end Warm

/-! ### A wake (R479) -/

section Wake

variable (mode : s.mode = .sleep) (goes : s.start.halt = false)
include mode goes

/-- A wake gone on to its next step. -/
def State.wakeOn (s : State) : State := { s with start := { s.start with wakeStep := s.start.wakeStep + 1 } }

theorem execWakeStepDone_one (one : s.start.wakeStep = 1) (ref : s.clk.ref = .present) {u : State}
    (locks : { s with clk := { s.clk with beat := .locked, me := .locked, dram := .locked, lostFor := 0, longHoldover := false } } = u)
    (clear : u.faultOf 8 = none) : execWakeStepDone true s = .next u.wakeOn := by
  have still : (u.faultOf 8).isSome = false := by rw [clear]; rfl
  subst locks
  unfold execWakeStepDone
  rw [if_neg (by simp [mode, goes])]
  dsimp only
  rw [one]
  refine (if_neg (not_not.mpr ref)).trans (congrArg (fun x => Host.Outcome.next (State.wakeOn x)) ?_)
  exact if_neg (fun h => absurd (still.symm.trans h) (by decide))

theorem execWakeStepDone_recovers {f : FaultRec} (one : s.start.wakeStep = 1) (ref : s.clk.ref = .present) {u : State}
    (locks : { s with clk := { s.clk with beat := .locked, me := .locked, dram := .locked, lostFor := 0, longHoldover := false } } = u)
    (open_ : u.faultOf 8 = some f) : execWakeStepDone true s = .next ((u.raise 1544).recovered 8 (u.usSince f.frame)).wakeOn := by
  have since : u.usSince f.frame = u.usSince (((u.faultOf 8).map fun (x : FaultRec) => x.frame).getD u.now) := by rw [open_]; rfl
  have still : (u.faultOf 8).isSome = true := by rw [open_]; rfl
  rw [since]
  subst locks
  unfold execWakeStepDone
  rw [if_neg (by simp [mode, goes])]
  dsimp only
  rw [one]
  refine (if_neg (not_not.mpr ref)).trans (congrArg (fun x => Host.Outcome.next (State.wakeOn x)) ?_)
  exact if_pos still

theorem execWakeStepDone_absent (one : s.start.wakeStep = 1) (absent : s.clk.ref ≠ .present) : execWakeStepDone true s = .next s := by
  unfold execWakeStepDone
  rw [if_neg (by simp [mode, goes])]
  dsimp only
  rw [one]
  exact if_pos absent

theorem execWakeStepDone_untrained {c : Nat} (two : s.start.wakeStep = 2)
    (slept : (chanNos.find? fun c => (s.chan c).mode == .selfRefresh) = some c) :
    execWakeStepDone false s = .next (((s.failRetrain c).leaveSelfRefresh.restoreLink).askRate false).wakeOn := by
  unfold execWakeStepDone
  rw [if_neg (by simp [mode, goes])]
  dsimp only
  rw [two]
  refine congrArg (fun (x : State) => Host.Outcome.next ((x.leaveSelfRefresh.restoreLink).askRate false).wakeOn) ?_
  rw [if_neg (by decide), slept]

theorem execWakeStepDone_two (two : s.start.wakeStep = 2) :
    execWakeStepDone true s = .next ((s.leaveSelfRefresh.restoreLink).askRate false).wakeOn := by
  unfold execWakeStepDone
  rw [if_neg (by simp [mode, goes])]
  dsimp only
  rw [two]
  rfl

theorem execWakeStepDone_three (three : s.start.wakeStep = 3) : execWakeStepDone true s = .next s.wakeOn := by
  unfold execWakeStepDone
  rw [if_neg (by simp [mode, goes])]
  dsimp only
  rw [three]
  rfl

theorem execWakeStepDone_four (four : s.start.wakeStep = 4) : execWakeStepDone true s
    = .next (({ s with mode := .service, start := { s.start with wakeStep := 0 }, ring := { s.ring with record := none },
                       rosec := { s.rosec with copied := [] } } : State).resumeServo.raise 1558) := by
  unfold execWakeStepDone
  rw [if_neg (by simp [mode, goes])]
  dsimp only
  rw [four]
  rfl

end Wake

/-! ### SLEEP (R477) -/

theorem execSleepDrainDone_drained {t : Nat} (asked : s.start.sleepAsked = some t) (open_ : s.clk.frames < t + 1250000)
    (drained : s.drainedForSleep = true) {u v w z : State}
    (down : ({ s with start := { s.start with sleepAsked := none, wakeStep := 0 } }).linkDown = u)
    (rests : ((if u.reg 0xA100 4 = 0 then u else u.convoyDown).enterSelfRefresh).askRate true = v)
    (plls : (v.modClk fun c => { c with beat := .off, me := .off, dram := .off }) = w)
    (time : (if w.qualityAhead = .locked ∨ w.qualityAhead = .reroute then w.setQuality .holdover else w) = z) :
    execSleepDrainDone s = .next (({ z with mode := .sleep } : State).nightCopies.raise 1557) := by
  have opens : s.drainOpen = true := by
    unfold State.drainOpen
    rw [asked]
    exact decide_eq_true open_
  unfold execSleepDrainDone
  rw [opens, drained, if_neg (by simp)]
  dsimp only
  subst time plls rests down
  rfl

theorem execSleepAbandoned_late {t : Nat} (asked : s.start.sleepAsked = some t) (late : t + 1250000 ≤ s.clk.frames) :
    execSleepAbandoned s = .next ({ s with start := { s.start with sleepAsked := none } }.raise 1559) := by
  unfold execSleepAbandoned
  rw [asked]
  exact if_pos late

end Steps

/-- Settles O50, step by step. (E1544 at a wake with a REFCLK fault open rests on log entry 99, the judgement of steps 6 and 7 by the state alone on
log entry 98, and memory unwritten after a failed start on log entry 21, all DEDUCED.) -/
theorem stepsOfStarts : Obligations.StepsOfStarts := by
  intro s
  refine ⟨fun seed mode high goes => ?_, fun cause => ?_, fun mode goes => ?_, fun mode goes => ?_, fun t asked open_ drained => ?_,
    fun t asked late => execSleepAbandoned_late asked late⟩
  · refine ⟨execColdStartStepDone_one mode high goes, execColdStartStepDone_testEn mode high goes, fun two => ⟨?_, ?_⟩, fun three ref => ?_,
      execColdStartStepDone_waits mode high goes, execColdStartStepDone_unlocked mode high goes, fun four => ⟨?_, ?_⟩, fun six => ?_,
      fun seven serves => ?_, fun seven dead => ?_, execColdStartStepDone_eight mode high goes, execColdStartStepDone_nine mode high goes⟩
    · exact (execColdStartStepDone_two mode high goes two).trans (if_pos rfl)
    · exact (execColdStartStepDone_two mode high goes two).trans (if_neg (by decide))
    · exact (execColdStartStepDone_three mode high goes three).trans ((if_neg (not_not.mpr ref)).trans (if_pos rfl))
    · exact (execColdStartStepDone_four mode high goes four).trans (if_pos rfl)
    · exact (execColdStartStepDone_four mode high goes four).trans (if_neg (by decide))
    · exact execColdStartStepDone_six mode high goes six
    · exact (execColdStartStepDone_seven mode high goes seven).trans (congrArg Host.Outcome.next (if_pos serves))
    · exact (execColdStartStepDone_seven mode high goes seven).trans (congrArg Host.Outcome.next (if_neg (by rw [dead]; decide)))
  · obtain ⟨count, type⟩ := State.failCold_start (s := s) cause
    refine ⟨State.reg_failCold cause, count, type, fun third => ?_, fun first => ?_⟩
    · rw [State.failCold_third cause third]
      rfl
    · rw [State.failCold_again cause first]
      exact ⟨rfl, rfl, rfl, rfl⟩
  · refine ⟨execWarmStartStepDone_one mode goes, fun two ref idle => ?_, fun two absent => ?_, execWarmStartStepDone_three mode goes,
      fun four => ⟨?_, fun ⟨c, member, slept⟩ => ?_⟩, execWarmStartStepDone_five mode goes⟩
    · exact (execWarmStartStepDone_two mode goes two).trans ((if_neg (not_not.mpr ref)).trans (if_neg (by rw [idle]; decide)))
    · exact (execWarmStartStepDone_two mode goes two).trans (if_pos absent)
    · exact (execWarmStartStepDone_four mode goes four).trans (if_pos (Or.inl rfl))
    · have some_slept : (chanNos.any fun c => (s.chan c).mode == .selfRefresh) = true :=
        List.any_eq_true.mpr ⟨c, member, by rw [slept]; rfl⟩
      exact (execWarmStartStepDone_four mode goes four).trans (if_neg (by rw [some_slept]; decide))
  · intro on
    exact ⟨fun one ref clear => execWakeStepDone_one mode goes one ref rfl clear,
      fun f one ref open_ => execWakeStepDone_recovers mode goes one ref rfl open_, execWakeStepDone_absent mode goes,
      fun c two slept => execWakeStepDone_untrained mode goes two slept, execWakeStepDone_two mode goes, execWakeStepDone_three mode goes,
      execWakeStepDone_four mode goes⟩
  · exact execSleepDrainDone_drained asked open_ drained rfl rfl rfl rfl

end Sys2Proof.Machine
end

section
/-! SUPPORT. PTP messages that the ring ports take (R370-R375). -/

namespace Sys2Proof.Machine

section Ptp

variable {s t : State} {p : PortId} {m : PtpMsg}

/-! ### Sync and Follow_Up -/

theorem execPtpSync_untaken (refused : s.ptpTake p.val 0 m = (false, t)) : execPtpSync p m s = .next t := by
  unfold execPtpSync
  rw [refused]
  rfl

section Sync

variable {u : State} (taken : s.ptpTake p.val 0 m = (true, t)) (counted : t.bump (ptpObj p.val) 5 = u)
include taken counted

theorem execPtpSync_passes (silent : u.plays 1 = false) : execPtpSync p m s = .next (u.ptpForward p.val 0 m) := by
  unfold execPtpSync
  dsimp only
  rw [taken]
  dsimp only
  rw [counted, silent]
  rfl

variable (plays : u.plays 1 = true) (master : u.time.master = some (m.clock, m.portNo)) {v : State}
include plays master

theorem execPtpSync_copy (copy : u.firstCopy 0 m = (false, v)) : execPtpSync p m s = .next (u.ptpForward p.val 0 m) := by
  unfold execPtpSync
  dsimp only
  rw [taken]
  dsimp only
  rw [counted, copy, plays, master, Bool.and_false]
  rfl

theorem execPtpSync_first {y : SyncIn} (first : u.firstCopy 0 m = (true, v))
    (heard : { clock := m.clock, portNo := m.portNo, seqId := m.seqId, via := p.val, ingress := m.ingress,
               correction := m.correction, origin := m.origin } = y) {w : State}
    (every : (v.modTime fun x => { x with syncEvery := max 1 (logFrames m.logInterval) }) = w) : execPtpSync p m s
      = .next (State.ptpForward (if m.twoStep = true then w.modTime fun x => { x with awaiting := some y, syncAt := w.clk.frames } else w.useSync y)
          p.val 0 m) := by
  have mine : (true && (m.clock == m.clock && m.portNo == m.portNo)) = true := by simp
  unfold execPtpSync
  dsimp only
  rw [taken]
  dsimp only
  rw [counted, first, plays, master]
  dsimp only
  rw [mine, heard, every]
  rfl

end Sync

theorem execFollowUp_awaited {y : SyncIn} (taken : s.ptpTake p.val 8 m = (true, t)) (awaits : t.time.awaiting = some y) :
    execFollowUp p m s = .next ((if y.clock = m.clock ∧ y.portNo = m.portNo ∧ y.seqId = m.seqId then
        t.useSync { y with origin := m.origin, correction := y.correction + m.correction } else t).ptpForward p.val 8 m) := by
  unfold execFollowUp
  dsimp only
  rw [taken]
  dsimp only
  rw [awaits]
  rfl

/-! ### Delay_Req and Delay_Resp -/

theorem execDelayReq_taken (taken : s.ptpTake p.val 1 m = (true, t)) : execDelayReq p m s
    = .next ((if t.plays 2 = true ∧ t.inForce 0x8001 3 = 1 then
        t.each t.ptpPorts fun s q =>
          s.send (.ptp 9 q { domain := m.domain, clock := s.uid, portNo := q + 1, seqId := m.seqId, origin := m.ingress,
                             correction := m.correction, reqClock := m.clock, reqPort := m.portNo })
      else t).ptpForward p.val 1 m) := by
  unfold execDelayReq
  dsimp only
  rw [taken]
  rfl

theorem execDelayResp_taken {t3 : Int} {y : SyncIn} (taken : s.ptpTake p.val 9 m = (true, t)) (asked : t.time.delayT3 = some t3)
    (synced : t.time.lastSync = some y) : execDelayResp p m s
      = .next ((if m.reqClock = t.uid ∧ m.seqId = t.time.delaySeq ∧ t.time.master = some (m.clock, m.portNo) then
          t.modTime fun x => { x with
            means := (x.means ++ [((y.ingress - y.origin - y.correction) + (m.origin - t3 - m.correction)) / 2]).drop ((x.means.length + 1) - 4),
            delayT3 := none }
        else t).ptpForward p.val 9 m) := by
  unfold execDelayResp
  dsimp only
  rw [taken]
  dsimp only
  rw [asked, synced]
  rfl

/-! ### Peer delay (R373) -/

section PeerDelay

variable (up : s.portUp p.val = true) (domain : m.domain = s.nInForce 0x8001 2)
include up domain

theorem execPdelayReq_answered : execPdelayReq p m s
    = .next ((s.send (.ptp 3 p.val { domain := m.domain, clock := s.uid, portNo := p.val + 1, seqId := m.seqId, reqClock := m.clock,
                                     reqPort := m.portNo, twoStep := true, origin := m.ingress, egress := m.egress })).send
        (.ptp 10 p.val { domain := m.domain, clock := s.uid, portNo := p.val + 1, seqId := m.seqId, reqClock := m.clock,
                         reqPort := m.portNo, origin := m.egress, correction := m.correction })) := by
  unfold execPdelayReq
  rw [up, if_neg (by decide), if_neg (not_not.mpr domain)]

theorem State.own_domain : s.foreign p.val m = false := by
  unfold State.foreign
  rw [up, domain]
  simp

variable {t1 : Int} (asked : (s.pdelay p.val).t1 = some t1) (own : m.reqClock = s.uid) (port : m.reqPort = p.val + 1)
  (due : m.seqId = (s.pdelay p.val).seq)
include asked own port due

theorem execPdelayResp_own : execPdelayResp p m s
    = if m.twoStep = true then .next (s.modPdelay p.val fun _ => { s.pdelay p.val with t2 := some m.origin, t4 := m.ingress, corr := m.correction })
      else .next (s.pdelayDone p.val { s.pdelay p.val with t2 := some m.origin, t4 := m.ingress, corr := m.correction } 0 t1) := by
  unfold execPdelayResp
  dsimp only
  rw [State.own_domain up domain, if_neg (by decide), asked]
  exact if_pos ⟨up, own, port, due⟩

theorem execPdelayRespFollowUp_own {t2 : Int} (answered : (s.pdelay p.val).t2 = some t2) : execPdelayRespFollowUp p m s
    = .next (s.pdelayDone p.val { s.pdelay p.val with corr := (s.pdelay p.val).corr + m.correction } (m.origin - t2) t1) := by
  unfold execPdelayRespFollowUp
  dsimp only
  rw [State.own_domain up domain, if_neg (by decide), asked, answered]
  exact if_pos ⟨up, own, port, due⟩

end PeerDelay

/-! ### Announce (R371) -/

theorem execAnnounce_first {u : State} (taken : s.ptpTake p.val 11 m = (true, t)) (plays : t.plays 1 = true) (first : t.firstCopy 11 m = (true, u)) :
    execAnnounce p m s = .next (((u.modTime fun x => { x with
      masters := (x.masters.filter fun k => !(k.clock == m.clock && k.portNo == m.portNo))
        ++ [{ clock := m.clock, portNo := m.portNo, rank := ptpRank m, gm := m.gmIdentity, heard := u.clk.frames,
              every := max 1 (logFrames m.logInterval) }],
      heard := if x.master = some (m.clock, m.portNo) then u.clk.frames else x.heard }).selectMaster).ptpForward p.val 11 m) := by
  unfold execAnnounce
  dsimp only
  rw [taken]
  dsimp only
  rw [first, plays]
  rfl

theorem execAnnounce_passes (taken : s.ptpTake p.val 11 m = (true, t)) (useless : (t.plays 1 && (t.firstCopy 11 m).1) = false) :
    execAnnounce p m s = .next (t.ptpForward p.val 11 m) := by
  unfold execAnnounce
  dsimp only
  rw [taken]
  dsimp only
  rw [useless]
  rfl

end Ptp

/-- Settles O51, message by message. (The mean path delay in which ASYMMETRY cancels rests on log entry 102, PRESUMED, the selected port and
ASYMMETRY on Sync on log entry 101, DEDUCED.) -/
theorem ptpMessagesIn : Obligations.PtpMessagesIn := by
  intro s p m
  refine ⟨⟨fun refused => ?_, fun taken => ⟨fun silent => ?_, fun plays master => ⟨fun copy => ?_, fun first => ?_⟩⟩⟩,
    fun taken y awaits => ⟨fun clock port seq => ?_, fun other => ?_⟩, fun taken => ⟨fun plays e2e => ?_, fun silent => ?_⟩,
    fun taken t3 y asked synced => ⟨fun own seq master => ?_, fun other => ?_⟩, fun up domain => execPdelayReq_answered up domain,
    fun t1 asked up domain own port due => ⟨fun two => ?_, fun one => ?_, fun t2 answered => ?_⟩,
    fun taken => ⟨fun plays first => ?_, fun useless => ?_⟩⟩
  · exact execPtpSync_untaken (Prod.ext refused rfl)
  · exact execPtpSync_passes (Prod.ext taken rfl) rfl silent
  · exact execPtpSync_copy (Prod.ext taken rfl) rfl plays master (Prod.ext copy rfl)
  · exact execPtpSync_first (Prod.ext taken rfl) rfl plays master (Prod.ext first rfl) rfl rfl
  · refine (execFollowUp_awaited (Prod.ext taken rfl) awaits).trans ?_
    rw [if_pos ⟨clock, port, seq⟩]
  · refine (execFollowUp_awaited (Prod.ext taken rfl) awaits).trans ?_
    rw [if_neg fun h => other h.2.2]
  · refine (execDelayReq_taken (Prod.ext taken rfl)).trans ?_
    rw [if_pos ⟨plays, e2e⟩]
  · refine (execDelayReq_taken (Prod.ext taken rfl)).trans ?_
    rw [if_neg fun h => absurd h.1 (by rw [silent]; decide)]
  · refine (execDelayResp_taken (Prod.ext taken rfl) asked synced).trans ?_
    rw [if_pos ⟨own, seq, master⟩]
  · refine (execDelayResp_taken (Prod.ext taken rfl) asked synced).trans ?_
    rw [if_neg fun h => other.elim (fun seq => seq h.2.1) fun master => master h.2.2]
  · exact (execPdelayResp_own up domain asked own port due).trans (if_pos two)
  · exact (execPdelayResp_own up domain asked own port due).trans (if_neg (by rw [one]; decide))
  · exact execPdelayRespFollowUp_own up domain asked own port due answered
  · exact execAnnounce_first (Prod.ext taken rfl) plays (Prod.ext first rfl)
  · exact execAnnounce_passes (Prod.ext taken rfl) (Bool.and_eq_false_iff.mpr useless)

end Sys2Proof.Machine
end

section
/-! SUPPORT. What network time does in time (R368-R389, R497). -/

namespace Sys2Proof.Machine

section Time

variable {s : State}

/-! ### Messages at their intervals -/

theorem execPtpSyncSend_due (plays : s.plays 2 = true) (due : s.time.syncSentAt = 0 ∨ s.time.syncSentAt + s.syncFrames ≤ s.clk.frames)
    {n : Nat} (next : (s.time.sendSeq + 1) % 65536 = n) {u : State}
    (sends : (({ s with freeCtr := s.freeCtr + 1 } : State).modTime fun x => { x with sendSeq := n, syncSentAt := s.clk.frames }) = u) :
    execPtpSyncSend s = .next (u.each u.ptpPorts fun t p =>
      t.send (.ptp 0 p { domain := t.nInForce 0x8001 2, clock := t.uid, portNo := p + 1, seqId := n,
                         origin := s.localTime + (Config.freeValue s.freeCtr % (64 * 81920) : Nat), logInterval := t.inForce 0x8001 7 })) := by
  subst next sends
  exact if_pos ⟨plays, due⟩

theorem execAnnounceSend_due (plays : s.plays 2 = true) (due : s.time.announceSentAt = 0 ∨ s.time.announceSentAt + 12500000 ≤ s.clk.frames)
    {n : Nat} (next : (s.time.announceSeq + 1) % 65536 = n) {u : State}
    (sends : (s.modTime fun x => { x with announceSeq := n, announceSentAt := s.clk.frames }) = u) :
    execAnnounceSend s = .next (u.each u.ptpPorts fun t p =>
      t.send (.ptp 11 p { domain := u.nInForce 0x8001 2, clock := u.uid, portNo := p + 1, seqId := n,
                          gmPrio1 := u.nInForce 0x8001 4, gmClass := u.nInForce 0x8001 6, gmPrio2 := u.nInForce 0x8001 5,
                          gmIdentity := u.uid })) := by
  subst next sends
  exact if_pos ⟨plays, due⟩

theorem execPdelayReqSend_due {p : PortId} {egress : Int} (up : s.portUp p.val = true) (due : (s.pdelay p.val).sentAt = 0
      ∨ (s.pdelay p.val).sentAt + (if (s.pdelay p.val).burst > 0 then 12500 else logFrames (s.inForce 0x8001 8)) ≤ s.clk.frames)
    {n : Nat} (next : ((s.pdelay p.val).seq + 1) % 65536 = n) {u : State}
    (sends : (s.modPdelay p.val fun y => { y with seq := n, t1 := some egress, t2 := none, sentAt := s.clk.frames }) = u) :
    execPdelayReqSend p egress s = .next (u.send (.ptp 2 p.val { domain := u.nInForce 0x8001 2, clock := u.uid, portNo := p.val + 1, seqId := n,
                                                                 egress := egress })) := by
  subst next sends
  exact if_pos ⟨up, due⟩

theorem execDelayReqSend_synced {egress : Int} {y : SyncIn} (synced : s.time.lastSync = some y) (plays : s.plays 1 = true)
    (e2e : s.inForce 0x8001 3 = 1) (up : s.portUp y.via = true) {n : Nat} (next : (s.time.delaySeq + 1) % 65536 = n) {u : State}
    (sends : (s.modTime fun x => { x with delaySeq := n, delayT3 := some egress }) = u) :
    execDelayReqSend egress s = .next (u.send (.ptp 1 y.via { domain := u.nInForce 0x8001 2, clock := u.uid, portNo := y.via + 1, seqId := n,
                                                              egress := egress })) := by
  subst next sends
  unfold execDelayReqSend
  rw [synced]
  exact if_pos ⟨plays, e2e, up⟩

/-! ### Quality falling -/

theorem execAnnounceReceiptTimeout_due (plays : s.plays 1 = true) (late : s.time.heard + 3 * s.time.announceEvery ≤ s.clk.frames) :
    execAnnounceReceiptTimeout s = .next s.selectMaster.loseLock := (if_pos late).trans (if_pos plays)

theorem State.hostFresh_late (late : ∀ t, s.time.hostAt = some t → t + s.nInForce 0x8010 5 * s.time.syncEvery ≤ s.clk.frames) :
    s.hostFresh = false := by
  unfold State.hostFresh
  cases heard : s.time.hostAt with
  | none => rfl
  | some t => exact decide_eq_false (Nat.not_lt.mpr (late t heard))

theorem execHostLockTimeout_late (host : s.inForce 0x2100 3 = 1) (mode : s.inForce 0x8001 1 = 1) (locked : s.qualityAhead = .locked)
    (late : ∀ t, s.time.hostAt = some t → t + s.nInForce 0x8010 5 * s.time.syncEvery ≤ s.clk.frames) :
    execHostLockTimeout s = .next (s.setQuality .holdover) :=
  if_pos ⟨host, mode, locked, by rw [State.hostFresh_late late]; rfl⟩

theorem execHoldoverLimit_passed {t : Nat} (left : s.time.leftLocked = some t) (straight : s.time.nextQuality ≠ some .reroute)
    (unlocked : s.qualityAhead ≠ .locked) (held : s.qualityAhead ≠ .freerun) (passed : t + 12500000 * s.nInForce 0x8001 9 ≤ s.clk.frames) :
    execHoldoverLimit s = .next (s.setQuality .freerun) := by
  unfold execHoldoverLimit
  rw [left]
  exact if_pos ⟨straight, held, unlocked, passed⟩

theorem execPdelayFail_late {p : PortId} (valid : s.reg (ptpObj p.val) 2 = 1 ∨ s.portUp p.val = true) (holds : (s.pdelay p.val).failed = false)
    (late : (s.pdelay p.val).validAt + 3 * logFrames (s.inForce 0x8001 8) ≤ s.clk.frames) :
    execPdelayFail p s = .next (((s.modPdelay p.val fun x => { x with failed := true }).setNat (ptpObj p.val) 2 0).raise 1709) :=
  if_pos ⟨valid, by rw [holds]; rfl, late⟩

/-! ### Slews, steps, triggers, pulses and edges -/

theorem execSlewEnd_due {e : Nat} (slews : s.time.slewEnd = some e) (due : e ≤ s.clk.frames) : execSlewEnd s = .next s.endSlew.beginSlew := by
  unfold execSlewEnd
  rw [slews]
  exact if_pos due

theorem execTimeTrigger_due {i : Fin 8} (on : s.inForce (ttObj i.val) 4 = 1) {target : Int} (aims : ofTime80 (s.nInForce (ttObj i.val) 1) = target)
    (due : target ≤ s.timeAtBeat 63) {w u p v : State} {act beat : Nat}
    (late : (if target ≤ timeAt s.time ((s.clk.c : Int) - 1) then s.bump (ttObj i.val) 6 else s) = w) (counts : w.count (ttObj i.val) 5 1 = u)
    (acts : w.nInForce (ttObj i.val) 3 = act) (at_ : ((List.range 64).find? fun b => decide (target ≤ w.timeAtBeat b)).getD 0 = beat)
    (pulses : (if natBit act 4 = true then u.evtPulse (act % 16) (u.clk.c + u.placeBeat beat) else u) = p)
    (raises : (if natBit act 5 = true then p.raise (1710 + i.val) else p) = v) :
    execTimeTrigger i s = .next (if v.nInForce (ttObj i.val) 2 = 0 then v.setForce (ttObj i.val) 4 0
      else v.setForce (ttObj i.val) 1 (toTime80 (target + v.nInForce (ttObj i.val) 2 * nsUnit))) := by
  unfold execTimeTrigger
  dsimp only
  rw [aims, if_pos ⟨on, due⟩, late]
  subst raises pulses at_ acts counts
  rfl

theorem execPpsPulse_on {off next : Int} {rise : Int} (offset : s.inForce 0x8040 3 * nsUnit = off)
    (second : -((-(s.localTime - off)) / (1000000000 * nsUnit)) * (1000000000 * nsUnit) + off = next)
    (rises : (if s.mode = .sleep then
        (((List.range 9).map fun k => s.timeAtBeat (8 * k)).find? fun t => decide (next ≤ t)).getD next else next) = rise)
    (on : s.inForce 0x8040 1 = 2 ∨ (s.inForce 0x8040 1 = 1 ∧ s.time.quality = .locked)) (inside : next < s.timeAtBeat 64) :
    execPpsPulse s = if s.time.ppsFrame ≠ some s.clk.frames then
        .next ((s.modTime fun x => { x with ppsFrame := some s.clk.frames }).send (.pps rise.toNat (s.nInForce 0x8040 2)))
      else .next s := by
  subst rises
  unfold execPpsPulse
  dsimp only
  rw [offset, second]
  by_cases fresh : s.time.ppsFrame ≠ some s.clk.frames
  · rw [if_pos fresh]
    exact if_pos ⟨on, inside, fresh⟩
  · rw [if_neg fresh]
    exact if_neg fun h => fresh h.2.2

section Edge

variable {i : Fin 8} {rising : Bool} {beat : Nat} (edge : (s.evt i.val).level ≠ rising) (inside : beat < 64) {u : State}
  (marked : s.setEvt i.val { s.evt i.val with level := rising, changed := s.clk.c + beat } = u)
include edge inside marked

theorem execEvtEdge_off (mode : s.evtMode i.val = 0) : execEvtEdge i rising beat s = .next u := by
  unfold execEvtEdge
  dsimp only
  rw [if_neg (by simp [edge, mode]; omega), if_pos mode, marked]

theorem execEvtEdge_in (mode : s.evtMode i.val = 1 ∨ s.evtMode i.val = 2) {v w : State}
    (feeds : (if s.evtMode i.val = 2 then u.evtExt i.val rising beat else u) = v) (pps : (if rising = true then v.ppsEdge i.val beat else v) = w) :
    execEvtEdge i rising beat s = .next (w.captureAll (edgeSource 1 i.val rising) (w.timeAtBeat (w.placeBeat beat))) := by
  unfold execEvtEdge
  dsimp only
  rw [if_neg (by rcases mode with mode | mode <;> simp [edge, mode] <;> omega), if_neg (by omega), marked, feeds]
  subst pps
  rfl

end Edge

end Time

/-- Settles O52, event by event. (Pulses in SLEEP at multiples of 8 beats rest on log entry 140 and the free egress of a one-step Sync on log entry
142, both DESIGN CHOICE; LATE of a time trigger on log entry 105, DEDUCED.) -/
theorem networkTimePasses : Obligations.NetworkTimePasses := by
  intro s
  refine ⟨fun plays due => execPtpSyncSend_due plays due rfl rfl, fun plays due => execAnnounceSend_due plays due rfl rfl,
    fun p egress up due => execPdelayReqSend_due up due rfl rfl, fun egress y synced plays e2e up => execDelayReqSend_synced synced plays e2e up rfl rfl,
    ⟨execAnnounceReceiptTimeout_due, fun own late => if_pos ⟨own, late⟩⟩, execHostLockTimeout_late,
    fun t left straight unlocked held passed => execHoldoverLimit_passed left straight unlocked held passed,
    fun p valid holds late => execPdelayFail_late valid holds late, fun e slews due => execSlewEnd_due slews due, fun waits idle => ?_,
    fun i on due => execTimeTrigger_due on rfl due rfl rfl rfl rfl rfl rfl,
    fun on inside => ⟨fun fresh => ?_, fun done => ?_⟩,
    fun i rising beat edge inside => ⟨execEvtEdge_off edge inside rfl, fun mode => execEvtEdge_in edge inside rfl mode rfl rfl⟩⟩
  · exact if_pos ⟨waits, by rw [idle]; rfl⟩
  · exact (execPpsPulse_on rfl rfl rfl on inside).trans (if_pos fresh)
  · exact (execPpsPulse_on rfl rfl rfl on inside).trans (if_neg (not_not.mpr done))

end Sys2Proof.Machine
end

section
/-! SUPPORT. Calibration, drift, ageing and heat (R396-R410, R493, R494). -/

namespace Sys2Proof.Machine

section Calibration

variable {s : State}

/-! ### Steps and domains (R396, R397, R404, R405) -/

theorem execCalStepDone_open {d k : Nat} {q : List Nat} {first second : List Int} (open_ : s.openStep = some (d, k, q)) (free : s.cal.waitFrom = none)
    (one : first.length = q.length) (two : second.length = q.length) : execCalStepDone first second s
      = if s.inForce 0x2100 2 = 1 then
          let rows (run : Nat) (l : List Int) : List Byte := (q.zip l).flatMap fun e => calRecord d k e.1 run s.cal.retry e.2
          let u := s.setOct 0xB040 1 (s.oct 0xB040 1 ++ rows 0 first ++ rows 1 second)
          .next ((u.modCal fun c => { c with waitFrom := some u.clk.frames, got := [] }).setNat 0xB002 4 2)
        else .next (s.judgePair q first second) := by
  unfold execCalStepDone
  rw [open_]
  exact if_neg (by simp [free, one, two])

/-- What commits the units of a domain one by one, counting the values that failed a limit. -/
def State.commitUnits (s : State) (d : Nat) (units : List (Nat × Nat)) : State × Nat :=
  units.foldl (fun (a : State × Nat) e => ((a.1.commitUnit d e.1 e.2).1, a.2 + (a.1.commitUnit d e.1 e.2).2)) (s, 0)

theorem execCalDomainCommit_done {d total : Nat} {units : List (Nat × Nat)} {r : State × Nat} {result : Nat} {u v w : State}
    (domain : s.cal.domain = some d) (goes : s.cal.cancel = false) (steps : (calSteps d s.cal.pins).length = total) (done : total ≤ s.cal.step)
    (units_eq : calUnits d s.cal.pins = units) (commits : s.commitUnits d units = r)
    (judged : (if s.cal.kept = total then 3 else if s.cal.kept > 0 then 2 else if r.2 > 0 then 4 else 1) = result)
    (notes : ((r.1.bump 0xB000 (d + 1)).setNat 0xB000 (d + 6) (toTime80 r.1.localTime)).setNat 0xB000 (d + 11) result = u)
    (hashes : (u.rehash.bump 0xB000 17).raise 1720 = v) (tells : (if d = 3 then v else v.each units fun t e => t.raise (pinEvent e.2 6)) = w) :
    execCalDomainCommit s = .next (((w.timingWhole d s.cal.pins).judgeTemp).nextDomain) := by
  unfold execCalDomainCommit
  rw [domain]
  dsimp only
  rw [steps, if_neg (by simp [goes, done]), units_eq]
  subst tells hashes notes judged commits
  rfl

theorem execCalHostTimeout_late {d t : Nat} (domain : s.cal.domain = some d) (waits : s.cal.waitFrom = some t)
    (late : t + 12500 * s.nInForce 0xB040 3 ≤ s.clk.frames) :
    execCalHostTimeout s = .next (((s.setNat 0xB000 (11 + d) 5).endRun).raise 1729) := by
  unfold execCalHostTimeout
  rw [domain, waits]
  exact if_pos late

/-! ### Drift (R401) -/

section Drift

variable {p : PinId} {a b : Int} (on : s.inForce 0xB001 3 ≠ 0) (mode : s.mode ≠ .sleep ∧ s.mode ≠ .safeHalt ∧ s.mode ≠ .off)
  (idle : natBit s.cal.busyPins p.val = false) (free : ([0, 1, 2, 3].any fun v => !(s.vernierBusy ++ s.calVerniers).contains v) = true)
  (due : s.driftDue p.val = true)
include on mode idle free due

theorem execDriftMeasurement_apart (apart : 800 < (a - b).natAbs) :
    execDriftMeasurement p [a] [b] s = .next ((s.driftTaken p.val).bump 0xB001 7) := by
  obtain ⟨awake, runs, powered⟩ := mode
  exact (if_neg (by simp only [on, awake, runs, powered, idle, free, due]; decide)).trans (if_pos apart)

theorem execDriftMeasurement_pair {r : Int × State} {limit d : Int} {u : State} (close : (a - b).natAbs ≤ 800)
    (mean : (s.driftTaken p.val).meanOf a b = r) (limits : s.inForce 0xB001 5 * 250 = limit) (clips : max (-limit) (min limit r.1) = d)
    (sets : r.2.setReg (pinObj p.val 11) 5 d = u) : execDriftMeasurement p [a] [b] s
      = .next (((if d ≠ r.1 ∧ u.reg (pinObj p.val 11) 6 = 0 then ((u.setNat (pinObj p.val 11) 6 1).raise (pinEvent p.val 9)).raise 1727 else u).retarget
          p.val d).bump 0xB001 6) := by
  obtain ⟨awake, runs, powered⟩ := mode
  subst sets clips limits mean
  exact (if_neg (by simp only [on, awake, runs, powered, idle, free, due]; decide)).trans (if_neg (Nat.not_lt.mpr close))

end Drift

/-! ### Ageing (R410) -/

theorem execAgeingRead_eight {l : List Int} (eight : l.length = 8) (on : s.mode ≠ .off) : execAgeingRead l s
    = .next (((s.each ((List.range 8).zip l) fun t e => t.setReg 0xB020 (e.1 + 1) e.2).setReg 0xB020 9 (l.foldl max (l.headD 0))).judgeMargin) :=
  if_neg (not_or.mpr ⟨not_not.mpr eight, on⟩)

/-! ### Heat (R493) -/

theorem execTempRead_four {a b c d : Int} (on : s.mode ≠ .off) : execTempRead [a, b, c, d] s
    = .next ((s.takeMean [a, b, c, d]).judgeHeat (max (max (max a b) c) d) (min (min (min a b) c) d)).judgeTemp :=
  if_neg (not_or.mpr ⟨by simp, on⟩)

/-- The limits of R493 noted, each event raised as its limit is first passed: x is how they stood before. -/
def State.heatNoted (s : State) (x : Thermal) (high range spread : Bool) : State :=
  let s := if high ∧ !x.high then s.raise 1568 else s
  let s := if range ∧ !x.range then s.raise 1569 else s
  let s := if range then s.taintLive else s
  let s := if spread ∧ !x.spread then s.raise 1571 else s
  { s with therm := { s.therm with high := high, range := range, spread := spread } }

section Heat

variable {hot cold : Int} {high range spread : Bool}
  (high_eq : (decide (hot ≥ 10000) || (s.therm.high && decide (hot ≥ 9500))) = high)
  (range_eq : (decide (hot > 10500) || decide (cold < 0)) = range) (spread_eq : decide (hot - cold > 800) = spread)
include high_eq range_eq spread_eq

theorem State.judgeHeat_below (below : hot < 11500) : s.judgeHeat hot cold = s.heatNoted s.therm high range spread := by
  subst high_eq range_eq spread_eq
  unfold State.judgeHeat
  dsimp only
  rw [if_neg (Int.not_le.mpr below), if_neg fun h => absurd h.1 (Int.not_le.mpr below)]
  rfl

theorem State.judgeHeat_critical {w : State} (limit : 11500 ≤ hot) (notes : s.heatNoted s.therm high range spread = w) (runs : w.mode ≠ .safeHalt) :
    s.judgeHeat hot cold = (w.raise 1570).handFault { resource := 0, level := 10, severity := 3, source := 1570 } := by
  subst high_eq range_eq spread_eq notes
  unfold State.judgeHeat
  dsimp only
  rw [if_pos limit]
  exact if_pos ⟨limit, runs⟩

end Heat

section Noted

variable {x : Thermal}

theorem State.heatNoted_cool : s.heatNoted x false false false
    = { s with therm := { s.therm with high := false, range := false, spread := false } } := rfl

theorem State.heatNoted_high (first : x.high = false) :
    s.heatNoted x true false false = { s.raise 1568 with therm := { s.therm with high := true, range := false, spread := false } } := by
  unfold State.heatNoted
  rw [first]
  rfl

theorem State.heatNoted_as {high : Bool} (same : x.high = high) :
    s.heatNoted x high false false = { s with therm := { s.therm with high := high, range := false, spread := false } } := by
  unfold State.heatNoted
  rw [same]
  cases high <;> rfl

theorem State.heatNoted_cold (first : x.range = false) {v : State} (taints : (s.raise 1569).taintLive = v) :
    s.heatNoted x false true false = { v with therm := { v.therm with high := false, range := true, spread := false } } := by
  simp only [State.heatNoted, first, Bool.false_eq_true, false_and, if_false, Bool.not_false, and_self, if_true, taints]

theorem State.heatNoted_spread (first : x.spread = false) :
    s.heatNoted x false false true = { s.raise 1571 with therm := { s.therm with high := false, range := false, spread := true } } := by
  unfold State.heatNoted
  rw [first]
  rfl

theorem State.heatNoted_standing (high : x.high = true) (range : x.range = true) (spread : x.spread = true) {v : State}
    (taints : s.taintLive = v) : s.heatNoted x true true true = { v with therm := { v.therm with high := true, range := true, spread := true } } := by
  simp only [State.heatNoted, high, range, spread, Bool.not_true, Bool.false_eq_true, and_false, if_false, if_true, taints]

end Noted

theorem State.taintLive_mode (s : State) : s.taintLive.mode = s.mode :=
  ((State.taintLive_keeps (k := (· = .sites)) rfl Keeps.refl).parts .device (by decide)).1

theorem State.takeMean_mode (s : State) (l : List Int) : (s.takeMean l).mode = s.mode :=
  ((State.takeMean_keeps (k := (· = .thermal)) rfl Keeps.refl).parts .device (by decide)).1

end Calibration

/-- Settles O53, event by event. -/
theorem calibrationAndHeat : Obligations.CalibrationAndHeat := by
  intro s
  refine ⟨fun d k q first second open_ free one two => ⟨fun local_ => ?_, fun host => ?_⟩,
    fun d domain goes done => execCalDomainCommit_done domain goes rfl done rfl rfl rfl rfl rfl rfl,
    fun p a b on mode idle free due => ⟨fun apart => ?_, fun close => ⟨fun within => ?_, fun clipped first => ?_⟩⟩,
    fun d t domain waits late => execCalHostTimeout_late domain waits late, fun l eight on => execAgeingRead_eight eight on,
    fun a b c d on => ?_, fun b other => if_neg other⟩
  · exact (execCalStepDone_open open_ free one two).trans (if_neg local_)
  · exact (execCalStepDone_open open_ free one two).trans (if_pos host)
  · exact execDriftMeasurement_apart on mode idle free due apart
  · refine (execDriftMeasurement_pair on mode idle free due close rfl rfl rfl rfl).trans ?_
    rw [if_neg fun h => within.elim (fun same => h.1 same) fun noted => noted h.2]
  · refine (execDriftMeasurement_pair on mode idle free due close rfl rfl rfl rfl).trans ?_
    rw [if_pos ⟨clipped, first⟩]
  · intro hot cold u
    have read : exec (.tempRead [a, b, c, d]) s = .next (u.judgeHeat hot cold).judgeTemp := execTempRead_four on
    have mode : u.mode = s.mode := State.takeMean_mode s _
    clear_value hot cold u
    refine ⟨fun low warm even => ?_, fun limit first below warm even => ?_, fun lo hi warm even => ?_, fun low freezes even first => ?_,
      fun low warm uneven first => ?_, fun limit high range spread uneven runs => ?_⟩
    all_goals refine read.trans (congrArg (fun t => Host.Outcome.next (State.judgeTemp t)) ?_)
    · exact (State.judgeHeat_below (by simp; omega) (by simp; omega) (by simp; omega) (by omega)).trans State.heatNoted_cool
    · exact (State.judgeHeat_below (by simp; omega) (by simp; omega) (by simp; omega) (by omega)).trans (State.heatNoted_high first)
    · exact (State.judgeHeat_below (high := u.therm.high) (by simp [lo]; omega) (by simp; omega) (by simp; omega) (by omega)).trans
        (State.heatNoted_as rfl)
    · exact (State.judgeHeat_below (by simp; omega) (by simp; omega) (by simp; omega) (by omega)).trans (State.heatNoted_cold first rfl)
    · exact (State.judgeHeat_below (by simp; omega) (by simp; omega) (by simp; omega) (by omega)).trans (State.heatNoted_spread first)
    · exact State.judgeHeat_critical (by simp; omega) (by simp; omega) (by simp; omega) limit (State.heatNoted_standing high range spread rfl)
        (by rw [show State.mode _ = u.taintLive.mode from rfl, State.taintLive_mode, mode]; exact runs)

end Sys2Proof.Machine
end

section
/-! SUPPORT. The Passport and the fault handler (R279, R422-R436, R454-R458). -/

namespace Sys2Proof.Machine

section Passport

variable {s : State}

/-! ### Records and batches (R429-R432) -/

section Handover

variable {f : Formed} (prepared : s.pass.formed.find? (·.prepared) = some f)
include prepared

theorem execVerdictHandover_room (room : s.storeRoom f.rcd = true) (fits : s.pass.batch.length < 65536) {u v : State}
    (joins : (s.modPass fun p => { p with formed := s.pass.formed.filter fun g => g.rcd.run != f.rcd.run, batch := p.batch ++ [markReposted f] }) = u)
    (frees : u.each (u.prepEntries f.rcd.run) State.freeEntry = v) :
    execVerdictHandover s = .next (if 65536 ≤ v.pass.batch.length ∧ v.pass.closed.length < 16 then v.closeBatch else v) := by
  unfold execVerdictHandover
  rw [prepared]
  dsimp only
  rw [room, if_neg (by decide), if_neg (Nat.not_le.mpr fits), joins, frees]
  exact (apply_ite Host.Outcome.next _ _ _).symm

theorem execVerdictHandover_full (full : s.storeRoom f.rcd = false) : execVerdictHandover s
    = if f.full = true then .next s
      else .next (((s.modPass fun p => { p with formed := p.formed.map fun g => if g.rcd.run = f.rcd.run then { g with full := true } else g }).bump
        0xC002 6).raise 1734) := by
  unfold execVerdictHandover
  rw [prepared]
  dsimp only
  rw [full]
  rfl

end Handover

theorem execBatchClose_due {due : Nat} (closes : (if s.pass.nextClose = 0 then 12500 else s.pass.nextClose) = due) (now : due ≤ s.clk.frames) {u : State}
    (next : (s.modPass fun p => { p with nextClose := due + ((s.clk.frames - due) / s.nInForce 0xC001 1 + 1) * s.nInForce 0xC001 1 }) = u) :
    execBatchClose s = if s.pass.batch.isEmpty = true then .next u else if s.pass.closed.length ≥ 16 then .next (u.raise 1737)
      else .next u.closeBatch := by
  subst next
  unfold execBatchClose
  dsimp only
  rw [closes]
  exact if_neg (Nat.not_lt.mpr now)

theorem execBatchSign_paired {b : Batch} {rest : List Batch} (waits : s.pass.closed = b :: rest) (pair : (s.takePair b.interrupted).1 = true) {u : State}
    (signs : ((s.takePair b.interrupted).2.modPass fun p => { p with closed := rest }).signBatch b = u) :
    execBatchSign s = .next (if 65536 ≤ u.pass.batch.length then u.closeBatch else u) := by
  subst signs
  unfold execBatchSign
  rw [waits]
  exact if_neg (by rw [pair]; decide)

theorem execDrbgReseed_runs {ok : Bool} (ready : s.reg 0xC000 1 = 1) (awake : s.mode ≠ .sleep) : execDrbgReseed ok s
    = if ok = true then .next (s.setNat 0xC000 7 0)
      else .next (if s.reg 0xC000 7 = 1 then s.raise 1733 else ((s.setNat 0xC000 7 1).raise 1733).raise 1679) :=
  if_neg (not_or.mpr ⟨not_not.mpr ready, awake⟩)

/-! ### Faults decided (R454, R458) -/

theorem execFaultDecision_hardware {f : FaultRec} (current : s.handler.current = some f) (unoffered : s.handler.offered = none)
    (decides : s.awaitsWidth f = false) : execFaultDecision s = .next (s.decideCurrent f f.level) := by
  unfold execFaultDecision
  rw [current]
  exact if_neg (by rw [unoffered, decides]; decide)

theorem execHostDeadline_offered {t : Nat} {f : FaultRec} (offered : s.handler.offered = some t) (current : s.handler.current = some f)
    (late : t < s.clk.frames) : execHostDeadline false s
      = .next (((s.raiseWith 1541 [f.head]).modHandler fun h => { h with expired := true }).decideCurrent f f.level) := by
  unfold execHostDeadline
  rw [if_neg (by decide), offered, current]
  exact if_neg (Nat.not_le.mpr late)

theorem execHostDeadline_width {t : Nat} {f lost : FaultRec} (choice : s.sl.choiceBy = some t) (current : s.handler.current = some f)
    (lane : f.resource = 3) (level : f.level = 3) (late : t < s.clk.frames)
    (names : (s.faultOf 3).getD { resource := 3, level := 3, source := 1681 } = lost) {u : State}
    (drops : { s with sl := { s.sl with choiceBy := none, chosen := none, late := true } } = u) :
    execHostDeadline true s = .next ((u.raiseWith 1541 [lost.head]).decideCurrent f 3) := by
  have same : (u.raiseWith 1541 [lost.head]).handler.current = some f := by
    rw [← drops]
    exact current
  have passed : ¬ s.now ≤ t := Nat.not_le.mpr late
  unfold execHostDeadline
  rw [if_pos rfl, choice]
  dsimp only
  rw [if_neg passed, names, drops, same]
  exact if_pos ⟨lane, level⟩

theorem execFaultRecovered_own {r us : Nat} {f : FaultRec} (own : r = 9 ∨ r = 10 ∨ 0x80 ≤ r ∧ r ≤ 0xFF)
    (recovers : s.handler.active.find? (·.resource == r) = some f) : execFaultRecovered r us s = .next (s.faultEnds f us) := by
  unfold execFaultRecovered
  rw [if_pos own, recovers]

theorem execQueuedFaultTimeout_waited {f : FaultRec} (host : s.inForce 0x2100 9 = 1) (waited : s.handler.queue.find? s.waitedLong = some f) :
    execQueuedFaultTimeout s
      = .next (((s.modHandler fun h => { h with queue := h.queue.erase f, tasks := h.tasks + 1 }).raiseWith 1541 [f.head]).decided f) := by
  unfold execQueuedFaultTimeout
  rw [if_neg (not_not.mpr host), waited]

end Passport

/-- Settles O54, event by event. (E1679 at a reseed that fails, taken for a failed health test of R279, rests on log entry 134, DEDUCED.) -/
theorem passportAndFaults : Obligations.PassportAndFaults := by
  intro s
  refine ⟨fun f prepared => ⟨fun room fits => execVerdictHandover_room prepared room fits rfl rfl, fun full fresh => ?_, fun full told => ?_⟩, ?_,
    fun b rest waits pair => execBatchSign_paired waits pair rfl, rfl, fun ready awake => ⟨?_, ?_⟩, fun trigger => if_pos trigger,
    fun f current unoffered decides => execFaultDecision_hardware current unoffered decides,
    fun t f offered current late => execHostDeadline_offered offered current late,
    fun t f choice current lane level late => execHostDeadline_width choice current lane level late rfl rfl,
    fun r us f own recovers => execFaultRecovered_own own recovers, fun f host waited => execQueuedFaultTimeout_waited host waited⟩
  · exact (execVerdictHandover_full prepared full).trans (if_neg (by rw [fresh]; decide))
  · exact (execVerdictHandover_full prepared full).trans (if_pos told)
  · intro due now u
    refine ⟨fun empty => ?_, fun leaves room => ?_, fun leaves waiting => ?_⟩
    · exact (execBatchClose_due rfl now rfl).trans (if_pos (List.isEmpty_iff.mpr empty))
    · exact (execBatchClose_due rfl now rfl).trans
        ((if_neg fun empty => leaves (List.isEmpty_iff.mp empty)).trans (if_neg (Nat.not_le.mpr room)))
    · exact (execBatchClose_due rfl now rfl).trans ((if_neg fun empty => leaves (List.isEmpty_iff.mp empty)).trans (if_pos waiting))
  · exact (execDrbgReseed_runs ready awake).trans (if_pos rfl)
  · exact (execDrbgReseed_runs ready awake).trans (if_neg (by decide))

end Sys2Proof.Machine
end

section
/-! SUPPORT. The test port (R504). -/

namespace Sys2Proof.Machine

section Jtag

variable {s : State}

/-- Under RESET_N low an instruction that drives the balls takes effect. -/
theorem State.scan_reset {i : JtagInstr} (low : s.start.resetLow = true) (on : s.mode ≠ .off) :
    s.scan i = { s with jtag := { s.jtag with instr := i } } := if_pos ⟨low, on⟩

/-- With RESET_N high it acts as BYPASS. -/
theorem State.scan_bypasses {i : JtagInstr} (high : s.start.resetLow = false) :
    s.scan i = { s with jtag := { s.jtag with instr := .bypass } }.send (.tdo [false]) :=
  if_neg fun h => absurd h.1 (by rw [high]; decide)

end Jtag

/-- Settles O55, instruction by instruction. (What SAMPLE shifts out is free values: log entry 100, DESIGN CHOICE.) -/
theorem testPort : Obligations.TestPort := by
  intro s
  refine ⟨rfl, rfl, fun cells low on => if_pos ⟨low, on⟩, fun low on => ?_, fun high => ⟨fun cells => ?_, ?_⟩⟩
  · have takes (i : JtagInstr) : (.next (s.scan i) : Out) = .next { s with jtag := { s.jtag with instr := i } } :=
      congrArg Host.Outcome.next (State.scan_reset low on)
    exact ⟨takes .extest, takes .highz, takes .clamp, takes .extestPulse, takes .extestTrain⟩
  · exact (if_neg fun h => absurd h.1 (by rw [high]; decide)).trans (congrArg Host.Outcome.next (State.scan_bypasses (i := .sample) high))
  · have passes (i : JtagInstr) : (.next (s.scan i) : Out)
        = .next ({ s with jtag := { s.jtag with instr := .bypass } }.send (.tdo [false])) :=
      congrArg Host.Outcome.next (State.scan_bypasses high)
    exact ⟨passes .extest, passes .highz, passes .clamp, passes .extestPulse, passes .extestTrain⟩

end Sys2Proof.Machine
end
